-- ==== Sys2Proof/Word.lean ====
section
/-!
DEFINITION. Word.lean: the word types of the part and their plainest arithmetic. Every structure of the part is
little-endian (R7); bytes are the smallest addressable unit.
-/
namespace Sys2Proof

/-- One byte. -/
abbrev Byte := BitVec 8

/-- One register of the control region or of an instance window: a 64-bit unit (R515). -/
abbrev Word := BitVec 64

end Sys2Proof
end

