-- ==== Sys2Proof/Syntax.lean ====
section
/-!
DEFINITION. Syntax.lean: the commands of the part, one constructor per row of spec/opcode_table.json, with the
operands each carries, and the plain types those operands are made of.
-/
namespace Sys2Proof

/-- The two contexts of a core (R27). -/
inductive Ctx where
  | timed
  | elastic
  deriving DecidableEq, Repr

/-- Atomic operations of an SC thread and of the fabric (R104, R295). -/
inductive AtomOp where
  | swap | cas | faddI64 | addI64 | addRec | addF32
  deriving DecidableEq, Repr

/-- The engine queues a thread pushes into (R112, Table 4.2). -/
inductive Eng where
  | me | vce0 | vce1 | tme
  deriving DecidableEq, Repr

/-- Who writes a register: a management core, or a host instance through the hub. -/
inductive Writer where
  | mc
  | host (inst : Fin 512)
  deriving DecidableEq, Repr

/-- What the check code of a memory finds in the accessed word or line (R120, R152, R154). -/
inductive MemErr where
  | none | corrected | uncorrectable
  deriving DecidableEq, Repr

/-- Where bit errors appear in a memory: in the scratch of a physical core at an offset, or at a device-local address. -/
inductive UpsetAt where
  | scratch (core : Fin 512) (off : BitVec 22)
  | dev (addr : BitVec 48)
  deriving DecidableEq, Repr

/-- Bytes of an SC load or store. -/
inductive AccSize where
  | b1 | b2 | b4 | b8
  deriving DecidableEq, Repr

/-- A thread that issues the instruction at program-memory word pc (R102, R113), what the fetch finds there, and whether its
registers show a parity error (Table 4.8). -/
structure ThreadAt where
  core : Fin 512
  ctx : Ctx
  t : Fin 8
  pc : BitVec 15
  fetch : MemErr := .none
  parity : Bool := false
  deriving DecidableEq, Repr

/-- One context of one engine or core. -/
structure CtxAt where
  core : Fin 512
  ctx : Ctx
  deriving DecidableEq, Repr

/-- One context of one VCE; fetch is what the kernel's fetch finds. -/
structure VceAt where
  core : Fin 512
  v : Fin 2
  ctx : Ctx
  fetch : MemErr := .none
  deriving DecidableEq, Repr

/-- Errors the ME meets in its own registers during a descriptor (R93): bad attempts of a shift step, a bad active
register's column. -/
structure MeErr where
  shiftRetries : Fin 4 := 0
  badCol : Option (Fin 64) := none
  deriving DecidableEq, Repr

/-- Which completion queue of a context a thread reads (R78, R106, R142, R165). -/
inductive ComplQ where
  | eng (e : Eng)
  | task
  deriving DecidableEq, Repr

/-- What comes back from outside the part for one piece of a transfer: bytes, or an error. -/
inductive PieceData where
  | ok (bytes : List Byte)
  | poisoned
  | abort
  | refused
  deriving DecidableEq, Repr

/-- A request to ALLOC (Table 6.3), fields as sent. -/
structure AllocReq where
  size : BitVec 32
  tier : BitVec 2
  dieLocal : Bool
  die : BitVec 2
  lc : BitVec 9
  page : BitVec 2
  rsvd : BitVec 16 := 0
  deriving DecidableEq, Repr

/-- A write of PRT_CMD (Table 15.12): the writer, the partition, and pgen when pgen_chk is 1. -/
structure PrtCmd where
  wr : Writer
  part : Fin 16
  pgen : Option (BitVec 16)
  deriving DecidableEq, Repr

/-- Memory of a partition that the firmware maps into an instance at its creation (R184, R404): instance address, device-local
address, page code, pages. -/
structure Grant where
  va : BitVec 48
  base : BitVec 48
  page : BitVec 2
  pages : Nat
  deriving DecidableEq, Repr

/-- What the rail and temperature sensors report over a period of the cap enforcer (R496): package power in mW, mean power in mW
and energy in µJ of domains, the energy of the package, attributed power in mW of islands, hottest sensor of dies in 0.25 °C,
elastic row slots withheld (R493). -/
structure Telemetry where
  pkg : BitVec 22
  pkgUj : BitVec 32 := 0
  doms : List (Fin 28 × BitVec 20 × BitVec 32) := []
  isls : List (Fin 64 × BitVec 20) := []
  temps : List (Fin 5 × BitVec 10) := []
  withheld : BitVec 32 := 0
  deriving DecidableEq, Repr

/-- Why a core is fenced at once (Table 4.8, Table 18.4): context-select parity, a fault of the shared fetch or issue pipeline,
a command. -/
inductive FenceKind where
  | contextSelect | sharedIssue | commanded
  deriving DecidableEq, Repr

/-- Package-level fatal errors (R484): an uncorrectable error in the image region or in a hub control table, watchdogs of all four
management cores, loss of lock of a die network PLL (0 to 3) or of the time PLL (4), loss of a die-to-hub bridge. -/
inductive FatalKind where
  | image | table | watchdogs
  | pll (n : Fin 5)
  | bridge (d : Fin 4)
  deriving DecidableEq, Repr

/-- A function of a host port: 0 is PF0 (R500). -/
structure FnAt where
  port : Fin 4
  fn : Fin 1024
  deriving DecidableEq, Repr

/-- The IDE_KM and TDISP messages of a VENDOR_DEFINED_REQUEST beside lock, start and stop (R452, R453): key a stream, put it into
use, end it; read the interface report or state; another message. -/
inductive Vdm where
  | ideKey (stream : BitVec 8)
  | ideGo (stream : BitVec 8)
  | ideStop (stream : BitVec 8)
  | report | state | other
  deriving DecidableEq, Repr

/-- A host's write to configuration space that the part notices (R501, R512, R453). -/
inductive PcieCfg where
  | vfs (enable : Bool) (num : BitVec 10)
  | msix (on : Bool)
  | locked
  deriving DecidableEq, Repr

/-- The commands (spec/opcode_table.json). -/
inductive Instr where
  /-- REGISTER_WRITE (R11) -/
  | registerWrite (wr : Writer) (addr : BitVec 26) (value : Word)
  /-- ME_MMA (R82) -/
  | meMma (u : CtxAt) (err : MeErr)
  /-- ME_DRAIN (R82) -/
  | meDrain (u : CtxAt)
  /-- ME_LOADACC (R82) -/
  | meLoadacc (u : CtxAt)
  /-- ME_CLEAR (R82) -/
  | meClear (u : CtxAt)
  /-- ME_ROW_REACHES_BANK (R71) -/
  | meRowReachesBank (u : CtxAt) (err : MemErr)
  /-- ME_COMPLETE (R84) -/
  | meComplete (u : CtxAt)
  /-- ME_QRESET (R95) -/
  | meQreset (core : Fin 512) (t e : Bool)
  /-- ME_CTRL_WRITE (R98) -/
  | meCtrlWrite (core : Fin 512) (en : Bool)
  /-- ME_ACT_DESC_WRITE (R97) -/
  | meActDescWrite (u : CtxAt) (w : Fin 8) (value : Word)
  /-- TAMP_STEP_END (R91) -/
  | tampStepEnd (core : Fin 512) (ready : Bool)
  /-- TAMP_RAMP_START (R91) -/
  | tampRampStart (core : Fin 512)
  /-- TAMP_PREWARM (R251) -/
  | tampPrewarm (core : Fin 512)
  /-- LD (R104) -/
  | ld (th : ThreadAt) (rd : Fin 32) (addr : Word) (size : AccSize) (err : MemErr)
  /-- ST (R104) -/
  | st (th : ThreadAt) (addr : Word) (size : AccSize) (data : Word) (err : MemErr)
  /-- ATOM (R104) -/
  | atom (th : ThreadAt) (op : AtomOp) (rd : Fin 32) (addr : Word) (data : BitVec 256) (cmp : Word)
  /-- FENCE_REM (R104) -/
  | fenceRem (th : ThreadAt)
  /-- ISSUE_ME (R112) -/
  | issueMe (th : ThreadAt) (off : Word) (prio : Fin 4)
  /-- ISSUE_VCE (R112) -/
  | issueVce (th : ThreadAt) (v : Fin 2) (off : Word) (prio : Fin 4)
  /-- ISSUE_TME (R112) -/
  | issueTme (th : ThreadAt) (off : Word) (prio : Fin 4)
  /-- SPAWN (R106) -/
  | spawn (th : ThreadAt) (off : Word)
  /-- RAISE (R110) -/
  | raise (th : ThreadAt) (e : BitVec 8)
  /-- WAITEVT (R110) -/
  | waitevt (th : ThreadAt) (e : BitVec 8)
  /-- CANCEL (R109) -/
  | cancel (th : ThreadAt) (tag : BitVec 16)
  /-- DONE (R106) -/
  | done (th : ThreadAt) (status : BitVec 8)
  /-- QUEUED_ITEM_PUSH (R112) -/
  | queuedItemPush (u : CtxAt) (t : Fin 8)
  /-- REMOTE_REPLY (R104) -/
  | remoteReply (u : CtxAt) (t : Fin 8) (err : MemErr)
  /-- STORE_ACK (R104) -/
  | storeAck (u : CtxAt) (t : Fin 8)
  /-- TASK_ACCEPT (R107) -/
  | taskAccept (u : CtxAt) (hub : Option (BitVec 256))
  /-- TASK_DISPATCH (R108) -/
  | taskDispatch (u : CtxAt)
  /-- PRT_TASK_CANCEL (R109) -/
  | prtTaskCancel (u : CtxAt) (tag : BitVec 16)
  /-- PRT_TQ_RESET (R124) -/
  | prtTqReset (core : Fin 512) (t e : Bool)
  /-- MEM_PM_GO (R117) -/
  | memPmGo (core : Fin 512) (wr : Writer) (go : Bool) (ctx : Ctx)
  /-- PROGRAM_LOAD_END (R118) -/
  | programLoadEnd (core : Fin 512) (remote : Option PieceData)
  /-- FENCE (R121) -/
  | fence (core : Fin 512) (kind : FenceKind)
  /-- RAS_CORE_FENCE (R123) -/
  | rasCoreFence (core : Fin 512) (wr : Writer) (value : Bool)
  /-- SPARE_CHOICE (R17) -/
  | spareChoice (lc : Fin 512)
  /-- SPARE_CLEAR_LOAD_END (R122) -/
  | spareClearLoadEnd (lc : Fin 512)
  /-- VCE_RUN (R143) -/
  | vceRun (u : VceAt)
  /-- VMOV (R135) -/
  | vmov (u : VceAt)
  /-- VPERM (R135) -/
  | vperm (u : VceAt)
  /-- VADD (R135) -/
  | vadd (u : VceAt)
  /-- VSUB (R135) -/
  | vsub (u : VceAt)
  /-- CMUL (R127) -/
  | cmul (u : VceAt)
  /-- CFMA (R127) -/
  | cfma (u : VceAt)
  /-- CFMS (R135) -/
  | cfms (u : VceAt)
  /-- CMAC (R127) -/
  | cmac (u : VceAt)
  /-- CMACI (R135) -/
  | cmaci (u : VceAt)
  /-- ACCRD (R127) -/
  | accrd (u : VceAt)
  /-- BFLY (R136) -/
  | bfly (u : VceAt)
  /-- RMUL (R135) -/
  | rmul (u : VceAt)
  /-- RFMA (R135) -/
  | rfma (u : VceAt)
  /-- VMAX (R135) -/
  | vmax (u : VceAt)
  /-- VMIN (R135) -/
  | vmin (u : VceAt)
  /-- VSUM (R137) -/
  | vsum (u : VceAt)
  /-- VEXP (R137) -/
  | vexp (u : VceAt)
  /-- VRCP (R137) -/
  | vrcp (u : VceAt)
  /-- VRSQ (R137) -/
  | vrsq (u : VceAt)
  /-- CVT (R135) -/
  | cvt (u : VceAt)
  /-- CVTN (R135) -/
  | cvtn (u : VceAt)
  /-- RPT (R138) -/
  | rpt (u : VceAt)
  /-- LOOP (R140) -/
  | loop (u : VceAt)
  /-- SETA (R135) -/
  | seta (u : VceAt)
  /-- SETO (R135) -/
  | seto (u : VceAt)
  /-- SETL (R135) -/
  | setl (u : VceAt)
  /-- SETM (R135) -/
  | setm (u : VceAt)
  /-- END (R135) -/
  | endKernel (u : VceAt)
  /-- VCE_COMPLETE (R144) -/
  | vceComplete (u : VceAt)
  /-- VCE_QRESET (R146) -/
  | vceQreset (core : Fin 512) (v : Fin 2) (t e : Bool)
  /-- VCE_CTRL_WRITE (R148) -/
  | vceCtrlWrite (core : Fin 512) (v : Fin 2) (en : Bool)
  /-- COPY (R166) -/
  | copy (u : CtxAt)
  /-- GATHER (R166) -/
  | gather (u : CtxAt)
  /-- SCATTER (R166) -/
  | scatter (u : CtxAt)
  /-- SETCONV (R168) -/
  | setconv (u : CtxAt)
  /-- TME_TRANSFER_DONE (R169) -/
  | tmeTransferDone (u : CtxAt) (remote : Option PieceData)
  /-- TME_RUN_AHEAD_READ (R172) -/
  | tmeRunAheadRead (u : CtxAt)
  /-- TME_COMMIT (R174) -/
  | tmeCommit (u : CtxAt)
  /-- TME_COMPLETE (R170) -/
  | tmeComplete (u : CtxAt)
  /-- TME_QRESET (R171) -/
  | tmeQreset (core : Fin 512) (t e : Bool)
  /-- TME_CTRL_WRITE (R171) -/
  | tmeCtrlWrite (core : Fin 512) (en : Bool)
  /-- POOL_REQUEST (R177) -/
  | poolRequest (pool : Fin 128) (port : Fin 71) (inst : Fin 512) (timed wait : Bool)
  /-- POOL_RETURN (R179) -/
  | poolReturn (pool : Fin 128) (port : Fin 71) (inst : Fin 512) (addr : BitVec 48)
  /-- ALLOC (R157) -/
  | alloc (inst : Fin 512) (req : AllocReq)
  /-- FREE (R157) -/
  | free (inst : Fin 512) (addr : Word)
  /-- SCRUB (R154) -/
  | scrub (errs : List (BitVec 48 × MemErr))
  /-- TABLE_WALK_DONE (R185) -/
  | tableWalkDone (n : Fin 32)
  /-- XLT_INV_INSTANCE (R193) -/
  | xltInvInstance (wr : Writer) (inst : Fin 512)
  /-- XLT_INV_RANGE (R193) -/
  | xltInvRange (wr : Writer) (inst : Fin 512)
  /-- XLT_INV_ALL (R193) -/
  | xltInvAll (wr : Writer)
  /-- XLT_INV_COMPLETE (R194) -/
  | xltInvComplete
  /-- TO_DEV (R195) -/
  | toDev (inst : Fin 512) (bad : Bool)
  /-- TO_HOST (R195) -/
  | toHost (inst : Fin 512) (bad : Bool)
  /-- DMA_PIECE_DONE (R199) -/
  | dmaPieceDone (inst : Fin 512) (host : PieceData)
  /-- DMA_COMPLETE (R196) -/
  | dmaComplete (inst : Fin 512)
  /-- XLT_IF_DONE (R207) -/
  | xltIfDone (inst : Fin 512) (value : Word)
  /-- XCLK_LOST (R215) -/
  | xclkLost
  /-- XCLK_RESTORED (R216) -/
  | xclkRestored
  /-- TIME_PLL_LOCK (R216) -/
  | timePllLock
  /-- GLIDE_STEP (R211) -/
  | glideStep (isl : Fin 64)
  /-- CLK_ISL_TARGET_WRITE (R211) -/
  | clkIslTargetWrite (wr : Writer) (isl : Fin 64) (target : BitVec 9)
  /-- CLK_EN_WRITE (R214) -/
  | clkEnWrite (wr : Writer) (islands : Bool) (value : Word)
  /-- TIME_MARKER (R222) -/
  | timeMarker (drift : List (Fin 64 × Int)) (upsets : List (UpsetAt × MemErr))
  /-- TIME_SERVO_OFS (R226) -/
  | timeServoOfs (wr : Writer) (e : Word)
  /-- TIME_STEP_WRITE (R219) -/
  | timeStepWrite (wr : Writer) (step : BitVec 48)
  /-- TIME_ADJ (R219) -/
  | timeAdj (wr : Writer) (e : Word)
  /-- TIME_NOW_NS_READ (R220) -/
  | timeNowNsRead (reader : Writer)
  /-- DECLARE_LOCK (R227) -/
  | declareLock (wr : Writer) (lock : Bool)
  /-- TIME_CMP_FIRE (R224) -/
  | timeCmpFire (n : Fin 16) (ticks : BitVec 64)
  /-- CGL_BOUNDARY (R239) -/
  | cglBoundary (list : Fin 16) (ticks : BitVec 64) (exec : Option (Fin 64)) (sel : Option (Fin 512))
  /-- GUARD_START (R249) -/
  | guardStart (list : Fin 16) (ticks : BitVec 64)
  /-- CGL_SWAP (R245) -/
  | cglSwap (wr : Writer) (list : Fin 16) (stop : Bool)
  /-- CGL_STOP (R247) -/
  | cglStop (wr : Writer) (list : Fin 16)
  /-- CGL_SWAP_APPLY (R246) -/
  | cglSwapApply (list : Fin 16) (ticks : BitVec 64)
  /-- CGL_LC_GRP_WRITE (R236) -/
  | cglLcGrpWrite (wr : Writer) (lc : Fin 480) (grp : BitVec 7)
  /-- GROUP_CHANGE_APPLY (R236) -/
  | groupChangeApply (lc : Fin 480)
  /-- STARVE (R254) -/
  | starve (core : Fin 512)
  /-- GRP_CREATE (R264) -/
  | grpCreate (inst : Fin 512) (bad : Bool)
  /-- GRP_DESTROY (R263) -/
  | grpDestroy (inst : Fin 512) (bad : Bool)
  /-- GRP_HOLD (R263) -/
  | grpHold (inst : Fin 512) (bad : Bool)
  /-- ADMIT (R266) -/
  | admitSeq (inst : Fin 512) (bad : Bool)
  /-- CANCEL_SEQ (R280) -/
  | cancelSeq (inst : Fin 512) (bad : Bool)
  /-- QUERY_SEQ (R263) -/
  | querySeq (inst : Fin 512) (bad : Bool)
  /-- SET_CLASS (R263) -/
  | setClass (inst : Fin 512) (bad : Bool)
  /-- MIGRATE (R282) -/
  | migrate (inst : Fin 512) (bad : Bool)
  /-- OUT_DONE (R263) -/
  | outDone (inst : Fin 512) (bad : Bool)
  /-- STEP_COMMIT (R282) -/
  | stepCommit (grp : Fin 64) (late : List (Fin 512))
  /-- OUTPUT_ROOM_WAIT_END (R282) -/
  | outputRoomWaitEnd (grp : Fin 64)
  /-- BLOCK_MOVE_DONE (R271) -/
  | blockMoveDone (n : Fin 4)
  /-- LD_REQUEST (R293) -/
  | ldRequest (port : Fin 25)
  /-- ST_REQUEST (R293) -/
  | stRequest (port : Fin 25)
  /-- SWAP (R295) -/
  | swap (port : Fin 25)
  /-- CAS (R295) -/
  | cas (port : Fin 25)
  /-- FADD_I64 (R295) -/
  | faddI64 (port : Fin 25)
  /-- ADD_I64 (R295) -/
  | addI64 (port : Fin 25)
  /-- ADD_REC (R295) -/
  | addRec (port : Fin 25)
  /-- ADD_F32 (R295) -/
  | addF32 (port : Fin 25)
  /-- DISPATCH (R307) -/
  | dispatch (port : Fin 25)
  /-- COMBINE (R307) -/
  | combine (port : Fin 25)
  /-- EPOCH_NOTE (R308) -/
  | epochNote (port : Fin 25)
  /-- BULK (R301) -/
  | bulk (port : Fin 25)
  /-- FABRIC_REPLY (R294) -/
  | fabricReply (port : Fin 25)
  /-- TAG_GRANT (R297) -/
  | tagGrant
  /-- FABRIC_TIMEOUT (R298) -/
  | fabricTimeout (tag : Fin 131072)
  /-- TAG_QUARANTINE_END (R298) -/
  | tagQuarantineEnd (tag : Fin 131072)
  /-- GW_FRAME_SEND (R301) -/
  | gwFrameSend (gw : Fin 4) (card : Fin 4096)
  /-- GW_ENTRY_GRANT (R301) -/
  | gwEntryGrant (gw : Fin 4)
  /-- GET (R302) -/
  | get (inst : Fin 512) (bad : Bool) (remote : List PieceData)
  /-- PUT (R302) -/
  | put (inst : Fin 512) (bad : Bool) (remote : List PieceData)
  /-- GW_COMPLETE (R302) -/
  | gwComplete (inst : Fin 512)
  /-- FAB_XR_TAIL_WRITE (R305) -/
  | fabXrTailWrite (wr : Writer) (ring : Fin 64) (tail : BitVec 8)
  /-- DISPATCH_RING_READ (R306) -/
  | dispatchRingRead
  /-- DISPATCH_RETRY (R306) -/
  | dispatchRetry (ring : Fin 64) (entry : Fin 256)
  /-- DISPATCH_ENTRY_COMPLETE (R306) -/
  | dispatchEntryComplete (ring : Fin 64) (entry : Fin 256)
  /-- FAB_XI_NEXT (R307) -/
  | fabXiNext (wr : Writer) (inbox : Fin 64)
  /-- FAB_XI_DONE (R307) -/
  | fabXiDone (wr : Writer) (inbox : Fin 64) (slot : BitVec 16)
  /-- INBOX_SLOT_FREE (R307) -/
  | inboxSlotFree (inbox : Fin 64) (slot : Fin 4096)
  /-- ENABLE (R321) -/
  | enable (wr : Writer) (port : Fin 24)
  /-- DISABLE (R332) -/
  | disable (wr : Writer) (port : Fin 24)
  /-- RETRAIN (R321) -/
  | retrain (wr : Writer) (port : Fin 24)
  /-- SWAP_COMMAND (R331) -/
  | swapCommand (wr : Writer) (port : Fin 24) (lane : Fin 16)
  /-- UNRETIRE (R321) -/
  | unretire (wr : Writer) (port : Fin 24)
  /-- ANNOUNCE (R322) -/
  | announce (port : Fin 24) (key : BitVec 72)
  /-- COLLISION_ROUND (R322) -/
  | collisionRound (port : Fin 24)
  /-- TRAINING_PHASE_END (R323) -/
  | trainingPhaseEnd (port : Fin 24) (spare : Bool) (tx rx : Option (Fin 8))
  /-- READY (R323) -/
  | ready (port : Fin 24)
  /-- TRAIN_TIMEOUT (R321) -/
  | trainTimeout (port : Fin 24)
  /-- RECOVERY_TIMEOUT (R321) -/
  | recoveryTimeout (port : Fin 24)
  /-- FAST_RETRAIN_DONE (R326) -/
  | fastRetrainDone (port : Fin 24) (spare : Bool)
  /-- DRAIN_HOLD_END (R328) -/
  | drainHoldEnd (port : Fin 24)
  /-- DOWN_TO_ARB (R321) -/
  | downToArb (port : Fin 24)
  /-- FLIT_RX (R325) -/
  | flitRx (port : Fin 24) (ctl : BitVec 20) (flit : BitVec 5120) (sym : List (Fin 9 × Nat)) (bad : Bool)
  /-- REPLAY_TIMER (R326) -/
  | replayTimer (port : Fin 24)
  /-- SWAP_REQ (R330) -/
  | swapReq (port : Fin 24) (lane : Fin 8)
  /-- SWAP_ACK (R330) -/
  | swapAck (port : Fin 24)
  /-- SWAP_REJ (R330) -/
  | swapRej (port : Fin 24)
  /-- LANE_DRIVE_OFF (R330) -/
  | laneDriveOff (port : Fin 24)
  /-- LNK_WINDOW_END (R329) -/
  | lnkWindowEnd
  /-- LANE_LOCK_LOSS (R329) -/
  | laneLockLoss (port : Fin 24) (lane : Fin 9)
  /-- LDPC_DEC (R355) -/
  | ldpcDec (wr : Writer) (q : Fin 64) (job : BitVec 512) (poison : Bool)
  /-- LDPC_ENC (R351) -/
  | ldpcEnc (wr : Writer) (q : Fin 64) (job : BitVec 512) (poison : Bool)
  /-- POLAR_DEC (R351) -/
  | polarDec (wr : Writer) (q : Fin 64) (job : BitVec 512) (poison : Bool)
  /-- POLAR_ENC (R351) -/
  | polarEnc (wr : Writer) (q : Fin 64) (job : BitVec 512) (poison : Bool)
  /-- CODE_BLOCK_START (R352) -/
  | codeBlockStart
  /-- CODE_BLOCK_END (R349) -/
  | codeBlockEnd (unit : Fin 44) (error : Bool)
  /-- FEC_JOB_COMPLETE (R356) -/
  | fecJobComplete (q : Fin 64)
  /-- FEC_DEADLINE (R353) -/
  | fecDeadline (ticks : BitVec 64)
  /-- FEC_QCTL_CANCEL (R357) -/
  | fecQctlCancel (wr : Writer) (q : Fin 64) (tag : BitVec 16)
  /-- FEC_QCTL_RESET (R357) -/
  | fecQctlReset (wr : Writer) (q : Fin 64)
  /-- ACTIVATE (R362) -/
  | activate (wr : Writer) (cell : Fin 256)
  /-- DEACTIVATE (R362) -/
  | deactivate (wr : Writer) (cell : Fin 256)
  /-- CELL_FRAME_BOUNDARY (R362) -/
  | cellFrameBoundary (cell : Fin 256) (ticks : BitVec 64)
  /-- HOLDOVER_EXPIRY (R363) -/
  | holdoverExpiry (cell : Fin 256) (ticks : BitVec 64)
  /-- MASK_CHECK (R341) -/
  | maskCheck (stream : Fin 128) (cell : Fin 256) (ant : Fin 64) (sym : Fin 14) (pk : List Nat)
  /-- FH_MASK_UNMUTE (R341) -/
  | fhMaskUnmute (wr : Writer) (stream : Fin 128) (go : Bool)
  /-- FRAME_RX (R371) -/
  | frameRx (target : Fin 32) (ticks : BitVec 64) (fcsOk : Bool) (frame : List Byte)
  /-- UPLANE (R377) -/
  | uplane (wr : Writer) (win : Fin 64) (desc : BitVec 512) (poison : Bool)
  /-- CPLANE (R377) -/
  | cplane (wr : Writer) (win : Fin 64) (desc : BitVec 512) (poison : Bool)
  /-- RAW (R377) -/
  | raw (wr : Writer) (win : Fin 64) (desc : BitVec 512) (poison : Bool)
  /-- FRAME_TX (R383) -/
  | frameTx (target : Fin 32) (ticks : BitVec 64) (crcBad : Bool)
  /-- HEAD_DROP (R380) -/
  | headDrop (queue : Fin 16384) (ticks : BitVec 64)
  /-- EGRESS_COMPLETE (R379) -/
  | egressComplete (win : Fin 64)
  /-- UL_MAP_CLEAR (R374) -/
  | ulMapClear (cell : Fin 256) (ticks : BitVec 64)
  /-- TM_GATE_SWAP (R390) -/
  | tmGateSwap (wr : Writer) (target : Fin 32) (stop : Bool)
  /-- TM_GATE_STOP (R390) -/
  | tmGateStop (wr : Writer) (target : Fin 32)
  /-- GATE_BOUNDARY (R389) -/
  | gateBoundary (target : Fin 32) (ticks : BitVec 64)
  /-- TM_ENQ_CTL_RESET (R393) -/
  | tmEnqCtlReset (wr : Writer) (win : Fin 64)
  /-- TM_HR_DONE (R394) -/
  | tmHrDone (inst : Fin 512) (n : BitVec 13)
  /-- TM_HR_SIZE_WRITE (R394) -/
  | tmHrSizeWrite (inst : Fin 512) (n : BitVec 13)
  /-- HOST_RING_DELIVER (R394) -/
  | hostRingDeliver (port : Fin 4) (ticks : BitVec 64)
  /-- FH_PORT_CMD_ENABLE (R368) -/
  | fhPortCmdEnable (wr : Writer) (port : Fin 8) (sub : Fin 4)
  /-- FH_PORT_CMD_DISABLE (R368) -/
  | fhPortCmdDisable (wr : Writer) (port : Fin 8) (sub : Fin 4)
  /-- SUBPORT_LINK_CHANGE (R368) -/
  | subportLinkChange (target : Fin 32) (up : Bool)
  /-- CREATE (R400) -/
  | create (c : PrtCmd) (rng : Bool)
  /-- RESET (R403) -/
  | reset (c : PrtCmd)
  /-- RECLAIM (R412) -/
  | reclaim (c : PrtCmd)
  /-- PART_CANCEL (R403) -/
  | partCancel (c : PrtCmd)
  /-- ASSIGN (R403) -/
  | assign (c : PrtCmd) (rng : Bool)
  /-- RECOVER (R403) -/
  | recover (c : PrtCmd)
  /-- DESTROY (R403) -/
  | destroy (c : PrtCmd)
  /-- INST_CREATE (R404) -/
  | instCreate (c : PrtCmd) (inst : Fin 512) (rng : Bool) (grants : List Grant)
  /-- INST_RESET (R408) -/
  | instReset (c : PrtCmd) (inst : Fin 512)
  /-- INST_DESTROY (R408) -/
  | instDestroy (c : PrtCmd) (inst : Fin 512)
  /-- INSTANCE_RESET_END (R408) -/
  | instanceResetEnd (inst : Fin 512)
  /-- PRT_MODE_WRITE (R403) -/
  | prtModeWrite (wr : Writer) (mode : BitVec 2)
  /-- PRT_LC_INST_WRITE (R410) -/
  | prtLcInstWrite (wr : Writer) (lc : Fin 480) (t e : BitVec 9)
  /-- RECLAIM_INSTANT (R413) -/
  | reclaimInstant (part : Fin 16) (ticks : BitVec 64)
  /-- TEARDOWN (R413) -/
  | teardown (part : Fin 16) (ticks : BitVec 64)
  /-- ZEROING_DONE (R414) -/
  | zeroingDone (part : Fin 16)
  /-- HOST_LINK_DOWN (R416) -/
  | hostLinkDown (port : Fin 4)
  /-- HOST_LINK_UP (R416) -/
  | hostLinkUp (port : Fin 4) (rate : Fin 7) (width : BitVec 5) (flit : Bool)
  /-- FUNCTION_LEVEL_RESET (R501) -/
  | functionLevelReset (port : Fin 4) (fn : BitVec 10)
  /-- MBX_SEND (R417) -/
  | mbxSend (inst : Fin 512) (rid : BitVec 16) (msg : BitVec 512)
  /-- MBX_RECV (R421) -/
  | mbxRecv (inst : Fin 512) (ch : Fin 3) (bad : Bool)
  /-- MBX_EP_RECV (R424) -/
  | mbxEpRecv (part : Fin 16) (bad : Bool)
  /-- MBX_EP_SEND (R417) -/
  | mbxEpSend (lc : Fin 480) (ctx : Ctx) (inst : Fin 512) (msg : BitVec 512)
  /-- MBX_MC_SEND (R417) -/
  | mbxMcSend (mc : Fin 4) (inst : Fin 512) (msg : BitVec 512)
  /-- MBX_MC_RECV (R417) -/
  | mbxMcRecv (bad : Bool)
  /-- NOTICE_SEND (R420) -/
  | noticeSend (inst : Fin 512)
  /-- MSIX_UNMASK (R512) -/
  | msixUnmask (inst : Fin 512) (vec : Fin 3)
  /-- MBX_INST_RESET (R424) -/
  | mbxInstReset (inst : Fin 512)
  /-- INST_QUERY (R424) -/
  | instQuery (inst : Fin 512)
  /-- PROG_REG (R448) -/
  | progReg (inst : Fin 512) (d : BitVec 384)
  /-- MAP_REMOTE (R184) -/
  | mapRemote (inst : Fin 512) (d : BitVec 384)
  /-- GRANT_PEER (R288) -/
  | grantPeer (inst : Fin 512) (d : BitVec 384)
  /-- REVOKE_PEER (R288) -/
  | revokePeer (inst : Fin 512) (d : BitVec 384)
  /-- RECLAIM_ACK (R413) -/
  | reclaimAck (inst : Fin 512)
  /-- PART_CMD (R403) -/
  | partCmd (inst : Fin 512) (d : BitVec 384) (rng : Bool) (grants : List Grant)
  /-- RST_N_ASSERT (R522) -/
  | rstNAssert
  /-- RST_N_RELEASE (R430) -/
  | rstNRelease (hpEn : BitVec 4) (fuseOk flashOk : Bool)
  /-- IMAGE_VERIFIED (R433) -/
  | imageVerified
  /-- IMG_WRITE (R439) -/
  | imgWrite (inst : Fin 512) (d : BitVec 384)
  /-- IMG_CHECK (R439) -/
  | imgCheck (inst : Fin 512) (d : BitVec 384)
  /-- IMG_ACTIVATE (R439) -/
  | imgActivate (inst : Fin 512) (d : BitVec 384)
  /-- IMG_CONFIRM (R439) -/
  | imgConfirm (inst : Fin 512)
  /-- PS_RESTART (R444) -/
  | psRestart (inst : Fin 512)
  /-- PS_WRITE (R443) -/
  | psWrite (ticks : BitVec 64)
  /-- SEC_RCV_PROGRAM (R440) -/
  | secRcvProgram (slot : Fin 2) (unit : BitVec 12)
  /-- SEC_RCV_RESET (R440) -/
  | secRcvReset (fuseOk flashOk : Bool)
  /-- KEY_GENERATE (R450) -/
  | keyGenerate (wr : Writer) (id : BitVec 10) (rng : Bool)
  /-- KEY_DESTROY (R450) -/
  | keyDestroy (wr : Writer) (id : BitVec 10)
  /-- SEC_CFG_LOCK (R516) -/
  | secCfgLock (wr : Writer) (locked : Bool)
  /-- GET_VERSION (R452) -/
  | getVersion (f : FnAt)
  /-- GET_CAPABILITIES (R452) -/
  | getCapabilities (f : FnAt) (ver : BitVec 8)
  /-- NEGOTIATE_ALGORITHMS (R452) -/
  | negotiateAlgorithms (f : FnAt) (supported : Bool)
  /-- GET_DIGESTS (R452) -/
  | getDigests (f : FnAt)
  /-- GET_CERTIFICATE (R452) -/
  | getCertificate (f : FnAt) (slot : BitVec 4) (offset len : BitVec 16)
  /-- CHALLENGE (R452) -/
  | challenge (f : FnAt) (slot : BitVec 4) (nonce : BitVec 256)
  /-- GET_MEASUREMENTS (R452) -/
  | getMeasurements (f : FnAt) (index : BitVec 8) (sign : Bool) (nonce : BitVec 256)
  /-- KEY_EXCHANGE (R452) -/
  | keyExchange (f : FnAt) (reqId : BitVec 16) (share : Nat)
  /-- FINISH (R452) -/
  | finish (f : FnAt) (sess : BitVec 32) (macOk : Bool)
  /-- KEY_UPDATE (R452) -/
  | keyUpdate (f : FnAt) (sess : BitVec 32) (op : BitVec 8)
  /-- HEARTBEAT (R452) -/
  | heartbeat (f : FnAt) (sess : BitVec 32)
  /-- END_SESSION (R452) -/
  | endSession (f : FnAt) (sess : BitVec 32)
  /-- CHUNK_SEND (R452) -/
  | chunkSend (f : FnAt) (seq : BitVec 16) (last : Bool)
  /-- CHUNK_GET (R452) -/
  | chunkGet (f : FnAt) (seq : BitVec 16) (last : Bool)
  /-- VENDOR_DEFINED_REQUEST (R452) -/
  | vendorDefinedRequest (f : FnAt) (sess : BitVec 32) (msg : Vdm)
  /-- LOCK_INTERFACE (R453) -/
  | lockInterface (f : FnAt) (sess : BitVec 32) (inst : Fin 512) (stream : BitVec 8)
  /-- START_INTERFACE (R453) -/
  | startInterface (f : FnAt) (sess : BitVec 32) (inst : Fin 512)
  /-- STOP_INTERFACE (R453) -/
  | stopInterface (f : FnAt) (sess : BitVec 32) (inst : Fin 512)
  /-- CREMA_OPEN (R461) -/
  | cremaOpen (inst : Fin 512) (d : BitVec 384)
  /-- CREMA_ADD (R461) -/
  | cremaAdd (inst : Fin 512) (d : BitVec 384)
  /-- CREMA_SEAL (R461) -/
  | cremaSeal (inst : Fin 512) (d : BitVec 384)
  /-- CREMA_ABORT (R461) -/
  | cremaAbort (inst : Fin 512) (d : BitVec 384)
  /-- ESCALATION (R466) -/
  | escalation (bridges : List (Fin 8 × BitVec 16))
  /-- THRESHOLD_WINDOW_END (R469) -/
  | thresholdWindowEnd (row : Fin 23) (ticks : BitVec 64)
  /-- RAS_FENCE (R473) -/
  | rasFence (wr : Writer) (core : Fin 512)
  /-- RAS_REMOVE_FENCE_RECORD (R473) -/
  | rasRemoveFenceRecord (wr : Writer) (core : Fin 512)
  /-- RAS_ROTATE (R477) -/
  | rasRotate (wr : Writer) (lc : BitVec 9)
  /-- RAS_SOFT_ROW_REPAIR (R471) -/
  | rasSoftRowRepair (wr : Writer)
  /-- SOFT_ROW_REPAIR_DONE (R471) -/
  | softRowRepairDone
  /-- WITNESS_ROTATE (R477) -/
  | witnessRotate (ticks : BitVec 64)
  /-- ROTATION_HANDOVER (R477) -/
  | rotationHandover (lc : Fin 512)
  /-- WITNESS_SUITE_END (R478) -/
  | witnessSuiteEnd (core : Fin 512) (fails : List (Fin 12 × Fin 4 × Fin 9))
  /-- RAS_CARD_SWAP_ARM (R483) -/
  | rasCardSwapArm (wr : Writer) (k : Fin 16) (fromCard toCard : BitVec 12)
  /-- FATAL_ERROR (R484) -/
  | fatalError (kind : FatalKind)
  /-- FATAL_AUTO_RESET (R484) -/
  | fatalAutoReset (ticks : BitVec 64) (fuseOk flashOk : Bool)
  /-- MC_WATCHDOG (R484) -/
  | mcWatchdog (mc : Fin 4)
  /-- PWR_DOM_OFF (R488) -/
  | pwrDomOff (wr : Writer) (dom : BitVec 5) (rsvd : BitVec 57)
  /-- PWR_DOM_ON (R488) -/
  | pwrDomOn (wr : Writer) (dom : BitVec 5) (rsvd : BitVec 57)
  /-- DOMAIN_DRAIN_END (R489) -/
  | domainDrainEnd (dom : Fin 28)
  /-- DOMAIN_RAMP_END (R490) -/
  | domainRampEnd (dom : Fin 28)
  /-- CAP_PERIOD (R492) -/
  | capPeriod (t : Telemetry)
  /-- PWR_CAP_WRITE (R494) -/
  | pwrCapWrite (wr : Writer) (capW : BitVec 12)
  /-- PWR_TIMED_BUDGET_WRITE (R494) -/
  | pwrTimedBudgetWrite (wr : Writer) (budgetW : BitVec 12)
  /-- BAR0_WRITE (R505) -/
  | bar0Write (f : FnAt) (off : BitVec 16) (len : BitVec 13) (data : Nat) (rid : BitVec 16) (ide : Option (BitVec 8))
  /-- BAR2_READ (R503) -/
  | bar2Read (f : FnAt) (off : BitVec 17) (len : BitVec 13) (ide : Option (BitVec 8)) (bad : Bool)
  /-- BAD_BAR_ACCESS (R504) -/
  | badBarAccess (port : Fin 4) (write : Bool)
  /-- PERST (R522) -/
  | perst (port : Fin 4)
  /-- COMPLETION_QUEUE_READ (R78) -/
  | completionQueueRead (th : ThreadAt) (q : ComplQ) (rd : Fin 32) (bad : Bool)
  /-- CODEWORD_LOCK_LOSS (R321) -/
  | codewordLockLoss (port : Fin 24)
  /-- ARB_LISTEN_END (R322) -/
  | arbListenEnd (port : Fin 24)
  /-- PCIE_CONFIG_WRITE (R501) -/
  | pcieConfigWrite (f : FnAt) (w : PcieCfg)
  /-- HBM_SILO_TRAINING_DONE (R526) -/
  | hbmSiloTrainingDone (failed : List (Fin 16))
  /-- FLASH_PROGRAM_DONE (R441) -/
  | flashProgramDone (store ok : Bool)
  /-- CREMA_COMMAND_DONE (R459) -/
  | cremaCommandDone (inst : Fin 512)
  /-- SYMBOL_SEND_TIME (R364) -/
  | symbolSendTime (cell : Fin 256) (frame : BitVec 8) (sub : Fin 10) (slot : Fin 8) (sym : Fin 14) (ticks : BitVec 64)
  /-- POWER_REMOVAL (R523) -/
  | powerRemoval
  deriving DecidableEq, Repr

end Sys2Proof
end

