-- ==== Sys2Proof/WellFormed.lean ====
section
/-!
DEFINITION. WellFormed.lean: which commands are well formed. Most operands are bounded by their types; the checks here bound the
lists and numbers that are not.
-/
namespace Sys2Proof

/-- Bytes that come back for one piece: at most the 4 KiB of a piece (R199). -/
def PieceData.wf : PieceData → Bool
  | .ok bytes => decide (bytes.length ≤ 4096)
  | _ => true

/-- A grant maps at least one page, with a page code that is not reserved (Table 6.3). -/
def Grant.wf (g : Grant) : Bool := decide (g.page ≠ 3) && decide (0 < g.pages)

/-- Telemetry names each domain, island and die at most once. -/
def Telemetry.wf (t : Telemetry) : Bool :=
  decide (t.doms.map (·.1)).Nodup && decide (t.isls.map (·.1)).Nodup && decide (t.temps.map (·.1)).Nodup

/-- Is a command well formed? -/
def Instr.wf : Instr → Bool
  | .programLoadEnd _ r => (match r with | some p => (match p with | .ok b => decide (b.length ≤ 262144) | _ => true) | none => true)
  | .tmeTransferDone _ r => (match r with | some p => p.wf | none => true)
  | .scrub errs => decide (errs.map (·.1)).Nodup
  | .dmaPieceDone _ h => h.wf
  | .timeMarker d _ => decide (d.map (·.1)).Nodup
  | .stepCommit _ late => decide late.Nodup
  | .get _ _ r => r.all PieceData.wf
  | .put _ _ r => r.all PieceData.wf
  | .flitRx _ _ _ sym _ => decide (sym.map (·.1)).Nodup
  | .maskCheck _ _ _ _ pk => decide (pk.length ≤ 4096)
  | .frameRx _ _ _ f => decide (f.length < 16384)
  | .instCreate _ _ _ g => g.all Grant.wf
  | .partCmd _ _ _ g => g.all Grant.wf
  | .keyExchange _ _ share => decide (share < 2 ^ 768)
  | .escalation b => decide (b.map (·.1)).Nodup
  | .witnessSuiteEnd _ f => decide (f.map (fun x => (x.1, x.2.1))).Nodup
  | .capPeriod t => t.wf
  | .bar0Write _ _ len data _ _ => decide (data < 2 ^ (8 * len.toNat))
  | .hbmSiloTrainingDone l => decide l.Nodup
  | _ => true

end Sys2Proof
end

