-- ==== Sys2Proof/Decode.lean ====
section
/-!
DEFINITION. Decode.lean: the command that a word spells by the bits of the opcode table. The table of this block gives no row any
bits: its commands come as accesses, messages and events, not as words. No word spells a command.
-/
namespace Sys2Proof

/-- The command a word of nbits bits spells: none does. -/
def decodeTableWord (nbits w : Nat) : Option Instr :=
  match nbits, w with
  | _, _ => none

end Sys2Proof
end

