-- ==== Sys2Proof/Config.lean ====
section
/-!
DEFINITION. Config.lean: what an implementation fixes, and the free values: the values the spec leaves open. A free
value is an opaque constant: nothing in Lean can evaluate it or prove which value it has. Each is named in the
assumption log.
-/
namespace Sys2Proof.Config

/-- A fresh free value: a function of the counter `State.free`, which each use advances. -/
opaque freeNat : Nat → Nat

/-- The bits of 2^x, of 1/x and of 1/√x "fixed by the part's algorithm" within 1 ulp (R137): which of the FP32 values
within 1 ulp the algorithm returns for an operand. -/
opaque expPick : Nat → Nat
opaque rcpPick : Nat → Nat
opaque rsqPick : Nat → Nat

/-- The DRAM row of an HBM or Silo address (Table 18.3, rows 12 and 14): the spec does not give the row size. -/
opaque dramRow : Nat → Nat

/-- SHA3-256 and SHA-384 of a byte string (R450, R456), as a number. The spec names the standards and does not
restate them. -/
opaque sha3_256 : List Nat → Nat
opaque sha384 : List Nat → Nat

/-- The codes of 3GPP TS 38.212 that the FEC array runs (R349 to R357) and the spec does not restate: the parity bits of an
LDPC code word (base graph, lifting size, information bits); what an LDPC decoder answers for soft values (base graph,
lifting size, iteration limit, values): the bits, and the iterations it ran; the coded bits of a polar job (descriptor,
payload); what a polar decoder answers for soft values: the payload, and whether its CRC passed. -/
opaque ldpcParity : Nat → Nat → Nat → Nat
opaque ldpcDecode : Nat → Nat → Nat → List Int → Nat
opaque ldpcIters : Nat → Nat → Nat → List Int → Nat
opaque polarCode : Nat → Nat → Nat
opaque polarDecode : Nat → List Int → Nat
opaque polarPass : Nat → List Int → Bool

/-- A byte read where the contents were encrypted under a key that has been destroyed or replaced (R450): by the number of
the loss and the address. -/
opaque lostByte : Nat → Nat → Nat

/-- What an SPDM response carries beside what the spec states (DSP0274; R452): response code, and what it depends on. -/
opaque spdmBody : Nat → List Nat → Nat

/-- The ECDSA P-384 signature with the alias key (R447, R463): 96 bytes, by measurement 2, device unique ID and digest. -/
opaque aliasSign : Nat → Nat → Nat → Nat

/-- Does an ECDSA P-384 signature over the SHA-384 digest of the header (FIPS 186-5), or an ML-DSA-87 signature over the header
(FIPS 204), verify (R435): public key, signature, header bytes. -/
opaque ecdsaOk : Nat → Nat → List Nat → Bool
opaque mldsaOk : Nat → Nat → List Nat → Bool

/-- Measurement 1, of the ROM (Table 16.7). -/
opaque romMeas : Nat

end Sys2Proof.Config
end

