-- ==== Sys2Proof/Machine/Bits.lean ====
section
/-!
DEFINITION. Machine/Bits.lean: bit fields, two's complement, byte order (little-endian, R7), saturating counters, and
the sparse tables that hold per-core, per-queue and per-entry records: a list of (key, value) pairs with strictly
rising keys and no pair that holds the default value.
-/
namespace Sys2Proof.Machine

/-- Bits [lo + w - 1 : lo] of x. -/
def bits (x lo w : Nat) : Nat := (x >>> lo) % 2 ^ w

/-- Bit i of x. -/
def bit (x i : Nat) : Bool := (x >>> i) % 2 == 1

/-- x with bits [lo + w - 1 : lo] replaced by v. -/
def setBits (x lo w v : Nat) : Nat :=
  (x >>> (lo + w)) <<< (lo + w) + (v % 2 ^ w) <<< lo + x % 2 ^ lo

/-- A Bool as 0 or 1. -/
def b2n (b : Bool) : Nat := if b then 1 else 0

/-- The signed value of the w-bit two's-complement code x. -/
def toSigned (w x : Nat) : Int :=
  let y := x % 2 ^ w
  if 2 * y < 2 ^ w then (y : Int) else (y : Int) - (2 ^ w : Nat)

/-- The w-bit two's-complement code of i. -/
def ofSigned (w : Nat) (i : Int) : Nat := (i % (2 ^ w : Nat)).toNat

/-- i clamped to the range lo to hi. -/
def clampInt (lo hi i : Int) : Int := if i < lo then lo else if hi < i then hi else i

/-- floor(i / 2^s + 1/2): round half up (00, Rounding terms). -/
def roundHalfUpShift (i : Int) (s : Nat) : Int :=
  if s = 0 then i else (i + (2 ^ (s - 1) : Nat)) / (2 ^ s : Nat)

/-- Ceiling of a / b. -/
def ceilDiv (a b : Nat) : Nat := (a + b - 1) / b

/-- x rounded up to a multiple of m. -/
def alignUp (x m : Nat) : Nat := ceilDiv x m * m

/-- A counter of w bits that saturates. -/
def satAdd (w x n : Nat) : Nat := min (x + n) (2 ^ w - 1)

/-- The little-endian value of a list of bytes (R7). -/
def leNat : List Byte → Nat
  | [] => 0
  | b :: t => b.toNat + 256 * leNat t

/-- The n little-endian bytes of x (R7). -/
def leBytes : Nat → Nat → List Byte
  | 0, _ => []
  | n + 1, x => BitVec.ofNat 8 x :: leBytes n (x / 256)

/-- The values of a function at 0, 1, …, n - 1. -/
def tabulate {α : Type} (n : Nat) (f : Nat → α) : List α := (List.range n).map f

/-- The list with element i replaced; unchanged when i is out of range. -/
def listSet {α : Type} : List α → Nat → α → List α
  | [], _, _ => []
  | _ :: t, 0, v => v :: t
  | h :: t, i + 1, v => h :: listSet t i v

/-- Element i, or the default. -/
def listGet {α : Type} (d : α) : List α → Nat → α
  | [], _ => d
  | h :: _, 0 => h
  | _ :: t, i + 1 => listGet d t i

/-- The first element that satisfies p, with its index. -/
def findIdx? {α : Type} (p : α → Bool) : List α → Option (Nat × α)
  | [] => none
  | h :: t => if p h then some (0, h) else (findIdx? p t).map (fun r => (r.1 + 1, r.2))

/-- The list without element i. -/
def eraseAt {α : Type} : List α → Nat → List α
  | [], _ => []
  | _ :: t, 0 => t
  | h :: t, i + 1 => h :: eraseAt t i

/-! ### Sparse tables -/

/-- The value at key k: the first pair with that key, else the default. -/
def Tbl.get {α : Type} (d : α) : List (Nat × α) → Nat → α
  | [], _ => d
  | (k, v) :: t, i => if k = i then v else Tbl.get d t i

/-- Insert a pair before the first larger key. -/
def Tbl.insert {α : Type} (k : Nat) (v : α) : List (Nat × α) → List (Nat × α)
  | [] => [(k, v)]
  | (k', v') :: t => if k < k' then (k, v) :: (k', v') :: t else (k', v') :: Tbl.insert k v t

/-- The pairs without key k. -/
def Tbl.drop {α : Type} (k : Nat) : List (Nat × α) → List (Nat × α)
  | [] => []
  | (k', v') :: t => if k' = k then Tbl.drop k t else (k', v') :: Tbl.drop k t

/-- Set the value at key k; the default value is not listed. -/
def Tbl.put {α : Type} [DecidableEq α] (d : α) (t : List (Nat × α)) (k : Nat) (v : α) : List (Nat × α) :=
  if v = d then Tbl.drop k t else Tbl.insert k v (Tbl.drop k t)

/-- Change the value at key k by f. -/
def Tbl.mod {α : Type} [DecidableEq α] (d : α) (t : List (Nat × α)) (k : Nat) (f : α → α) : List (Nat × α) :=
  Tbl.put d t k (f (Tbl.get d t k))

/-- Every listed value through f (values equal to the default are dropped). -/
def Tbl.mapAll {α : Type} [DecidableEq α] (d : α) (f : α → α) : List (Nat × α) → List (Nat × α)
  | [] => []
  | (k, v) :: t => if f v = d then Tbl.mapAll d f t else (k, f v) :: Tbl.mapAll d f t

/-- The canonical form: keys strictly rise above a bound, and no listed value is the default. -/
def Tbl.wfFrom {α : Type} [DecidableEq α] (d : α) : Nat → List (Nat × α) → Bool
  | _, [] => true
  | lo, (k, v) :: t => decide (lo ≤ k) && decide (v ≠ d) && Tbl.wfFrom d (k + 1) t

/-- The canonical form of a sparse table. -/
def Tbl.wf {α : Type} [DecidableEq α] (d : α) (t : List (Nat × α)) : Bool := Tbl.wfFrom d 0 t

end Sys2Proof.Machine
end

