-- ==== Sys2Proof/Machine/Flags.lean ====
section
/-!
DEFINITION. Machine/Flags.lean: status codes (Table 20.6), fault causes (Table 7.9), the status word (Table 20.4), and
the sticky-flag words of the engines (Tables 3.12, 5.13).
-/
namespace Sys2Proof.Machine

/-! ### Status codes (R508, Table 20.6) -/

def stOk : Nat := 0x00
def stNop : Nat := 0x01
def stDelayed : Nat := 0x02
def stRefusedCapacity : Nat := 0x03
def stPreempted : Nat := 0x04
def stCancelled : Nat := 0x05
def stAbortedReset : Nat := 0x06
def stAbortedGen : Nat := 0x07
def stPartial : Nat := 0x08
def stState : Nat := 0x09
def stFaultXlat : Nat := 0x0A
def stFaultAccess : Nat := 0x0B
def stPoison : Nat := 0x0C
def stRetired : Nat := 0x0D
def stSpecDiscard : Nat := 0x0E

/-! ### Causes (Table 7.9) -/

def cUnmapped : Nat := 0
def cMalformed : Nat := 1
def cHost : Nat := 2
def cOutOfRange : Nat := 3
def cPermR : Nat := 4
def cPermW : Nat := 5
def cPermAtom : Nat := 6
def cPermDma : Nat := 7
def cWrongContext : Nat := 8
def cWrongOwner : Nat := 9
def cPrivilege : Nat := 10
def cScratchRange : Nat := 11
def cProgramRange : Nat := 12
def cRemoteRefused : Nat := 13
def cPoisonEntry : Nat := 14

/-! ### Units of a fault record (Table 7.9) -/

def uSc : Nat := 0
def uTme : Nat := 1
def uMe : Nat := 2
def uVce : Nat := 3
def uDma : Nat := 4
def uGateway : Nat := 5
def uProgLoad : Nat := 6
def uReg : Nat := 7

/-- The status word (Table 20.4). -/
def statusWord (code cause attn : Nat) : Nat := bits code 0 8 + (bits cause 0 4) <<< 8 + (bits attn 0 4) <<< 12

/-- No instance, kept apart from instance 511; a record shows it as 0x1FF (Table 7.9, R410). -/
def noInst : Nat := 0x200

/-- The 9-bit instance field of a record or header: 0x1FF none. -/
def instField (i : Nat) : Nat := if i < 512 then i else 0x1FF

/-- What a 9-bit instance tag names (R410). -/
def instTag (t : Nat) : Nat := if t = 0x1FF then noInst else t

/-- A fault record's fields (Table 7.9); the record's time is the counter at detection. -/
structure FaultInfo where
  addr : Nat
  status : Nat
  cause : Nat
  level : Nat := 0
  kind : Nat := 0
  remote : Nat := 0
  unit : Nat := 0
  elastic : Bool := false
  inst : Nat := noInst
  gen : Nat := 0
  card : Nat := 0
  part : Nat := 0
  port : Nat := 0
  lc : Nat := 0x1FF
  tag : Nat := 0
  deriving DecidableEq, Repr

/-- The 32 bytes of a fault record as one number (Table 7.9). -/
def FaultInfo.record (f : FaultInfo) (time : Nat) : Nat :=
  time % 2 ^ 64 + (f.addr % 2 ^ 64) <<< 64 + (bits f.status 0 8) <<< 128 + (bits f.cause 0 4) <<< 136
    + (bits f.level 0 2) <<< 140 + (bits f.kind 0 1) <<< 142 + (bits f.remote 0 1) <<< 143
    + (bits f.unit 0 3) <<< 144 + (b2n f.elastic) <<< 147 + (instField f.inst) <<< 148 + (bits f.gen 0 16) <<< 157
    + (bits f.card 0 12) <<< 173 + (bits f.part 0 4) <<< 185 + (bits f.port 0 2) <<< 189
    + (bits f.lc 0 9) <<< 192 + (bits f.tag 0 16) <<< 201

/-- The bit position of "more" in a fault record (R207). -/
def faultMoreBit : Nat := 191

/-- An 8-byte engine completion record: tag, queue generation and status (Tables 3.5, 5.7, R170). -/
def complRecord (tag gen status : Nat) : Nat :=
  bits tag 0 16 + (bits gen 0 16) <<< 16 + (bits status 0 8) <<< 32

end Sys2Proof.Machine
end

