-- ==== Sys2Proof/Machine/Numbers.lean ====
section
/-!
DEFINITION. Machine/Numbers.lean: the number formats of chapter 02: exact dyadic values, the floating element formats
(Table 2.3), conversion under rnd and sat (R53, R54, Table 2.6), FP32 arithmetic (R41), the MX and BX4 block formats
(R42 to R46), INT8 and CI16 (R47 to R49), O-RAN block floating point (R50, R51), and anchored records (R56 to R64).
-/
namespace Sys2Proof.Machine

/-- An exact value: NaN, an infinity, or (−1)^neg × mag × 2^e. -/
inductive Num where
  | nan
  | inf (neg : Bool)
  | fin (neg : Bool) (mag : Nat) (e : Int)
  deriving DecidableEq, Repr

/-- The sticky numeric flags an operation sets (R41, R54; ME_FLAGS, VCE_FLAGS). -/
structure NumFlags where
  inv : Bool := false
  ovf : Bool := false
  sat : Bool := false
  amis : Bool := false
  poison : Bool := false
  deriving DecidableEq, Repr

/-- Sticky: the flags of both. -/
def NumFlags.or (a b : NumFlags) : NumFlags :=
  { inv := a.inv || b.inv, ovf := a.ovf || b.ovf, sat := a.sat || b.sat, amis := a.amis || b.amis,
    poison := a.poison || b.poison }

/-- Rounding into a floating format (Table 2.2): nearest even, half up, toward zero. -/
inductive Rnd where
  | rne | halfUp | zero
  deriving DecidableEq, Repr

/-- rnd of a numeric control byte; 0b11 is reserved. -/
def Rnd.ofCode (n : Nat) : Option Rnd :=
  if n = 0 then some .rne else if n = 1 then some .halfUp else if n = 2 then some .zero else none

/-- A floating element format (Table 2.3): width, mantissa width, bias, the code of the largest finite magnitude, the
code of +infinity and of the NaN of R40 where there are any. -/
structure FFmt where
  width : Nat
  m : Nat
  bias : Int
  maxCode : Nat
  infCode : Option Nat
  nanCode : Option Nat
  deriving DecidableEq, Repr

def FFmt.fp32 : FFmt := ⟨32, 23, 127, 0x7F7FFFFF, some 0x7F800000, some 0x7FC00000⟩
def FFmt.bf16 : FFmt := ⟨16, 7, 127, 0x7F7F, some 0x7F80, some 0x7FC0⟩
def FFmt.e4m3 : FFmt := ⟨8, 3, 7, 0x7E, none, some 0x7F⟩
def FFmt.e5m2 : FFmt := ⟨8, 2, 15, 0x7B, some 0x7C, some 0x7E⟩
def FFmt.e3m2 : FFmt := ⟨6, 2, 3, 0x1F, none, none⟩
def FFmt.e2m3 : FFmt := ⟨6, 3, 1, 0x1F, none, none⟩
def FFmt.e2m1 : FFmt := ⟨4, 1, 1, 0x7, none, none⟩

/-- The value of an element code (R39). Codes above +infinity, and E4M3's 0x7F, are NaN. -/
def FFmt.decode (f : FFmt) (code : Nat) : Num :=
  let neg := bit code (f.width - 1)
  let c := code % 2 ^ (f.width - 1)
  if f.maxCode < c then
    if f.infCode = some c then .inf neg else .nan
  else
    let e := c >>> f.m
    let mant := c % 2 ^ f.m
    if e = 0 then .fin neg mant (1 - f.bias - f.m)
    else .fin neg (mant + 2 ^ f.m) ((e : Int) - f.bias - f.m)

/-- mag / 2^sh (sh > 0) as an integer, under rnd; neg says which way a half-up tie goes (R53). -/
def roundMag (r : Rnd) (neg : Bool) (mag sh : Nat) : Nat :=
  let q := mag >>> sh
  let rem := mag % 2 ^ sh
  let half := 2 ^ (sh - 1)
  match r with
  | .zero => q
  | .rne => if half < rem then q + 1 else if rem = half then (if q % 2 = 1 then q + 1 else q) else q
  | .halfUp => if half < rem then q + 1 else if rem = half then (if neg then q else q + 1) else q

/-- The magnitude code, with an unbounded exponent, of mag × 2^e rounded once under rnd (R53). -/
def FFmt.roundCode (f : FFmt) (r : Rnd) (neg : Bool) (mag : Nat) (e : Int) : Nat :=
  if mag = 0 then 0 else
  let qmin : Int := 1 - f.bias - f.m
  let top : Int := e + (mag.log2 : Int)
  let q : Int := max (top - f.m) qmin
  let n := if q ≤ e then mag <<< (e - q).toNat else roundMag r neg mag (q - e).toNat
  if n = 0 then 0 else (q - qmin).toNat * 2 ^ f.m + n

/-- The code with its sign. -/
def FFmt.signed (f : FFmt) (neg : Bool) (c : Nat) : Nat := c + b2n neg * 2 ^ (f.width - 1)

/-- Conversion of an exact value into the format (R53, R54, Table 2.6), with the flags it sets. -/
def FFmt.convert (f : FFmt) (r : Rnd) (sat : Bool) : Num → Nat × NumFlags
  | .nan =>
    match f.nanCode with
    | some c => (c, {})
    | none => (0, { inv := true })
  | .inf neg =>
    match f.infCode, f.nanCode with
    | some c, _ =>
      if f.width = 8 ∧ sat then (f.signed neg f.maxCode, { ovf := true }) else (f.signed neg c, {})
    | none, some c => if sat then (f.signed neg f.maxCode, { ovf := true }) else (c, { ovf := true })
    | none, none => (f.signed neg f.maxCode, { ovf := true })
  | .fin neg mag e =>
    let c := f.roundCode r neg mag e
    if c ≤ f.maxCode then (f.signed neg c, {})
    else if sat then (f.signed neg f.maxCode, { ovf := true })
    else match f.infCode, f.nanCode with
      | some i, _ => (f.signed neg i, { ovf := true })
      | none, some i => (i, { ovf := true })
      | none, none => (f.signed neg f.maxCode, { ovf := true })

/-! ### Exact operations -/

def Num.zero : Num := .fin false 0 0

def Num.isNan : Num → Bool
  | .nan => true
  | _ => false

def Num.isInf : Num → Bool
  | .inf _ => true
  | _ => false

def Num.isZero : Num → Bool
  | .fin _ m _ => m == 0
  | _ => false

def Num.isFin : Num → Bool
  | .fin _ _ _ => true
  | _ => false

def Num.isNeg : Num → Bool
  | .nan => false
  | .inf n => n
  | .fin n _ _ => n

def Num.neg : Num → Num
  | .nan => .nan
  | .inf n => .inf (!n)
  | .fin n m e => .fin (!n) m e

def Num.abs : Num → Num
  | .nan => .nan
  | .inf _ => .inf false
  | .fin _ m e => .fin false m e

/-- The integer i as an exact value. -/
def Num.ofInt (i : Int) : Num := .fin (i < 0) i.natAbs 0

/-- The value × 2^k. -/
def Num.scale (k : Int) : Num → Num
  | .nan => .nan
  | .inf n => .inf n
  | .fin n m e => .fin n m (e + k)

/-- The exact product; infinity × 0 is NaN. -/
def Num.mul : Num → Num → Num
  | .nan, _ => .nan
  | _, .nan => .nan
  | .inf a, .inf b => .inf (a != b)
  | .inf a, .fin b m _ => if m = 0 then .nan else .inf (a != b)
  | .fin a m _, .inf b => if m = 0 then .nan else .inf (a != b)
  | .fin a m e, .fin b n g => .fin (a != b) (m * n) (e + g)

/-- The signed integer of a finite value in units of 2^q, q at most its exponent. -/
def Num.units (neg : Bool) (m : Nat) (e q : Int) : Int :=
  let v : Int := (m <<< (e - q).toNat : Nat)
  if neg then -v else v

/-- The exact sum; infinity − infinity is NaN; an exact zero sum is +0 unless both terms are −0 (IEEE 754, R41). -/
def Num.add : Num → Num → Num
  | .nan, _ => .nan
  | _, .nan => .nan
  | .inf a, .inf b => if a = b then .inf a else .nan
  | .inf a, .fin _ _ _ => .inf a
  | .fin _ _ _, .inf b => .inf b
  | .fin a m e, .fin b n g =>
    let q := min e g
    let s := Num.units a m e q + Num.units b n g q
    if s = 0 then .fin (a && b && m == 0 && n == 0) 0 q else .fin (s < 0) s.natAbs q

/-- a < b on numbers that are not NaN. -/
def Num.lt : Num → Num → Bool
  | .nan, _ => false
  | _, .nan => false
  | .inf a, .inf b => a && !b
  | .inf a, .fin _ _ _ => a
  | .fin _ _ _, .inf b => !b
  | .fin a m e, .fin b n g =>
    let q := min e g
    decide (Num.units a m e q < Num.units b n g q)

/-- floor(x + 1/2) of the finite value (−1)^neg × m × 2^e. -/
def finRoundHalfUp (neg : Bool) (m : Nat) (e : Int) : Int :=
  if 0 ≤ e then Num.units neg m e 0
  else roundHalfUpShift (if neg then -(m : Int) else (m : Int)) (-e).toNat

/-! ### FP32 arithmetic (R41) -/

def fp32 (x : Nat) : Num := FFmt.fp32.decode x

/-- Round an exact FP32 result to nearest even. A NaN no input of which was NaN sets inv; an overflow of finite inputs
sets ovf (R41). -/
def fp32Result (anyNan : Bool) (x : Num) : Nat × NumFlags :=
  let r := FFmt.fp32.convert .rne false x
  (r.1, { inv := x.isNan && !anyNan, ovf := r.2.ovf })

def fp32Add (a b : Nat) : Nat × NumFlags :=
  fp32Result ((fp32 a).isNan || (fp32 b).isNan) ((fp32 a).add (fp32 b))

def fp32Neg (a : Nat) : Nat := if (fp32 a).isNan then 0x7FC00000 else a ^^^ 0x80000000

def fp32Sub (a b : Nat) : Nat × NumFlags :=
  fp32Result ((fp32 a).isNan || (fp32 b).isNan) ((fp32 a).add (fp32 b).neg)

def fp32Mul (a b : Nat) : Nat × NumFlags :=
  fp32Result ((fp32 a).isNan || (fp32 b).isNan) ((fp32 a).mul (fp32 b))

/-- a × b + c, rounded once. -/
def fp32Fma (a b c : Nat) : Nat × NumFlags :=
  fp32Result ((fp32 a).isNan || (fp32 b).isNan || (fp32 c).isNan) (((fp32 a).mul (fp32 b)).add (fp32 c))

/-! ### Format codes (Table 2.1) -/

/-- The element format of a code; none for INT8, CI16 and the reserved code. -/
def elemFmt (fmt : Nat) : Option FFmt :=
  match fmt with
  | 0 => some .fp32
  | 1 => some .bf16
  | 2 => some .e4m3
  | 3 => some .e5m2
  | 4 => some .e3m2
  | 5 => some .e2m3
  | 6 => some .e2m1
  | 7 => some .e4m3
  | 8 => some .e5m2
  | 9 => some .e3m2
  | 10 => some .e2m3
  | 11 => some .e2m1
  | 12 => some .e2m1
  | _ => none

/-- Bits per element (Table 2.1). -/
def elemBits (fmt : Nat) : Nat :=
  match fmt with
  | 0 => 32
  | 1 => 16
  | 2 | 3 | 7 | 8 | 13 => 8
  | 4 | 5 | 9 | 10 => 6
  | 6 | 11 | 12 => 4
  | 14 => 32
  | _ => 0

/-- Codes 0x7 to 0xC are block formats. -/
def isBlockFmt (fmt : Nat) : Bool := decide (7 ≤ fmt) && decide (fmt ≤ 12)

/-- Codes 0x7 to 0xB are MX formats. -/
def isMxFmt (fmt : Nat) : Bool := decide (7 ≤ fmt) && decide (fmt ≤ 11)

/-- The numeric control byte of Table 2.2. -/
structure NumCtl where
  fmt : Nat
  rnd : Nat
  sat : Bool
  deriving DecidableEq, Repr

def NumCtl.ofByte (b : Nat) : NumCtl := ⟨bits b 0 4, bits b 4 2, bit b 6⟩

/-- fmt = 0xF and rnd = 0b11 are reserved (R36, R37). -/
def NumCtl.ok (c : NumCtl) : Bool := c.fmt != 15 && c.rnd != 3

def NumCtl.rndMode (c : NumCtl) : Rnd := (Rnd.ofCode c.rnd).getD .rne

/-- Conversion into INT8 (R49): round half up, saturate; NaN gives 0 and inv, an infinity the bound and ovf. -/
def convertInt8 : Num → Nat × NumFlags
  | .nan => (0, { inv := true })
  | .inf neg => (if neg then 0x80 else 0x7F, { ovf := true })
  | .fin neg m e =>
    let i := finRoundHalfUp neg m e
    let c := clampInt (-128) 127 i
    (ofSigned 8 c, { sat := c != i })

/-- A CI16 component from an integer shifted right by s, round half up, saturated (R49). -/
def ci16Component (i : Int) (s : Nat) : Nat × NumFlags :=
  let v := roundHalfUpShift i s
  let c := clampInt (-32768) 32767 v
  (ofSigned 16 c, { sat := c != v })

/-- Saturation at the 64-bit bounds of a CI16 accumulator component (R48). -/
def sat64 (i : Int) : Int × NumFlags :=
  let c := clampInt (-(2 ^ 63 : Nat)) ((2 ^ 63 : Nat) - 1) i
  (c, { sat := c != i })

/-- The complex product of two CI16 values (R48), exact. -/
def ci16Mul (a b : Nat) (conjB : Bool) : Int × Int :=
  let ai := toSigned 16 (bits a 0 16)
  let aq := toSigned 16 (bits a 16 16)
  let bi := toSigned 16 (bits b 0 16)
  let bq0 := toSigned 16 (bits b 16 16)
  let bq := if conjB then -bq0 else bq0
  (ai * bi - aq * bq, ai * bq + aq * bi)

/-! ### MX blocks (R42, R44) and BX4 blocks (R45, R46) -/

/-- The E8M0 scale 2^(X − 127) applied to an element; 0xFF makes it NaN (R42). -/
def e8m0Apply (x : Nat) (v : Num) : Num := if x = 255 then .nan else v.scale ((x : Int) - 127)

/-- emax of R44 step 3, by format code. -/
def mxEmax (fmt : Nat) : Int :=
  match fmt with
  | 7 => 8
  | 8 => 15
  | 9 => 4
  | 10 => 2
  | _ => 2

/-- floor(log2) of a finite value that is not zero. -/
def Num.floorLog2 : Num → Int
  | .fin _ m e => e + (m.log2 : Int)
  | _ => 0

/-- Encode a block of inputs (R44): the scale code, the element codes, the flags. -/
def mxEncode (fmt : Nat) (r : Rnd) (xs : List Num) : Nat × List Nat × NumFlags :=
  let anyNan := xs.any Num.isNan
  let anyInf := xs.any Num.isInf
  if anyNan || anyInf then (255, xs.map (fun _ => 0), { inv := anyNan, ovf := anyInf })
  else if xs.all Num.isZero then (127, xs.map (fun _ => 0), {})
  else
    let amax := xs.foldl (fun a x => if Num.lt a x.abs then x.abs else a) Num.zero
    let x0 : Int := amax.floorLog2 - mxEmax fmt + 127
    let x := clampInt 0 254 x0
    let f := (elemFmt fmt).getD .e2m1
    let conv := xs.map (fun v => f.convert r true (v.scale (127 - x)))
    (x.toNat, conv.map (·.1), { ovf := decide (254 < x0) && conv.any (fun c => c.2.ovf) })

/-- Element i of a BX4 block given as its 20 bytes read as one little-endian number (R46). -/
def bx4Elem (blk i : Nat) : Num :=
  let s := bits blk 128 8
  let e := FFmt.e2m1.decode (bits blk (4 * i) 4)
  let pos0 := bits blk 152 4
  let pos1 := bits blk 156 4
  let v :=
    if i = pos0 then e.add (FFmt.e4m3.decode (bits blk 136 8))
    else if i = 16 + pos1 then e.add (FFmt.e4m3.decode (bits blk 144 8))
    else e
  e8m0Apply s v

/-! ### O-RAN block floating point (R50, R51) -/

/-- Decompress one mantissa of width w under exponent e; true when the component saturated. -/
def bfpDecompress (w e mant : Nat) : Nat × Bool :=
  let v := toSigned w mant * (2 ^ e : Nat)
  let c := clampInt (-32768) 32767 v
  (ofSigned 16 c, c != v)

/-- Does every component fit at exponent e (R51)? -/
def bfpFits (w e : Nat) (xs : List Int) : Bool :=
  xs.all (fun x =>
    let v := roundHalfUpShift x e
    decide (-(2 ^ (w - 1) : Nat) ≤ v) && decide (v ≤ (2 ^ (w - 1) : Nat) - 1))

/-- Compress the 24 components of a block at width w: the exponent and the mantissas (R51). -/
def bfpCompress (w : Nat) (xs : List Int) : Nat × List Nat :=
  let e := ((List.range 16).find? (fun e => bfpFits w e xs)).getD 15
  (e, xs.map (fun x =>
    ofSigned w (clampInt (-(2 ^ (w - 1) : Nat)) ((2 ^ (w - 1) : Nat) - 1) (roundHalfUpShift x e))))

/-! ### Anchored records (R56 to R64) -/

/-- An anchored partial record (Table 2.8). The sum is the two's-complement code of 128 bits. -/
structure Rec where
  sum : Nat := 0
  count : Nat := 0
  anchor : Int := 0
  posOvf : Bool := false
  negOvf : Bool := false
  nan : Bool := false
  deriving DecidableEq, Repr

/-- The canonical NaN record (R62). -/
def Rec.nanRec : Rec := { nan := true }

/-- A record with nan set is passed on as the canonical NaN record (R62). -/
def Rec.canon (r : Rec) : Rec := if r.nan then Rec.nanRec else r

/-- Add one term (R58, R59, R60). -/
def Rec.addTerm (r : Rec) (t : Num) : Rec :=
  let r := { r with count := satAdd 32 r.count 1 }
  match t with
  | .nan => { r with nan := true }
  | .inf neg => if neg then { r with negOvf := true } else { r with posOvf := true }
  | .fin neg m e =>
    let g := if m = 0 then 0 else finRoundHalfUp neg m (e - r.anchor)
    if (2 ^ 96 : Nat) ≤ g.natAbs then
      if g < 0 then { r with negOvf := true } else { r with posOvf := true }
    else { r with sum := (r.sum + ofSigned 128 g) % 2 ^ 128 }

/-- Combine two records (R62); true when an anchor mismatch is counted. -/
def Rec.combine (a b : Rec) : Rec × Bool :=
  if a.nan || b.nan then (Rec.nanRec, false)
  else if a.anchor ≠ b.anchor then (Rec.nanRec, true)
  else
    ({ sum := (a.sum + b.sum) % 2 ^ 128, count := satAdd 32 a.count b.count, anchor := a.anchor,
       posOvf := a.posOvf || b.posOvf, negOvf := a.negOvf || b.negOvf, nan := false }, false)

/-- The 32 bytes of a record as one little-endian number (Table 2.8). -/
def Rec.toNat (r : Rec) : Nat :=
  r.sum % 2 ^ 128 + (r.count % 2 ^ 32) <<< 128 + (ofSigned 10 r.anchor) <<< 160 + (b2n r.posOvf) <<< 170
    + (b2n r.negOvf) <<< 171 + (b2n r.nan) <<< 172

/-- A record read from its 32 bytes; the reserved bits are ignored (R10). -/
def Rec.ofNat (x : Nat) : Rec :=
  { sum := bits x 0 128, count := bits x 128 32, anchor := toSigned 10 (bits x 160 10), posOvf := bit x 170,
    negOvf := bit x 171, nan := bit x 172 }

/-- What a record finishes to, before conversion (R64): NaN, a bound of the destination, or the exact value. -/
inductive Finished where
  | nan
  | bound (neg : Bool)
  | value (v : Num)
  deriving DecidableEq, Repr

/-- R64, and R63: a count above 2^31 reads as NaN. -/
def Rec.finish (r : Rec) : Finished :=
  if r.nan || decide (2 ^ 31 < r.count) || (r.posOvf && r.negOvf) then .nan
  else if r.posOvf then .bound false
  else if r.negOvf then .bound true
  else .value ((Num.ofInt (toSigned 128 r.sum)).scale r.anchor)

/-- Finish into a plain floating format (R64), with the flags. -/
def Rec.finishTo (f : FFmt) (rnd : Rnd) (sat : Bool) (r : Rec) : Nat × NumFlags :=
  match r.finish with
  | .nan => ((f.nanCode).getD 0, { inv := true })
  | .bound neg => (f.signed neg f.maxCode, { ovf := true })
  | .value v => f.convert rnd sat v

/-- The value a record contributes to an MX block (R64 step 2), with the flags of the finishing. -/
def Rec.finishMx (fmt : Nat) (r : Rec) : Num × NumFlags :=
  match r.finish with
  | .nan => (.nan, { inv := true })
  | .bound neg =>
    let f := (elemFmt fmt).getD .e2m1
    (((f.decode (f.signed neg f.maxCode)).scale 127), { ovf := true })
  | .value v => (v, {})

/-- Finish into INT8 (R49, R64): a destination without NaN receives +0. -/
def Rec.finishInt8 (r : Rec) : Nat × NumFlags :=
  match r.finish with
  | .nan => (0, { inv := true })
  | .bound neg => (if neg then 0x80 else 0x7F, { ovf := true })
  | .value v => convertInt8 v

/-! ### binary64 (R127) and the functions within 1 ulp (R137) -/

def FFmt.fp64 : FFmt := ⟨64, 52, 1023, 0x7FEFFFFFFFFFFFFF, some 0x7FF0000000000000, some 0x7FF8000000000000⟩

def fp64 (x : Nat) : Num := FFmt.fp64.decode x

/-- Round an exact binary64 result to nearest even, with flags as for FP32. -/
def fp64Result (anyNan : Bool) (x : Num) : Nat × NumFlags :=
  let r := FFmt.fp64.convert .rne false x
  (r.1, { inv := x.isNan && !anyNan, ovf := r.2.ovf })

/-- Floor of the square root, from bit n downward. -/
def isqrtFrom (x : Nat) : Nat → Nat → Nat
  | 0, r => r
  | n + 1, r => isqrtFrom x n (if (r + 2 ^ n) * (r + 2 ^ n) ≤ x then r + 2 ^ n else r)

def isqrt (x : Nat) : Nat := isqrtFrom x (x.log2 / 2 + 1) 0

/-- Are two exact finite values equal? -/
def Num.same (a b : Num) : Bool := !(a.lt b) && !(b.lt a)

/-- One of the FP32 values within 1 ulp of the exact value v: its lower neighbour in magnitude or the one above; when v
is itself an FP32 value (exact, and representable), also the values on either side of it. -/
def within1Ulp (v : Num) (exact : Bool) (pick : Nat) : Nat × NumFlags :=
  match v with
  | .fin neg m e =>
    let c := FFmt.fp32.roundCode .zero neg m e
    let r :=
      if FFmt.fp32.maxCode < c then FFmt.fp32.maxCode + 1
      else if exact && (fp32 c).same (.fin false m e) then c + pick % 3 - 1
      else c + pick % 2
    (FFmt.fp32.signed neg (min r 0x7F800000), { ovf := decide (FFmt.fp32.maxCode < r) })
  | _ => (0x7FC00000, {})

/-- Precision of the enclosures, in bits. -/
def fracBits : Nat := 256

/-- 2^f × 2^256 for the fraction f, from its bits after the point, highest first: root is 2^(2^−i) × 2^256. -/
def exp2Frac (f : Nat) : Nat → Nat → Nat → Nat
  | 0, _, acc => acc
  | n + 1, root, acc =>
    let root := isqrt (root <<< fracBits)
    exp2Frac f n root (if bit f n then (acc * root) >>> fracBits else acc)

/-- 2^a (R137). -/
def vexp (code pick : Nat) : Nat × NumFlags :=
  match fp32 code with
  | .nan => (0x7FC00000, {})
  | .inf neg => (if neg then 0 else 0x7F800000, {})
  | .fin neg m e =>
    let x := Num.units neg m (e + 160) 0
    let i := x / (2 ^ 160 : Nat)
    let f := (x % (2 ^ 160 : Nat)).toNat
    if 128 ≤ i then (0x7F800000, { ovf := true })
    else
      let i := max i (-300)
      within1Ulp (.fin false (exp2Frac f 160 (2 <<< fracBits) (1 <<< fracBits)) (i - fracBits)) (f == 0) pick

/-- 1 / a (R137). -/
def vrcp (code pick : Nat) : Nat × NumFlags :=
  match fp32 code with
  | .nan => (0x7FC00000, {})
  | .inf neg => (FFmt.fp32.signed neg 0, {})
  | .fin neg m e =>
    if m = 0 then (FFmt.fp32.signed neg 0x7F800000, { ovf := true })
    else within1Ulp (.fin neg (2 ^ fracBits / m) (-e - fracBits)) (2 ^ m.log2 == m) pick

/-- 1 / √a (R137). -/
def vrsq (code pick : Nat) : Nat × NumFlags :=
  match fp32 code with
  | .nan => (0x7FC00000, {})
  | .inf neg => if neg then (0x7FC00000, { inv := true }) else (0, {})
  | .fin neg m e =>
    if m = 0 then (FFmt.fp32.signed neg 0x7F800000, { ovf := true })
    else if neg then (0x7FC00000, { inv := true })
    else
      let odd := e % 2 == 1
      let m := if odd then 2 * m else m
      let h := (if odd then e - 1 else e) / 2
      let q := 2 ^ (2 * fracBits) / m
      within1Ulp (.fin false (isqrt q) (-h - fracBits)) (q * m == 2 ^ (2 * fracBits) && isqrt q * isqrt q == q) pick

end Sys2Proof.Machine
end

