-- ==== Sys2Proof/Machine/CoreState.lean ====
section
/-!
DEFINITION. Machine/CoreState.lean: the state of the memories, of the Carafe queues, and of one physical core: the scalar
controller with its threads (chapter 04), the matrix engine (03), the two vector engines (05) and the tile mover (06),
each banked per context (Table 1.5, R113). Plain data.
-/
namespace Sys2Proof.Machine

/-- A byte memory: the bytes that are not zero, by rising address, and what the check codes of its words or lines hold, by the
address of their first byte (R152 to R155): 0 good, 1 an error the code corrects, 2 an uncorrectable error, 3 the poison
syndrome. -/
structure Mem where
  cells : List Host.Cell := []
  marks : List (Nat × Nat) := []
  deriving DecidableEq, Repr

/-- One item of a Carafe (R425): its bits, its priority, its end mark, and whether a word of it has bad parity. -/
structure CItem where
  data : Nat := 0
  prio : Nat := 0
  last : Bool := true
  poison : Bool := false
  deriving DecidableEq, Repr

/-- A Carafe (R425): the items in order of arrival, and the priority of the packet being read. -/
structure Carafe where
  items : List CItem := []
  cur : Option Nat := none
  deriving DecidableEq, Repr

/-- A descriptor queue with its completion queue (R77, R78, R425): reserved completion entries, the abort list of
completion records still to be written, and the queue generation. -/
structure DescQ where
  q : Carafe := {}
  compl : Carafe := {}
  reserved : Nat := 0
  aborts : List Nat := []
  gen : Nat := 0
  deriving DecidableEq, Repr

/-! ### Scalar controller (chapter 04) -/

/-- What a remote access does. -/
inductive RemKind where
  | load
  | store
  | atom (op : AtomOp)
  deriving DecidableEq, Repr

/-- Where an access goes once translated (R192): a device-local address, or a fabric leaf's card, partition and
device-local address there. -/
inductive Target where
  | local (addr : Nat)
  | fabric (card part addr : Nat)
  deriving DecidableEq, Repr

/-- What came back for a remote access. -/
structure Arrived where
  status : Nat
  cause : Nat := 0
  data : Nat := 0
  deriving DecidableEq, Repr

/-- A remote access of a thread (R104): the address named, the bytes, the destination register, the operand, the
comparand of CAS, and how far it has come. -/
structure RemReq where
  kind : RemKind
  addr : Nat
  size : Nat
  rd : Nat := 0
  data : Nat := 0
  cmp : Nat := 0
  target : Option Target := none
  tag : Option Nat := none
  arrived : Option Arrived := none
  orphan : Bool := false
  lvl : Nat := 0
  deriving DecidableEq, Repr

/-- An ISSUE or SPAWN item a thread holds in WAIT_ENG (R112). -/
structure Held where
  eng : Option Eng
  item : CItem
  deriving DecidableEq, Repr

/-- A task accepted by a context (Table 4.3). waits: still waiting on waitEvt. -/
structure Task where
  tag : Nat := 0
  gen : Nat := 0
  entry : Nat := 0
  arg0 : Nat := 0
  arg1 : Nat := 0
  doneEvt : Nat := 0
  prio : Nat := 0
  waitEvt : Nat := 0
  waits : Bool := false
  deriving DecidableEq, Repr

/-- States of a thread (Table 4.1). -/
inductive ThrState where
  | free | active | waitRem | waitEvt | waitEng | fenced
  deriving DecidableEq, Repr

/-- A fault recorded against a thread of a parked context (R113, R202). -/
structure ThrFault where
  status : Nat
  addr : Nat
  deriving DecidableEq, Repr

/-- One hardware thread (R103, R113). Registers x1 to x31 by number; x0 reads 0. -/
structure Thread where
  st : ThrState := .free
  pc : Nat := 0
  regs : List (Nat × Nat) := []
  task : Option Task := none
  rem : Option RemReq := none
  stores : List RemReq := []
  held : Option Held := none
  heldStore : Option RemReq := none
  evt : Nat := 0
  fault : Option ThrFault := none
  deriving DecidableEq, Repr

/-- A task that was cancelled while engine descriptors it cancelled still run (R109): its completion record waits. -/
structure CancelWait where
  tag : Nat
  record : Nat
  deriving DecidableEq, Repr

/-! ### Matrix engine (chapter 03) -/

/-- One row of an accumulator bank (R73 to R75): its mode (0 fast, 1 anchored, 2 CI16), its elements by column, each as
the bits of its accumulator, and its poisoned columns (R94). A column not listed holds zero. -/
structure BankRow where
  mode : Nat := 0
  vals : List (Nat × Nat) := []
  poison : List (Nat × Bool) := []
  deriving DecidableEq, Repr

/-- The key of the active stationary tile (w_keep, Table 3.3). -/
structure TileKey where
  base : Nat
  pitch : Nat
  ctl : Nat
  kChunk : Nat
  nChunk : Nat
  deriving DecidableEq, Repr

/-- A streamed row in the array (R69, R71): its descriptor, pass and index, the bank row it lands in, the terms of each
column, the CI16 component sums, the columns it poisons, whether its first term replaces the held element (acc_init),
and whether a product of it was invalid (R41). -/
structure MeRow where
  job : Nat
  pass : Nat
  m : Nat
  row : Nat
  mode : Nat
  init : Bool
  anchor : Int
  terms : List (List Num) := []
  ci : List (Int × Int) := []
  poison : List Nat := []
  inv : Bool := false
  deriving DecidableEq, Repr

/-- A descriptor the ME has accepted (R83 to R85), with what its completion record will say (Table 3.5). -/
structure MeJob where
  id : Nat
  desc : Nat
  status : Nat := 0
  flags : NumFlags := {}
  wpar : Bool := false
  ramp : Bool := false
  drain : Bool := false
  cancelled : Bool := false
  deriving DecidableEq, Repr

/-- One context of the ME: its queue, its bank by row, the active stationary tile's key and rows (each with its poison),
the anchored cadence (R72), accepted descriptors, and the rows in the array. -/
structure MeCtx where
  dq : DescQ := {}
  bank : List (Nat × BankRow) := []
  tile : Option TileKey := none
  tileRows : List (Nat × Bool) := []
  cadence : Nat := 0
  jobs : List MeJob := []
  array : List MeRow := []
  nextId : Nat := 0
  deriving DecidableEq, Repr

/-! ### Vector engines (chapter 05) -/

/-- One accumulator of a VCE: its mode and its components (element 2i + c of lane i), by index; poisoned lanes. -/
structure VceAcc where
  fp : Bool := true
  vals : List (Nat × Nat) := []
  poison : Nat := 0
  deriving DecidableEq, Repr

/-- A kernel the VCE has accepted (R143 to R145). stop: the status that stopped it. -/
structure VceJob where
  tag : Nat
  gen : Nat
  evt : Nat
  flags : NumFlags := {}
  parked : Bool := false
  stop : Option Nat := none
  cancelled : Bool := false
  deriving DecidableEq, Repr

/-- One context of one VCE (Table 5.1, Table 5.14). Vector registers by number, 2,048 bits each, with the poison of
each of its 64 four-byte units as a mask. rptShort: the repeat in progress runs in runs of at most 16 (R139, R249). -/
structure VceCtx where
  dq : DescQ := {}
  v : List (Nat × Nat) := []
  vp : List (Nat × Nat) := []
  acc : List (Nat × VceAcc) := []
  a : List (Nat × Nat) := []
  b : List (Nat × Nat) := []
  o : List (Nat × Int) := []
  l : List (Nat × Nat) := []
  m : List (Nat × Nat) := []
  pc : Nat := 0
  rptLeft : Nat := 0
  rptPc : Nat := 0
  rptActive : Bool := false
  rptShort : Bool := false
  runLeft : Nat := 0
  loopLeft : Nat := 0
  loopPc : Nat := 0
  loopLen : Nat := 0
  loopActive : Bool := false
  job : Option VceJob := none
  deriving DecidableEq, Repr

/-! ### Tile mover (chapter 06) -/

/-- A staged piece of a run-ahead descriptor (R172, R173): the piece, its buffer, its bytes, poisoned lines. -/
structure Staged where
  piece : Nat
  buf : Nat
  data : List Nat
  poison : List Nat
  deriving DecidableEq, Repr

/-- A descriptor the TME has accepted (R165 to R175). -/
structure TmeJob where
  desc : Nat
  done : Nat := 0
  status : Nat := 0
  poisoned : Bool := false
  ended : Bool := false
  ra : Bool := false
  committed : Bool := false
  staged : List Staged := []
  raNext : Nat := 0
  deriving DecidableEq, Repr

/-- One context of the TME: accepted descriptors in order, and the 16 convolution slots (R168), each with its valid
bit and its 256-bit record. flight: transfers that may still end after the context was parked (R169). -/
structure TmeCtx where
  dq : DescQ := {}
  jobs : List TmeJob := []
  conv : List (Nat × (Bool × Nat)) := []
  flight : Nat := 0
  deriving DecidableEq, Repr

/-! ### One core -/

/-- What one context of a core holds (Table 1.5, R113). -/
structure CoreCtx where
  threads : List (Nat × Thread) := []
  events : List (Nat × Nat) := []
  tq : DescQ := {}
  tasks : List Task := []
  cancels : List CancelWait := []
  me : MeCtx := {}
  vce0 : VceCtx := {}
  vce1 : VceCtx := {}
  tme : TmeCtx := {}
  deriving DecidableEq, Repr

/-- A program load in progress (R117, R118). -/
structure PmLoad where
  ctx : Ctx
  src : Nat
  dst : Nat
  len : Nat
  done : Nat := 0
  deriving DecidableEq, Repr

/-- One physical core. owner: true while the elastic context owns it (Table 4.12). group: the gate group followed,
0x7F none (R19). -/
structure Core where
  t : CoreCtx := {}
  e : CoreCtx := {}
  owner : Ctx := .elastic
  fenced : Bool := false
  group : Nat := 0x7F
  tEntry : Bool := false
  scr : Mem := {}
  pm : List (Nat × Nat) := []
  pmMark : List (Nat × Bool) := []
  load : Option PmLoad := none
  tampLevel : Nat := 0
  tampCredit : Nat := 0
  tampBallast : Bool := false
  tampWarmLeft : Nat := 0
  deriving DecidableEq, Repr

end Sys2Proof.Machine
end

