-- ==== Sys2Proof/Machine/Regs.lean ====
section
/-!
DEFINITION. Machine/Regs.lean: the register maps of the control region (R513 to R515): the address of every register
that the tables of chapters 03 to 20 list (its offset from 0x0300_0000_0000), with its fields' access codes (R8), its
reset value (R9), and how a write takes effect field by field (R8, R10, R11).
-/
namespace Sys2Proof.Machine

/-- Access codes (Table 0.2). -/
inductive Acc where
  | ro | rw | wo | w1c | w1s | rc | rwl
  deriving DecidableEq, Repr

/-- A register, or an array of n1 × n2 registers at base + s1 i + s2 j: its reset value and its fields (lowest bit,
width, access code). -/
structure RegDesc where
  name : String
  base : Nat
  n1 : Nat
  s1 : Nat
  n2 : Nat
  s2 : Nat
  reset : Nat
  fields : List (Nat × Nat × Acc)
  deriving DecidableEq, Repr

/-- Is a the address of a register of this array? -/
def RegDesc.holds (d : RegDesc) (a : Nat) : Bool :=
  if a < d.base then false
  else
    let r := a - d.base
    let i := r / d.s1
    let rem := if d.n1 = 1 then r else r % d.s1
    let i := if d.n1 = 1 then 0 else i
    decide (i < d.n1) && decide (rem % d.s2 = 0) && decide (rem / d.s2 < d.n2)

/-! ### Addresses -/

def ME_CTRL (core : Nat) : Nat := 0x3200200 + 0x1000 * core
def ME_STATUS (core : Nat) : Nat := 0x3200208 + 0x1000 * core
def ME_REPAIR (core : Nat) : Nat := 0x3200210 + 0x1000 * core
def ME_FLAGS_T (core : Nat) : Nat := 0x3200218 + 0x1000 * core
def ME_FLAGS_E (core : Nat) : Nat := 0x3200220 + 0x1000 * core
def ME_QSTAT_T (core : Nat) : Nat := 0x3200228 + 0x1000 * core
def ME_QSTAT_E (core : Nat) : Nat := 0x3200230 + 0x1000 * core
def ME_QGEN (core : Nat) : Nat := 0x3200238 + 0x1000 * core
def ME_QRESET (core : Nat) : Nat := 0x3200240 + 0x1000 * core
def ME_ROWS_T (core : Nat) : Nat := 0x3200248 + 0x1000 * core
def ME_ROWS_E (core : Nat) : Nat := 0x3200250 + 0x1000 * core
def ME_BALLAST_CNT (core : Nat) : Nat := 0x3200258 + 0x1000 * core
def ME_STALE_CNT (core : Nat) : Nat := 0x3200260 + 0x1000 * core
def ME_AMIS_CNT (core : Nat) : Nat := 0x3200268 + 0x1000 * core
def ME_WPAR_CNT (core : Nat) : Nat := 0x3200270 + 0x1000 * core
def ME_REFUSE_CNT (core : Nat) : Nat := 0x3200278 + 0x1000 * core
def ME_ACT_DESC_T (core w : Nat) : Nat := 0x3200300 + 0x1000 * core + 8 * w
def ME_ACT_DESC_E (core w : Nat) : Nat := 0x3200340 + 0x1000 * core + 8 * w
def RAS_CORE_STATE (core : Nat) : Nat := 0x3200000 + 0x1000 * core
def CGL_CORE_SEL (core : Nat) : Nat := 0x3200008 + 0x1000 * core
def CGL_CORE_SWITCH_CNT (core : Nat) : Nat := 0x3200010 + 0x1000 * core
def PRT_THR_STATE_T (core : Nat) : Nat := 0x3200018 + 0x1000 * core
def PRT_THR_STATE_E (core : Nat) : Nat := 0x3200020 + 0x1000 * core
def PRT_TQ_STAT_T (core : Nat) : Nat := 0x3200028 + 0x1000 * core
def PRT_TQ_STAT_E (core : Nat) : Nat := 0x3200030 + 0x1000 * core
def PRT_TQ_GEN (core : Nat) : Nat := 0x3200038 + 0x1000 * core
def PRT_TQ_RESET (core : Nat) : Nat := 0x3200040 + 0x1000 * core
def PRT_TASK_CANCEL_T (core : Nat) : Nat := 0x3200048 + 0x1000 * core
def PRT_TASK_CANCEL_E (core : Nat) : Nat := 0x3200050 + 0x1000 * core
def PRT_CANCEL_MISS_CNT (core : Nat) : Nat := 0x3200058 + 0x1000 * core
def PRT_EVT_OVF_CNT (core : Nat) : Nat := 0x3200060 + 0x1000 * core
def PRT_TQ_STALE_CNT (core : Nat) : Nat := 0x3200068 + 0x1000 * core
def MEM_PM_HOLD (core : Nat) : Nat := 0x3200100 + 0x1000 * core
def MEM_PM_SRC (core : Nat) : Nat := 0x3200108 + 0x1000 * core
def MEM_PM_DST (core : Nat) : Nat := 0x3200110 + 0x1000 * core
def MEM_PM_LEN (core : Nat) : Nat := 0x3200118 + 0x1000 * core
def MEM_PM_GO (core : Nat) : Nat := 0x3200120 + 0x1000 * core
def MEM_PM_STATUS (core : Nat) : Nat := 0x3200128 + 0x1000 * core
def MEM_PM_REFUSE_CNT (core : Nat) : Nat := 0x3200130 + 0x1000 * core
def MEM_PM_CE_CNT (core : Nat) : Nat := 0x3200138 + 0x1000 * core
def MEM_PM_UE_CNT (core : Nat) : Nat := 0x3200140 + 0x1000 * core
def RAS_CORE_FAULT_T (core : Nat) : Nat := 0x3200180 + 0x1000 * core
def RAS_CORE_FAULT_E (core : Nat) : Nat := 0x3200188 + 0x1000 * core
def RAS_CORE_FADDR_T (core : Nat) : Nat := 0x3200190 + 0x1000 * core
def RAS_CORE_FADDR_E (core : Nat) : Nat := 0x3200198 + 0x1000 * core
def RAS_CORE_FENCE (core : Nat) : Nat := 0x32001a0 + 0x1000 * core
def RAS_CORE_MAP (core : Nat) : Nat := 0x32001a8 + 0x1000 * core
def VCE_CTRL (core v : Nat) : Nat := 0x3200400 + 0x1000 * core + 0x100 * v
def VCE_STATUS (core v : Nat) : Nat := 0x3200408 + 0x1000 * core + 0x100 * v
def VCE_FLAGS_T (core v : Nat) : Nat := 0x3200410 + 0x1000 * core + 0x100 * v
def VCE_FLAGS_E (core v : Nat) : Nat := 0x3200418 + 0x1000 * core + 0x100 * v
def VCE_QSTAT_T (core v : Nat) : Nat := 0x3200420 + 0x1000 * core + 0x100 * v
def VCE_QSTAT_E (core v : Nat) : Nat := 0x3200428 + 0x1000 * core + 0x100 * v
def VCE_QGEN (core v : Nat) : Nat := 0x3200430 + 0x1000 * core + 0x100 * v
def VCE_QRESET (core v : Nat) : Nat := 0x3200438 + 0x1000 * core + 0x100 * v
def VCE_INSTR_T (core v : Nat) : Nat := 0x3200440 + 0x1000 * core + 0x100 * v
def VCE_INSTR_E (core v : Nat) : Nat := 0x3200448 + 0x1000 * core + 0x100 * v
def VCE_STALE_CNT (core v : Nat) : Nat := 0x3200450 + 0x1000 * core + 0x100 * v
def VCE_PORT_WAIT_CNT (core v : Nat) : Nat := 0x3200458 + 0x1000 * core + 0x100 * v
def VCE_RPT_T (core v : Nat) : Nat := 0x3200460 + 0x1000 * core + 0x100 * v
def VCE_RPT_E (core v : Nat) : Nat := 0x3200468 + 0x1000 * core + 0x100 * v
def VCE_FAULT_T (core v : Nat) : Nat := 0x3200470 + 0x1000 * core + 0x100 * v
def VCE_FAULT_E (core v : Nat) : Nat := 0x3200478 + 0x1000 * core + 0x100 * v
def MEM_HBM_CFG : Nat := 0x10000
def MEM_HARQ_BASE : Nat := 0x10008
def MEM_RA_POOL_CFG : Nat := 0x10010
def MEM_SCRUB_CFG : Nat := 0x10018
def MEM_HBM_CE_CNT : Nat := 0x10020
def MEM_HBM_UE_CNT : Nat := 0x10028
def MEM_SILO_CE_CNT : Nat := 0x10030
def MEM_SILO_UE_CNT : Nat := 0x10038
def MEM_POISON_RD_CNT : Nat := 0x10040
def MEM_ALLOC_REFUSE_CNT : Nat := 0x10048
def MEM_CL_ERR (i : Nat) : Nat := 0x11000 + 0x8 * i
def MEM_SCR_ERR (i : Nat) : Nat := 0x12000 + 0x8 * i
def MEM_POOL_CFG (i : Nat) : Nat := 0x14000 + 0x20 * i
def MEM_POOL_BASE (i : Nat) : Nat := 0x14008 + 0x20 * i
def MEM_POOL_STAT (i : Nat) : Nat := 0x14010 + 0x20 * i
def MEM_POOL_CNT (i : Nat) : Nat := 0x14018 + 0x20 * i
def TME_CTRL (core : Nat) : Nat := 0x3200800 + 0x1000 * core
def TME_STATUS (core : Nat) : Nat := 0x3200808 + 0x1000 * core
def TME_QSTAT_T (core : Nat) : Nat := 0x3200810 + 0x1000 * core
def TME_QSTAT_E (core : Nat) : Nat := 0x3200818 + 0x1000 * core
def TME_QGEN (core : Nat) : Nat := 0x3200820 + 0x1000 * core
def TME_QRESET (core : Nat) : Nat := 0x3200828 + 0x1000 * core
def TME_RA_CFG (core : Nat) : Nat := 0x3200830 + 0x1000 * core
def TME_RA_STAT (core : Nat) : Nat := 0x3200838 + 0x1000 * core
def TME_RA_REFUSE_CNT (core : Nat) : Nat := 0x3200840 + 0x1000 * core
def TME_RA_DISCARD_CNT (core : Nat) : Nat := 0x3200848 + 0x1000 * core
def TME_STALE_CNT (core : Nat) : Nat := 0x3200850 + 0x1000 * core
def TME_BYTES_T (core : Nat) : Nat := 0x3200858 + 0x1000 * core
def TME_BYTES_E (core : Nat) : Nat := 0x3200860 + 0x1000 * core
def TME_FAULT_T (core : Nat) : Nat := 0x3200868 + 0x1000 * core
def TME_FAULT_E (core : Nat) : Nat := 0x3200870 + 0x1000 * core
def TME_CONV_T (core w : Nat) : Nat := 0x3200900 + 0x1000 * core + 8 * w
def TME_CONV_E (core w : Nat) : Nat := 0x3200a00 + 0x1000 * core + 8 * w
def XLT_INV_CMD : Nat := 0x20000
def XLT_INV_ADDR : Nat := 0x20008
def XLT_INV_SIZE : Nat := 0x20010
def XLT_INV_STATUS : Nat := 0x20018
def XLT_UTLB_MISS_CNT : Nat := 0x20020
def XLT_CTLB_MISS_CNT : Nat := 0x20028
def XLT_WALK_CNT : Nat := 0x20030
def XLT_XLAT_FAULT_CNT : Nat := 0x20038
def XLT_MALFORMED_CNT : Nat := 0x20040
def XLT_STALE_CNT : Nat := 0x20048
def XLT_VLOG_HEAD : Nat := 0x20050
def XLT_VLOG_LOST : Nat := 0x20058
def XLT_GLOG_HEAD : Nat := 0x20060
def XLT_GLOG_LOST : Nat := 0x20068
def XLT_DTLB_MISS_CNT : Nat := 0x20070
def XLT_VLOG (w : Nat) : Nat := 0x21000 + 8 * w
def XLT_GLOG (w : Nat) : Nat := 0x29000 + 8 * w
def XLT_CTX (i w : Nat) : Nat := 0x2a000 + 0x20 * i + 8 * w
def CLK_STATUS : Nat := 0x0
def CLK_EVENT : Nat := 0x8
def CLK_SRC_CFG : Nat := 0x10
def CLK_GLIDE_CFG : Nat := 0x18
def CLK_EN_HUB : Nat := 0x20
def CLK_EN_ISL : Nat := 0x28
def CLK_REFUSE_CNT : Nat := 0x30
def CLK_PLL_LOCK : Nat := 0x38
def CLK_PLL_LOCK_HUB : Nat := 0x40
def CLK_ISL (i : Nat) : Nat := 0x100 + 0x8 * i
def TIME_CNT : Nat := 0x1000
def TIME_NOW_NS : Nat := 0x1008
def TIME_NOW_SUB : Nat := 0x1010
def TIME_STEP : Nat := 0x1018
def TIME_ADJ : Nat := 0x1020
def TIME_OFF0 : Nat := 0x1028
def TIME_OFF1 : Nat := 0x1030
def TIME_BASE : Nat := 0x1038
def TIME_STATUS : Nat := 0x1040
def TIME_EVENT : Nat := 0x1048
def TIME_CTRL : Nat := 0x1050
def TIME_SERVO_CFG : Nat := 0x1058
def TIME_SERVO_THR : Nat := 0x1060
def TIME_SERVO_OFS : Nat := 0x1068
def TIME_SERVO_ACC : Nat := 0x1070
def TIME_SERVO_CNT : Nat := 0x1078
def TIME_CMP (i : Nat) : Nat := 0x1080 + 0x8 * i
def TIME_CMP_CFG (i : Nat) : Nat := 0x1100 + 0x8 * i
def TIME_PORT_ING_LAT (i : Nat) : Nat := 0x1200 + 0x20 * i
def TIME_PORT_EGR_LAT (i : Nat) : Nat := 0x1208 + 0x20 * i
def TIME_PORT_ASYM (i : Nat) : Nat := 0x1210 + 0x20 * i
def CGL_STATUS : Nat := 0xc0000
def CGL_EVENT : Nat := 0xc0008
def CGL_OVERRUN_CNT : Nat := 0xc0010
def CGL_DEFER_CNT : Nat := 0xc0018
def CGL_PHASE_CNT : Nat := 0xc0020
def CGL_REFUSE_CNT : Nat := 0xc0028
def CGL_STARVE_CNT : Nat := 0xc0030
def CGL_EXEC_ERR_CNT : Nat := 0xc0038
def CGL_STARVE_CFG : Nat := 0xc0040
def CGL_LIST_CFG (i : Nat) : Nat := 0xc1000 + 0x80 * i
def CGL_ADMIN_BASE (i : Nat) : Nat := 0xc1008 + 0x80 * i
def CGL_ADMIN_CYCLE (i : Nat) : Nat := 0xc1010 + 0x80 * i
def CGL_ADMIN_LEN (i : Nat) : Nat := 0xc1018 + 0x80 * i
def CGL_CMD (i : Nat) : Nat := 0xc1020 + 0x80 * i
def CGL_OPER_STAT (i : Nat) : Nat := 0xc1028 + 0x80 * i
def CGL_OPER_BASE (i : Nat) : Nat := 0xc1030 + 0x80 * i
def CGL_OPER_CYCLE (i : Nat) : Nat := 0xc1038 + 0x80 * i
def CGL_CYCLE_CNT (i : Nat) : Nat := 0xc1040 + 0x80 * i
def CGL_ADMIN_ENT (i j : Nat) : Nat := 0xd0000 + 0x800 * i + 0x8 * j
def CGL_OPER_ENT (i j : Nat) : Nat := 0xe0000 + 0x800 * i + 0x8 * j
def CGL_LC_GRP (i : Nat) : Nat := 0xf0000 + 0x8 * i
def BRS_CTRL : Nat := 0x40000
def BRS_STATUS : Nat := 0x40008
def BRS_ADMIT_CNT : Nat := 0x40010
def BRS_DELAY_CNT : Nat := 0x40018
def BRS_REFUSE_CNT : Nat := 0x40020
def BRS_PASS_CNT : Nat := 0x40028
def BRS_SPILL_CNT : Nat := 0x40030
def BRS_RELOAD_CNT : Nat := 0x40038
def BRS_EVICT_CNT : Nat := 0x40040
def BRS_PFX_HIT_CNT : Nat := 0x40048
def BRS_PFX_SKIP_CNT : Nat := 0x40050
def BRS_SPEC_DISCARD_CNT : Nat := 0x40058
def BRS_ABORT_CNT : Nat := 0x40060
def BRS_STALE_CNT : Nat := 0x40068
def BRS_REFUSE_ST_CNT : Nat := 0x40070
def BRS_OUT_STALL_CNT : Nat := 0x40078
def BRS_PART_QUOTA (i : Nat) : Nat := 0x40100 + 0x8 * i
def BRS_PART_USED (i : Nat) : Nat := 0x40180 + 0x8 * i
def BRS_GRP_STAT (i : Nat) : Nat := 0x41000 + 0x40 * i
def BRS_GRP_CFG0 (i : Nat) : Nat := 0x41008 + 0x40 * i
def BRS_GRP_CFG1 (i : Nat) : Nat := 0x41010 + 0x40 * i
def BRS_GRP_CFG2 (i : Nat) : Nat := 0x41018 + 0x40 * i
def BRS_GRP_XCH (i : Nat) : Nat := 0x41020 + 0x40 * i
def BRS_GRP_STEP (i : Nat) : Nat := 0x41028 + 0x40 * i
def BRS_GRP_EPOCH (i : Nat) : Nat := 0x41030 + 0x40 * i
def BRS_GRP_OUT (i : Nat) : Nat := 0x41038 + 0x40 * i
def FAB_CTRL : Nat := 0x2000000
def FAB_CARD_ID : Nat := 0x2000008
def FAB_STATUS : Nat := 0x2000010
def FAB_TAG_CFG : Nat := 0x2000018
def FAB_TIMEOUT : Nat := 0x2000020
def FAB_HASH_CFG : Nat := 0x2000028
def FAB_GW_CFG : Nat := 0x2000030
def FAB_TIME_UNC : Nat := 0x2000038
def FAB_XD_CFG : Nat := 0x2000040
def FAB_EVENT : Nat := 0x2000048
def FAB_TX_REQ_CNT : Nat := 0x2000050
def FAB_RX_REQ_CNT : Nat := 0x2000058
def FAB_TAG_WAIT_CNT : Nat := 0x2000060
def FAB_TIMEOUT_CNT : Nat := 0x2000068
def FAB_LATE_CNT : Nat := 0x2000070
def FAB_UNREACH_CNT : Nat := 0x2000078
def FAB_MISROUTE_CNT : Nat := 0x2000080
def FAB_REFUSED_IN_CNT : Nat := 0x2000088
def FAB_XD_RETRY_CNT : Nat := 0x2000090
def FAB_SPEC_DISCARD_CNT : Nat := 0x2000098
def FAB_STALE_CNT : Nat := 0x20000a0
def FAB_AMIS_CNT : Nat := 0x20000a8
def FAB_IN_CFG (i : Nat) : Nat := 0x2000100 + 0x8 * i
def FAB_GW_STAT (i : Nat) : Nat := 0x2000200 + 0x8 * i
def FAB_XR_CFG (i : Nat) : Nat := 0x2001000 + 0x20 * i
def FAB_XR_HEAD (i : Nat) : Nat := 0x2001008 + 0x20 * i
def FAB_XI_CFG (i : Nat) : Nat := 0x2002000 + 0x20 * i
def FAB_XI_BASE (i : Nat) : Nat := 0x2002008 + 0x20 * i
def FAB_XI_STAT (i : Nat) : Nat := 0x2002010 + 0x20 * i
def FAB_XI_CNT (i : Nat) : Nat := 0x2002018 + 0x20 * i
def FAB_PEER (i j : Nat) : Nat := 0x2008000 + 0x200 * i + 0x8 * j
def FAB_ROUTE (i : Nat) : Nat := 0x2010000 + 0x8 * i
def FAB_XDIR (i w : Nat) : Nat := 0x2100000 + 0x10 * i + 8 * w
def FAB_XR_RING (i w : Nat) : Nat := 0x2400000 + 0x10000 * i + 8 * w
def FAB_XR_TAIL (i : Nat) : Nat := 0x240f000 + 0x10000 * i
def FAB_XI_NEXT (i : Nat) : Nat := 0x2800000 + 0x10000 * i
def FAB_XI_DONE (i : Nat) : Nat := 0x2800008 + 0x10000 * i
def LNK_WIN : Nat := 0x60000
def LNK_SELF_ID : Nat := 0x60008
def LNK_EVENT : Nat := 0x60010
def LNK_STATUS : Nat := 0x60018
def LNK_CFG (i : Nat) : Nat := 0x61000 + 0x400 * i
def LNK_CMD (i : Nat) : Nat := 0x61008 + 0x400 * i
def LNK_STATE (i : Nat) : Nat := 0x61010 + 0x400 * i
def LNK_PARTNER_ID (i : Nat) : Nat := 0x61018 + 0x400 * i
def LNK_PARTNER_PORT (i : Nat) : Nat := 0x61020 + 0x400 * i
def LNK_RTT (i : Nat) : Nat := 0x61028 + 0x400 * i
def LNK_REPLAY_CFG (i : Nat) : Nat := 0x61030 + 0x400 * i
def LNK_SEQ (i : Nat) : Nat := 0x61038 + 0x400 * i
def LNK_CW_CNT (i : Nat) : Nat := 0x61040 + 0x400 * i
def LNK_CW_CORR_CNT (i : Nat) : Nat := 0x61048 + 0x400 * i
def LNK_CW_UNCORR_CNT (i : Nat) : Nat := 0x61050 + 0x400 * i
def LNK_CRC_ERR_CNT (i : Nat) : Nat := 0x61058 + 0x400 * i
def LNK_NAK_CNT (i : Nat) : Nat := 0x61060 + 0x400 * i
def LNK_REPLAY_CNT (i : Nat) : Nat := 0x61068 + 0x400 * i
def LNK_DUP_CNT (i : Nat) : Nat := 0x61070 + 0x400 * i
def LNK_PROTO_ERR_CNT (i : Nat) : Nat := 0x61078 + 0x400 * i
def LNK_RECOV_CNT (i : Nat) : Nat := 0x61080 + 0x400 * i
def LNK_DOWN_CNT (i : Nat) : Nat := 0x61088 + 0x400 * i
def LNK_DROP_CNT (i : Nat) : Nat := 0x61090 + 0x400 * i
def LNK_SWAP_CNT (i : Nat) : Nat := 0x61098 + 0x400 * i
def LNK_ARB_CNT (i : Nat) : Nat := 0x610a0 + 0x400 * i
def LNK_LANE_SYM (i j : Nat) : Nat := 0x61100 + 0x400 * i + 0x8 * j
def LNK_FIR (i j : Nat) : Nat := 0x61180 + 0x400 * i + 0x8 * j
def LNK_EC_STAT (i j : Nat) : Nat := 0x61200 + 0x400 * i + 0x8 * j
def FEC_CTRL : Nat := 0xc00000
def FEC_STATUS : Nat := 0xc00008
def FEC_EVENT : Nat := 0xc00010
def FEC_ENVELOPE : Nat := 0xc00018
def FEC_DEC_CB_CNT : Nat := 0xc00020
def FEC_DEC_ITER_CNT : Nat := 0xc00028
def FEC_ENC_CB_CNT : Nat := 0xc00030
def FEC_CB_FAIL_CNT : Nat := 0xc00038
def FEC_TB_FAIL_CNT : Nat := 0xc00040
def FEC_LATE_CNT : Nat := 0xc00048
def FEC_HARQ_LOST_CNT : Nat := 0xc00050
def FEC_STALE_CNT : Nat := 0xc00058
def FEC_REFUSE_CNT : Nat := 0xc00060
def FEC_UNIT_ERR_CNT : Nat := 0xc00068
def FEC_UNIT_RETIRED : Nat := 0xc00070
def FEC_QCFG (i : Nat) : Nat := 0xc00100 + 0x40 * i
def FEC_QRING (i : Nat) : Nat := 0xc00108 + 0x40 * i
def FEC_QRPTR (i : Nat) : Nat := 0xc00110 + 0x40 * i
def FEC_QSTAT (i : Nat) : Nat := 0xc00118 + 0x40 * i
def FEC_QGEN (i : Nat) : Nat := 0xc00120 + 0x40 * i
def FEC_QCTL (i : Nat) : Nat := 0xc00128 + 0x40 * i
def FEC_CELL (i w : Nat) : Nat := 0xc04000 + 0x80 * i + 8 * w
def FEC_CELL_CMD (i : Nat) : Nat := 0xc0c000 + 0x8 * i
def FEC_CELL_STAT (i : Nat) : Nat := 0xc0c800 + 0x8 * i
def FEC_CELL_MISS (i : Nat) : Nat := 0xc0d000 + 0x8 * i
def FEC_QWIN (i w : Nat) : Nat := 0xd00000 + 0x10000 * i + 8 * w
def FH_MASK_CFG : Nat := 0x180000
def FH_MASK_EVENT : Nat := 0x180008
def FH_MASK_VIOL_CNT : Nat := 0x180010
def FH_MASK_CHK_CNT : Nat := 0x180018
def FH_MASK_MUTED0 : Nat := 0x180020
def FH_MASK_MUTED1 : Nat := 0x180028
def FH_MASK_UNMUTE : Nat := 0x180030
def FH_MASK_LOG_HEAD : Nat := 0x180038
def FH_MASK_ENT (i j : Nat) : Nat := 0x181000 + 0x200 * i + 0x8 * j
def FH_MASK_LOG (w : Nat) : Nat := 0x184000 + 8 * w
def FH_CTRL : Nat := 0x100000
def FH_EVENT : Nat := 0x100008
def FH_PORT_CFG (i : Nat) : Nat := 0x101000 + 0x100 * i
def FH_PORT_CMD (i : Nat) : Nat := 0x101008 + 0x100 * i
def FH_PORT_STAT (i : Nat) : Nat := 0x101010 + 0x100 * i
def FH_PORT_MAC (i : Nat) : Nat := 0x101018 + 0x100 * i
def FH_RX_FRAMES (i : Nat) : Nat := 0x101020 + 0x100 * i
def FH_RX_FCS (i : Nat) : Nat := 0x101028 + 0x100 * i
def FH_RX_LEN (i : Nat) : Nat := 0x101030 + 0x100 * i
def FH_RX_CTRL (i : Nat) : Nat := 0x101038 + 0x100 * i
def FH_RX_BADHDR (i : Nat) : Nat := 0x101040 + 0x100 * i
def FH_RX_NOMATCH (i : Nat) : Nat := 0x101048 + 0x100 * i
def FH_RX_EARLY (i : Nat) : Nat := 0x101050 + 0x100 * i
def FH_RX_LATE (i : Nat) : Nat := 0x101058 + 0x100 * i
def FH_RX_SEQGAP (i : Nat) : Nat := 0x101060 + 0x100 * i
def FH_RX_SAT (i : Nat) : Nat := 0x101068 + 0x100 * i
def FH_TX_FRAMES (i : Nat) : Nat := 0x101070 + 0x100 * i
def FH_TX_SAT (i : Nat) : Nat := 0x101078 + 0x100 * i
def FH_TX_CRC_BAD (i : Nat) : Nat := 0x101080 + 0x100 * i
def FH_CLS (i w : Nat) : Nat := 0x102000 + 0x10 * i + 8 * w
def FH_CELLX (i w : Nat) : Nat := 0x104000 + 0x20 * i + 8 * w
def TM_CTRL : Nat := 0x400000
def TM_QSPLIT : Nat := 0x400008
def TM_BUF_CFG : Nat := 0x400010
def TM_BUF_STAT : Nat := 0x400018
def TM_EVENT : Nat := 0x400020
def TM_DROP_POL : Nat := 0x400028
def TM_DROP_TAIL : Nat := 0x400030
def TM_DROP_BUF : Nat := 0x400038
def TM_DROP_YEL : Nat := 0x400040
def TM_DROP_LATE : Nat := 0x400048
def TM_DROP_GATE : Nat := 0x400050
def TM_DROP_DOWN : Nat := 0x400058
def TM_REFUSE_CNT : Nat := 0x400060
def TM_STALE_CNT : Nat := 0x400068
def TM_MC_PARTIAL_CNT : Nat := 0x400070
def TM_GATE_CFG (i : Nat) : Nat := 0x401000 + 0x40 * i
def TM_GATE_ADMIN_BASE (i : Nat) : Nat := 0x401008 + 0x40 * i
def TM_GATE_ADMIN_CYCLE (i : Nat) : Nat := 0x401010 + 0x40 * i
def TM_GATE_ADMIN_LEN (i : Nat) : Nat := 0x401018 + 0x40 * i
def TM_GATE_CMD (i : Nat) : Nat := 0x401020 + 0x40 * i
def TM_GATE_OPER_STAT (i : Nat) : Nat := 0x401028 + 0x40 * i
def TM_GATE_OPER_BASE (i : Nat) : Nat := 0x401030 + 0x40 * i
def TM_GATE_OPER_CYCLE (i : Nat) : Nat := 0x401038 + 0x40 * i
def TM_ENQ_CFG (i : Nat) : Nat := 0x402000 + 0x40 * i
def TM_ENQ_RING (i : Nat) : Nat := 0x402008 + 0x40 * i
def TM_ENQ_RPTR (i : Nat) : Nat := 0x402010 + 0x40 * i
def TM_ENQ_STAT (i : Nat) : Nat := 0x402018 + 0x40 * i
def TM_ENQ_GEN (i : Nat) : Nat := 0x402020 + 0x40 * i
def TM_ENQ_CTL (i : Nat) : Nat := 0x402028 + 0x40 * i
def TM_MCG (i : Nat) : Nat := 0x404000 + 0x8 * i
def TM_MCG_Q (i j : Nat) : Nat := 0x408000 + 0x100 * i + 0x8 * j
def TM_NODE (i : Nat) : Nat := 0x420000 + 0x8 * i
def TM_POL0 (i : Nat) : Nat := 0x424000 + 0x8 * i
def TM_POL1 (i : Nat) : Nat := 0x426000 + 0x8 * i
def TM_SHP (i : Nat) : Nat := 0x428000 + 0x10 * i
def TM_SHP_CRED (i : Nat) : Nat := 0x428008 + 0x10 * i
def TM_QCFG (i : Nat) : Nat := 0x440000 + 0x20 * i
def TM_QSTAT (i : Nat) : Nat := 0x440008 + 0x20 * i
def TM_QCNT (i : Nat) : Nat := 0x440010 + 0x20 * i
def TM_GATE_ADMIN_ENT (i j : Nat) : Nat := 0x4c0000 + 0x2000 * i + 0x8 * j
def TM_GATE_OPER_ENT (i j : Nat) : Nat := 0x4d0000 + 0x2000 * i + 0x8 * j
def TM_ENQ_WIN (i w : Nat) : Nat := 0x500000 + 0x10000 * i + 8 * w
def PRT_MODE : Nat := 0x30000
def PRT_EVENT : Nat := 0x30008
def PRT_CMD : Nat := 0x30010
def PRT_CMD_ARG : Nat := 0x30018
def PRT_CMD_STATUS : Nat := 0x30020
def PRT_RECLAIM_CFG : Nat := 0x30028
def PRT_REFUSE_CNT : Nat := 0x30030
def PRT_STALE_CNT : Nat := 0x30038
def PRT_PART (i w : Nat) : Nat := 0x30100 + 0x40 * i + 8 * w
def PRT_PART_STAT (i : Nat) : Nat := 0x30120 + 0x40 * i
def PRT_RECLAIM_AT (i : Nat) : Nat := 0x30128 + 0x40 * i
def PRT_INST (i : Nat) : Nat := 0x31000 + 0x8 * i
def PRT_LC_INST (i : Nat) : Nat := 0x32000 + 0x8 * i
def MBX_DROP_CNT : Nat := 0x80000
def MBX_POISON_CNT : Nat := 0x80008
def MBX_STALE_CNT : Nat := 0x80010
def MBX_ABORT_CNT : Nat := 0x80018
def MBX_MC_RECV (w : Nat) : Nat := 0x80100 + 8 * w
def MBX_EP_RECV (i w : Nat) : Nat := 0x80200 + 0x40 * i + 8 * w
def MBX_EP_CFG (i : Nat) : Nat := 0x80600 + 0x8 * i
def MBX_EP_STAT (i : Nat) : Nat := 0x80680 + 0x8 * i
def MBX_CHAN_STAT (i : Nat) : Nat := 0x81000 + 0x8 * i
def MBX_MC_SEND (i w : Nat) : Nat := 0x90000 + 0x40 * i + 8 * w
def MBX_EP_SEND (i w : Nat) : Nat := 0xa0000 + 0x40 * i + 8 * w
def SEC_BOOT_STAT : Nat := 0x50000
def SEC_EVENT : Nat := 0x50008
def SEC_FUSE_KEYS : Nat := 0x50010
def SEC_FUSE_MISC : Nat := 0x50018
def SEC_UID : Nat := 0x50020
def SEC_PS_STAT : Nat := 0x50028
def SEC_PS_ERR_CNT : Nat := 0x50030
def SEC_IMG_STAT : Nat := 0x50038
def SEC_KEY_CMD : Nat := 0x50040
def SEC_KEY_LIVE (i : Nat) : Nat := 0x50100 + 0x8 * i
def SEC_MEAS (i w : Nat) : Nat := 0x50200 + 0x40 * i + 8 * w
def SEC_MEAS_PART (i w : Nat) : Nat := 0x50400 + 0x40 * i + 8 * w
def SEC_KRANGE0 (i : Nat) : Nat := 0x51000 + 0x10 * i
def SEC_KRANGE1 (i : Nat) : Nat := 0x51008 + 0x10 * i
def SEC_RCV_CMD : Nat := 0x59000
def SEC_RCV_STAT : Nat := 0x59008
def SEC_RCV_DATA (w : Nat) : Nat := 0x5a000 + 8 * w
def SEC_CREMA_CTRL : Nat := 0x5b000
def SEC_CREMA_SEAL_CNT : Nat := 0x5b008
def SEC_CREMA_TAINT_CNT : Nat := 0x5b010
def SEC_CREMA_ABORT_CNT : Nat := 0x5b018
def SEC_CREMA_BYTES : Nat := 0x5b020
def SEC_CREMA_STAT : Nat := 0x5b028
def SEC_CREMA_SESS (i : Nat) : Nat := 0x5c000 + 0x8 * i
def RAS_STATUS : Nat := 0x200000
def RAS_EVENT : Nat := 0x200008
def RAS_CMD : Nat := 0x200010
def RAS_CMD_DETAIL : Nat := 0x200018
def RAS_CMD_STATUS : Nat := 0x200020
def RAS_LOG_HEAD : Nat := 0x200028
def RAS_LOG_LOST : Nat := 0x200030
def RAS_WIT_CFG : Nat := 0x200038
def RAS_WIT_STAT : Nat := 0x200040
def RAS_STRAG_CFG : Nat := 0x200048
def RAS_FATAL_CFG : Nat := 0x200050
def RAS_FATAL_REC (w : Nat) : Nat := 0x200058 + 8 * w
def RAS_THR (i : Nat) : Nat := 0x200100 + 0x8 * i
def RAS_DIE_STAT (i : Nat) : Nat := 0x200200 + 0x8 * i
def RAS_CARD_SWAP (i : Nat) : Nat := 0x200300 + 0x8 * i
def RAS_CORE_HIST (i : Nat) : Nat := 0x201000 + 0x8 * i
def RAS_LOG (w : Nat) : Nat := 0x220000 + 8 * w
def RAS_CARD_LAT (i : Nat) : Nat := 0x240000 + 0x8 * i
def PWR_CAP : Nat := 0x2000
def PWR_TIMED_BUDGET : Nat := 0x2008
def PWR_CAP_CFG : Nat := 0x2010
def PWR_CAP_STAT : Nat := 0x2018
def PWR_EVENT : Nat := 0x2020
def PWR_TEMP_CFG : Nat := 0x2028
def PWR_DOM_CMD : Nat := 0x2030
def PWR_REFUSE_CNT : Nat := 0x2038
def PWR_UNMET_CNT : Nat := 0x2040
def PWR_DUTY_CNT : Nat := 0x2048
def PWR_PKG_E : Nat := 0x2050
def PWR_DOM_STAT (i : Nat) : Nat := 0x2100 + 0x20 * i
def PWR_DOM_E (i : Nat) : Nat := 0x2108 + 0x20 * i
def PWR_TEMP (i : Nat) : Nat := 0x2800 + 0x8 * i
def PWR_PART_P (i : Nat) : Nat := 0x2900 + 0x8 * i
def PWR_TIMED_OVER_CNT (i : Nat) : Nat := 0x2980 + 0x8 * i
def PRT_HPORT_STAT (i : Nat) : Nat := 0x33000 + 0x40 * i
def PRT_HPORT_BADACC (i : Nat) : Nat := 0x33008 + 0x40 * i
def PRT_HPORT_FLR_CNT (i : Nat) : Nat := 0x33010 + 0x40 * i
def PRT_HPORT_DOWN_CNT (i : Nat) : Nat := 0x33018 + 0x40 * i
def PRT_SLOG_HEAD : Nat := 0x34000
def PRT_SLOG_LOST : Nat := 0x34008
def PRT_SLOG (w : Nat) : Nat := 0x35000 + 8 * w
def SEC_CFG_LOCK : Nat := 0x5d000

/-! ### Register maps -/

def coreRegs0 : List RegDesc := [
  ⟨"ME_CTRL", 0x3200200, 512, 0x1000, 1, 0x8, 0x1, [(0, 1, .rw)]⟩,
  ⟨"ME_STATUS", 0x3200208, 512, 0x1000, 1, 0x8, 0x40, [(0, 64, .ro)]⟩,
  ⟨"ME_REPAIR", 0x3200210, 512, 0x1000, 1, 0x8, 0xffffffff, [(0, 64, .ro)]⟩,
  ⟨"ME_FLAGS_T", 0x3200218, 512, 0x1000, 1, 0x8, 0x0, [(0, 6, .w1c)]⟩,
  ⟨"ME_FLAGS_E", 0x3200220, 512, 0x1000, 1, 0x8, 0x0, [(0, 6, .w1c)]⟩,
  ⟨"ME_QSTAT_T", 0x3200228, 512, 0x1000, 1, 0x8, 0x0, [(0, 64, .ro)]⟩,
  ⟨"ME_QSTAT_E", 0x3200230, 512, 0x1000, 1, 0x8, 0x0, [(0, 64, .ro)]⟩,
  ⟨"ME_QGEN", 0x3200238, 512, 0x1000, 1, 0x8, 0x0, [(0, 16, .ro), (16, 16, .ro)]⟩,
  ⟨"ME_QRESET", 0x3200240, 512, 0x1000, 1, 0x8, 0x0, [(0, 1, .wo), (1, 1, .wo)]⟩,
  ⟨"ME_ROWS_T", 0x3200248, 512, 0x1000, 1, 0x8, 0x0, [(0, 64, .ro)]⟩,
  ⟨"ME_ROWS_E", 0x3200250, 512, 0x1000, 1, 0x8, 0x0, [(0, 64, .ro)]⟩,
  ⟨"ME_BALLAST_CNT", 0x3200258, 512, 0x1000, 1, 0x8, 0x0, [(0, 64, .ro)]⟩,
  ⟨"ME_STALE_CNT", 0x3200260, 512, 0x1000, 1, 0x8, 0x0, [(0, 32, .rc)]⟩,
  ⟨"ME_AMIS_CNT", 0x3200268, 512, 0x1000, 1, 0x8, 0x0, [(0, 32, .rc)]⟩,
  ⟨"ME_WPAR_CNT", 0x3200270, 512, 0x1000, 1, 0x8, 0x0, [(0, 32, .rc)]⟩,
  ⟨"ME_REFUSE_CNT", 0x3200278, 512, 0x1000, 1, 0x8, 0x0, [(0, 32, .rc)]⟩,
  ⟨"ME_ACT_DESC_T", 0x3200300, 512, 0x1000, 8, 0x8, 0x0, [(0, 64, .rw)]⟩,
  ⟨"ME_ACT_DESC_E", 0x3200340, 512, 0x1000, 8, 0x8, 0x0, [(0, 64, .rw)]⟩,
  ⟨"RAS_CORE_STATE", 0x3200000, 512, 0x1000, 1, 0x8, 0x0, [(0, 64, .ro)]⟩,
  ⟨"CGL_CORE_SEL", 0x3200008, 512, 0x1000, 1, 0x8, 0xff, [(0, 64, .ro)]⟩,
  ⟨"CGL_CORE_SWITCH_CNT", 0x3200010, 512, 0x1000, 1, 0x8, 0x0, [(0, 64, .ro)]⟩,
  ⟨"PRT_THR_STATE_T", 0x3200018, 512, 0x1000, 1, 0x8, 0x0, [(0, 64, .ro)]⟩,
  ⟨"PRT_THR_STATE_E", 0x3200020, 512, 0x1000, 1, 0x8, 0x0, [(0, 64, .ro)]⟩,
  ⟨"PRT_TQ_STAT_T", 0x3200028, 512, 0x1000, 1, 0x8, 0x0, [(0, 64, .ro)]⟩,
  ⟨"PRT_TQ_STAT_E", 0x3200030, 512, 0x1000, 1, 0x8, 0x0, [(0, 64, .ro)]⟩,
  ⟨"PRT_TQ_GEN", 0x3200038, 512, 0x1000, 1, 0x8, 0x0, [(0, 16, .ro), (16, 16, .ro)]⟩,
  ⟨"PRT_TQ_RESET", 0x3200040, 512, 0x1000, 1, 0x8, 0x0, [(0, 1, .wo), (1, 1, .wo)]⟩,
  ⟨"PRT_TASK_CANCEL_T", 0x3200048, 512, 0x1000, 1, 0x8, 0x0, [(0, 16, .wo)]⟩,
  ⟨"PRT_TASK_CANCEL_E", 0x3200050, 512, 0x1000, 1, 0x8, 0x0, [(0, 16, .wo)]⟩,
  ⟨"PRT_CANCEL_MISS_CNT", 0x3200058, 512, 0x1000, 1, 0x8, 0x0, [(0, 32, .rc)]⟩,
  ⟨"PRT_EVT_OVF_CNT", 0x3200060, 512, 0x1000, 1, 0x8, 0x0, [(0, 32, .rc)]⟩,
  ⟨"PRT_TQ_STALE_CNT", 0x3200068, 512, 0x1000, 1, 0x8, 0x0, [(0, 32, .rc)]⟩,
  ⟨"MEM_PM_HOLD", 0x3200100, 512, 0x1000, 1, 0x8, 0x0, [(0, 1, .rw), (1, 1, .rw), (2, 1, .ro)]⟩,
  ⟨"MEM_PM_SRC", 0x3200108, 512, 0x1000, 1, 0x8, 0x0, [(0, 48, .rw)]⟩,
  ⟨"MEM_PM_DST", 0x3200110, 512, 0x1000, 1, 0x8, 0x0, [(0, 18, .rw)]⟩,
  ⟨"MEM_PM_LEN", 0x3200118, 512, 0x1000, 1, 0x8, 0x0, [(0, 18, .rw)]⟩,
  ⟨"MEM_PM_GO", 0x3200120, 512, 0x1000, 1, 0x8, 0x0, [(0, 1, .wo), (1, 1, .wo)]⟩,
  ⟨"MEM_PM_STATUS", 0x3200128, 512, 0x1000, 1, 0x8, 0x0, [(0, 64, .ro)]⟩,
  ⟨"MEM_PM_REFUSE_CNT", 0x3200130, 512, 0x1000, 1, 0x8, 0x0, [(0, 32, .rc)]⟩,
  ⟨"MEM_PM_CE_CNT", 0x3200138, 512, 0x1000, 1, 0x8, 0x0, [(0, 32, .rc)]⟩]

def coreRegs1 : List RegDesc := [
  ⟨"MEM_PM_UE_CNT", 0x3200140, 512, 0x1000, 1, 0x8, 0x0, [(0, 32, .rc)]⟩,
  ⟨"RAS_CORE_FAULT_T", 0x3200180, 512, 0x1000, 1, 0x8, 0x0, [(0, 43, .rc)]⟩,
  ⟨"RAS_CORE_FAULT_E", 0x3200188, 512, 0x1000, 1, 0x8, 0x0, [(0, 43, .rc)]⟩,
  ⟨"RAS_CORE_FADDR_T", 0x3200190, 512, 0x1000, 1, 0x8, 0x0, [(0, 48, .ro)]⟩,
  ⟨"RAS_CORE_FADDR_E", 0x3200198, 512, 0x1000, 1, 0x8, 0x0, [(0, 48, .ro)]⟩,
  ⟨"RAS_CORE_FENCE", 0x32001a0, 512, 0x1000, 1, 0x8, 0x0, [(0, 1, .wo)]⟩,
  ⟨"RAS_CORE_MAP", 0x32001a8, 512, 0x1000, 1, 0x8, 0x0, [(0, 64, .ro)]⟩,
  ⟨"VCE_CTRL", 0x3200400, 512, 0x1000, 2, 0x100, 0x1, [(0, 1, .rw)]⟩,
  ⟨"VCE_STATUS", 0x3200408, 512, 0x1000, 2, 0x100, 0x40, [(0, 64, .ro)]⟩,
  ⟨"VCE_FLAGS_T", 0x3200410, 512, 0x1000, 2, 0x100, 0x0, [(0, 4, .w1c)]⟩,
  ⟨"VCE_FLAGS_E", 0x3200418, 512, 0x1000, 2, 0x100, 0x0, [(0, 4, .w1c)]⟩,
  ⟨"VCE_QSTAT_T", 0x3200420, 512, 0x1000, 2, 0x100, 0x0, [(0, 64, .ro)]⟩,
  ⟨"VCE_QSTAT_E", 0x3200428, 512, 0x1000, 2, 0x100, 0x0, [(0, 64, .ro)]⟩,
  ⟨"VCE_QGEN", 0x3200430, 512, 0x1000, 2, 0x100, 0x0, [(0, 16, .ro), (16, 16, .ro)]⟩,
  ⟨"VCE_QRESET", 0x3200438, 512, 0x1000, 2, 0x100, 0x0, [(0, 1, .wo), (1, 1, .wo)]⟩,
  ⟨"VCE_INSTR_T", 0x3200440, 512, 0x1000, 2, 0x100, 0x0, [(0, 64, .ro)]⟩,
  ⟨"VCE_INSTR_E", 0x3200448, 512, 0x1000, 2, 0x100, 0x0, [(0, 64, .ro)]⟩,
  ⟨"VCE_STALE_CNT", 0x3200450, 512, 0x1000, 2, 0x100, 0x0, [(0, 32, .rc)]⟩,
  ⟨"VCE_PORT_WAIT_CNT", 0x3200458, 512, 0x1000, 2, 0x100, 0x0, [(0, 64, .ro)]⟩,
  ⟨"VCE_RPT_T", 0x3200460, 512, 0x1000, 2, 0x100, 0x0, [(0, 64, .ro)]⟩,
  ⟨"VCE_RPT_E", 0x3200468, 512, 0x1000, 2, 0x100, 0x0, [(0, 64, .ro)]⟩,
  ⟨"VCE_FAULT_T", 0x3200470, 512, 0x1000, 2, 0x100, 0x0, [(0, 40, .rc)]⟩,
  ⟨"VCE_FAULT_E", 0x3200478, 512, 0x1000, 2, 0x100, 0x0, [(0, 40, .rc)]⟩,
  ⟨"TME_CTRL", 0x3200800, 512, 0x1000, 1, 0x8, 0x1, [(0, 1, .rw)]⟩,
  ⟨"TME_STATUS", 0x3200808, 512, 0x1000, 1, 0x8, 0x40, [(0, 3, .ro), (3, 3, .ro), (6, 1, .ro)]⟩,
  ⟨"TME_QSTAT_T", 0x3200810, 512, 0x1000, 1, 0x8, 0x0, [(0, 64, .ro)]⟩,
  ⟨"TME_QSTAT_E", 0x3200818, 512, 0x1000, 1, 0x8, 0x0, [(0, 64, .ro)]⟩,
  ⟨"TME_QGEN", 0x3200820, 512, 0x1000, 1, 0x8, 0x0, [(0, 16, .ro), (16, 16, .ro)]⟩,
  ⟨"TME_QRESET", 0x3200828, 512, 0x1000, 1, 0x8, 0x0, [(0, 1, .wo), (1, 1, .wo)]⟩,
  ⟨"TME_RA_CFG", 0x3200830, 512, 0x1000, 1, 0x8, 0x12, [(0, 3, .rw), (3, 3, .rw)]⟩,
  ⟨"TME_RA_STAT", 0x3200838, 512, 0x1000, 1, 0x8, 0x0, [(0, 5, .ro), (5, 5, .ro)]⟩,
  ⟨"TME_RA_REFUSE_CNT", 0x3200840, 512, 0x1000, 1, 0x8, 0x0, [(0, 32, .rc)]⟩,
  ⟨"TME_RA_DISCARD_CNT", 0x3200848, 512, 0x1000, 1, 0x8, 0x0, [(0, 32, .rc)]⟩,
  ⟨"TME_STALE_CNT", 0x3200850, 512, 0x1000, 1, 0x8, 0x0, [(0, 32, .rc)]⟩,
  ⟨"TME_BYTES_T", 0x3200858, 512, 0x1000, 1, 0x8, 0x0, [(0, 64, .ro)]⟩,
  ⟨"TME_BYTES_E", 0x3200860, 512, 0x1000, 1, 0x8, 0x0, [(0, 64, .ro)]⟩,
  ⟨"TME_FAULT_T", 0x3200868, 512, 0x1000, 1, 0x8, 0x0, [(0, 1, .rc), (1, 8, .rc), (9, 16, .rc), (25, 22, .rc)]⟩,
  ⟨"TME_FAULT_E", 0x3200870, 512, 0x1000, 1, 0x8, 0x0, [(0, 64, .rc)]⟩,
  ⟨"TME_CONV_T", 0x3200900, 512, 0x1000, 32, 0x8, 0x0, [(0, 64, .ro)]⟩,
  ⟨"TME_CONV_E", 0x3200a00, 512, 0x1000, 32, 0x8, 0x0, [(0, 64, .ro)]⟩]

def coreRegs : List RegDesc := coreRegs0 ++ coreRegs1

def memRegs : List RegDesc := [
  ⟨"MEM_HBM_CFG", 0x10000, 1, 0x8, 1, 0x8, 0x0, [(0, 6, .rwl)]⟩,
  ⟨"MEM_HARQ_BASE", 0x10008, 1, 0x8, 1, 0x8, 0x5c00000000, [(0, 48, .ro)]⟩,
  ⟨"MEM_RA_POOL_CFG", 0x10010, 1, 0x8, 1, 0x8, 0x10100, [(0, 10, .rwl), (10, 10, .rwl)]⟩,
  ⟨"MEM_SCRUB_CFG", 0x10018, 1, 0x8, 1, 0x8, 0x18, [(0, 16, .rw)]⟩,
  ⟨"MEM_HBM_CE_CNT", 0x10020, 1, 0x8, 1, 0x8, 0x0, [(0, 32, .rc)]⟩,
  ⟨"MEM_HBM_UE_CNT", 0x10028, 1, 0x8, 1, 0x8, 0x0, [(0, 32, .rc)]⟩,
  ⟨"MEM_SILO_CE_CNT", 0x10030, 1, 0x8, 1, 0x8, 0x0, [(0, 32, .rc)]⟩,
  ⟨"MEM_SILO_UE_CNT", 0x10038, 1, 0x8, 1, 0x8, 0x0, [(0, 32, .rc)]⟩,
  ⟨"MEM_POISON_RD_CNT", 0x10040, 1, 0x8, 1, 0x8, 0x0, [(0, 32, .rc)]⟩,
  ⟨"MEM_ALLOC_REFUSE_CNT", 0x10048, 1, 0x8, 1, 0x8, 0x0, [(0, 32, .rc)]⟩,
  ⟨"MEM_CL_ERR", 0x11000, 64, 0x8, 1, 0x8, 0x0, [(0, 16, .rc), (16, 16, .rc), (32, 16, .rc)]⟩,
  ⟨"MEM_SCR_ERR", 0x12000, 480, 0x8, 1, 0x8, 0x0, [(0, 16, .rc), (16, 16, .rc), (32, 16, .rc)]⟩,
  ⟨"MEM_POOL_CFG", 0x14000, 64, 0x20, 1, 0x8, 0x0, [(0, 52, .rwl)]⟩,
  ⟨"MEM_POOL_BASE", 0x14008, 64, 0x20, 1, 0x8, 0x0, [(0, 48, .rwl)]⟩,
  ⟨"MEM_POOL_STAT", 0x14010, 64, 0x20, 1, 0x8, 0x0, [(0, 17, .ro), (17, 6, .ro), (23, 7, .ro)]⟩,
  ⟨"MEM_POOL_CNT", 0x14018, 64, 0x20, 1, 0x8, 0x0, [(0, 16, .rc), (16, 16, .rc), (32, 16, .rc), (48, 16, .rc)]⟩]

def xltRegs : List RegDesc := [
  ⟨"XLT_INV_CMD", 0x20000, 1, 0x8, 1, 0x8, 0x0, [(0, 2, .wo), (2, 9, .wo)]⟩,
  ⟨"XLT_INV_ADDR", 0x20008, 1, 0x8, 1, 0x8, 0x0, [(16, 32, .rw)]⟩,
  ⟨"XLT_INV_SIZE", 0x20010, 1, 0x8, 1, 0x8, 0x0, [(0, 32, .rw)]⟩,
  ⟨"XLT_INV_STATUS", 0x20018, 1, 0x8, 1, 0x8, 0x0, [(0, 1, .ro), (1, 8, .ro)]⟩,
  ⟨"XLT_UTLB_MISS_CNT", 0x20020, 1, 0x8, 1, 0x8, 0x0, [(0, 64, .rc)]⟩,
  ⟨"XLT_CTLB_MISS_CNT", 0x20028, 1, 0x8, 1, 0x8, 0x0, [(0, 64, .rc)]⟩,
  ⟨"XLT_WALK_CNT", 0x20030, 1, 0x8, 1, 0x8, 0x0, [(0, 64, .rc)]⟩,
  ⟨"XLT_XLAT_FAULT_CNT", 0x20038, 1, 0x8, 1, 0x8, 0x0, [(0, 32, .rc)]⟩,
  ⟨"XLT_MALFORMED_CNT", 0x20040, 1, 0x8, 1, 0x8, 0x0, [(0, 32, .rc)]⟩,
  ⟨"XLT_STALE_CNT", 0x20048, 1, 0x8, 1, 0x8, 0x0, [(0, 32, .rc)]⟩,
  ⟨"XLT_VLOG_HEAD", 0x20050, 1, 0x8, 1, 0x8, 0x0, [(0, 10, .ro)]⟩,
  ⟨"XLT_VLOG_LOST", 0x20058, 1, 0x8, 1, 0x8, 0x0, [(0, 32, .rc)]⟩,
  ⟨"XLT_GLOG_HEAD", 0x20060, 1, 0x8, 1, 0x8, 0x0, [(0, 6, .ro)]⟩,
  ⟨"XLT_GLOG_LOST", 0x20068, 1, 0x8, 1, 0x8, 0x0, [(0, 32, .rc)]⟩,
  ⟨"XLT_DTLB_MISS_CNT", 0x20070, 1, 0x8, 1, 0x8, 0x0, [(0, 64, .rc)]⟩,
  ⟨"XLT_VLOG", 0x21000, 1, 0x8000, 4096, 0x8, 0x0, [(0, 64, .ro)]⟩,
  ⟨"XLT_GLOG", 0x29000, 1, 0x400, 128, 0x8, 0x0, [(0, 64, .ro)]⟩,
  ⟨"XLT_CTX", 0x2a000, 512, 0x20, 1, 0x8, 0x0, [(0, 6, .rw), (16, 16, .rw), (32, 32, .rw)]⟩,
  ⟨"XLT_CTX", 0x2a008, 512, 0x20, 1, 0x8, 0x0, [(0, 8, .rw)]⟩,
  ⟨"XLT_CTX", 0x2a010, 512, 0x20, 1, 0x8, 0x0, []⟩,
  ⟨"XLT_CTX", 0x2a018, 512, 0x20, 1, 0x8, 0x0, []⟩]

def clkRegs : List RegDesc := [
  ⟨"CLK_STATUS", 0x0, 1, 0x8, 1, 0x8, 0x0, [(0, 1, .ro), (1, 1, .ro), (2, 1, .ro), (3, 1, .ro)]⟩,
  ⟨"CLK_EVENT", 0x8, 1, 0x8, 1, 0x8, 0x0, [(0, 1, .w1c), (1, 1, .w1c), (2, 1, .w1c), (3, 1, .w1c)]⟩,
  ⟨"CLK_SRC_CFG", 0x10, 1, 0x8, 1, 0x8, 0x64, [(0, 16, .rwl)]⟩,
  ⟨"CLK_GLIDE_CFG", 0x18, 1, 0x8, 1, 0x8, 0x8, [(0, 6, .rwl)]⟩,
  ⟨"CLK_EN_HUB", 0x20, 1, 0x8, 1, 0x8, 0xfffffffffff, [(0, 1, .rw), (1, 8, .rw), (9, 1, .rw), (10, 1, .rw), (11, 4, .rw), (15, 4, .rw), (19, 1, .rw), (20, 16, .rw), (36, 8, .rw)]⟩,
  ⟨"CLK_EN_ISL", 0x28, 1, 0x8, 1, 0x8, 0xffffffffffffffff, [(0, 64, .rw)]⟩,
  ⟨"CLK_REFUSE_CNT", 0x30, 1, 0x8, 1, 0x8, 0x0, [(0, 32, .rc)]⟩,
  ⟨"CLK_PLL_LOCK", 0x38, 1, 0x8, 1, 0x8, 0x0, [(0, 64, .ro)]⟩,
  ⟨"CLK_PLL_LOCK_HUB", 0x40, 1, 0x8, 1, 0x8, 0x0, [(0, 1, .ro), (1, 4, .ro), (5, 2, .ro), (7, 8, .ro), (15, 1, .ro), (16, 36, .ro)]⟩,
  ⟨"CLK_ISL", 0x100, 64, 0x8, 1, 0x8, 0x10001280100, [(0, 9, .rw), (16, 9, .ro), (25, 1, .ro), (32, 9, .ro), (41, 1, .ro)]⟩]

def timeRegs : List RegDesc := [
  ⟨"TIME_CNT", 0x1000, 1, 0x8, 1, 0x8, 0x0, [(0, 64, .ro)]⟩,
  ⟨"TIME_NOW_NS", 0x1008, 1, 0x8, 1, 0x8, 0x0, [(0, 64, .ro)]⟩,
  ⟨"TIME_NOW_SUB", 0x1010, 1, 0x8, 1, 0x8, 0x0, [(0, 16, .ro), (16, 1, .ro)]⟩,
  ⟨"TIME_STEP", 0x1018, 1, 0x8, 1, 0x8, 0xcccccccccd, [(0, 48, .rw)]⟩,
  ⟨"TIME_ADJ", 0x1020, 1, 0x8, 1, 0x8, 0x0, [(0, 64, .wo)]⟩,
  ⟨"TIME_OFF0", 0x1028, 1, 0x8, 1, 0x8, 0x0, [(0, 64, .ro)]⟩,
  ⟨"TIME_OFF1", 0x1030, 1, 0x8, 1, 0x8, 0x0, [(0, 40, .ro)]⟩,
  ⟨"TIME_BASE", 0x1038, 1, 0x8, 1, 0x8, 0x0, [(0, 64, .ro)]⟩,
  ⟨"TIME_STATUS", 0x1040, 1, 0x8, 1, 0x8, 0x0, [(0, 1, .ro), (1, 1, .ro), (2, 1, .ro), (3, 8, .ro)]⟩,
  ⟨"TIME_EVENT", 0x1048, 1, 0x8, 1, 0x8, 0x0, [(0, 1, .w1c), (1, 1, .w1c), (2, 1, .w1c), (3, 1, .w1c), (4, 1, .w1c)]⟩,
  ⟨"TIME_CTRL", 0x1050, 1, 0x8, 1, 0x8, 0x0, [(0, 1, .rw)]⟩,
  ⟨"TIME_SERVO_CFG", 0x1058, 1, 0x8, 1, 0x8, 0x10006e06df, [(0, 16, .rw), (16, 16, .rw), (32, 6, .rw), (40, 1, .rw)]⟩,
  ⟨"TIME_SERVO_THR", 0x1060, 1, 0x8, 1, 0x8, 0x80014000003e8, [(0, 32, .rw), (32, 16, .rw), (48, 8, .rw)]⟩,
  ⟨"TIME_SERVO_OFS", 0x1068, 1, 0x8, 1, 0x8, 0x0, [(0, 64, .wo)]⟩,
  ⟨"TIME_SERVO_ACC", 0x1070, 1, 0x8, 1, 0x8, 0x0, [(0, 48, .ro)]⟩,
  ⟨"TIME_SERVO_CNT", 0x1078, 1, 0x8, 1, 0x8, 0x0, [(0, 32, .rc), (32, 32, .rc)]⟩,
  ⟨"TIME_CMP", 0x1080, 16, 0x8, 1, 0x8, 0x0, [(0, 64, .rw)]⟩,
  ⟨"TIME_CMP_CFG", 0x1100, 16, 0x8, 1, 0x8, 0x0, [(0, 1, .rw), (1, 1, .rw), (2, 1, .w1c), (3, 2, .rw)]⟩,
  ⟨"TIME_PORT_ING_LAT", 0x1200, 8, 0x20, 1, 0x8, 0x3d999a, [(0, 32, .rw)]⟩,
  ⟨"TIME_PORT_EGR_LAT", 0x1208, 8, 0x20, 1, 0x8, 0x2b3333, [(0, 32, .rw)]⟩,
  ⟨"TIME_PORT_ASYM", 0x1210, 8, 0x20, 1, 0x8, 0x0, [(0, 32, .rw)]⟩]

def cglRegs : List RegDesc := [
  ⟨"CGL_STATUS", 0xc0000, 1, 0x8, 1, 0x8, 0x0, [(0, 16, .ro), (16, 1, .ro)]⟩,
  ⟨"CGL_EVENT", 0xc0008, 1, 0x8, 1, 0x8, 0x0, [(0, 1, .w1c), (1, 1, .w1c), (2, 1, .w1c), (3, 1, .w1c), (4, 1, .w1c), (5, 1, .w1c), (6, 1, .w1c)]⟩,
  ⟨"CGL_OVERRUN_CNT", 0xc0010, 1, 0x8, 1, 0x8, 0x0, [(0, 32, .rc)]⟩,
  ⟨"CGL_DEFER_CNT", 0xc0018, 1, 0x8, 1, 0x8, 0x0, [(0, 32, .rc)]⟩,
  ⟨"CGL_PHASE_CNT", 0xc0020, 1, 0x8, 1, 0x8, 0x0, [(0, 32, .rc)]⟩,
  ⟨"CGL_REFUSE_CNT", 0xc0028, 1, 0x8, 1, 0x8, 0x0, [(0, 32, .rc)]⟩,
  ⟨"CGL_STARVE_CNT", 0xc0030, 1, 0x8, 1, 0x8, 0x0, [(0, 32, .rc)]⟩,
  ⟨"CGL_EXEC_ERR_CNT", 0xc0038, 1, 0x8, 1, 0x8, 0x0, [(0, 32, .rc)]⟩,
  ⟨"CGL_STARVE_CFG", 0xc0040, 1, 0x8, 1, 0x8, 0x4e20, [(0, 20, .rw)]⟩,
  ⟨"CGL_LIST_CFG", 0xc1000, 16, 0x80, 1, 0x8, 0x2000, [(0, 1, .rw), (1, 4, .rw), (5, 9, .rw), (14, 10, .rw)]⟩,
  ⟨"CGL_ADMIN_BASE", 0xc1008, 16, 0x80, 1, 0x8, 0x0, [(0, 64, .rw)]⟩,
  ⟨"CGL_ADMIN_CYCLE", 0xc1010, 16, 0x80, 1, 0x8, 0x0, [(0, 24, .rw)]⟩,
  ⟨"CGL_ADMIN_LEN", 0xc1018, 16, 0x80, 1, 0x8, 0x0, [(0, 9, .rw)]⟩,
  ⟨"CGL_CMD", 0xc1020, 16, 0x80, 1, 0x8, 0x0, [(0, 1, .wo), (1, 1, .wo)]⟩,
  ⟨"CGL_OPER_STAT", 0xc1028, 16, 0x80, 1, 0x8, 0x0, [(0, 64, .ro)]⟩,
  ⟨"CGL_OPER_BASE", 0xc1030, 16, 0x80, 1, 0x8, 0x0, [(0, 64, .ro)]⟩,
  ⟨"CGL_OPER_CYCLE", 0xc1038, 16, 0x80, 1, 0x8, 0x0, [(0, 24, .ro)]⟩,
  ⟨"CGL_CYCLE_CNT", 0xc1040, 16, 0x80, 1, 0x8, 0x0, [(0, 64, .ro)]⟩,
  ⟨"CGL_ADMIN_ENT", 0xd0000, 16, 0x800, 256, 0x8, 0x0, [(0, 64, .rw)]⟩,
  ⟨"CGL_OPER_ENT", 0xe0000, 16, 0x800, 256, 0x8, 0x0, [(0, 64, .ro)]⟩,
  ⟨"CGL_LC_GRP", 0xf0000, 480, 0x8, 1, 0x8, 0x7f, [(0, 7, .rw), (7, 1, .ro)]⟩]

def brsRegs : List RegDesc := [
  ⟨"BRS_CTRL", 0x40000, 1, 0x8, 1, 0x8, 0x1, [(0, 1, .rw)]⟩,
  ⟨"BRS_STATUS", 0x40008, 1, 0x8, 1, 0x8, 0x0, [(0, 16, .ro), (16, 18, .ro)]⟩,
  ⟨"BRS_ADMIT_CNT", 0x40010, 1, 0x8, 1, 0x8, 0x0, [(0, 32, .rc)]⟩,
  ⟨"BRS_DELAY_CNT", 0x40018, 1, 0x8, 1, 0x8, 0x0, [(0, 32, .rc)]⟩,
  ⟨"BRS_REFUSE_CNT", 0x40020, 1, 0x8, 1, 0x8, 0x0, [(0, 32, .rc)]⟩,
  ⟨"BRS_PASS_CNT", 0x40028, 1, 0x8, 1, 0x8, 0x0, [(0, 64, .rc)]⟩,
  ⟨"BRS_SPILL_CNT", 0x40030, 1, 0x8, 1, 0x8, 0x0, [(0, 32, .rc)]⟩,
  ⟨"BRS_RELOAD_CNT", 0x40038, 1, 0x8, 1, 0x8, 0x0, [(0, 32, .rc)]⟩,
  ⟨"BRS_EVICT_CNT", 0x40040, 1, 0x8, 1, 0x8, 0x0, [(0, 32, .rc)]⟩,
  ⟨"BRS_PFX_HIT_CNT", 0x40048, 1, 0x8, 1, 0x8, 0x0, [(0, 32, .rc)]⟩,
  ⟨"BRS_PFX_SKIP_CNT", 0x40050, 1, 0x8, 1, 0x8, 0x0, [(0, 32, .rc)]⟩,
  ⟨"BRS_SPEC_DISCARD_CNT", 0x40058, 1, 0x8, 1, 0x8, 0x0, [(0, 64, .rc)]⟩,
  ⟨"BRS_ABORT_CNT", 0x40060, 1, 0x8, 1, 0x8, 0x0, [(0, 32, .rc)]⟩,
  ⟨"BRS_STALE_CNT", 0x40068, 1, 0x8, 1, 0x8, 0x0, [(0, 32, .rc)]⟩,
  ⟨"BRS_REFUSE_ST_CNT", 0x40070, 1, 0x8, 1, 0x8, 0x0, [(0, 32, .rc)]⟩,
  ⟨"BRS_OUT_STALL_CNT", 0x40078, 1, 0x8, 1, 0x8, 0x0, [(0, 32, .rc)]⟩,
  ⟨"BRS_PART_QUOTA", 0x40100, 16, 0x8, 1, 0x8, 0x0, [(0, 16, .rwl)]⟩,
  ⟨"BRS_PART_USED", 0x40180, 16, 0x8, 1, 0x8, 0x0, [(0, 16, .ro)]⟩,
  ⟨"BRS_GRP_STAT", 0x41000, 64, 0x40, 1, 0x8, 0x0, [(0, 64, .ro)]⟩,
  ⟨"BRS_GRP_CFG0", 0x41008, 64, 0x40, 1, 0x8, 0x0, [(0, 9, .ro), (9, 9, .ro), (18, 16, .ro), (34, 13, .ro), (47, 14, .ro)]⟩,
  ⟨"BRS_GRP_CFG1", 0x41010, 64, 0x40, 1, 0x8, 0x0, [(0, 14, .ro), (14, 3, .ro), (17, 3, .ro), (20, 6, .ro), (26, 7, .ro), (33, 13, .ro)]⟩,
  ⟨"BRS_GRP_CFG2", 0x41018, 64, 0x40, 1, 0x8, 0x0, [(0, 20, .ro), (20, 12, .ro), (32, 9, .ro), (41, 4, .ro)]⟩,
  ⟨"BRS_GRP_XCH", 0x41020, 64, 0x40, 1, 0x8, 0x0, [(0, 48, .ro)]⟩,
  ⟨"BRS_GRP_STEP", 0x41028, 64, 0x40, 1, 0x8, 0x0, [(0, 64, .ro)]⟩,
  ⟨"BRS_GRP_EPOCH", 0x41030, 64, 0x40, 1, 0x8, 0x0, [(0, 16, .ro), (16, 16, .ro)]⟩,
  ⟨"BRS_GRP_OUT", 0x41038, 64, 0x40, 1, 0x8, 0x0, [(0, 13, .ro), (16, 13, .ro), (32, 14, .ro)]⟩]

def fabRegs : List RegDesc := [
  ⟨"FAB_CTRL", 0x2000000, 1, 0x8, 1, 0x8, 0x0, [(0, 1, .rw)]⟩,
  ⟨"FAB_CARD_ID", 0x2000008, 1, 0x8, 1, 0x8, 0x0, [(0, 12, .rwl)]⟩,
  ⟨"FAB_STATUS", 0x2000010, 1, 0x8, 1, 0x8, 0x0, [(0, 18, .ro), (18, 18, .ro)]⟩,
  ⟨"FAB_TAG_CFG", 0x2000018, 1, 0x8, 1, 0x8, 0x80002000, [(0, 17, .rwl), (17, 17, .rwl)]⟩,
  ⟨"FAB_TIMEOUT", 0x2000020, 1, 0x8, 1, 0x8, 0x64, [(0, 20, .rwl)]⟩,
  ⟨"FAB_HASH_CFG", 0x2000028, 1, 0x8, 1, 0x8, 0x21, [(0, 1, .rw), (1, 8, .rw)]⟩,
  ⟨"FAB_GW_CFG", 0x2000030, 1, 0x8, 1, 0x8, 0xc8, [(0, 16, .rw)]⟩,
  ⟨"FAB_TIME_UNC", 0x2000038, 1, 0x8, 1, 0x8, 0xffff, [(0, 16, .rw)]⟩,
  ⟨"FAB_XD_CFG", 0x2000040, 1, 0x8, 1, 0x8, 0x801f4, [(0, 16, .rw), (16, 4, .rw)]⟩,
  ⟨"FAB_EVENT", 0x2000048, 1, 0x8, 1, 0x8, 0x0, [(0, 1, .w1c), (1, 1, .w1c), (2, 1, .w1c), (3, 1, .w1c), (4, 1, .w1c)]⟩,
  ⟨"FAB_TX_REQ_CNT", 0x2000050, 1, 0x8, 1, 0x8, 0x0, [(0, 64, .ro)]⟩,
  ⟨"FAB_RX_REQ_CNT", 0x2000058, 1, 0x8, 1, 0x8, 0x0, [(0, 64, .ro)]⟩,
  ⟨"FAB_TAG_WAIT_CNT", 0x2000060, 1, 0x8, 1, 0x8, 0x0, [(0, 64, .rc)]⟩,
  ⟨"FAB_TIMEOUT_CNT", 0x2000068, 1, 0x8, 1, 0x8, 0x0, [(0, 32, .rc)]⟩,
  ⟨"FAB_LATE_CNT", 0x2000070, 1, 0x8, 1, 0x8, 0x0, [(0, 32, .rc)]⟩,
  ⟨"FAB_UNREACH_CNT", 0x2000078, 1, 0x8, 1, 0x8, 0x0, [(0, 32, .rc)]⟩,
  ⟨"FAB_MISROUTE_CNT", 0x2000080, 1, 0x8, 1, 0x8, 0x0, [(0, 32, .rc)]⟩,
  ⟨"FAB_REFUSED_IN_CNT", 0x2000088, 1, 0x8, 1, 0x8, 0x0, [(0, 32, .rc)]⟩,
  ⟨"FAB_XD_RETRY_CNT", 0x2000090, 1, 0x8, 1, 0x8, 0x0, [(0, 32, .rc)]⟩,
  ⟨"FAB_SPEC_DISCARD_CNT", 0x2000098, 1, 0x8, 1, 0x8, 0x0, [(0, 32, .rc)]⟩,
  ⟨"FAB_STALE_CNT", 0x20000a0, 1, 0x8, 1, 0x8, 0x0, [(0, 32, .rc)]⟩,
  ⟨"FAB_AMIS_CNT", 0x20000a8, 1, 0x8, 1, 0x8, 0x0, [(0, 32, .rc)]⟩,
  ⟨"FAB_IN_CFG", 0x2000100, 16, 0x8, 1, 0x8, 0x0, [(0, 1, .rw)]⟩,
  ⟨"FAB_GW_STAT", 0x2000200, 4, 0x8, 1, 0x8, 0x0, [(0, 10, .ro), (10, 10, .ro), (20, 32, .ro)]⟩,
  ⟨"FAB_XR_CFG", 0x2001000, 64, 0x20, 1, 0x8, 0x0, [(0, 1, .rw), (1, 9, .rw), (10, 4, .rw), (14, 6, .rw), (20, 1, .rw), (21, 1, .rw)]⟩,
  ⟨"FAB_XR_HEAD", 0x2001008, 64, 0x20, 1, 0x8, 0x0, [(0, 8, .ro)]⟩,
  ⟨"FAB_XI_CFG", 0x2002000, 64, 0x20, 1, 0x8, 0x0, [(0, 1, .rw), (1, 4, .rw), (5, 9, .rw), (14, 8, .rw), (22, 3, .rw), (25, 12, .rw)]⟩,
  ⟨"FAB_XI_BASE", 0x2002008, 64, 0x20, 1, 0x8, 0x0, [(0, 48, .rw)]⟩,
  ⟨"FAB_XI_STAT", 0x2002010, 64, 0x20, 1, 0x8, 0x0, [(0, 12, .ro), (12, 12, .ro), (24, 12, .ro), (36, 12, .ro)]⟩,
  ⟨"FAB_XI_CNT", 0x2002018, 64, 0x20, 1, 0x8, 0x0, [(0, 32, .rc), (32, 32, .rc)]⟩,
  ⟨"FAB_PEER", 0x2008000, 16, 0x200, 64, 0x8, 0x0, [(0, 33, .rw)]⟩,
  ⟨"FAB_ROUTE", 0x2010000, 4096, 0x8, 1, 0x8, 0x3000000, [(0, 29, .rw)]⟩,
  ⟨"FAB_XDIR", 0x2100000, 65536, 0x10, 1, 0x8, 0x0, [(0, 1, .rw), (4, 26, .rw), (32, 32, .rw)]⟩,
  ⟨"FAB_XDIR", 0x2100008, 65536, 0x10, 1, 0x8, 0x0, [(0, 16, .rw)]⟩,
  ⟨"FAB_XR_RING", 0x2400000, 64, 0x10000, 2048, 0x8, 0x0, [(0, 64, .rw)]⟩,
  ⟨"FAB_XR_TAIL", 0x240f000, 64, 0x10000, 1, 0x8, 0x0, [(0, 8, .rw)]⟩,
  ⟨"FAB_XI_NEXT", 0x2800000, 64, 0x10000, 1, 0x8, 0xffff, [(0, 16, .rc)]⟩,
  ⟨"FAB_XI_DONE", 0x2800008, 64, 0x10000, 1, 0x8, 0x0, [(0, 16, .wo)]⟩]

def lnkRegs : List RegDesc := [
  ⟨"LNK_WIN", 0x60000, 1, 0x8, 1, 0x8, 0x3e8, [(0, 16, .rw)]⟩,
  ⟨"LNK_SELF_ID", 0x60008, 1, 0x8, 1, 0x8, 0x0, [(0, 64, .ro)]⟩,
  ⟨"LNK_EVENT", 0x60010, 1, 0x8, 1, 0x8, 0x0, [(0, 24, .w1c), (24, 24, .w1c), (48, 1, .w1c)]⟩,
  ⟨"LNK_STATUS", 0x60018, 1, 0x8, 1, 0x8, 0x0, [(0, 24, .ro), (24, 24, .ro)]⟩,
  ⟨"LNK_CFG", 0x61000, 16, 0x400, 1, 0x8, 0x13880503c8, [(0, 1, .ro), (1, 36, .rwl)]⟩,
  ⟨"LNK_CFG", 0x65000, 8, 0x400, 1, 0x8, 0x13880503c9, [(0, 1, .ro), (1, 36, .rwl)]⟩,
  ⟨"LNK_CMD", 0x61008, 24, 0x400, 1, 0x8, 0x0, [(0, 1, .wo), (1, 1, .wo), (2, 1, .wo), (3, 1, .wo), (4, 4, .wo), (8, 1, .wo)]⟩,
  ⟨"LNK_STATE", 0x61010, 24, 0x400, 1, 0x8, 0xfff0, [(0, 64, .ro)]⟩,
  ⟨"LNK_PARTNER_ID", 0x61018, 24, 0x400, 1, 0x8, 0x0, [(0, 64, .ro)]⟩,
  ⟨"LNK_PARTNER_PORT", 0x61020, 24, 0x400, 1, 0x8, 0x0, [(0, 8, .ro), (8, 1, .ro)]⟩,
  ⟨"LNK_RTT", 0x61028, 24, 0x400, 1, 0x8, 0x0, [(0, 32, .ro)]⟩,
  ⟨"LNK_REPLAY_CFG", 0x61030, 24, 0x400, 1, 0x8, 0x801f4, [(0, 16, .rw), (16, 8, .rw)]⟩,
  ⟨"LNK_SEQ", 0x61038, 24, 0x400, 1, 0x8, 0x0, [(0, 12, .ro), (12, 12, .ro), (24, 12, .ro), (36, 10, .ro)]⟩,
  ⟨"LNK_CW_CNT", 0x61040, 24, 0x400, 1, 0x8, 0x0, [(0, 64, .ro)]⟩,
  ⟨"LNK_CW_CORR_CNT", 0x61048, 24, 0x400, 1, 0x8, 0x0, [(0, 64, .rc)]⟩,
  ⟨"LNK_CW_UNCORR_CNT", 0x61050, 24, 0x400, 1, 0x8, 0x0, [(0, 32, .rc)]⟩,
  ⟨"LNK_CRC_ERR_CNT", 0x61058, 24, 0x400, 1, 0x8, 0x0, [(0, 32, .rc)]⟩,
  ⟨"LNK_NAK_CNT", 0x61060, 24, 0x400, 1, 0x8, 0x0, [(0, 32, .rc), (32, 32, .rc)]⟩,
  ⟨"LNK_REPLAY_CNT", 0x61068, 24, 0x400, 1, 0x8, 0x0, [(0, 32, .rc), (32, 32, .rc)]⟩,
  ⟨"LNK_DUP_CNT", 0x61070, 24, 0x400, 1, 0x8, 0x0, [(0, 32, .rc)]⟩,
  ⟨"LNK_PROTO_ERR_CNT", 0x61078, 24, 0x400, 1, 0x8, 0x0, [(0, 32, .rc)]⟩,
  ⟨"LNK_RECOV_CNT", 0x61080, 24, 0x400, 1, 0x8, 0x0, [(0, 32, .rc), (32, 32, .rc)]⟩,
  ⟨"LNK_DOWN_CNT", 0x61088, 24, 0x400, 1, 0x8, 0x0, [(0, 32, .rc)]⟩,
  ⟨"LNK_DROP_CNT", 0x61090, 24, 0x400, 1, 0x8, 0x0, [(0, 32, .rc)]⟩,
  ⟨"LNK_SWAP_CNT", 0x61098, 24, 0x400, 1, 0x8, 0x0, [(0, 16, .rc), (16, 16, .rc)]⟩,
  ⟨"LNK_ARB_CNT", 0x610a0, 24, 0x400, 1, 0x8, 0x0, [(0, 16, .rc), (16, 16, .rc)]⟩,
  ⟨"LNK_LANE_SYM", 0x61100, 24, 0x400, 9, 0x8, 0x0, [(0, 32, .rc), (32, 32, .ro)]⟩,
  ⟨"LNK_FIR", 0x61180, 16, 0x400, 9, 0x8, 0x0, [(0, 35, .ro)]⟩,
  ⟨"LNK_FIR", 0x65180, 8, 0x400, 9, 0x8, 0xf0c3c00, [(0, 35, .rw)]⟩,
  ⟨"LNK_EC_STAT", 0x61200, 24, 0x400, 9, 0x8, 0x0, [(0, 8, .ro), (8, 8, .ro), (16, 1, .ro)]⟩]

def fecRegs : List RegDesc := [
  ⟨"FEC_CTRL", 0xc00000, 1, 0x8, 1, 0x8, 0x1, [(0, 1, .rw)]⟩,
  ⟨"FEC_STATUS", 0xc00008, 1, 0x8, 1, 0x8, 0x2a20, [(0, 6, .ro), (6, 4, .ro), (10, 2, .ro), (12, 2, .ro), (14, 1, .ro)]⟩,
  ⟨"FEC_EVENT", 0xc00010, 1, 0x8, 1, 0x8, 0x0, [(0, 1, .w1c), (1, 1, .w1c), (2, 1, .w1c), (3, 1, .w1c), (4, 1, .w1c)]⟩,
  ⟨"FEC_ENVELOPE", 0xc00018, 1, 0x8, 1, 0x8, 0xc0000, [(0, 10, .ro), (10, 10, .ro)]⟩,
  ⟨"FEC_DEC_CB_CNT", 0xc00020, 1, 0x8, 1, 0x8, 0x0, [(0, 64, .ro)]⟩,
  ⟨"FEC_DEC_ITER_CNT", 0xc00028, 1, 0x8, 1, 0x8, 0x0, [(0, 64, .ro)]⟩,
  ⟨"FEC_ENC_CB_CNT", 0xc00030, 1, 0x8, 1, 0x8, 0x0, [(0, 64, .ro)]⟩,
  ⟨"FEC_CB_FAIL_CNT", 0xc00038, 1, 0x8, 1, 0x8, 0x0, [(0, 32, .rc)]⟩,
  ⟨"FEC_TB_FAIL_CNT", 0xc00040, 1, 0x8, 1, 0x8, 0x0, [(0, 32, .rc)]⟩,
  ⟨"FEC_LATE_CNT", 0xc00048, 1, 0x8, 1, 0x8, 0x0, [(0, 32, .rc)]⟩,
  ⟨"FEC_HARQ_LOST_CNT", 0xc00050, 1, 0x8, 1, 0x8, 0x0, [(0, 32, .rc)]⟩,
  ⟨"FEC_STALE_CNT", 0xc00058, 1, 0x8, 1, 0x8, 0x0, [(0, 32, .rc)]⟩,
  ⟨"FEC_REFUSE_CNT", 0xc00060, 1, 0x8, 1, 0x8, 0x0, [(0, 32, .rc)]⟩,
  ⟨"FEC_UNIT_ERR_CNT", 0xc00068, 1, 0x8, 1, 0x8, 0x0, [(0, 32, .rc)]⟩,
  ⟨"FEC_UNIT_RETIRED", 0xc00070, 1, 0x8, 1, 0x8, 0x0, [(0, 32, .ro), (32, 8, .ro), (40, 2, .ro), (42, 2, .ro)]⟩,
  ⟨"FEC_QCFG", 0xc00100, 64, 0x40, 1, 0x8, 0x0, [(0, 1, .rw), (1, 9, .rw), (10, 4, .rw), (14, 9, .rw), (23, 8, .rw)]⟩,
  ⟨"FEC_QRING", 0xc00108, 64, 0x40, 1, 0x8, 0x0, [(0, 48, .rw)]⟩,
  ⟨"FEC_QRPTR", 0xc00110, 64, 0x40, 1, 0x8, 0x0, [(0, 8, .rw)]⟩,
  ⟨"FEC_QSTAT", 0xc00118, 64, 0x40, 1, 0x8, 0x0, [(0, 6, .ro), (6, 8, .ro), (14, 8, .ro)]⟩,
  ⟨"FEC_QGEN", 0xc00120, 64, 0x40, 1, 0x8, 0x0, [(0, 16, .ro)]⟩,
  ⟨"FEC_QCTL", 0xc00128, 64, 0x40, 1, 0x8, 0x0, [(0, 1, .wo), (1, 1, .wo), (16, 16, .wo)]⟩,
  ⟨"FEC_CELL", 0xc04000, 256, 0x80, 1, 0x8, 0x0, [(0, 15, .rw), (16, 48, .rw)]⟩,
  ⟨"FEC_CELL", 0xc04008, 256, 0x80, 1, 0x8, 0x0, [(0, 64, .rw)]⟩,
  ⟨"FEC_CELL", 0xc04010, 256, 0x80, 1, 0x8, 0x0, [(0, 29, .rw), (32, 32, .rw)]⟩,
  ⟨"FEC_CELL", 0xc04018, 256, 0x80, 1, 0x8, 0x0, [(0, 17, .rw), (32, 32, .rw)]⟩,
  ⟨"FEC_CELL", 0xc04020, 256, 0x80, 1, 0x8, 0x0, [(0, 4, .rw), (8, 40, .rw)]⟩,
  ⟨"FEC_CELL", 0xc04028, 256, 0x80, 11, 0x8, 0x0, []⟩,
  ⟨"FEC_CELL_CMD", 0xc0c000, 256, 0x8, 1, 0x8, 0x0, [(0, 1, .wo), (1, 1, .wo)]⟩,
  ⟨"FEC_CELL_STAT", 0xc0c800, 256, 0x8, 1, 0x8, 0x0, [(0, 3, .ro), (3, 10, .ro)]⟩,
  ⟨"FEC_CELL_MISS", 0xc0d000, 256, 0x8, 1, 0x8, 0x0, [(0, 16, .rc), (16, 16, .rc)]⟩,
  ⟨"FEC_QWIN", 0xd00000, 64, 0x10000, 8, 0x8, 0x0, [(0, 64, .wo)]⟩]

def fhRegs : List RegDesc := [
  ⟨"FH_MASK_CFG", 0x180000, 1, 0x8, 1, 0x8, 0x3, [(0, 4, .rw)]⟩,
  ⟨"FH_MASK_EVENT", 0x180008, 1, 0x8, 1, 0x8, 0x0, [(0, 1, .w1c), (1, 1, .w1c)]⟩,
  ⟨"FH_MASK_VIOL_CNT", 0x180010, 1, 0x8, 1, 0x8, 0x0, [(0, 32, .rc)]⟩,
  ⟨"FH_MASK_CHK_CNT", 0x180018, 1, 0x8, 1, 0x8, 0x0, [(0, 64, .ro)]⟩,
  ⟨"FH_MASK_MUTED0", 0x180020, 1, 0x8, 1, 0x8, 0x0, [(0, 64, .ro)]⟩,
  ⟨"FH_MASK_MUTED1", 0x180028, 1, 0x8, 1, 0x8, 0x0, [(0, 64, .ro)]⟩,
  ⟨"FH_MASK_UNMUTE", 0x180030, 1, 0x8, 1, 0x8, 0x0, [(0, 7, .wo), (7, 1, .wo)]⟩,
  ⟨"FH_MASK_LOG_HEAD", 0x180038, 1, 0x8, 1, 0x8, 0x0, [(0, 6, .ro)]⟩,
  ⟨"FH_MASK_ENT", 0x181000, 16, 0x200, 64, 0x8, 0x0, [(0, 13, .rw), (13, 13, .rw), (26, 16, .rw), (42, 1, .rw)]⟩,
  ⟨"FH_MASK_LOG", 0x184000, 1, 0x400, 128, 0x8, 0x0, [(0, 64, .ro)]⟩,
  ⟨"FH_CTRL", 0x100000, 1, 0x8, 1, 0x8, 0x1, [(0, 1, .rw)]⟩,
  ⟨"FH_EVENT", 0x100008, 1, 0x8, 1, 0x8, 0x0, [(0, 32, .w1c), (32, 1, .w1c)]⟩,
  ⟨"FH_PORT_CFG", 0x101000, 8, 0x100, 1, 0x8, 0x9000, [(0, 2, .rw), (2, 14, .rw), (16, 1, .rw)]⟩,
  ⟨"FH_PORT_CMD", 0x101008, 8, 0x100, 1, 0x8, 0x0, [(0, 4, .wo), (4, 4, .wo)]⟩,
  ⟨"FH_PORT_STAT", 0x101010, 8, 0x100, 1, 0x8, 0x0, [(0, 64, .ro)]⟩,
  ⟨"FH_PORT_MAC", 0x101018, 8, 0x100, 1, 0x8, 0x0, [(0, 48, .rwl)]⟩,
  ⟨"FH_RX_FRAMES", 0x101020, 8, 0x100, 1, 0x8, 0x0, [(0, 64, .ro)]⟩,
  ⟨"FH_RX_FCS", 0x101028, 8, 0x100, 1, 0x8, 0x0, [(0, 32, .rc)]⟩,
  ⟨"FH_RX_LEN", 0x101030, 8, 0x100, 1, 0x8, 0x0, [(0, 32, .rc)]⟩,
  ⟨"FH_RX_CTRL", 0x101038, 8, 0x100, 1, 0x8, 0x0, [(0, 32, .rc)]⟩,
  ⟨"FH_RX_BADHDR", 0x101040, 8, 0x100, 1, 0x8, 0x0, [(0, 32, .rc)]⟩,
  ⟨"FH_RX_NOMATCH", 0x101048, 8, 0x100, 1, 0x8, 0x0, [(0, 32, .rc)]⟩,
  ⟨"FH_RX_EARLY", 0x101050, 8, 0x100, 1, 0x8, 0x0, [(0, 32, .rc)]⟩,
  ⟨"FH_RX_LATE", 0x101058, 8, 0x100, 1, 0x8, 0x0, [(0, 32, .rc)]⟩,
  ⟨"FH_RX_SEQGAP", 0x101060, 8, 0x100, 1, 0x8, 0x0, [(0, 32, .rc)]⟩,
  ⟨"FH_RX_SAT", 0x101068, 8, 0x100, 1, 0x8, 0x0, [(0, 32, .rc)]⟩,
  ⟨"FH_TX_FRAMES", 0x101070, 8, 0x100, 1, 0x8, 0x0, [(0, 64, .ro)]⟩,
  ⟨"FH_TX_SAT", 0x101078, 8, 0x100, 1, 0x8, 0x0, [(0, 32, .rc)]⟩,
  ⟨"FH_TX_CRC_BAD", 0x101080, 8, 0x100, 1, 0x8, 0x0, [(0, 32, .rc)]⟩,
  ⟨"FH_CLS", 0x102000, 256, 0x10, 1, 0x8, 0x0, [(0, 64, .rw)]⟩,
  ⟨"FH_CLS", 0x102008, 256, 0x10, 1, 0x8, 0x0, [(0, 50, .rw)]⟩,
  ⟨"FH_CELLX", 0x104000, 256, 0x20, 1, 0x8, 0x0, [(0, 64, .rw)]⟩,
  ⟨"FH_CELLX", 0x104008, 256, 0x20, 1, 0x8, 0x0, [(0, 5, .rw), (16, 48, .rw)]⟩,
  ⟨"FH_CELLX", 0x104010, 256, 0x20, 1, 0x8, 0x0, [(0, 48, .rw)]⟩,
  ⟨"FH_CELLX", 0x104018, 256, 0x20, 1, 0x8, 0x0, []⟩]

def tmRegs0 : List RegDesc := [
  ⟨"TM_CTRL", 0x400000, 1, 0x8, 1, 0x8, 0x1, [(0, 1, .rw)]⟩,
  ⟨"TM_QSPLIT", 0x400008, 1, 0x8, 1, 0x8, 0xf004402000, [(0, 14, .rwl), (14, 14, .rwl), (28, 12, .rwl)]⟩,
  ⟨"TM_BUF_CFG", 0x400010, 1, 0x8, 1, 0x8, 0x20000208000, [(0, 18, .rwl), (18, 6, .rwl), (24, 18, .rwl)]⟩,
  ⟨"TM_BUF_STAT", 0x400018, 1, 0x8, 1, 0x8, 0x0, [(0, 18, .ro), (18, 18, .ro)]⟩,
  ⟨"TM_EVENT", 0x400020, 1, 0x8, 1, 0x8, 0x0, [(0, 1, .w1c), (1, 1, .w1c), (2, 1, .w1c), (3, 1, .w1c), (4, 1, .w1c)]⟩,
  ⟨"TM_DROP_POL", 0x400028, 1, 0x8, 1, 0x8, 0x0, [(0, 32, .rc)]⟩,
  ⟨"TM_DROP_TAIL", 0x400030, 1, 0x8, 1, 0x8, 0x0, [(0, 32, .rc)]⟩,
  ⟨"TM_DROP_BUF", 0x400038, 1, 0x8, 1, 0x8, 0x0, [(0, 32, .rc)]⟩,
  ⟨"TM_DROP_YEL", 0x400040, 1, 0x8, 1, 0x8, 0x0, [(0, 32, .rc)]⟩,
  ⟨"TM_DROP_LATE", 0x400048, 1, 0x8, 1, 0x8, 0x0, [(0, 32, .rc)]⟩,
  ⟨"TM_DROP_GATE", 0x400050, 1, 0x8, 1, 0x8, 0x0, [(0, 32, .rc)]⟩,
  ⟨"TM_DROP_DOWN", 0x400058, 1, 0x8, 1, 0x8, 0x0, [(0, 32, .rc)]⟩,
  ⟨"TM_REFUSE_CNT", 0x400060, 1, 0x8, 1, 0x8, 0x0, [(0, 32, .rc)]⟩,
  ⟨"TM_STALE_CNT", 0x400068, 1, 0x8, 1, 0x8, 0x0, [(0, 32, .rc)]⟩,
  ⟨"TM_MC_PARTIAL_CNT", 0x400070, 1, 0x8, 1, 0x8, 0x0, [(0, 32, .rc)]⟩,
  ⟨"TM_GATE_CFG", 0x401000, 32, 0x40, 1, 0x8, 0x0, [(0, 1, .rw)]⟩,
  ⟨"TM_GATE_ADMIN_BASE", 0x401008, 32, 0x40, 1, 0x8, 0x0, [(0, 64, .rw)]⟩,
  ⟨"TM_GATE_ADMIN_CYCLE", 0x401010, 32, 0x40, 1, 0x8, 0x0, [(0, 24, .rw)]⟩,
  ⟨"TM_GATE_ADMIN_LEN", 0x401018, 32, 0x40, 1, 0x8, 0x0, [(0, 11, .rw)]⟩,
  ⟨"TM_GATE_CMD", 0x401020, 32, 0x40, 1, 0x8, 0x0, [(0, 1, .wo), (1, 1, .wo)]⟩,
  ⟨"TM_GATE_OPER_STAT", 0x401028, 32, 0x40, 1, 0x8, 0x0, [(0, 11, .ro), (11, 10, .ro), (21, 1, .ro), (22, 1, .ro)]⟩,
  ⟨"TM_GATE_OPER_BASE", 0x401030, 32, 0x40, 1, 0x8, 0x0, [(0, 64, .ro)]⟩,
  ⟨"TM_GATE_OPER_CYCLE", 0x401038, 32, 0x40, 1, 0x8, 0x0, [(0, 24, .ro)]⟩,
  ⟨"TM_ENQ_CFG", 0x402000, 64, 0x40, 1, 0x8, 0x0, [(0, 1, .rw), (1, 9, .rw), (10, 4, .rw), (14, 9, .rw), (23, 8, .rw)]⟩,
  ⟨"TM_ENQ_RING", 0x402008, 64, 0x40, 1, 0x8, 0x0, [(0, 48, .rw)]⟩,
  ⟨"TM_ENQ_RPTR", 0x402010, 64, 0x40, 1, 0x8, 0x0, [(0, 8, .rw)]⟩,
  ⟨"TM_ENQ_STAT", 0x402018, 64, 0x40, 1, 0x8, 0x0, [(0, 6, .ro), (6, 9, .ro), (15, 8, .ro)]⟩,
  ⟨"TM_ENQ_GEN", 0x402020, 64, 0x40, 1, 0x8, 0x0, [(0, 16, .ro)]⟩,
  ⟨"TM_ENQ_CTL", 0x402028, 64, 0x40, 1, 0x8, 0x0, [(0, 1, .wo)]⟩,
  ⟨"TM_MCG", 0x404000, 256, 0x8, 1, 0x8, 0x0, [(0, 32, .rw), (32, 1, .rw)]⟩,
  ⟨"TM_MCG_Q", 0x408000, 256, 0x100, 32, 0x8, 0x0, [(0, 14, .rw)]⟩,
  ⟨"TM_NODE", 0x420000, 1024, 0x8, 1, 0x8, 0x0, [(0, 1, .rw), (1, 6, .rw), (7, 3, .rw), (10, 16, .rw), (26, 12, .rw), (38, 1, .rw)]⟩,
  ⟨"TM_POL0", 0x424000, 1024, 0x8, 1, 0x8, 0x0, [(0, 21, .rw), (21, 20, .rw), (41, 1, .rw)]⟩,
  ⟨"TM_POL1", 0x426000, 1024, 0x8, 1, 0x8, 0x0, [(0, 21, .rw), (21, 20, .rw)]⟩,
  ⟨"TM_SHP", 0x428000, 4096, 0x10, 1, 0x8, 0x0, [(0, 21, .rw), (21, 20, .rw), (41, 6, .rw), (47, 1, .rw), (48, 1, .rw)]⟩,
  ⟨"TM_SHP_CRED", 0x428008, 4096, 0x10, 1, 0x8, 0x0, [(0, 48, .ro)]⟩,
  ⟨"TM_QCFG", 0x440000, 16384, 0x20, 1, 0x8, 0x0, [(0, 1, .rw), (1, 1, .rw), (2, 10, .rw), (12, 12, .rw), (24, 1, .rw), (25, 12, .rw), (37, 4, .rw), (41, 8, .rw), (49, 9, .rw)]⟩,
  ⟨"TM_QSTAT", 0x440008, 16384, 0x20, 1, 0x8, 0x0, [(0, 13, .ro), (13, 18, .ro)]⟩,
  ⟨"TM_QCNT", 0x440010, 16384, 0x20, 1, 0x8, 0x0, [(0, 32, .rc), (32, 16, .rc), (48, 16, .rc)]⟩,
  ⟨"TM_GATE_ADMIN_ENT", 0x4c0000, 8, 0x2000, 1024, 0x8, 0x0, [(0, 64, .rw)]⟩]

def tmRegs1 : List RegDesc := [
  ⟨"TM_GATE_OPER_ENT", 0x4d0000, 8, 0x2000, 1024, 0x8, 0x0, [(0, 64, .ro)]⟩,
  ⟨"TM_ENQ_WIN", 0x500000, 64, 0x10000, 8, 0x8, 0x0, [(0, 64, .wo)]⟩]

def tmRegs : List RegDesc := tmRegs0 ++ tmRegs1

def prtRegs : List RegDesc := [
  ⟨"PRT_MODE", 0x30000, 1, 0x8, 1, 0x8, 0x0, [(0, 2, .rw)]⟩,
  ⟨"PRT_EVENT", 0x30008, 1, 0x8, 1, 0x8, 0x0, [(0, 16, .w1c), (16, 1, .w1c), (17, 1, .w1c)]⟩,
  ⟨"PRT_CMD", 0x30010, 1, 0x8, 1, 0x8, 0x0, [(0, 4, .wo), (4, 4, .wo), (8, 9, .wo), (17, 1, .wo), (18, 16, .wo)]⟩,
  ⟨"PRT_CMD_ARG", 0x30018, 1, 0x8, 1, 0x8, 0x0, [(0, 64, .rw)]⟩,
  ⟨"PRT_CMD_STATUS", 0x30020, 1, 0x8, 1, 0x8, 0x0, [(0, 1, .ro), (1, 8, .ro)]⟩,
  ⟨"PRT_RECLAIM_CFG", 0x30028, 1, 0x8, 1, 0x8, 0x3e803c, [(0, 28, .rw)]⟩,
  ⟨"PRT_REFUSE_CNT", 0x30030, 1, 0x8, 1, 0x8, 0x0, [(0, 32, .rc)]⟩,
  ⟨"PRT_STALE_CNT", 0x30038, 1, 0x8, 1, 0x8, 0x0, [(0, 32, .rc)]⟩,
  ⟨"PRT_PART", 0x30100, 16, 0x40, 1, 0x8, 0x0, [(0, 64, .rw)]⟩,
  ⟨"PRT_PART", 0x30108, 16, 0x40, 1, 0x8, 0x0, [(0, 64, .rw)]⟩,
  ⟨"PRT_PART", 0x30110, 16, 0x40, 1, 0x8, 0x0, [(0, 64, .rw)]⟩,
  ⟨"PRT_PART", 0x30118, 16, 0x40, 1, 0x8, 0x0, [(0, 64, .rw)]⟩,
  ⟨"PRT_PART_STAT", 0x30120, 16, 0x40, 1, 0x8, 0x0, []⟩,
  ⟨"PRT_RECLAIM_AT", 0x30128, 16, 0x40, 1, 0x8, 0x0, [(0, 64, .ro)]⟩,
  ⟨"PRT_INST", 0x31000, 512, 0x8, 1, 0x8, 0x0, [(0, 64, .ro)]⟩,
  ⟨"PRT_LC_INST", 0x32000, 480, 0x8, 1, 0x8, 0x3ffff, [(0, 9, .rw), (9, 9, .rw)]⟩,
  ⟨"PRT_HPORT_STAT", 0x33000, 4, 0x40, 1, 0x8, 0x0, [(0, 1, .ro), (1, 3, .ro), (4, 5, .ro), (9, 10, .ro), (19, 1, .ro), (20, 1, .ro)]⟩,
  ⟨"PRT_HPORT_BADACC", 0x33008, 4, 0x40, 1, 0x8, 0x0, [(0, 32, .rc)]⟩,
  ⟨"PRT_HPORT_FLR_CNT", 0x33010, 4, 0x40, 1, 0x8, 0x0, [(0, 32, .rc)]⟩,
  ⟨"PRT_HPORT_DOWN_CNT", 0x33018, 4, 0x40, 1, 0x8, 0x0, [(0, 32, .rc)]⟩,
  ⟨"PRT_SLOG_HEAD", 0x34000, 1, 0x8, 1, 0x8, 0x0, [(0, 8, .ro)]⟩,
  ⟨"PRT_SLOG_LOST", 0x34008, 1, 0x8, 1, 0x8, 0x0, [(0, 32, .rc)]⟩,
  ⟨"PRT_SLOG", 0x35000, 1, 0x1000, 512, 0x8, 0x0, [(0, 64, .ro)]⟩]

def mbxRegs : List RegDesc := [
  ⟨"MBX_DROP_CNT", 0x80000, 1, 0x8, 1, 0x8, 0x0, [(0, 32, .rc)]⟩,
  ⟨"MBX_POISON_CNT", 0x80008, 1, 0x8, 1, 0x8, 0x0, [(0, 32, .rc)]⟩,
  ⟨"MBX_STALE_CNT", 0x80010, 1, 0x8, 1, 0x8, 0x0, [(0, 32, .rc)]⟩,
  ⟨"MBX_ABORT_CNT", 0x80018, 1, 0x8, 1, 0x8, 0x0, [(0, 32, .rc)]⟩,
  ⟨"MBX_MC_RECV", 0x80100, 1, 0x40, 8, 0x8, 0x0, [(0, 64, .rc)]⟩,
  ⟨"MBX_EP_RECV", 0x80200, 16, 0x40, 8, 0x8, 0x0, [(0, 64, .rc)]⟩,
  ⟨"MBX_EP_CFG", 0x80600, 16, 0x8, 1, 0x8, 0x0, [(0, 8, .rw), (8, 1, .rw)]⟩,
  ⟨"MBX_EP_STAT", 0x80680, 16, 0x8, 1, 0x8, 0x0, [(0, 10, .ro)]⟩,
  ⟨"MBX_CHAN_STAT", 0x81000, 512, 0x8, 1, 0x8, 0x0, [(0, 5, .ro), (5, 5, .ro), (10, 5, .ro), (15, 5, .ro), (20, 5, .ro), (25, 5, .ro)]⟩,
  ⟨"MBX_MC_SEND", 0x90000, 512, 0x40, 8, 0x8, 0x0, [(0, 64, .wo)]⟩,
  ⟨"MBX_EP_SEND", 0xa0000, 512, 0x40, 8, 0x8, 0x0, [(0, 64, .wo)]⟩]

def secRegs : List RegDesc := [
  ⟨"SEC_BOOT_STAT", 0x50000, 1, 0x8, 1, 0x8, 0x0, [(0, 1, .ro), (1, 2, .ro), (3, 3, .ro), (6, 7, .ro), (13, 7, .ro), (20, 1, .ro), (32, 20, .ro)]⟩,
  ⟨"SEC_EVENT", 0x50008, 1, 0x8, 1, 0x8, 0x0, [(0, 1, .w1c), (1, 1, .w1c), (2, 1, .w1c), (3, 1, .w1c), (4, 1, .w1c), (5, 1, .w1c), (6, 1, .w1c), (7, 1, .w1c), (8, 1, .w1c)]⟩,
  ⟨"SEC_FUSE_KEYS", 0x50010, 1, 0x8, 1, 0x8, 0x0, [(0, 64, .ro)]⟩,
  ⟨"SEC_FUSE_MISC", 0x50018, 1, 0x8, 1, 0x8, 0x1, [(0, 1, .ro), (1, 7, .ro), (8, 24, .ro)]⟩,
  ⟨"SEC_UID", 0x50020, 1, 0x8, 1, 0x8, 0x0, [(0, 64, .ro)]⟩,
  ⟨"SEC_PS_STAT", 0x50028, 1, 0x8, 1, 0x8, 0x0, [(0, 1, .ro), (1, 32, .ro), (33, 1, .ro), (34, 1, .ro), (35, 1, .ro)]⟩,
  ⟨"SEC_PS_ERR_CNT", 0x50030, 1, 0x8, 1, 0x8, 0x0, [(0, 32, .rc)]⟩,
  ⟨"SEC_IMG_STAT", 0x50038, 1, 0x8, 1, 0x8, 0x0, [(0, 1, .ro), (1, 8, .ro), (9, 3, .ro)]⟩,
  ⟨"SEC_KEY_CMD", 0x50040, 1, 0x8, 1, 0x8, 0x0, [(0, 1, .wo), (1, 1, .wo), (2, 10, .wo)]⟩,
  ⟨"SEC_KEY_LIVE", 0x50100, 9, 0x8, 1, 0x8, 0x0, [(0, 64, .ro)]⟩,
  ⟨"SEC_MEAS", 0x50240, 4, 0x40, 6, 0x8, 0x0, [(0, 64, .ro)]⟩,
  ⟨"SEC_MEAS_PART", 0x50400, 16, 0x40, 6, 0x8, 0x0, [(0, 64, .ro)]⟩,
  ⟨"SEC_KRANGE0", 0x51000, 2048, 0x10, 1, 0x8, 0x0, [(16, 32, .rw), (63, 1, .rw)]⟩,
  ⟨"SEC_KRANGE1", 0x51008, 2048, 0x10, 1, 0x8, 0x0, [(0, 32, .rw), (32, 10, .rw)]⟩,
  ⟨"SEC_RCV_CMD", 0x59000, 1, 0x8, 1, 0x8, 0x0, [(0, 1, .wo), (1, 12, .wo), (13, 1, .wo), (14, 1, .wo)]⟩,
  ⟨"SEC_RCV_STAT", 0x59008, 1, 0x8, 1, 0x8, 0x0, [(0, 1, .ro), (1, 8, .ro)]⟩,
  ⟨"SEC_RCV_DATA", 0x5a000, 1, 0x1000, 512, 0x8, 0x0, [(0, 64, .wo)]⟩,
  ⟨"SEC_CREMA_CTRL", 0x5b000, 1, 0x8, 1, 0x8, 0x1, [(0, 1, .rw)]⟩,
  ⟨"SEC_CREMA_SEAL_CNT", 0x5b008, 1, 0x8, 1, 0x8, 0x0, [(0, 32, .rc)]⟩,
  ⟨"SEC_CREMA_TAINT_CNT", 0x5b010, 1, 0x8, 1, 0x8, 0x0, [(0, 32, .rc)]⟩,
  ⟨"SEC_CREMA_ABORT_CNT", 0x5b018, 1, 0x8, 1, 0x8, 0x0, [(0, 32, .rc)]⟩,
  ⟨"SEC_CREMA_BYTES", 0x5b020, 1, 0x8, 1, 0x8, 0x0, [(0, 64, .ro)]⟩,
  ⟨"SEC_CREMA_STAT", 0x5b028, 1, 0x8, 1, 0x8, 0x0, [(0, 12, .ro), (12, 1, .ro)]⟩,
  ⟨"SEC_CREMA_SESS", 0x5c000, 512, 0x8, 1, 0x8, 0x0, [(0, 64, .ro)]⟩,
  ⟨"SEC_CFG_LOCK", 0x5d000, 1, 0x8, 1, 0x8, 0x0, [(0, 1, .w1s)]⟩]

def rasRegs : List RegDesc := [
  ⟨"RAS_STATUS", 0x200000, 1, 0x8, 1, 0x8, 0x0, [(0, 1, .ro), (1, 1, .ro), (2, 1, .ro), (3, 1, .ro), (4, 1, .ro), (5, 1, .ro), (6, 1, .ro), (7, 1, .ro), (8, 1, .ro), (9, 1, .ro), (10, 1, .ro)]⟩,
  ⟨"RAS_EVENT", 0x200008, 1, 0x8, 1, 0x8, 0x0, [(0, 1, .w1c), (1, 1, .w1c), (2, 1, .w1c), (3, 1, .w1c), (4, 1, .w1c), (5, 1, .w1c), (6, 1, .w1c), (7, 1, .w1c), (8, 1, .w1c), (9, 1, .w1c)]⟩,
  ⟨"RAS_CMD", 0x200010, 1, 0x8, 1, 0x8, 0x0, [(0, 3, .wo), (3, 9, .wo), (12, 2, .wo), (14, 4, .wo), (18, 3, .wo)]⟩,
  ⟨"RAS_CMD_DETAIL", 0x200018, 1, 0x8, 1, 0x8, 0x0, [(0, 48, .rw)]⟩,
  ⟨"RAS_CMD_STATUS", 0x200020, 1, 0x8, 1, 0x8, 0x0, [(0, 1, .ro), (1, 8, .ro)]⟩,
  ⟨"RAS_LOG_HEAD", 0x200028, 1, 0x8, 1, 0x8, 0x0, [(0, 12, .ro)]⟩,
  ⟨"RAS_LOG_LOST", 0x200030, 1, 0x8, 1, 0x8, 0x0, [(0, 32, .rc)]⟩,
  ⟨"RAS_WIT_CFG", 0x200038, 1, 0x8, 1, 0x8, 0x31, [(0, 1, .rwl), (1, 8, .rwl)]⟩,
  ⟨"RAS_WIT_STAT", 0x200040, 1, 0x8, 1, 0x8, 0x0, [(0, 9, .ro), (9, 1, .ro), (10, 32, .ro), (42, 16, .ro)]⟩,
  ⟨"RAS_STRAG_CFG", 0x200048, 1, 0x8, 1, 0x8, 0x3e80814, [(0, 8, .rw), (8, 8, .rw), (16, 16, .rw)]⟩,
  ⟨"RAS_FATAL_CFG", 0x200050, 1, 0x8, 1, 0x8, 0xfa1, [(0, 1, .rw), (1, 16, .rw)]⟩,
  ⟨"RAS_FATAL_REC", 0x200058, 1, 0x20, 4, 0x8, 0x0, [(0, 64, .ro)]⟩,
  ⟨"RAS_THR", 0x200100, 1, 0x8, 1, 0x8, 0x5a000000010, [(0, 32, .rwl), (32, 16, .rwl)]⟩,
  ⟨"RAS_THR", 0x200108, 1, 0x8, 1, 0x8, 0x5a000000002, [(0, 32, .rwl), (32, 16, .rwl)]⟩,
  ⟨"RAS_THR", 0x200110, 1, 0x8, 1, 0x8, 0x5a000000002, [(0, 32, .rwl), (32, 16, .rwl)]⟩,
  ⟨"RAS_THR", 0x200118, 1, 0x8, 1, 0x8, 0x5a000000100, [(0, 32, .rwl), (32, 16, .rwl)]⟩,
  ⟨"RAS_THR", 0x200120, 1, 0x8, 1, 0x8, 0x5a000000002, [(0, 32, .rwl), (32, 16, .rwl)]⟩,
  ⟨"RAS_THR", 0x200128, 1, 0x8, 1, 0x8, 0x5a000000040, [(0, 32, .rwl), (32, 16, .rwl)]⟩,
  ⟨"RAS_THR", 0x200130, 1, 0x8, 1, 0x8, 0x5a000000002, [(0, 32, .rwl), (32, 16, .rwl)]⟩,
  ⟨"RAS_THR", 0x200138, 1, 0x8, 1, 0x8, 0xffff00000002, [(0, 32, .rwl), (32, 16, .rwl)]⟩,
  ⟨"RAS_THR", 0x200140, 1, 0x8, 1, 0x8, 0x5a000001000, [(0, 32, .rwl), (32, 16, .rwl)]⟩,
  ⟨"RAS_THR", 0x200148, 1, 0x8, 1, 0x8, 0x5a000000004, [(0, 32, .rwl), (32, 16, .rwl)]⟩,
  ⟨"RAS_THR", 0x200150, 1, 0x8, 1, 0x8, 0x3c00000004, [(0, 32, .rwl), (32, 16, .rwl)]⟩,
  ⟨"RAS_THR", 0x200158, 1, 0x8, 1, 0x8, 0x5a000000004, [(0, 32, .rwl), (32, 16, .rwl)]⟩,
  ⟨"RAS_THR", 0x200160, 1, 0x8, 1, 0x8, 0x5a000000008, [(0, 32, .rwl), (32, 16, .rwl)]⟩,
  ⟨"RAS_THR", 0x200168, 1, 0x8, 1, 0x8, 0x5a000000010, [(0, 32, .rwl), (32, 16, .rwl)]⟩,
  ⟨"RAS_THR", 0x200170, 1, 0x8, 1, 0x8, 0x5a000000008, [(0, 32, .rwl), (32, 16, .rwl)]⟩,
  ⟨"RAS_THR", 0x200178, 1, 0x8, 1, 0x8, 0x5a000000010, [(0, 32, .rwl), (32, 16, .rwl)]⟩,
  ⟨"RAS_THR", 0x200180, 1, 0x8, 1, 0x8, 0xffff00111700, [(0, 32, .rwl), (32, 16, .rwl)]⟩,
  ⟨"RAS_THR", 0x200188, 1, 0x8, 1, 0x8, 0xffff00000001, [(0, 32, .rwl), (32, 16, .rwl)]⟩,
  ⟨"RAS_THR", 0x200190, 1, 0x8, 1, 0x8, 0xffff00000400, [(0, 32, .rwl), (32, 16, .rwl)]⟩,
  ⟨"RAS_THR", 0x200198, 1, 0x8, 1, 0x8, 0xffff00000008, [(0, 32, .rwl), (32, 16, .rwl)]⟩,
  ⟨"RAS_THR", 0x2001a0, 1, 0x8, 1, 0x8, 0x5a000000008, [(0, 32, .rwl), (32, 16, .rwl)]⟩,
  ⟨"RAS_THR", 0x2001a8, 1, 0x8, 1, 0x8, 0x5a000000004, [(0, 32, .rwl), (32, 16, .rwl)]⟩,
  ⟨"RAS_THR", 0x2001b0, 1, 0x8, 1, 0x8, 0x3c00010000, [(0, 32, .rwl), (32, 16, .rwl)]⟩,
  ⟨"RAS_DIE_STAT", 0x200200, 4, 0x8, 1, 0x8, 0x0, [(0, 23, .ro)]⟩,
  ⟨"RAS_CARD_SWAP", 0x200300, 16, 0x8, 1, 0x8, 0x0, [(0, 25, .rw), (25, 1, .ro)]⟩,
  ⟨"RAS_CORE_HIST", 0x201000, 512, 0x8, 1, 0x8, 0x0, [(0, 8, .ro), (8, 12, .ro), (20, 1, .ro), (21, 1, .ro), (22, 30, .ro)]⟩,
  ⟨"RAS_LOG", 0x220000, 1, 0x20000, 16384, 0x8, 0x0, [(0, 64, .ro)]⟩,
  ⟨"RAS_CARD_LAT", 0x240000, 4096, 0x8, 1, 0x8, 0x0, [(0, 16, .ro), (16, 16, .ro)]⟩]

def pwrRegs : List RegDesc := [
  ⟨"PWR_CAP", 0x2000, 1, 0x8, 1, 0x8, 0x7d0, [(0, 12, .rw)]⟩,
  ⟨"PWR_TIMED_BUDGET", 0x2008, 1, 0x8, 1, 0x8, 0x12c, [(0, 12, .rw)]⟩,
  ⟨"PWR_CAP_CFG", 0x2010, 1, 0x8, 1, 0x8, 0x3843c108, [(0, 64, .rwl)]⟩,
  ⟨"PWR_CAP_STAT", 0x2018, 1, 0x8, 1, 0x8, 0x8, [(0, 4, .ro), (4, 1, .ro), (5, 1, .ro), (6, 22, .ro)]⟩,
  ⟨"PWR_EVENT", 0x2020, 1, 0x8, 1, 0x8, 0x0, [(0, 1, .w1c), (1, 1, .w1c), (2, 1, .w1c), (3, 1, .w1c), (4, 1, .w1c)]⟩,
  ⟨"PWR_TEMP_CFG", 0x2028, 1, 0x8, 1, 0x8, 0x735f, [(0, 8, .rwl), (8, 8, .rwl)]⟩,
  ⟨"PWR_DOM_CMD", 0x2030, 1, 0x8, 1, 0x8, 0x0, [(0, 5, .wo), (5, 1, .wo), (6, 1, .wo)]⟩,
  ⟨"PWR_REFUSE_CNT", 0x2038, 1, 0x8, 1, 0x8, 0x0, [(0, 32, .rc)]⟩,
  ⟨"PWR_UNMET_CNT", 0x2040, 1, 0x8, 1, 0x8, 0x0, [(0, 32, .rc)]⟩,
  ⟨"PWR_DUTY_CNT", 0x2048, 1, 0x8, 1, 0x8, 0x0, [(0, 64, .rc)]⟩,
  ⟨"PWR_PKG_E", 0x2050, 1, 0x8, 1, 0x8, 0x0, [(0, 64, .ro)]⟩,
  ⟨"PWR_DOM_STAT", 0x2100, 28, 0x20, 1, 0x8, 0x0, [(0, 2, .ro), (2, 20, .ro), (22, 1, .ro)]⟩,
  ⟨"PWR_DOM_E", 0x2108, 28, 0x20, 1, 0x8, 0x0, [(0, 64, .ro)]⟩,
  ⟨"PWR_TEMP", 0x2800, 5, 0x8, 1, 0x8, 0x0, [(0, 10, .ro), (10, 10, .rc)]⟩,
  ⟨"PWR_PART_P", 0x2900, 16, 0x8, 1, 0x8, 0x0, [(0, 22, .ro)]⟩,
  ⟨"PWR_TIMED_OVER_CNT", 0x2980, 16, 0x8, 1, 0x8, 0x0, [(0, 32, .rc)]⟩]

/-- The registers of the block that holds address a (Table 20.8). -/
def blockRegs (a : Nat) : List RegDesc :=
  if a < 0x1000 then clkRegs
  else if a < 0x2000 then timeRegs
  else if a < 0x3000 then pwrRegs
  else if a < 0x10000 then []
  else if a < 0x20000 then memRegs
  else if a < 0x30000 then xltRegs
  else if a < 0x40000 then prtRegs
  else if a < 0x50000 then brsRegs
  else if a < 0x60000 then secRegs
  else if a < 0x80000 then lnkRegs
  else if a < 0xC0000 then mbxRegs
  else if a < 0x100000 then cglRegs
  else if a < 0x200000 then fhRegs
  else if a < 0x280000 then rasRegs
  else if a < 0x400000 then []
  else if a < 0xC00000 then tmRegs
  else if a < 0x1400000 then fecRegs
  else if a < 0x2000000 then []
  else if a < 0x3000000 then fabRegs
  else if a < 0x3200000 then []
  else if a < 0x3400000 then coreRegs
  else []

/-- The register at address a; none where no block defines one (R513). -/
def regDesc? (a : Nat) : Option RegDesc := (blockRegs a).find? (fun d => d.holds a)

/-- The block id of an address (Table 20.8). -/
def blockId (a : Nat) : Nat :=
  if a < 0x1000 then 0 else if a < 0x2000 then 1 else if a < 0x3000 then 2
  else if a < 0x20000 then 3 else if a < 0x30000 then 4 else if a < 0x40000 then 5 else if a < 0x50000 then 6
  else if a < 0x60000 then 7 else if a < 0x80000 then 8 else if a < 0xC0000 then 9 else if a < 0x100000 then 10
  else if a < 0x200000 then 11 else if a < 0x400000 then 12 else if a < 0xC00000 then 13 else if a < 0x1400000 then 14
  else if a < 0x3000000 then 15 else if a < 0x3200000 then 16 else 17

/-- The base of the block that holds an address (Table 20.8). -/
def blockBase (a : Nat) : Nat :=
  match blockId a with
  | 0 => 0 | 1 => 0x1000 | 2 => 0x2000 | 3 => 0x10000 | 4 => 0x20000 | 5 => 0x30000 | 6 => 0x40000 | 7 => 0x50000
  | 8 => 0x60000 | 9 => 0x80000 | 10 => 0xC0000 | 11 => 0x100000 | 12 => 0x200000 | 13 => 0x400000 | 14 => 0xC00000
  | 15 => 0x2000000 | 16 => 0x3000000
  | _ => 0x3200000

/-- The reset value of a register (R9). -/
def regReset (a : Nat) : Nat :=
  match regDesc? a with
  | some d => d.reset
  | none => 0

/-- The bits of the fields with one access code. -/
def accMask (c : Acc) (fs : List (Nat × Nat × Acc)) : Nat :=
  fs.foldl (fun m f => if f.2.2 = c then m ||| ((2 ^ f.2.1 - 1) <<< f.1) else m) 0

/-- The value of a register after a write of v, each field under its own code (R8, R10, R11). -/
def RegDesc.apply (d : RegDesc) (locked : Bool) (old v : Nat) : Nat :=
  let rw := accMask .rw d.fields ||| (if locked then 0 else accMask .rwl d.fields)
  let kept := old - (old &&& rw)
  let taken := kept + (v &&& rw)
  let cleared := taken - (taken &&& (v &&& accMask .w1c d.fields))
  cleared ||| (v &&& accMask .w1s d.fields)

/-- Does a write of v differ from an RWL field that lock has frozen (R11)? -/
def RegDesc.lockRefuses (d : RegDesc) (locked : Bool) (old v : Nat) : Bool :=
  locked && ((old ^^^ v) &&& accMask .rwl d.fields) != 0

/-- The value after a read: RC fields return to their reset value (R8). -/
def RegDesc.afterRead (d : RegDesc) (old : Nat) : Nat :=
  let m := accMask .rc d.fields
  (old - (old &&& m)) + (d.reset &&& m)

end Sys2Proof.Machine
end

