-- ==== Sys2Proof/Machine/State.lean ====
section
/-!
DEFINITION. Machine/State.lean: the state of the whole part as plain data, and the state after reset.
-/
namespace Sys2Proof.Machine

/-- Why a step stops with a fault: no command of this block does; the constructor is there because the interface asks
for a closed type. Safe: nothing raises it. -/
inductive Fault where
  /-- Raised by nobody. -/
  | none
  deriving DecidableEq, Repr

/-- Why a step is refused. -/
inductive Refusal where
  /-- Raised by an arm of exec whose command has no meaning yet. Safe: the model stops. -/
  | notModelled (mnemonic : String)
  deriving DecidableEq, Repr

/-- The answer to the last command that has one: the status word's code and cause (Table 20.4), attn, and the words
returned. -/
structure Reply where
  code : Nat := 0
  cause : Nat := 0
  attn : Nat := 0
  data : List Nat := []
  deriving DecidableEq, Repr

/-! ### Translation (chapter 07) -/

/-- A translation cache (Table 7.4): the micro-TLB of a core's context, a cluster TLB, the DMA TLB, and for gateways
the hub's walk cache alone. -/
inductive TlbPlace where
  | micro (core : Nat) (ctx : Ctx)
  | cluster (n : Nat)
  | dma
  | hub
  deriving DecidableEq, Repr

/-- A cached leaf: instance, first address and log2 of the page, the 8-byte leaf entry (R189). fresh: a walk has just put it
here and the access that asked for it has not used it yet (the level of Table 7.9). -/
structure TlbEntry where
  place : TlbPlace
  inst : Nat
  base : Nat
  lg : Nat
  entry : Nat
  fresh : Bool := false
  deriving DecidableEq, Repr

/-- An entry of the walk cache: level 0 to 2, the instance, the address prefix it serves, the entry (Table 7.4). -/
structure WalkEntry where
  inst : Nat
  level : Nat
  pre : Nat
  entry : Nat
  deriving DecidableEq, Repr

/-- A walk in progress (R191). again: an invalidation of its range began while it ran (R194). -/
structure Walk where
  place : TlbPlace
  inst : Nat
  gen : Nat
  va : Nat
  timed : Bool
  again : Bool := false
  deriving DecidableEq, Repr

/-- A walk that ended in a fault and has not yet been met by its requester. -/
structure WalkFault where
  place : TlbPlace
  inst : Nat
  va : Nat
  status : Nat
  cause : Nat
  level : Nat
  deriving DecidableEq, Repr

/-- An invalidation in progress (R193). -/
structure Inval where
  op : Nat
  inst : Nat
  addr : Nat
  size : Nat
  deriving DecidableEq, Repr

/-- One accepted host DMA descriptor (R195, R199): bytes done, and how it ended. -/
structure DmaJob where
  desc : Nat
  done : Nat := 0
  status : Nat := 0
  cause : Nat := 0
  ended : Bool := false
  deriving DecidableEq, Repr

/-- The host DMA queue of an instance. -/
structure DmaQ where
  q : Carafe := {}
  gen : Nat := 0
  jobs : List DmaJob := []
  deriving DecidableEq, Repr

/-! ### Buffer pools (chapter 06) -/

/-- The owner of a granted buffer, or of a waiting request (R176, R179). -/
structure PoolOwner where
  port : Nat
  inst : Nat
  gen : Nat
  timed : Bool
  deriving DecidableEq, Repr

/-- One pool: owners by buffer number, waiters in order of arrival, the rotating pointer. -/
structure Pool where
  owners : List (Nat × Option PoolOwner) := []
  waiters : List PoolOwner := []
  pointer : Nat := 0
  deriving DecidableEq, Repr

/-- A live region of an instance (R156, R157): instance address, bytes, tier, die or cluster, device-local base,
log2 of its page. -/
structure Region where
  inst : Nat
  va : Nat
  size : Nat
  tier : Nat
  local_ : Bool
  unit : Nat
  base : Nat
  lg : Nat
  /-- The exchange area or the KV window of a Barista group (R259, R260): FREE does not return it. -/
  brs : Bool := false
  deriving DecidableEq, Repr

/-- Grades (R1). -/
inductive Grade where
  | gn9648 | gn9640
  deriving DecidableEq, Repr

/-- A core fenced whose number waits for its hand-over (R122): the number, the core it left, the spare, how far the
preparation has come. -/
structure Handover where
  lc : Nat
  fromCore : Nat
  spare : Option Nat := none
  cleared : Bool := false
  elasticDone : Bool := false
  timedDone : Bool := false
  deriving DecidableEq, Repr

/-- A rotation (R477): the number, the core that leaves, the spare, which hand-overs are done, whether op 3 of RAS_CMD has
named the core, and whether it is a suspect's or a straggler's. -/
structure Rot where
  lc : Nat
  fromCore : Nat
  spare : Nat
  elasticDone : Bool := false
  timedDone : Bool := false
  named : Bool := false
  deriving DecidableEq, Repr

/-- A Crema command that waits or is in progress (R459): its instance, code, payload; for a SEAL the taint bits at the cycle in
which it was taken; begun: the engine works on it. -/
structure CremaJob where
  inst : Nat
  op : Nat
  pay : Nat
  taint : Nat := 0
  begun : Bool := false
  deriving DecidableEq, Repr

/-- The SPDM responder of one function (R452): versions, capabilities and algorithms have been exchanged; its sessions with whether
each is established; the next chunk of a request, and of a response. -/
structure Spdm where
  ver : Bool := false
  caps : Bool := false
  algs : Bool := false
  sess : List (Nat × Bool) := []
  chunkIn : Option Nat := none
  chunkOut : Option Nat := none
  deriving DecidableEq, Repr

/-- A Crema session slot (R459 to R464). -/
structure CremaSlot where
  opened : Bool := false
  det : Bool := false
  mode : Nat := 0
  hash : Nat := 0
  taint : Nat := 0
  nAdd : Nat := 0
  nPre : Nat := 0
  deriving DecidableEq, Repr

/-- An error that has reached its threshold and is on its way to the level above (R466): row of Table 18.3, resource,
window count. -/
structure Escal where
  row : Nat
  res : Nat
  count : Nat
  deriving DecidableEq, Repr

/-- Who waits for a fabric request's reply (R198, R297). -/
inductive FabOwner where
  | load (core : Nat) (ctx : Ctx) (t : Nat)
  | store (core : Nat) (ctx : Ctx) (t : Nat)
  | dispatch (ring entry : Nat)
  | combine (inbox slot : Nat)
  | gateway (inst : Nat)
  | note
  deriving DecidableEq, Repr

/-- A fabric request (Table 11.4): opcode, target card, partition and device-local address, bytes, payload, owner. -/
structure FabReq where
  op : Nat
  card : Nat
  part : Nat
  addr : Nat
  len : Nat
  payload : Nat := 0
  owner : FabOwner
  inst : Nat
  gen : Nat
  timed : Bool
  uo : Bool := false
  spec : Bool := false
  epoch : Nat := 0
  grp : Nat := 0
  flow : Nat := 0
  srcPart : Option Nat := none
  unit : Nat := 69
  bad : List Nat := []
  deriving DecidableEq, Repr

/-- A tag in use (R297, R298): its request, and whether it is in quarantine after a timeout. -/
structure TagUse where
  req : FabReq
  quarantined : Bool := false
  deriving DecidableEq, Repr

/-- Bytes written to host memory through PCIe: the instance, the PCIe address, the count, the value. -/
structure HostWrite where
  inst : Nat
  addr : Nat
  len : Nat
  data : Nat
  deriving DecidableEq, Repr

/-- A packet for a fabric port: header and payload as one number (Table 11.4, R294), its bytes, its class, its card and
flow key, for a request the tag and the request, and the 32-byte slots whose source data carried a poison tag (R319). Port 24 is
the loopback path (R287). -/
structure FabPkt where
  val : Nat
  size : Nat
  card : Nat
  tc : Bool := false
  req : Option (Nat × FabReq) := none
  flow : Nat := 0
  bad : List Nat := []
  deriving DecidableEq, Repr

/-- A packet that has left the part on a port. -/
structure FabSent where
  port : Nat
  pkt : FabPkt
  deriving DecidableEq, Repr

/-- A gateway's open frame for a card (R301): the requests in it, in order, with their tags, and its pool buffer. -/
structure GwFrame where
  reqs : List (Nat × FabReq) := []
  buf : Option (Nat × Nat) := none
  deriving DecidableEq, Repr

/-- A gateway: its input queue of requests with their tags, its open frames by card, the tags of the frames sent. -/
structure Gateway where
  queue : List (Option Nat × FabReq) := []
  openFr : List (Nat × GwFrame) := []
  flight : List (List Nat) := []
  deriving DecidableEq, Repr

/-- A piece of an expert's result: its offset, its bytes, how its COMBINE ended (none: not yet). -/
structure Piece where
  off : Nat
  len : Nat
  status : Option Nat := none
  deriving DecidableEq, Repr

/-- An outstanding dispatch entry, at 256 × ring + entry (R306, R307): ring and entry, what the COMBINEs must match, the bytes
performed. -/
structure Disp where
  ring : Nat
  entry : Nat
  inst : Nat
  req : FabReq
  outGlobal : Nat
  mode : Nat
  spec : Bool
  epoch : Nat
  grp : Nat
  step : Nat
  outLen : Nat
  evt : Nat
  lc : Nat
  accepted : Bool := false
  retries : Nat := 0
  waiting : Bool := false
  sentNs : Nat := 0
  pieces : List Piece := []
  deriving DecidableEq, Repr

/-- The COMBINEs of an inbox slot that are still out (R307). -/
structure Combining where
  inbox : Nat
  slot : Nat
  left : Nat
  deriving DecidableEq, Repr

/-- The fabric block (chapter 11). arrived: the order of READY slots of each inbox, oldest first. filter: the most recent
cancellations, newest last (R308). rr: the requesting unit that is next in turn (R297). ringPtr: the dispatch ring that is
next in turn. slots: states of inbox slots (Table 11.8), at 4096 × inbox + slot. outs: the requester's out_global of each slot (R306). lat: for each card the running window of
RAS_CARD_LAT (R483): its number, the sum of times in ns, the completions. -/
structure Fab where
  tags : List (Nat × Option TagUse) := []
  waiting : List FabReq := []
  sent : List FabSent := []
  gw : List (Nat × Gateway) := []
  gwq : List (Nat × DmaQ) := []
  disp : List (Nat × Option Disp) := []
  combining : List Combining := []
  arrived : List (Nat × List Nat) := []
  filter : List (Nat × Nat × Nat) := []
  rr : Nat := 0
  ringPtr : Nat := 0
  slots : List (Nat × Nat) := []
  outs : List (Nat × Nat) := []
  lat : List (Nat × (Nat × Nat × Nat)) := []
  deriving DecidableEq, Repr

/-! ### Fabric ports (chapter 12) -/

/-- A flit held in a replay buffer (R324): its sequence number, its class, the header of its packet; ctrl: a CTRL
message. -/
structure FlitCopy where
  seq : Nat
  tc : Bool
  hdr : Nat
  ctrl : Bool := false
  deriving DecidableEq, Repr

/-- A packet that waits at a port, and the flits of it still to be sent. -/
structure TxPkt where
  pkt : FabPkt
  left : Nat
  deriving DecidableEq, Repr

/-- A lane swap in progress (R330): the lane, whether this end is the transmitter (T) or the receiver (R) of the
direction, and the codewords step: 2 requested, 3 mirroring, 6 acknowledged, 8 switched and still driven. -/
structure LaneSwap where
  lane : Nat
  tx : Bool
  stage : Nat
  deriving DecidableEq, Repr

/-- A fabric port beside its registers: the training phase, the partner's key, what waits to be sent, the replay buffer,
replays of the same oldest flit, an outstanding NAK, whether a flit has been delivered (ack_v), credits held and buffers
freed by class, slots of a packet not yet whole by class (each with its poison), packets delivered and not yet taken by
the router (value, bytes, poison), the partner's last time stamp, swaps, lanes not driven, and the
counts of the LNK_WIN window. -/
structure LnkPort where
  phase : Nat := 0
  key : Option Nat := none
  bursts : Nat := 0
  round : Nat := 0
  backoffUs : Nat := 0
  dead : Option Nat := none
  disabling : Bool := false
  masked : Bool := false
  drainDone : Bool := false
  ready : Bool := false
  txq : List TxPkt := []
  ctrl : List (Nat × Nat) := []
  buf : List FlitCopy := []
  replays : Nat := 0
  nakOut : Bool := false
  ackV : Bool := false
  cred0 : Nat := 0
  cred1 : Nat := 0
  freed0 : Nat := 0
  freed1 : Nat := 0
  part0 : List (Nat × Bool) := []
  part1 : List (Nat × Bool) := []
  got : List (Nat × Nat × Bool) := []
  echo : Nat := 0
  swaps : List LaneSwap := []
  off : List Nat := []
  swSeen : Bool := false
  spareBad : Bool := false
  laneWin : List (Nat × Nat) := []
  lockWin : List Nat := []
  uncWin : Nat := 0
  recWin : Nat := 0
  deriving DecidableEq, Repr


/-- A swap that is pending (R246): the new start, and the copy of the administrative list. -/
structure CglSwap where
  start : Nat
  base : Nat
  cycle : Nat
  ents : List Nat
  deriving DecidableEq, Repr

/-- One compute gate list beside its registers (R239 to R247): start of the current cycle in ns, the t_mask in force,
clusters whose executor is timed-owned for the rest of the cycle, a stop or a swap that is pending. -/
structure CglList where
  start : Nat := 0
  mask : Nat := 0
  faults : List Nat := []
  stop : Bool := false
  swap : Option CglSwap := none
  deriving DecidableEq, Repr

/-! ### Barista (chapter 10) -/

/-- An ADMIT payload (Table 10.6). -/
structure BrsReq where
  cls : Nat
  promptLen : Nat
  maxNew : Nat
  promptOff : Nat
  nKeys : Nat
  keyOff : Nat
  deriving DecidableEq, Repr

/-- An entry of the active sequence table (Table 10.2), with the state it returns to after a reload and the indices of
the block records of its block table, in order. -/
structure BrsEntry where
  state : Nat := 0
  cls : Nat := 0
  grp : Nat := 0
  qslot : Nat := 0
  gen : Nat := 0
  inst : Nat := 0
  ctxLen : Nat := 0
  promptLen : Nat := 0
  prefillDone : Nat := 0
  maxNew : Nat := 0
  generated : Nat := 0
  promptOff : Nat := 0
  nKeys : Nat := 0
  delay : Nat := 0
  keyOff : Nat := 0
  lastServed : Nat := 0
  admitStep : Nat := 0
  epoch0 : Nat := 0
  nEpoch : Nat := 0
  draftsNext : Nat := 0
  dflag : Bool := false
  cancel : Bool := false
  mig : Option Nat := none
  saved : Nat := 0
  blocks : List Nat := []
  deriving DecidableEq, Repr

/-- A block record (Table 10.8). place: 0 HBM, 1 Silo, 2 moving to Silo, 3 moving to HBM. released: when its refs fell
to 0, for the order of eviction. -/
structure BrsBlock where
  full : Bool := false
  place : Nat := 0
  refs : Nat := 1
  hbm : Nat := 0
  silo : Nat := 0
  grp : Nat := 0
  key : Option Nat := none
  released : Nat := 0
  deriving DecidableEq, Repr

/-- A work item of a step (Table 10.9). -/
structure BrsItem where
  seq : Nat
  prefill : Bool
  d : Nat
  pos : Nat
  nTok : Nat
  epoch0 : Nat
  deriving DecidableEq, Repr

/-- A task of a step: the core it went to, and how it ended without a record; unsent: still to be written. -/
structure BrsTask where
  pc : Nat
  desc : Nat
  sent : Bool := false
  ended : Option Nat := none
  deriving DecidableEq, Repr

/-- One serving group beside its registers: the device-local base of its exchange area, its wait list, the step in
flight, and what waits for the next boundary. -/
structure BrsGroup where
  xch : Nat := 0
  waiters : List BrsReq := []
  items : List BrsItem := []
  tasks : List BrsTask := []
  hold : Bool := false
  reclaim : Bool := false
  stalled : Bool := false
  destroyTag : Option Nat := none
  deriving DecidableEq, Repr

/-- Barista. moves: block moves by block record, in order, four in flight; order: counts releases; cards: the cards of
each ring's group that have been sent speculative dispatches since the last notice (R308). -/
structure Brs where
  ents : List (Nat × BrsEntry) := []
  blocks : List (Nat × Option BrsBlock) := []
  groups : List (Nat × BrsGroup) := []
  moves : List Nat := []
  order : Nat := 0
  cards : List (Nat × List Nat) := []
  deriving DecidableEq, Repr

/-! ### The FEC array and the cells (chapter 13) -/

/-- A code block of a job: 0 waiting, 1 in a unit, 2 done; its outcome; the unit it must not run on again (R358). -/
structure FecCb where
  st : Nat := 0
  pass : Bool := false
  reused : Bool := false
  iters : Nat := 0
  out : Nat := 0
  soft : List Int := []
  bad : Bool := false
  avoid : Option Nat := none
  deriving DecidableEq, Repr

/-- An accepted job (R350 to R355): its order of acceptance, queue, descriptor, owner; how it was stopped; whether the header
copied at its start matched. -/
structure FecJob where
  id : Nat
  q : Nat
  desc : Nat
  inst : Nat
  gen : Nat
  started : Bool := false
  stop : Option Nat := none
  matched : Bool := false
  lost : Bool := false
  poison : Bool := false
  blocks : List FecCb := []
  deriving DecidableEq, Repr

/-- The FEC array: jobs in order of acceptance, pushes held at each queue, what each unit runs (job, code block),
completion records that wait for room in a ring; a held push is its descriptor and its poison tag. Units 0 to 31 decode LDPC, 32 to 39 encode it, 40 and 41 decode polar
codes, 42 and 43 encode them. -/
structure Fec where
  jobs : List FecJob := []
  held : List (Nat × List (Nat × Bool)) := []
  next : Nat := 0
  units : List (Nat × Option (Nat × Nat)) := []
  recs : List (Nat × List Nat) := []
  deriving DecidableEq, Repr

/-- A cell beside its registers: the network time from which it may become ACTIVE, a deactivation that waits for the slot
boundary, TIME_CNT at its entry into HOLDOVER (R362, R363). -/
structure CellSt where
  actAt : Nat := 0
  offNext : Bool := false
  since : Nat := 0
  deriving DecidableEq, Repr

/-! ### The traffic manager (chapter 14) -/

/-- A frame's share of the packet buffer (R391): cells, how many of them from the timed reserve, the target charged, the
frames that still hold it. -/
structure TmBuf where
  cells : Nat
  reserve : Nat
  target : Nat
  timed : Bool
  refs : Nat
  deriving DecidableEq, Repr

/-- A frame in an egress queue: its bytes as one number and their count, without the FCS, its buffer, the egress
descriptor and copy it belongs to, its launch time and window, ingress port and stamp, whether its FCS is sent inverted,
whether it has been counted as held. -/
structure TmFrame where
  data : Nat
  len : Nat
  buf : Nat
  job : Option (Nat × Nat) := none
  launch : Nat := 0
  winNs : Nat := 0
  port : Nat := 0
  sub : Nat := 0
  stampOk : Bool := false
  stamp : Nat := 0
  bad : Bool := false
  held : Bool := false
  deriving DecidableEq, Repr

/-- A copy of a descriptor for one target: the queue, frames not yet sent or dropped, how it ended. -/
structure TmCopy where
  target : Nat
  queue : Nat
  left : Nat
  status : Nat := 0
  late : Bool := false
  down : Bool := false
  deriving DecidableEq, Repr

/-- An accepted egress descriptor (R378, R379). -/
structure TmJob where
  id : Nat
  win : Nat
  desc : Nat
  inst : Nat
  gen : Nat
  copies : List TmCopy := []
  tSent : Option Nat := none
  poison : Bool := false
  aborted : Bool := false
  deriving DecidableEq, Repr

/-- A scheduler node (R384, R385): its ring of queues that hold frames, the ring's place, its start tag. -/
structure TmNode where
  ring : List Nat := []
  cur : Nat := 0
  start : Nat := 0
  backlogged : Bool := false
  deriving DecidableEq, Repr

/-- A policer's buckets and the tick they were last brought up to (R388). -/
structure TmPol where
  tc : Int := 0
  tp : Int := 0
  since : Nat := 0
  deriving DecidableEq, Repr

/-- A frame that has left on a fronthaul sub-port: target, bytes, count, whether its FCS was inverted, its egress stamp in
2^-16 ns. -/
structure FhSent where
  target : Nat
  data : Nat
  len : Nat
  bad : Bool
  stamp : Nat
  deriving DecidableEq, Repr

/-- The traffic manager and the fronthaul path beside their registers. held: descriptors waiting in each window (value
and poison as items of a Carafe); queues: frames of each queue; deficit: by queue; classV: V at 8 × target + class; nodes;
shpAt: the tick each shaper's credit was last brought up to; gates: by target; seqOut and seqIn: ecpriSeqid of
each stream, at 65536 × plane + eAxC within the sub-port's 131072; toMc: frames passed to the management cores; sent; syms:
downlink symbols (R364) by cell, frame, subframe, slot and symbol: 1 their U-plane is queued, 2 their send time has passed with it queued, 3 they are
never sent. -/
structure Tm where
  wins : List (Nat × Carafe) := []
  heldIn : List (Nat × List CItem) := []
  jobs : List TmJob := []
  next : Nat := 0
  bufs : List (Nat × Option TmBuf) := []
  queues : List (Nat × List TmFrame) := []
  nodes : List (Nat × TmNode) := []
  deficit : List (Nat × Nat) := []
  classV : List (Nat × Nat) := []
  shpAt : List (Nat × Nat) := []
  pols : List (Nat × TmPol) := []
  gates : List (Nat × CglList) := []
  recs : List (Nat × List Nat) := []
  seqOut : List (Nat × Nat) := []
  seqIn : List (Nat × Nat) := []
  toMc : List (Nat × Nat × Nat) := []
  sent : List FhSent := []
  syms : List (Nat × Nat) := []
  deriving DecidableEq, Repr

/-! ### Mailboxes and MSI-X (chapters 15 and 20) -/

/-- A mailbox channel (R417, R420): its messages of 512 bits, messages of the packet not yet closed, tags of the entries held
by messages taken whose replies are not yet read. -/
structure MbxChan where
  q : Carafe := {}
  part : Nat := 0
  held : List Nat := []
  deriving DecidableEq, Repr

/-- MSI-X of a function (R512): enabled; by vector whether it is unmasked, and whether it is pending. -/
structure Msix where
  on : Bool := false
  unmasked : List Nat := []
  pend : List Nat := []
  deriving DecidableEq, Repr

/-! ### Partitions (chapter 15) -/

/-- A partition beside its registers: instances that have acknowledged its reclaim, whether its teardown runs, whether its
ZEROING ends a DESTROY, the memory its freed regions held (device-local base and bytes). -/
structure PartSt where
  acks : List Nat := []
  tearing : Bool := false
  destroying : Bool := false
  freed : List (Nat × Nat) := []
  deriving DecidableEq, Repr

/-! ### Start-up, flash and the persistent store (chapter 16) -/

/-- The fuse block beside the registers that show it (R446, R99): device unique ID, clockIdentity prefix, states of the key slots
(two bits each), hashes of their keys by slot, svn, repairs of ME arrays by core, cores that failed test or are fused off. -/
structure Fuses where
  uid : Nat := 0
  prefix24 : Nat := 0
  keys : Nat := 0
  hashes : List (Nat × Nat) := []
  svn : Nat := 0
  repairs : List (Nat × Nat) := []
  failed : List Nat := []
  deriving DecidableEq, Repr

/-- The contents of the persistent store (R445): confirmed and pending slot (0xFF none), retired lanes, FENCE records, firmware data. -/
structure Store where
  conf : Nat := 0
  pend : Nat := 0xFF
  lanes : List (Nat × Option Nat) := []
  fences : List (Nat × Nat) := []
  firmware : List Byte := []
  deriving DecidableEq, Repr

/-- A store bank (R441, R442): whether its header and check are right, its sequence number, its trial attempt word, its contents. -/
structure Bank where
  valid : Bool := false
  seq : Nat := 0
  attempts : Nat := 2 ^ 64 - 1
  cont : Store := {}
  deriving DecidableEq, Repr

/-- An erase and program of flash in progress: the store writer's (bank, sequence number, contents; again: its second try; restart:
for PS_RESTART), the erase of a bank that ends PS_RESTART, units of a slot (inst: for IMG_WRITE; none: for the recovery window). -/
inductive FlashOp where
  | store (bank seq : Nat) (cont : Store) (again restart : Bool)
  | erase (bank : Nat)
  | units (slot first n data : Nat) (inst : Option Nat)
  deriving DecidableEq, Repr

/-- How far a start-up has come (R430, R431): RST_N is low; the ROM tries a slot (trial: a trial boot; second: the other slot has
failed); the management cores run; HALT; RECOVERY. -/
inductive BootPhase where
  | held
  | rom (slot : Nat) (trial second : Bool)
  | run
  | halt
  | recovery
  deriving DecidableEq, Repr

/-- Start-up and the flash. hpEn: the straps HP_EN; signers, svn, revoke: of the running image; image: its sections in the image
region; passed: slots whose last IMG_CHECK since their last write passed; cmd: the image command that waits for the store writer
(instance, code); storeOp and imgOp: what the flash is doing; psLast: the contents of the last store write; psDirty: a write is due
though the contents are the same; psAt: TIME_CNT at the start of the last store write. -/
structure Boot where
  phase : BootPhase := .held
  hpEn : Nat := 0xF
  signers : Nat := 0
  svn : Nat := 0
  revoke : Nat := 0
  image : List (Nat × Byte) := []
  passed : List Nat := []
  cmd : Option (Nat × Nat) := none
  storeOp : Option FlashOp := none
  imgOp : Option FlashOp := none
  conf : Nat := 0
  pend : Nat := 0xFF
  firmware : List Byte := []
  psLast : Store := {}
  psDirty : Bool := false
  psAt : Option Nat := none
  deriving DecidableEq, Repr

/-- The whole state. -/
structure State where
  /-- Commands waiting, first in, first out. -/
  pending : List Instr := []
  /-- The model's own counter for fresh free values. -/
  free : Nat := 0
  reply : Reply := {}
  /-- Registers of the control region that differ from their reset value, by offset (R513). -/
  regs : List (Nat × Nat) := []
  /-- Registers of the instance windows that differ from zero, at 0x10000 × instance + offset (Table 20.3). -/
  win : List (Nat × Nat) := []
  grade : Grade := .gn9648
  /-- Physical cores that failed manufacturing test, are fused off, or were named by a FENCE record at start-up (R2, R15, R473). -/
  failed : List Nat := []
  /-- Logical numbers whose physical core departs from the ascending map; 0x3FF: withdrawn (R16, R18). -/
  map : List (Nat × Nat) := []
  handovers : List Handover := []
  /-- Consecutive steps in which a logical core was a straggler (R482). -/
  lateSteps : List (Nat × Nat) := []
  rots : List Rot := []
  cores : List (Nat × Core) := []
  dev : Mem := {}
  regions : List Region := []
  pools : List (Nat × Pool) := []
  tlb : List TlbEntry := []
  wcache : List WalkEntry := []
  walks : List Walk := []
  walkFaults : List WalkFault := []
  inval : Option Inval := none
  dma : List (Nat × DmaQ) := []
  /-- The violation log, the gated-access log and the refusal log, by index (R206, R208, R510). -/
  vlog : List (Nat × Nat) := []
  glog : List (Nat × Nat) := []
  slog : List (Nat × Nat) := []
  /-- Records waiting in each instance's fault ring, oldest first (R207). -/
  ifr : List (Nat × List Nat) := []
  /-- TIME_CNT (R217). -/
  cnt : Nat := 0
  crema : List (Nat × CremaSlot) := []
  cremaJobs : List CremaJob := []
  /-- State of each instance's TDI (Table 16.10): 0 CONFIG_UNLOCKED, 1 CONFIG_LOCKED, 2 RUN, 3 ERROR. -/
  tdi : List (Nat × Nat) := []
  /-- SPDM responders, at 1024 × port + function (R452). IDE streams that are keyed, at 256 × port + stream: 1 keyed, 2 in use; the
  stream each TDI is bound to (R453). -/
  spdm : List (Nat × Spdm) := []
  ide : List (Nat × Nat) := []
  tdiStream : List (Nat × Nat) := []
  rasWin : List (Nat × Nat) := []
  /-- Temperature bins in which a core's errors of a row occurred, and cores with an error below Tamp 8 (R479, R480). -/
  rasBins : List (Nat × Nat) := []
  rasCool : List (Nat × Bool) := []
  escal : List Escal := []
  fab : Fab := {}
  /-- FENCE records of the persistent store: physical core and kind (R473). -/
  fenceRecs : List (Nat × Nat) := []
  /-- Program images registered for a context of a logical core (R448), at 2 × number + (1 for elastic): device-local address
  and bytes. -/
  progImages : List (Nat × (Nat × Nat)) := []
  /-- Speculation epochs that are not FREE, at 65536 × group + number (R273): 1 OPEN, 2 CONFIRMED, 3 CANCELLED, plus 4
  times the step that resolved them. -/
  epochs : List (Nat × Nat) := []
  /-- The management cores' next free byte of the HBM they withhold for translation tables (R184). -/
  nextTable : Nat := 0
  /-- Bytes the part has written to host memory, oldest first. -/
  hostOut : List HostWrite := []
  /-- Differences of cluster copies of TIME_CNT from it, in ticks (R221, R222). -/
  islCopy : List (Nat × Int) := []
  /-- Interrupts raised to the management cores, as a mask of the four. -/
  mcIrq : Nat := 0
  cgl : List (Nat × CglList) := []
  brs : Brs := {}
  lnk : List (Nat × LnkPort) := []
  /-- Retired-lane records of the persistent store, at 2 × port + (1 for receive) (R323, R329). -/
  laneRecs : List (Nat × Option Nat) := []
  /-- Gate groups inside a guard interval (R249). -/
  guards : List Nat := []
  /-- Pending group changes, by logical core: the new group; 0x80 none (R236). -/
  grpPend : List (Nat × Nat) := []
  fec : Fec := {}
  cells : List (Nat × CellSt) := []
  /-- Consecutive violating symbols of each spectral-mask stream (R341). -/
  maskRun : List (Nat × Nat) := []
  tm : Tm := {}
  /-- Hub queues that have been retired (R471), by the resource number of row 21 of Table 18.3: a FEC queue q; 0x100 + an
  enqueue window; 0x200 + the instance of a DMA queue; 0x400 + that of a gateway queue. -/
  retiredQ : List Nat := []
  /-- Mailbox channels at 8 × instance + channel: 0 UP_MC, 1 UP_BRS, 2 UP_EP, 3 DN_MC, 4 DN_BRS, 5 DN_EP (Table 15.9). -/
  mbx : List (Nat × MbxChan) := []
  /-- Notices that wait for room, by instance (R420). -/
  notices : List (Nat × List Nat) := []
  /-- The instance read last: by a partition's endpoint; at 16 by the management cores (R424). -/
  epPtr : List (Nat × Nat) := []
  /-- MSI-X by instance, and the messages sent: instance and vector (R512). -/
  msix : List (Nat × Msix) := []
  msixOut : List (Nat × Nat) := []
  /-- Device-local ranges whose contents were encrypted under a key that has been destroyed or replaced, and that nothing
  has written since (R450): base, bytes, and a number that tells one loss from another. -/
  lost : List (Nat × Nat × Nat) := []
  parts : List (Nat × PartSt) := []
  /-- Instances whose reset in progress ends as a destroy (R408, R409). -/
  dying : List Nat := []
  /-- Silo channels that failed training (R526). -/
  siloOut : List Nat := []
  /-- Power domains whose on command waits for its turn, oldest first (R488). -/
  rampWait : List Nat := []
  /-- Rows under soft repair, in order, each with whether RAS_CMD asked for it; rows that have been repaired since their memory was
  powered (R471). -/
  repairs : List (Nat × Bool) := []
  repaired : List Nat := []
  /-- Cores that have been rotated out and have not passed a witness suite since, with TIME_CNT when they left (R478); the
  order of each core's last suite, 0 none; the last number given; TIME_CNT at the last expiry of the witness period (R477). -/
  testing : List (Nat × Nat) := []
  witOrder : List (Nat × Nat) := []
  witRun : Nat := 0
  witAt : Nat := 0
  /-- TIME_CNT at the fatal error (R484). -/
  fatalAt : Nat := 0
  /-- THERM_TRIP_N is asserted (R523). -/
  trip : Bool := false
  /-- The fuse block; image slots A and B in the flash, at 0x1000000 × slot + offset, where they differ from the erased 0xFF; the
  two store banks (R428, R441, R446). -/
  fuses : Fuses := {}
  flash : List (Nat × Byte) := []
  bank0 : Bank := {}
  bank1 : Bank := {}
  boot : Boot := {}
  deriving DecidableEq, Repr

/-- The contents of HBM and Silo after power-up or a part reset are open (R450): every byte of them is a free value. -/
def memLost (k : Nat) : List (Nat × Nat × Nat) := [(0, 0x010000000000, k), (0x010000000000, 0xF000000000, k)]

/-- The part right after reset (R9, R75, R126, R487): a blank GN9648-LC. Registers hold the reset values that regReset names. -/
def State.reset : State := { free := 1, lost := memLost 0, nextTable := 0 }

end Sys2Proof.Machine
end

