-- ==== Sys2Proof/Machine/Ops.lean ====
section
/-!
DEFINITION. Machine/Ops.lean: the named operations over registers, memories, logs, Carafes, descriptor queues, cores and
events that every command is built from.
-/
namespace Sys2Proof.Machine

/-! ### Registers (R8 to R11, R515) -/

/-- The value of a register of the control region. -/
def State.reg (s : State) (a : Nat) : Nat := Tbl.get (regReset a) s.regs a

/-- Set a register's value. -/
def State.setReg (s : State) (a v : Nat) : State := { s with regs := Tbl.put (regReset a) s.regs a (v % 2 ^ 64) }

/-- Bits [lo + w - 1 : lo] of a register. -/
def State.fld (s : State) (a lo w : Nat) : Nat := bits (s.reg a) lo w

/-- Set bits [lo + w - 1 : lo] of a register. -/
def State.setFld (s : State) (a lo w v : Nat) : State := s.setReg a (setBits (s.reg a) lo w v)

/-- Add n to a saturating counter field of w bits at lo. -/
def State.bumpFld (s : State) (a lo w n : Nat) : State := s.setFld a lo w (satAdd w (s.fld a lo w) n)

/-- Count one in a 32-bit saturating counter. -/
def State.bump (s : State) (a : Nat) : State := s.bumpFld a 0 32 1

/-- Add n to a 64-bit counter. -/
def State.bump64 (s : State) (a n : Nat) : State := s.setReg a (min (s.reg a + n) (2 ^ 64 - 1))

/-- Set an event bit of a W1C register. -/
def State.event (s : State) (a i : Nat) : State := s.setFld a i 1 1

/-- A register of an instance window, at 0x10000 × instance + offset. -/
def State.wreg (s : State) (inst off : Nat) : Nat := Tbl.get 0 s.win (0x10000 * inst + off)

def State.setWreg (s : State) (inst off v : Nat) : State :=
  { s with win := Tbl.put 0 s.win (0x10000 * inst + off) (v % 2 ^ 64) }

/-- Is configuration lock in force (R516)? -/
def State.locked (s : State) : Bool := s.fld SEC_CFG_LOCK 0 1 == 1

/-- A fresh free value below n (n > 0), and the state with the counter advanced. -/
def State.fresh (s : State) : Nat × State := (Config.freeNat s.free, { s with free := s.free + 1 })

/-- The answer of a command. -/
def State.answer (s : State) (code : Nat) (cause : Nat := 0) (data : List Nat := []) : State :=
  { s with reply := { code := code, cause := cause, data := data } }

/-! ### Memories (R150 to R155) -/

/-- The byte at an address; a byte that nothing has written reads 0 (R155). -/
def Mem.byte (m : Mem) (a : Nat) : Nat := (Tbl.get (0 : Byte) m.cells a).toNat

def Mem.setByte (m : Mem) (a v : Nat) : Mem := { m with cells := Tbl.put (0 : Byte) m.cells a (BitVec.ofNat 8 v) }

/-- What the check code of the word or line that starts at a holds. -/
def Mem.mark (m : Mem) (a : Nat) : Nat := Tbl.get 0 m.marks a

def Mem.setMark (m : Mem) (a k : Nat) : Mem := { m with marks := Tbl.put 0 m.marks a k }

/-- Does a read of the word or line that starts at a carry a poison tag (R152 to R154)? -/
def Mem.poisoned (m : Mem) (a : Nat) : Bool := decide (2 ≤ m.mark a)

/-- Give a word or line the poison syndrome, or good check bytes. -/
def Mem.setPoison (m : Mem) (a : Nat) (p : Bool) : Mem := m.setMark a (3 * b2n p)

/-- The canonical form: addresses strictly rise and no listed byte is zero; likewise for the marks. -/
def Mem.wf (m : Mem) : Bool := Tbl.wf (0 : Byte) m.cells && Tbl.wf 0 m.marks

/-- The n bytes from a, as one little-endian number (R7). -/
def Mem.load (m : Mem) : Nat → Nat → Nat
  | _, 0 => 0
  | a, n + 1 => m.byte a + 256 * Mem.load m (a + 1) n

/-- Write the n low bytes of v from a upward. -/
def Mem.store (m : Mem) : Nat → Nat → Nat → Mem
  | _, 0, _ => m
  | a, n + 1, v => Mem.store (m.setByte a (v % 256)) (a + 1) n (v / 256)

/-- The words or lines of g bytes that the n bytes from a touch, by first address. -/
def granules (g a n : Nat) : List Nat :=
  if n = 0 then [] else tabulate ((a + n - 1) / g - a / g + 1) (fun i => (a / g + i) * g)

/-- Does a read of n bytes at a carry a poison tag (R152 to R154)? -/
def Mem.anyPoison (m : Mem) (g a n : Nat) : Bool := (granules g a n).any m.poisoned

/-- One word or line of a store: bytes [a, a+n) cut to the word at w. A word not wholly covered is a read-modify-write:
when it is uncorrectable or poisoned it takes the poison syndrome and no byte (R152, R154); a word wholly covered is replaced and its
poison cleared (R153). -/
def Mem.storeGranule (m : Mem) (g a n v w : Nat) : Mem :=
  let lo := max a w
  let hi := min (a + n) (w + g)
  if lo = w ∧ hi = w + g then (m.setPoison w false).store lo (hi - lo) (v >>> (8 * (lo - a)))
  else if m.poisoned w then m.setPoison w true
  else m.store lo (hi - lo) (v >>> (8 * (lo - a)))

/-- A store of n bytes at a, word by word (R152 to R154). -/
def Mem.write (m : Mem) (g a n v : Nat) : Mem :=
  (granules g a n).foldl (fun m w => m.storeGranule g a n v w) m

/-- Did a store of n bytes at a meet a poisoned word that it did not wholly cover (R152: a store that has a reply
replies POISON)? -/
def Mem.writePoisoned (m : Mem) (g a n : Nat) : Bool :=
  (granules g a n).any (fun w => m.poisoned w && !(decide (a ≤ w) && decide (w + g ≤ a + n)))

/-- Give every word that the n bytes from a touch the poison syndrome. -/
def Mem.poisonRange (m : Mem) (g a n : Nat) : Mem := (granules g a n).foldl (fun m w => m.setPoison w true) m

/-- Zero the n bytes from a, with no poison left. -/
def Mem.zero (m : Mem) (a n : Nat) : Mem :=
  { cells := m.cells.filter (fun c => !(decide (a ≤ c.1) && decide (c.1 < a + n))),
    marks := m.marks.filter (fun c => !(decide (a ≤ c.1) && decide (c.1 < a + n))) }

/-- The marked words or lines that an access of n bytes at a reads: all that it touches, or those that a store covers in
part. -/
def Mem.readMarks (m : Mem) (g a n : Nat) (store : Bool) : List (Nat × Nat) :=
  m.marks.filter (fun c => decide (a < c.1 + g) && decide (c.1 < a + n)
    && !(store && decide (a ≤ c.1) && decide (c.1 + g ≤ a + n)))

/-- Bit errors appear in a word or line; a worse mark stays. -/
def Mem.upset (m : Mem) (a : Nat) (e : MemErr) : Mem :=
  match e with
  | .none => m
  | .corrected => m.setMark a (max 1 (m.mark a))
  | .uncorrectable => m.setMark a (max 2 (m.mark a))

/-! ### Cores, logical numbers, instances -/

/-- Logical cores of a grade (R1) and of one die (R14). -/
def Grade.lcs : Grade → Nat
  | .gn9648 => 480
  | .gn9640 => 400

def Grade.perDie : Grade → Nat
  | .gn9648 => 120
  | .gn9640 => 100

/-- No core: a withdrawn logical number, or a physical core that carries none. -/
def noCore : Nat := 0x3FF

/-- The physical core that the ascending map of R16 gives logical number n before any fence, when no core of the die
failed test: the n-th core of the die. -/
def State.basePhys (s : State) (n : Nat) : Nat := 128 * (n / s.grade.perDie) + n % s.grade.perDie

/-- The physical core that carries LCn, or noCore (R14 to R18). -/
def State.phys (s : State) (n : Nat) : Nat :=
  if n < s.grade.lcs then Tbl.get (s.basePhys n) s.map n else noCore

/-- The physical core whose context x serves LCn: during a rotation each context moves by itself (R477). -/
def State.physCtx (s : State) (n : Nat) (x : Ctx) : Nat :=
  match s.rots.find? (fun r => r.lc == n) with
  | some r => if (match x with | .timed => r.timedDone | .elastic => r.elasticDone) then r.spare else s.phys n
  | none => s.phys n

/-- The context whose scratch partition an offset lies in. -/
def ctxAt (off : Nat) : Ctx := if off < 0x80000 then .timed else .elastic

/-- The logical numbers of a die. -/
def State.dieLcs (s : State) (d : Nat) : List Nat := tabulate s.grade.perDie (fun i => d * s.grade.perDie + i)

/-- The logical number a physical core carries; 0x1FF none (Table 4.17). During a rotation both cores show it (R477). -/
def State.lcOf (s : State) (pc : Nat) : Nat :=
  match (s.dieLcs (pc / 128)).find? (fun n => s.phys n == pc) with
  | some n => n
  | none => match s.rots.find? (fun r => r.spare == pc) with | some r => r.lc | none => 0x1FF

def State.core (s : State) (pc : Nat) : Core := Tbl.get ({} : Core) s.cores pc

def State.setCore (s : State) (pc : Nat) (c : Core) : State := { s with cores := Tbl.put ({} : Core) s.cores pc c }

def Core.ctx (c : Core) : Ctx → CoreCtx
  | .timed => c.t
  | .elastic => c.e

def Core.setCtx (c : Core) (x : Ctx) (v : CoreCtx) : Core :=
  match x with
  | .timed => { c with t := v }
  | .elastic => { c with e := v }

def State.ctx (s : State) (pc : Nat) (x : Ctx) : CoreCtx := (s.core pc).ctx x

def State.setCtx (s : State) (pc : Nat) (x : Ctx) (v : CoreCtx) : State := s.setCore pc ((s.core pc).setCtx x v)

def State.modCtx (s : State) (pc : Nat) (x : Ctx) (f : CoreCtx → CoreCtx) : State := s.setCtx pc x (f (s.ctx pc x))

/-- Is a power domain ON (Table 19.2)? -/
def State.domOn (s : State) (d : Nat) : Bool := s.fld (PWR_DOM_STAT d) 0 2 == 0

/-- Has island n its clock (R213) and its power (R489)? -/
def State.islandOn (s : State) (n : Nat) : Bool := s.fld CLK_EN_ISL n 1 == 1 && s.domOn (n / 4)

/-- Does the island of a core have its clock, and has no fatal error stopped issue (R484)? -/
def State.clocked (s : State) (pc : Nat) : Bool := s.islandOn (pc / 8) && s.fld RAS_STATUS 1 1 == 0

/-- Does this context own the core, is the core not fenced (R27, R121), and may its units act? -/
def State.owns (s : State) (pc : Nat) (x : Ctx) : Bool := (s.core pc).owner == x && !(s.core pc).fenced && s.clocked pc

/-- The instance of a context of a core, through PRT_LC_INST of its logical number (R410). -/
def State.instOf (s : State) (pc : Nat) (x : Ctx) : Nat :=
  let n := s.lcOf pc
  if n = 0x1FF then noInst
  else match x with
    | .timed => instTag (s.fld (PRT_LC_INST n) 0 9)
    | .elastic => instTag (s.fld (PRT_LC_INST n) 9 9)

/-- An instance's generation and partition (Table 7.3). -/
def State.instGen (s : State) (i : Nat) : Nat := if i < 512 then s.fld (XLT_CTX i 0) 16 16 else 0
def State.instPart (s : State) (i : Nat) : Nat := s.fld (XLT_CTX i 0) 1 4
def State.instValid (s : State) (i : Nat) : Bool := decide (i < 512) && s.fld (XLT_CTX i 0) 0 1 == 1
def State.instTimed (s : State) (i : Nat) : Bool := s.fld (XLT_CTX i 0) 5 1 == 1

/-- The cluster of a physical core: 16d + c (R13). -/
def clusterOf (pc : Nat) : Nat := pc / 8

/-! ### Scratch (R27, R28, Table 1.5) -/

/-- Scratch offsets of a context: timed 0x0 to 0x7_FFFF, elastic 0x8_0000 to 0x27_FFFF. -/
def scrLo : Ctx → Nat
  | .timed => 0
  | .elastic => 0x80000

def scrHi : Ctx → Nat
  | .timed => 0x80000
  | .elastic => 0x280000

/-- Do n bytes from off lie in the context's scratch partition? -/
def inScratch (x : Ctx) (off n : Nat) : Bool := decide (scrLo x ≤ off) && decide (off + n ≤ scrHi x)

def State.scrLoad (s : State) (pc off n : Nat) : Nat := (s.core pc).scr.load off n

def State.scrPoison (s : State) (pc off n : Nat) : Bool := (s.core pc).scr.anyPoison 8 off n

def State.scrStore (s : State) (pc off n v : Nat) : State :=
  s.setCore pc { s.core pc with scr := (s.core pc).scr.write 8 off n v }

def State.scrPoisonSet (s : State) (pc off n : Nat) : State :=
  s.setCore pc { s.core pc with scr := (s.core pc).scr.poisonRange 8 off n }

/-! ### Device-local address space (Table 6.2) -/

/-- What a device-local address names. -/
inductive Tier where
  | hbm | silo | cluster (n : Nat) | scratch (lc off : Nat) | control | none
  deriving DecidableEq, Repr

/-- c of Table 6.2: GiB per stack for die-local use (R158). -/
def State.localGib (s : State) : Nat := min 48 (s.fld MEM_HBM_CFG 0 6)

def gib : Nat := 2 ^ 30
def mib : Nat := 2 ^ 20

/-- The tier a device-local address lies in (Table 6.2, R513). -/
def State.tierOf (s : State) (a : Nat) : Tier :=
  let c := s.localGib
  if a < gib * (8 * (48 - c)) then .hbm
  else if 0x008000000000 ≤ a ∧ a < 0x010000000000 then
    let r := a % 0x008000000000
    if r / 0x002000000000 < 4 ∧ r % 0x002000000000 < gib * (2 * c) then .hbm else .none
  else if 0x010000000000 ≤ a ∧ a < 0x010000000000 + 960 * gib then .silo
  else if 0x020000000000 ≤ a ∧ a < 0x020000000000 + 64 * 0x800000 then .cluster (a % 0x020000000000 / 0x800000)
  else if 0x021000000000 ≤ a ∧ a < 0x021000000000 + 0x400000 * s.grade.lcs then
    let r := a % 0x001000000000
    if r % 0x400000 < 0x280000 then .scratch (r / 0x400000) (r % 0x400000) else .none
  else if 0x030000000000 ≤ a ∧ a < 0x030004000000 then .control
  else .none

/-- Bytes of cluster SRAM outside the run-ahead pool, which no access reaches (R173). -/
def State.clusterLimit (s : State) : Nat := 0x800000 - 4096 * min 512 (s.fld MEM_RA_POOL_CFG 0 10)

/-- Does a device-local address lie in a register page that the management cores may map into an owner: dispatch rings,
inboxes, FEC queue windows, enqueue windows, endpoint mailboxes (R305, R307, R365, R393, R427)? -/
def mappedPage (a : Nat) : Bool :=
  let o := a % 0x010000000000
  decide (a / 0x010000000000 = 3) && ((decide (0x2400000 ≤ o) && decide (o < 0x2C00000)) || (decide (0x400000 ≤ o) && decide (o < 0x1400000))
    || (decide (0x80000 ≤ o) && decide (o < 0xC0000)))

/-- Is it an entry of a dispatch ring, which holds what is stored to it (R305)? -/
def ringEntry (a : Nat) : Bool :=
  let o := a % 0x010000000000
  decide (a / 0x010000000000 = 3) && decide (0x2400000 ≤ o) && decide (o < 0x2800000) && decide (o % 0x10000 < 0x4000)

/-- The n bytes of mapped register pages from a. -/
def State.pageLoad (s : State) (a : Nat) : Nat → Nat
  | 0 => 0
  | n + 1 => bits (s.reg (a % 0x010000000000 / 8 * 8)) (8 * (a % 8)) 8 + 256 * State.pageLoad s (a + 1) n

/-- Store n bytes to a mapped page: ring entries hold them; a write of any other register of such a page takes effect by
that register's own command. -/
def State.pageStore (s : State) (a : Nat) : Nat → Nat → State
  | 0, _ => s
  | n + 1, v =>
    let o := a % 0x010000000000 / 8 * 8
    (if ringEntry a then s.setFld o (8 * (a % 8)) 8 (v % 256) else s).pageStore (a + 1) n (v / 256)

/-- The bytes of a word or line that carry one check code (R150). -/
def Tier.granule : Tier → Nat
  | .hbm => 64
  | .silo => 64
  | _ => 8

/-- May memory commands reach these n bytes (R151, R173)? -/
def State.devOk (s : State) (a n : Nat) : Bool :=
  match s.tierOf a, s.tierOf (a + n - 1) with
  | .hbm, .hbm => true
  | .silo, .silo => true
  | .cluster i, .cluster j => i == j && decide (a % 0x800000 + n ≤ s.clusterLimit)
  | .scratch i _, .scratch j _ => i == j
  | _, _ => false

/-- The part of ranges that n bytes from a do not cover. -/
def cutRanges (a n : Nat) (l : List (Nat × Nat × Nat)) : List (Nat × Nat × Nat) :=
  l.flatMap (fun r =>
    (if r.1 < a then [(r.1, min r.2.1 (a - r.1), r.2.2)] else [])
      ++ (if a + n < r.1 + r.2.1 then [(max r.1 (a + n), r.1 + r.2.1 - max r.1 (a + n), r.2.2)] else []))

/-- n bytes of the memories behind the controllers: a byte whose key is gone is free (R450). -/
def State.lostLoad (s : State) : Nat → Nat → Nat
  | _, 0 => 0
  | a, n + 1 =>
    (match s.lost.find? (fun r => decide (r.1 ≤ a) && decide (a < r.1 + r.2.1)) with
      | some r => Config.lostByte r.2.2 a % 256
      | none => s.dev.byte a) + 256 * State.lostLoad s (a + 1) n

def State.tierLoad (s : State) (a n : Nat) : Nat := if s.lost.isEmpty then s.dev.load a n else s.lostLoad a n

/-- Zero n bytes at a device-local address. -/
def State.devZero (s : State) (a n : Nat) : State := { s with dev := s.dev.zero a n, lost := cutRanges a n s.lost }

/-- The contents of n bytes at base become unreadable (R450). -/
def State.lose (s : State) (base n : Nat) : State :=
  { s with free := s.free + 1, lost := cutRanges base n s.lost ++ [(base, n, s.free)] }

/-- A read at a device-local address: the value, and whether it carries a poison tag. Scratch is redirected to the
physical core that carries the logical number (R151). -/
def State.devLoad (s : State) (a n : Nat) : Nat × Bool :=
  match s.tierOf a with
  | .scratch lc off =>
    let pc := s.physCtx lc (ctxAt off)
    if pc = noCore then (0, false) else (s.scrLoad pc off n, s.scrPoison pc off n)
  | t => (s.tierLoad a n, s.dev.anyPoison t.granule a n)

def State.devStore (s : State) (a n v : Nat) : State :=
  match s.tierOf a with
  | .scratch lc off =>
    let pc := s.physCtx lc (ctxAt off)
    if pc = noCore then s else s.scrStore pc off n v
  | t => { s with dev := s.dev.write t.granule a n v, lost := cutRanges a n s.lost }

def State.devStorePoisoned (s : State) (a n : Nat) : Bool :=
  match s.tierOf a with
  | .scratch lc off =>
    let pc := s.physCtx lc (ctxAt off)
    if pc = noCore then false else (s.core pc).scr.writePoisoned 8 off n
  | t => s.dev.writePoisoned t.granule a n

def State.devPoison (s : State) (a n : Nat) : State :=
  match s.tierOf a with
  | .scratch lc off =>
    let pc := s.physCtx lc (ctxAt off)
    if pc = noCore then s else s.scrPoisonSet pc off n
  | t => { s with dev := s.dev.poisonRange t.granule a n }

/-! ### Address hashing (R159 to R161) -/

/-- Stack and pseudo-channel of an HBM address (R159, R160). -/
def hbmChannel (a : Nat) : Nat × Nat :=
  if a < 0x008000000000 then
    let l := a >>> 8
    (bits l 0 3 ^^^ bits l 9 3 ^^^ bits l 18 3 ^^^ bits l 27 3, bits l 3 6 ^^^ bits l 12 6 ^^^ bits l 21 6)
  else
    let d := a % 0x008000000000 / 0x002000000000
    let l := (a % 0x002000000000) >>> 8
    (2 * d + (bits l 0 1 ^^^ bits l 19 1 ^^^ bits l 25 1), bits l 1 6 ^^^ bits l 7 6 ^^^ bits l 13 6)

/-- Silo channel of an address (R161). -/
def siloChannel (a : Nat) : Nat :=
  let l := (a % 0x010000000000) >>> 8
  bits l 0 4 ^^^ bits l 8 4 ^^^ bits l 16 4 ^^^ bits l 24 4

/-- Is the core or the tier behind an address gone: a fenced or absent core's scratch (R121), a Silo channel that failed
training (R526)? -/
def State.devRetired (s : State) (a : Nat) : Bool :=
  match s.tierOf a with
  | .scratch lc off =>
    let pc := s.physCtx lc (ctxAt off)
    decide (pc = noCore) || (s.core pc).fenced
  | .silo => s.siloOut.contains (siloChannel a)
  | _ => false

/-- Is the island or hub block behind an address clock-gated, or its power domain not ON (R25, R213, R489)? -/
def State.devGated (s : State) (a : Nat) : Bool :=
  match s.tierOf a with
  | .scratch lc off =>
    let pc := s.physCtx lc (ctxAt off)
    decide (pc ≠ noCore) && !(s.islandOn (clusterOf pc))
  | .cluster n => !(s.islandOn n)
  | .hbm => !(s.domOn (16 + (hbmChannel a).1 / 2))
  | .silo => s.fld CLK_EN_HUB 10 1 == 0 || !(s.domOn 25)
  | _ => false

/-! ### Logs -/

/-- Write a record to the violation log (R206): a ring of 1,024. -/
def State.violate (s : State) (f : FaultInfo) : State :=
  let h := s.fld XLT_VLOG_HEAD 0 10
  let lost := decide (Tbl.get 0 s.vlog h ≠ 0)
  let s := { s with vlog := Tbl.put 0 s.vlog h (f.record s.cnt) }
  let s := s.setFld XLT_VLOG_HEAD 0 10 (h + 1)
  if lost then s.bump XLT_VLOG_LOST else s

/-- Write a record to an instance's fault ring of 16 (R207). -/
def State.faultRing (s : State) (f : FaultInfo) : State :=
  let ring := Tbl.get [] s.ifr f.inst
  if 512 ≤ f.inst then s
  else if ring.length < 16 then { s with ifr := Tbl.put [] s.ifr f.inst (ring ++ [f.record s.cnt]) }
  else
    let ring := ring.modify 15 (fun r => setBits r faultMoreBit 1 1)
    let s := { s with ifr := Tbl.put [] s.ifr f.inst ring }
    s.setWreg f.inst 0x1008 (satAdd 32 (s.wreg f.inst 0x1008) 1)

/-- A fault charged to its instance (R197, R201, R206, R207): every FAULT_ACCESS writes the violation log; the fault
ring takes the record when the owner's generation is current and the unit of work has no other ending (R203, R204). -/
def State.charge (s : State) (f : FaultInfo) : State :=
  let f := if f.remote = 0 ∧ f.inst < 512 then
      { f with part := s.instPart f.inst, elastic := if f.lc = 0x1FF then !(s.instTimed f.inst) else f.elastic } else f
  let s := if f.status = stFaultAccess then s.violate f else s
  let s := if f.status = stFaultXlat then s.bump XLT_XLAT_FAULT_CNT else s
  if f.inst < 512 ∧ f.gen ≠ s.instGen f.inst then s.bump XLT_STALE_CNT
  else s.faultRing f

/-- A gated access (R208): a ring of 64 records of 16 bytes. -/
def State.gatedLog (s : State) (addr unit : Nat) (write : Bool) (inst : Nat) : State :=
  let h := s.fld XLT_GLOG_HEAD 0 6
  let lost := decide (Tbl.get 0 s.glog h ≠ 0)
  let r := s.cnt + (bits addr 0 48) <<< 64 + (bits unit 0 3) <<< 112 + (b2n write) <<< 115 + (instField inst) <<< 116
  let s := { s with glog := Tbl.put 0 s.glog h r }
  let s := s.setFld XLT_GLOG_HEAD 0 6 (h + 1)
  if lost then s.bump XLT_GLOG_LOST else s

/-- A refusal record (R510): a ring of 256 records of 16 bytes. -/
def State.refuseLog (s : State) (block off inst lc : Nat) : State :=
  let h := s.fld PRT_SLOG_HEAD 0 8
  let lost := decide (Tbl.get 0 s.slog h ≠ 0)
  let r := s.cnt + (bits block 0 8) <<< 64 + (bits off 0 24) <<< 72 + (instField inst) <<< 96 + (bits lc 0 9) <<< 105
  let s := { s with slog := Tbl.put 0 s.slog h r }
  let s := s.setFld PRT_SLOG_HEAD 0 8 (h + 1)
  if lost then s.bump PRT_SLOG_LOST else s

/-- STATE for a register write at control-region offset a (R510). -/
def State.refuseReg (s : State) (a : Nat) : State :=
  let lc := if 0x3200000 ≤ a then s.lcOf (a % 0x200000 / 0x1000) else 0x1FF
  (s.refuseLog (blockId a) (a - blockBase a) 0x1FF lc).answer stState

/-- A STATE completion of a unit of a core, by opcode (R510). -/
def State.stateAt (s : State) (pc : Nat) (x : Ctx) (code : Nat) : State :=
  s.refuseLog 17 code (s.instOf pc x) (s.lcOf pc)

/-- A host instance's write of a register that only the management cores may write: a violation (R123, R233, R506). -/
def State.privilege (s : State) (inst a : Nat) : State :=
  (s.charge { addr := 0x030000000000 + a, status := stFaultAccess, cause := cPrivilege, kind := 1, unit := uReg,
              inst := inst, gen := s.instGen inst }).answer stFaultAccess cPrivilege

/-- A command that only the management cores may write at register a: f is its effect for them. -/
def State.mcOnly (s : State) (wr : Writer) (a : Nat) (f : State → State) : State :=
  match wr with
  | .host i => s.privilege i.val a
  | .mc => f s

/-- A write to a hub block whose clock enable is 0 (R213): discarded, OK, and logged. bit: the block's bit of CLK_EN_HUB;
inst: the writer. -/
def State.ungated (s : State) (bit a inst : Nat) (f : State → State) : State :=
  if s.fld CLK_EN_HUB bit 1 = 1 then f s
  else (s.gatedLog (0x030000000000 + a) uReg true inst).answer stOk

/-- Is a power domain in DRAIN or OFF (Table 19.2)? -/
def State.domOff (s : State) (d : Nat) : Bool := s.fld (PWR_DOM_STAT d) 0 2 == 1 || s.fld (PWR_DOM_STAT d) 0 2 == 2

/-- A push into a hub queue of resource number res, at register a, by inst: STATE when its domain is off (R489), RETIRED when
the queue is retired (R471), discarded when its block is gated. -/
def State.pushInto (s : State) (res : Nat) (dom : Option Nat) (bit a inst : Nat) (f : State → State) : State :=
  if dom.any s.domOff then s.refuseReg a
  else if s.retiredQ.contains res then s.answer stRetired
  else s.ungated bit a inst f

/-! ### Partitions (Table 15.1, Table 15.3) -/

/-- The 256-bit descriptor of partition p. -/
def State.partDesc (s : State) (p : Nat) : Nat :=
  s.reg (PRT_PART p 0) + (s.reg (PRT_PART p 1)) <<< 64 + (s.reg (PRT_PART p 2)) <<< 128 + (s.reg (PRT_PART p 3)) <<< 192

def State.partFld (s : State) (p lo w : Nat) : Nat := bits (s.partDesc p) lo w

/-- The state of partition p: 0 ABSENT, 1 RECOVERY, 2 UP, 3 VACANT, 4 NOTICE, 5 DRAINING, 6 ZEROING. -/
def State.partState (s : State) (p : Nat) : Nat := s.fld (PRT_PART_STAT p) 0 3

def State.partTimed (s : State) (p : Nat) : Bool := s.partFld p 0 1 == 1

/-- Does logical core n lie in partition p's range? -/
def State.partHasLc (s : State) (p n : Nat) : Bool :=
  decide (s.partFld p 8 9 ≤ n) && decide (n < s.partFld p 8 9 + s.partFld p 17 9)

/-- The partition that owns a context of a logical core (R30, R398). -/
def State.lcPart (s : State) (n : Nat) (x : Ctx) : Option Nat :=
  (List.range 16).find? (fun p => s.partState p != 0 && s.partTimed p == (x == .timed) && s.partHasLc p n)

/-! ### Crema sessions: taint (R462) -/

/-- Set a taint bit in every open session of an instance: 0 fast, 1 f32, 2 retired, 3 poison, 4 gated. -/
def State.taint (s : State) (inst b : Nat) : State :=
  { s with crema := s.crema.map (fun p =>
      if p.1 / 4 = inst ∧ p.2.opened then (p.1, { p.2 with taint := p.2.taint ||| 2 ^ b }) else p) }

/-! ### The error log (R472) and the reliability counts (R469, R470, R479, R480) -/

/-- Mark the part degraded for a cause bit of RAS_STATUS (R476). -/
def State.degrade (s : State) (causeBit : Nat) : State :=
  let was := s.fld RAS_STATUS 0 1
  let s := (s.setFld RAS_STATUS 0 1 1).setFld RAS_STATUS causeBit 1 1
  if was = 0 then s.event RAS_EVENT 8 else s

/-- What a record of the error log says beside its time (Table 18.4). place: the physical core, or the cluster. -/
inductive LogPlace where
  | part
  | core (pc : Nat)
  | cluster (n : Nat)
  deriving DecidableEq, Repr

structure LogRec where
  level : Nat
  kind : Nat
  action : Nat
  place : LogPlace := .part
  res : Nat := 0
  ctx : Nat := 0
  detail : Nat := 0
  count : Nat := 0
  pattern : Nat := 0xFF
  deriving DecidableEq, Repr

/-- Die temperature in whole degrees, as 8 bits (PWR_TEMP). -/
def State.dieTemp (s : State) (d : Nat) : Int := toSigned 10 (s.fld (PWR_TEMP d) 0 10) / 4

/-- The 256 bits of a record. -/
def State.logBits (s : State) (r : LogRec) : Nat :=
  let pc := match r.place with | .part => 0 | .core p => p | .cluster n => 8 * n
  let lc := match r.place with | .core p => s.lcOf p | _ => 0x1FF
  let tamp := match r.place with | .core p => (s.core p).tampLevel | _ => 0
  let mult := match r.place with | .part => 0 | _ => s.fld (CLK_ISL (clusterOf pc)) 32 9
  let die := match r.place with | .part => 4 | _ => pc / 128
  s.cnt + r.level <<< 64 + r.kind <<< 72 + r.action <<< 80 + (pc / 128) <<< 84 + (pc / 8 % 16) <<< 86 + (pc % 8) <<< 90
    + lc <<< 93 + (bits r.res 0 5) <<< 102 + r.ctx <<< 107 + tamp <<< 108 + mult <<< 112 + (bits r.detail 0 64) <<< 128
    + (min r.count 0xFFFF) <<< 192 + (ofSigned 8 (s.dieTemp die)) <<< 208 + r.pattern <<< 216

/-- Write a record to the error log: a ring of 4,096 in which the newest overwrites the oldest. -/
def State.errLog (s : State) (r : LogRec) : State :=
  let h := s.fld RAS_LOG_HEAD 0 12
  let v := s.logBits r
  let lost := s.reg (RAS_LOG (4 * h)) != 0 || s.reg (RAS_LOG (4 * h + 1)) != 0
  let s := (List.range 4).foldl (fun (s : State) j => s.setReg (RAS_LOG (4 * h + j)) (bits v (64 * j) 64)) s
  let s := (s.setFld RAS_LOG_HEAD 0 12 (h + 1)).event RAS_EVENT 0
  if lost then s.bump RAS_LOG_LOST else s

/-- The level that owns a row's errors, the action its threshold takes, and whether that action leaves the resource in
service (Table 18.3, Table 18.4). Resources of row 21 from 0x1000 on are mailbox channels, which are not retired. -/
def rowAction (row res : Nat) : Nat × Nat × Bool :=
  if row ≤ 4 then (1, 3, false) else if row ≤ 7 then (0, 3, false) else if row = 8 then (2, 5, true)
  else if row ≤ 11 then (2, 3, false) else if row = 12 then (3, 4, true) else if row = 13 then (3, 6, true)
  else if row = 14 then (4, 4, true) else if row = 15 then (4, 6, true) else if row = 22 then (3, 6, true)
  else if row = 21 ∧ 0x1000 ≤ res then (4, 6, true)
  else (4, 2, false)

def rasKey (row res : Nat) : Nat := 0x100000000000000 * row + res

/-- The window count of a row and a resource. -/
def State.rasCount (s : State) (row res : Nat) : Nat := Tbl.get 0 s.rasWin (rasKey row res)

def State.setRasCount (s : State) (row res n : Nat) : State :=
  { s with rasWin := Tbl.put 0 s.rasWin (rasKey row res) n }

/-- The temperature bin of a die: eight of 10 °C, from below 40 °C to 100 °C and above (R479). -/
def tempBin (t : Int) : Nat := if t < 40 then 0 else min 7 ((t - 30) / 10).toNat

/-- The place a row's resource has in a record. -/
def rowPlace (row res : Nat) : LogPlace := if row ≤ 7 then .core res else if row ≤ 11 then .cluster res else .part

/-- Has every error of a core in the window been of rows 3, 5 or 6, at Tamp level 8 (R480)? -/
def State.onlyTampErrors (s : State) (pc : Nat) : Bool :=
  [0, 1, 2, 4].all (fun r => s.rasCount r pc == 0) && !(Tbl.get false s.rasCool pc)

/-- The record of an error of a core in the history of its temperatures, and suspicion (R479). -/
def State.coreHist (s : State) (row pc c : Nat) : State :=
  let bin := tempBin (s.dieTemp (pc / 128))
  let key := rasKey row pc
  let seen := Tbl.get 0 s.rasBins key ||| 2 ^ bin
  let s := { s with rasBins := Tbl.put 0 s.rasBins key seen,
                    rasCool := if (s.core pc).tampLevel = 8 then s.rasCool else Tbl.put false s.rasCool pc true }
  let s := s.setFld (RAS_CORE_HIST pc) 0 8 (s.fld (RAS_CORE_HIST pc) 0 8 ||| 2 ^ bin)
  if s.fld (RAS_THR row) 0 32 ≤ 2 * c ∧ seen = 2 ^ bin then s.setFld (RAS_CORE_HIST pc) 20 2 3 else s

/-- Queue an escalation to the level above (R466). -/
def State.escalate (s : State) (row res c : Nat) : State :=
  { s with escal := s.escal ++ [{ row := row, res := res, count := c }] }

/-- The count reaches the row's threshold: the event, the one record, the escalation. Errors of a core at Tamp 8 alone
derate the island (R480). -/
def State.threshold (s : State) (row res c : Nat) : State :=
  let a := rowAction row res
  let s := s.event RAS_EVENT 1
  if (row = 3 ∨ row = 5 ∨ row = 6) ∧ s.onlyTampErrors res then
    (s.setRasCount row res 0).escalate 0x49 (clusterOf res) c
  else
    let s := s.errLog { level := a.1, kind := row, action := a.2.1, place := rowPlace row res, res := res, detail := res, count := c }
    (if a.2.2 then s.setRasCount row res 0 else s).escalate row res c

/-- Cores of a cluster whose count of a row is not zero (R480). -/
def State.clusterErrs (s : State) (row n : Nat) : List Nat :=
  (tabulate 8 (fun k => 8 * n + k)).filter (fun p => s.rasCount row p != 0)

/-- Count n errors of a row of Table 18.3 against a resource. Errors of a fenced core are logged with action 1
(R467). -/
def State.countErr (s : State) (row res n : Nat) : State :=
  let thr := s.fld (RAS_THR row) 0 32
  let was := s.rasCount row res
  let c := was + n
  if n = 0 then s
  else
    let s := s.setRasCount row res c
    if row ≤ 6 ∧ (s.core res).fenced then
      s.errLog { level := (rowAction row res).1, kind := row, action := 1, place := .core res, count := c }
    else
      let s := if row ≤ 6 then s.coreHist row res c else s
      if row ≤ 6 ∧ 3 ≤ (s.clusterErrs row (clusterOf res)).length then
        ((s.clusterErrs row (clusterOf res)).foldl (fun (s : State) p => s.setRasCount row p 0) s).escalate 0x49 (clusterOf res) c
      else if was < thr ∧ thr ≤ c then s.threshold row res c else s

/-! ### Carafes (R425) -/

/-- Room for one more item of a Carafe of depth d? -/
def Carafe.room (q : Carafe) (d : Nat) : Bool := decide (q.items.length < d)

def Carafe.push (q : Carafe) (i : CItem) : Carafe := { q with items := q.items ++ [i] }

/-- Does priority p hold a whole packet? -/
def Carafe.whole (q : Carafe) (p : Nat) : Bool := q.items.any (fun i => i.prio == p && i.last)

/-- The priority the reader sees next: that of the packet being read, else the highest that holds a whole packet. -/
def Carafe.nextPrio (q : Carafe) : Option Nat :=
  match q.cur with
  | some p => some p
  | none => (List.range 4).find? q.whole

/-- The item the reader sees next, with its place. -/
def Carafe.peek (q : Carafe) : Option (Nat × CItem) :=
  match q.nextPrio with
  | some p => findIdx? (fun i => i.prio == p) q.items
  | none => none

/-- Read one item. -/
def Carafe.pop (q : Carafe) : Option (CItem × Carafe) :=
  match q.peek with
  | some (k, i) => some (i, { items := eraseAt q.items k, cur := if i.last then none else some i.prio })
  | none => none

/-- Whole packets waiting. -/
def Carafe.packets (q : Carafe) : Nat := (q.items.filter (fun i => i.last)).length

/-! ### Descriptor queues with their completion queues (R77, R78, R95, R425) -/

def queueDepth : Nat := 32

/-- May the unit accept an item: a free completion entry to reserve, and no abort record waiting? -/
def DescQ.canAccept (d : DescQ) : Bool :=
  decide (d.compl.items.length + d.reserved < queueDepth) && d.aborts.isEmpty

/-- Write records of the abort list while completion entries are free. -/
def DescQ.drainAborts (d : DescQ) : DescQ :=
  let n := queueDepth - (d.compl.items.length + d.reserved)
  { d with compl := (d.aborts.take n).foldl (fun q r => q.push { data := r }) d.compl, aborts := d.aborts.drop n }

/-- Write a completion record into a reserved entry. -/
def DescQ.complete (d : DescQ) (record : Nat) : DescQ :=
  { d with reserved := d.reserved - 1, compl := d.compl.push { data := record } }

/-- A queue reset (R95, R425): the generation rises, the queue empties, accepted items (given by their tags) write
ABORTED_RESET into their reserved entries, queued ones go to the abort list. tagLo is where an item holds its tag. -/
def DescQ.reset (d : DescQ) (accepted : List Nat) (queued : List Nat) (status : Nat := stAbortedReset) : DescQ :=
  let old := d.gen
  let d := { d with gen := (d.gen + 1) % 2 ^ 16, q := {} }
  let d := accepted.foldl (fun d t => d.complete (complRecord t old status)) d
  { d with aborts := d.aborts ++ queued.map (fun t => complRecord t old status) }.drainAborts

/-! ### Threads -/

def CoreCtx.thread (c : CoreCtx) (t : Nat) : Thread := Tbl.get ({} : Thread) c.threads t

def CoreCtx.setThread (c : CoreCtx) (t : Nat) (v : Thread) : CoreCtx :=
  { c with threads := Tbl.put ({} : Thread) c.threads t v }

def State.thread (s : State) (pc : Nat) (x : Ctx) (t : Nat) : Thread := (s.ctx pc x).thread t

def State.setThread (s : State) (pc : Nat) (x : Ctx) (t : Nat) (v : Thread) : State :=
  s.modCtx pc x (fun c => c.setThread t v)

/-- Register xr of a thread; x0 reads 0 (R108). -/
def Thread.reg (t : Thread) (r : Nat) : Nat := if r = 0 then 0 else Tbl.get 0 t.regs r

def Thread.setReg (t : Thread) (r v : Nat) : Thread :=
  if r = 0 then t else { t with regs := Tbl.put 0 t.regs r (v % 2 ^ 64) }

/-! ### Events (R110) -/

/-- Priority order of the tasks that wait on event e: the place of the first of the highest priority. -/
def waiterTask (e : Nat) (ts : List Task) : Option Nat :=
  ((List.range 4).findSome? (fun p => findIdx? (fun t => t.waits && t.waitEvt == e && t.prio == p) ts)).map (·.1)

/-- A raise of event e in a context of a core, given to the first waiter or to the count (R110). -/
def State.raiseEvt (s : State) (pc : Nat) (x : Ctx) (e : Nat) : State :=
  let c := s.ctx pc x
  match (List.range 8).find? (fun t => (c.thread t).st == .waitEvt && (c.thread t).evt == e) with
  | some t => s.setThread pc x t { c.thread t with st := .active }
  | none =>
    match waiterTask e c.tasks with
    | some k => s.setCtx pc x { c with tasks := c.tasks.modify k (fun t => { t with waits := false }) }
    | none =>
      let n := Tbl.get 0 c.events e
      if n = 255 then s.bump (PRT_EVT_OVF_CNT pc)
      else s.setCtx pc x { c with events := Tbl.put 0 c.events e (n + 1) }

end Sys2Proof.Machine
end

