-- ==== Sys2Proof/Machine/Operands.lean ====
section
/-!
DEFINITION. Machine/Operands.lean: the operand forms the engines read: rows of elements in every format (R68), the ME
descriptor (Table 3.3), the TME descriptor (Table 6.5), convolution slots (Table 6.7, R87) and tile layouts (Table 6.4).
-/
namespace Sys2Proof.Machine

/-! ### Rows of elements (R68) -/

/-- Bytes of a row of cnt elements of a format. -/
def rowBytes (fmt cnt : Nat) : Nat :=
  if isMxFmt fmt then ceilDiv cnt 32 * (1 + 4 * elemBits fmt)
  else if fmt = 12 then ceilDiv cnt 32 * 20
  else ceilDiv (cnt * elemBits fmt) 8

/-- The byte of a row where element i, a multiple of 32, begins. -/
def rowOffset (fmt i : Nat) : Nat := rowBytes fmt i

/-- Element i of a row given as one little-endian number, with its block scale and correction. CI16 reads through
ciElem. -/
def rowElem (fmt row i : Nat) : Num :=
  let w := elemBits fmt
  if fmt = 12 then bx4Elem (bits row (160 * (i / 32)) 160) (i % 32)
  else match elemFmt fmt with
    | some f =>
      if isMxFmt fmt then
        let at_ := 8 * (1 + 4 * w) * (i / 32)
        e8m0Apply (bits row at_ 8) (f.decode (bits row (at_ + 8 + w * (i % 32)) w))
      else f.decode (bits row (w * i) w)
    | none => Num.ofInt (toSigned 8 (bits row (8 * i) 8))

/-- CI16 element i of a row. -/
def ciElem (row i : Nat) : Nat := bits row (32 * i) 32

/-- A row packed from element codes of w bits, element 0 lowest. -/
def packRow (w : Nat) : List Nat → Nat
  | [] => 0
  | c :: t => c % 2 ^ w + (packRow w t) <<< w

/-! ### ME descriptor (Table 3.3) -/

/-- The fields of an ME descriptor. -/
structure MeDesc where
  op : Nat
  mode : Nat
  init : Bool
  drain : Bool
  conv : Bool
  wKeep : Bool
  raw : Bool
  conjW : Bool
  sCtl : NumCtl
  wCtl : NumCtl
  oCtl : NumCtl
  wbShift : Nat
  anchor : Int
  m : Nat
  n : Nat
  k : Nat
  sBase : Nat
  wBase : Nat
  oBase : Nat
  sPitch : Nat
  wPitch : Nat
  oPitch : Nat
  accBase : Nat
  slot : Nat
  tag : Nat
  gen : Nat
  evt : Nat
  deriving DecidableEq, Repr

def MeDesc.ofNat (d : Nat) : MeDesc :=
  { op := bits d 0 8, mode := bits d 8 2, init := bit d 10, drain := bit d 11, conv := bit d 12, wKeep := bit d 13,
    raw := bit d 14, conjW := bit d 15, sCtl := NumCtl.ofByte (bits d 16 8), wCtl := NumCtl.ofByte (bits d 24 8),
    oCtl := NumCtl.ofByte (bits d 32 8), wbShift := bits d 40 6, anchor := toSigned 10 (bits d 48 10),
    m := bits d 64 16, n := bits d 80 16, k := bits d 96 32, sBase := bits d 128 22, wBase := bits d 160 22,
    oBase := bits d 192 22, sPitch := bits d 224 16, wPitch := bits d 240 16, oPitch := bits d 256 16,
    accBase := bits d 272 10, slot := bits d 288 8, tag := bits d 304 16, gen := bits d 320 16, evt := bits d 336 8 }

/-- Is a reserved bit of an ME descriptor, or bit 7 of a control byte, set? -/
def meReserved (d : Nat) : Bool :=
  bits d 46 2 != 0 || bits d 58 6 != 0 || bits d 150 10 != 0 || bits d 182 10 != 0 || bits d 214 10 != 0
    || bits d 282 6 != 0 || bits d 296 8 != 0 || bits d 344 168 != 0 || bit d 23 || bit d 31 || bit d 39

/-- Columns of a bank row: 64, or 32 complex columns in CI16 mode (R73, R74). -/
def bankCols (mode : Nat) : Nat := if mode = 2 then 32 else 64

/-- Bank rows of a mode (R73). -/
def bankRows (mode : Nat) : Nat := if mode = 0 then 1024 else if mode = 2 then 512 else 128

/-- Bytes of a raw element of a mode (Table 3.3, raw). -/
def rawBytes (mode : Nat) : Nat := if mode = 0 then 4 else if mode = 2 then 16 else 32

/-- Bank rows a descriptor needs (R74). -/
def MeDesc.rows (d : MeDesc) : Nat := ceilDiv d.n (bankCols d.mode) * d.m

/-- Formats of 4 bits. -/
def isFp4 (fmt : Nat) : Bool := fmt == 6 || fmt == 11 || fmt == 12

/-- K_t of Table 3.1. -/
def MeDesc.kTile (d : MeDesc) : Nat :=
  if d.mode = 2 then 64 else if isFp4 d.sCtl.fmt && isFp4 d.wCtl.fmt then 256 else 128

/-- Bytes of a row of O: raw elements, or elements of o_ctl's format (R82). LOADACC reads raw elements. -/
def MeDesc.oRowBytes (d : MeDesc) : Nat :=
  if d.raw || d.op == 3 then d.n * rawBytes d.mode else rowBytes d.oCtl.fmt d.n

/-- Does the operation read or write O? -/
def MeDesc.usesO (d : MeDesc) : Bool := d.op == 2 || d.op == 3 || (d.op == 1 && d.drain)

/-! ### Convolution slots (Table 6.7, R86, R87) -/

/-- A convolution slot record. -/
structure ConvRec where
  inBase : Nat
  h : Nat
  w : Nat
  c : Nat
  kh : Nat
  kw : Nat
  sy : Nat
  sx : Nat
  dy : Nat
  dx : Nat
  pt : Nat
  pl : Nat
  ow : Nat
  m0 : Nat
  deriving DecidableEq, Repr

def ConvRec.ofNat (r : Nat) : ConvRec :=
  { inBase := bits r 0 22, h := bits r 32 16, w := bits r 48 16, c := bits r 64 16, kh := bits r 80 8,
    kw := bits r 88 8, sy := bits r 96 4, sx := bits r 100 4, dy := bits r 104 4, dx := bits r 108 4,
    pt := bits r 112 8, pl := bits r 120 8, ow := bits r 128 16, m0 := bits r 160 32 }

/-- A field that must not be 0 (R168). -/
def ConvRec.zeroField (r : ConvRec) : Bool :=
  r.h == 0 || r.w == 0 || r.c == 0 || r.kh == 0 || r.kw == 0 || r.sy == 0 || r.sx == 0 || r.dy == 0 || r.dx == 0
    || r.ow == 0

/-- The scratch offset of the element that streamed row m reads at reduction index k; none where the value is 0
(R87). -/
def ConvRec.addr (r : ConvRec) (size m k : Nat) : Option Nat :=
  let p := r.m0 + m
  let oy := p / r.ow
  let ox := p % r.ow
  let c := k % r.c
  let t := k / r.c
  let kx := t % r.kw
  let ky := t / r.kw
  let iy : Int := (oy * r.sy + ky * r.dy : Nat) - (r.pt : Int)
  let ix : Int := (ox * r.sx + kx * r.dx : Nat) - (r.pl : Int)
  if iy < 0 ∨ (r.h : Int) ≤ iy ∨ ix < 0 ∨ (r.w : Int) ≤ ix then none
  else some (r.inBase + ((iy.toNat * r.w + ix.toNat) * r.c + c) * size)

/-! ### TME descriptor (Table 6.5) and tile layouts (Table 6.4) -/

/-- The fields of a TME descriptor. -/
structure TmeDesc where
  op : Nat
  layout : Nat
  raOk : Bool
  spec : Bool
  tag : Nat
  gen : Nat
  evt : Nat
  slot : Nat
  src : Nat
  dst : Nat
  len : Nat
  rows : Nat
  kTiles : Nat
  pitch : Nat
  epoch : Nat
  deriving DecidableEq, Repr

def TmeDesc.ofNat (d : Nat) : TmeDesc :=
  { op := bits d 0 8, layout := bits d 8 4, raOk := bit d 12, spec := bit d 13, tag := bits d 16 16,
    gen := bits d 32 16, evt := bits d 48 8, slot := bits d 56 8, src := bits d 64 64, dst := bits d 128 64,
    len := bits d 192 32, rows := bits d 224 16, kTiles := bits d 240 16, pitch := bits d 256 16,
    epoch := bits d 272 16 }

/-- Is a reserved bit of a TME descriptor set, with the upper bits of a scratch offset among them? -/
def tmeReserved (d : Nat) : Bool :=
  let op := bits d 0 8
  bits d 14 2 != 0 || bits d 288 224 != 0 || ((op == 3 || op == 4) && bits d 86 42 != 0)
    || (op == 2 && bits d 150 42 != 0)

/-- Row bytes, tile pitch and rows per tile of a layout (Table 6.4); none for a reserved code. -/
def tileLayout (code : Nat) : Option (Nat × Nat × Nat) :=
  match code with
  | 1 => some (128, 128, 32)
  | 2 => some (96, 128, 32)
  | 3 => some (128, 128, 32)
  | 4 => some (256, 256, 16)
  | 5 => some (256, 256, 16)
  | 6 => some (132, 192, 21)
  | 7 => some (100, 128, 32)
  | 8 => some (136, 192, 21)
  | 9 => some (160, 192, 21)
  | _ => none

/-- Transfers of a TME descriptor: pieces of a COPY, split at 4 KiB boundaries of dst,
tiles of a GATHER or SCATTER (R163, R169, R199). -/
def TmeDesc.pieces (d : TmeDesc) : Nat :=
  match d.op with
  | 1 => if d.len = 0 then 0 else (d.dst + d.len - 1) / 4096 - d.dst / 4096 + 1
  | 4 => 1
  | _ => match tileLayout d.layout with
    | some l => ceilDiv d.rows l.2.2 * d.kTiles
    | none => 0

end Sys2Proof.Machine
end

