-- ==== Sys2Proof/Machine/Time.lean ====
section
/-!
DEFINITION. Machine/Time.lean: network time (R217 to R227): its value at the counter, its steps, and the comparisons
against it.
-/
namespace Sys2Proof.Machine

/-- Let n ticks of the time clock pass (R217). -/
def State.elapse (s : State) (n : Nat) : State := { s with cnt := (s.cnt + n) % 2 ^ 64 }

/-- off (R218). -/
def State.timeOff (s : State) : Nat := s.reg TIME_OFF0 + (s.fld TIME_OFF1 0 40) <<< 64

def State.setTimeOff (s : State) (v : Nat) : State :=
  (s.setReg TIME_OFF0 (bits v 0 64)).setReg TIME_OFF1 (bits v 64 40)

/-- Network time T in units of 2^-40 ns (R218). -/
def State.netTime (s : State) : Nat :=
  (s.timeOff + ((2 ^ 64 + s.cnt - s.reg TIME_BASE) % 2 ^ 64) * s.fld TIME_STEP 0 48) % 2 ^ 104

/-- Network time as a reader sees it, in units of 2^-16 ns (R220). -/
def State.timeQ (s : State) : Nat := (2 ^ 23 + s.netTime) / 2 ^ 24

/-- Network time in ns (R220). -/
def State.nowNs (s : State) : Nat := (s.timeQ >>> 16) % 2 ^ 64

/-- TIME_STATUS.valid. -/
def State.timeValid (s : State) : Bool := s.fld TIME_STATUS 0 1 == 1

/-- A fold: T does not change (R219). -/
def State.foldTime (s : State) : State :=
  let t := s.netTime
  (s.setTimeOff t).setReg TIME_BASE s.cnt

/-- Set the rate, folding first (R219). -/
def State.setStep (s : State) (v : Nat) : State := s.foldTime.setFld TIME_STEP 0 48 v

/-- Add e units of 2^-16 ns to network time (R219). -/
def State.phaseStep (s : State) (e : Int) : State :=
  s.setTimeOff (((s.timeOff : Int) + e * 2 ^ 24) % (2 ^ 104)).toNat

/-- Mode 0: has network time reached a 64-bit target (R224)? -/
def State.reached (s : State) (target : Nat) : Bool :=
  decide (0 ≤ toSigned 64 ((2 ^ 64 + s.nowNs - target % 2 ^ 64) % 2 ^ 64))

/-- Mode 1: has the low word of network time reached a 32-bit target (R224)? -/
def State.reached32 (s : State) (target : Nat) : Bool :=
  decide (0 ≤ toSigned 32 ((2 ^ 32 + s.nowNs % 2 ^ 32 - target % 2 ^ 32) % 2 ^ 32))

/-- A 32-bit stamp extended against a reference time (R225). -/
def extendStamp (ref stamp : Nat) : Nat :=
  (((ref : Int) + toSigned 32 ((2 ^ 32 + stamp % 2 ^ 32 - ref % 2 ^ 32) % 2 ^ 32)) % (2 ^ 64)).toNat

end Sys2Proof.Machine
end

