-- ==== Sys2Proof/Machine/FabOps.lean ====
section
/-!
DEFINITION. Machine/FabOps.lean: issuing a fabric request: routes and paths (R289, R290), tags (R297), gateways (R301),
how its end reaches the unit that waits (R104, R298), and the atomics (R295).
-/
namespace Sys2Proof.Machine

def State.ownCard (s : State) : Nat := s.fld FAB_CARD_ID 0 12

/-! ### Ports: what a packet becomes on its way out (R290, R318, R324, R327) -/

def State.port (s : State) (p : Nat) : LnkPort := Tbl.get ({} : LnkPort) s.lnk p
def State.setPort (s : State) (p : Nat) (x : LnkPort) : State := { s with lnk := Tbl.put ({} : LnkPort) s.lnk p x }
def State.portState (s : State) (p : Nat) : Nat := s.fld (LNK_STATE p) 0 3

/-- Is a port in the route masks: ACTIVE or RECOVERY, or DOWN inside its drain hold, and not being disabled (R321, R328,
R332)? -/
def State.portUp (s : State) (p : Nat) : Bool :=
  let st := s.portState p
  (st == 3 || st == 4 || (st == 5 && s.fld (LNK_STATE p) 18 1 == 1)) && !(s.port p).masked

/-- The route's combined mask, without the ports that the link layer has taken down (R290). -/
def State.routeMask (s : State) (card : Nat) : List Nat :=
  (List.range 24).filter (fun p => bit (s.reg (FAB_ROUTE card)) p && s.portUp p)

/-- Flits that wait in a port's egress queue. -/
def LnkPort.egress (x : LnkPort) : Nat := x.txq.foldl (fun n t => n + t.left) 0

/-- The port of a packet to a card, by its flow key (R290); the loopback path is port 24 (R287). -/
def State.pathPort (s : State) (card flow : Nat) (uo : Bool) : Nat :=
  if card = s.ownCard then 24
  else
    let m := s.routeMask card
    let f := bits flow 0 12 ^^^ bits flow 12 12 ^^^ bits flow 24 12
    let src := s.ownCard
    let h := f ^^^ card ^^^ (((src <<< 5) ||| (src >>> 7)) % 4096)
    let n := m.length
    let c1 := h % n
    let c2 := if n < 2 then c1 else (c1 + 1 + (h >>> 4) % (n - 1)) % n
    let e (c : Nat) : Nat := (s.port (listGet 24 m c)).egress
    let c := if uo && s.fld FAB_HASH_CFG 0 1 == 1 && decide (e c2 + s.fld FAB_HASH_CFG 1 8 ≤ e c1) then c2 else c1
    listGet 24 m c

/-- Flits of a packet of n bytes: slots of 32 bytes, 19 in a flit (R318). -/
def flitsOf (n : Nat) : Nat := ceilDiv (ceilDiv n 32) 19

/-- Give a flit its sequence number and hold its copy (R324). -/
def State.holdFlit (s : State) (p : Nat) (tc : Bool) (hdr : Nat) (ctrl : Bool) : State :=
  let n := s.fld (LNK_SEQ p) 0 12
  let x := s.port p
  let s := s.setPort p { x with buf := x.buf ++ [{ seq := n, tc := tc, hdr := hdr, ctrl := ctrl }] }
  (s.setFld (LNK_SEQ p) 0 12 (n + 1)).setFld (LNK_SEQ p) 36 10 (x.buf.length + 1)

/-- Send what waits at an ACTIVE port, flit by flit, while the window and the credits allow: a CTRL flit first, then a
class 1 flit, then a class 0 flit. -/
def State.lnkPump (s : State) (p : Nat) : Nat → State
  | 0 => s
  | fuel + 1 =>
    let x := s.port p
    if s.portState p ≠ 3 ∨ 512 ≤ x.buf.length then s
    else match x.ctrl with
      | c :: rest => ((s.setPort p { x with ctrl := rest }).holdFlit p false (c.1 + c.2 <<< 8) true).lnkPump p fuel
      | [] =>
        let pick := match findIdx? (fun (t : TxPkt) => t.pkt.tc && decide (0 < x.cred1)) x.txq with
          | some r => some r
          | none => findIdx? (fun (t : TxPkt) => !t.pkt.tc && decide (0 < x.cred0)) x.txq
        match pick with
        | none => s
        | some (k, t) =>
          let x := if t.pkt.tc then { x with cred1 := x.cred1 - 1 } else { x with cred0 := x.cred0 - 1 }
          let q := if t.left ≤ 1 then eraseAt x.txq k else x.txq.modify k (fun t => { t with left := t.left - 1 })
          let s := s.setPort p { x with txq := q }
          let s := if t.left ≤ 1 then { s with fab := { s.fab with sent := s.fab.sent ++ [⟨p, t.pkt⟩] } } else s
          (s.holdFlit p t.pkt.tc (bits t.pkt.val 0 256) false).lnkPump p fuel

/-- Give a packet to its port; on the loopback path it is delivered at once (R287). -/
def State.toPort (s : State) (p : Nat) (k : FabPkt) : State :=
  if 24 ≤ p then s.setPort 24 { s.port 24 with got := (s.port 24).got ++ [(k.val, k.size, !k.bad.isEmpty)] }
  else (s.setPort p { s.port p with txq := (s.port p).txq ++ [{ pkt := k, left := flitsOf k.size }] }).lnkPump p 1024

/-! ### Headers (Table 11.4, R294) -/

/-- A global address (R286). -/
def globalAddr (card part a : Nat) : Nat := a % 2 ^ 48 + (bits part 0 4) <<< 48 + (bits card 0 12) <<< 52

/-- The 32-byte header of a request under a tag: the hub writes the source fields from the issuing owner (R292). -/
def State.reqHeader (s : State) (t : Nat) (r : FabReq) : Nat :=
  let sp := match r.srcPart with | some p => p | none => s.instPart r.inst
  r.op + (b2n r.uo) <<< 8 + (b2n r.timed) <<< 9 + (b2n r.spec) <<< 10 + (s.fld TIME_STATUS 0 1) <<< 11
    + (bits r.len 0 15) <<< 16 + (bits t 0 17) <<< 32 + s.ownCard <<< 52 + (bits r.addr 0 48) <<< 64
    + (bits r.part 0 4) <<< 112 + (bits r.card 0 12) <<< 116 + (bits sp 0 4) <<< 128
    + (instField r.inst) <<< 132 + (bits r.gen 0 16) <<< 141 + (s.fld (PRT_PART_STAT sp) 3 16) <<< 157
    + (bits r.epoch 0 16) <<< 173 + (bits r.grp 0 6) <<< 189 + (bits s.nowNs 0 32) <<< 224

/-- The payload under a tag: a DISPATCH's slot header carries it as rtag (Table 11.8). -/
def FabReq.pay (r : FabReq) (t : Nat) : Nat := if r.op = 0x20 then setBits r.payload 256 17 t else r.payload

/-- Payload bytes that follow a request's header: a load carries none (Table 11.5). -/
def FabReq.payBytes (r : FabReq) : Nat := if r.op = 1 then 0 else r.len

def State.reqPkt (s : State) (t : Nat) (r : FabReq) : FabPkt :=
  { val := s.reqHeader t r + (r.pay t) <<< 256, size := 32 + r.payBytes, card := r.card, tc := r.timed, req := some (t, r), flow := r.flow,
    bad := r.bad.map (· + 1) }

/-- Tags held, and tags an instance holds (R297). -/
def Fab.tagCount (f : Fab) : Nat := f.tags.length
def Fab.instTags (f : Fab) (i : Nat) : Nat :=
  (f.tags.filter (fun t => match t.2 with | some u => u.req.inst == i | none => false)).length

/-- May a request be granted a tag (R297)? -/
def State.tagOk (s : State) (r : FabReq) : Bool :=
  let free := 131072 - s.fab.tagCount
  s.fld FAB_CTRL 0 1 == 1 && decide (0 < free) && (r.timed || decide (s.fld FAB_TAG_CFG 0 17 < free))
    && (r.inst == noInst || decide (s.fab.instTags r.inst < s.fld FAB_TAG_CFG 17 17))

/-- The lowest tag that is not in use. -/
def Fab.freeTag (f : Fab) : Nat :=
  ((List.range (f.tags.length + 1)).find? (fun t => Tbl.get none f.tags t == none)).getD 0

def State.holdTag (s : State) (t : Nat) (u : Option TagUse) : State :=
  { s with fab := { s.fab with tags := Tbl.put none s.fab.tags t u } }

/-- Send a granted request on its port (R290, R292). -/
def State.fabSend (s : State) (t : Nat) (r : FabReq) : State :=
  let s := s.holdTag t (some { req := r })
  (s.toPort (s.pathPort r.card r.flow r.uo) (s.reqPkt t r)).bump64 FAB_TX_REQ_CNT 1

/-- Hand a status and data to the unit that waits on a request (R104, R113, R299). -/
def State.fabArrive (s : State) (o : FabOwner) (a : Arrived) : State :=
  match o with
  | .load pc x t =>
    let th := s.thread pc x t
    s.setThread pc x t { th with rem := th.rem.map (fun r => { r with arrived := some a }) }
  | .store pc x t =>
    let th := s.thread pc x t
    match findIdx? (fun (r : RemReq) => r.arrived.isNone && r.tag.isSome) th.stores with
    | some (k, _) => s.setThread pc x t { th with stores := th.stores.modify k (fun r => { r with arrived := some a }) }
    | none => s
  | _ => s

/-- The tag a thread's request was sent under. -/
def State.noteTag (s : State) (o : FabOwner) (t : Nat) : State :=
  match o with
  | .load pc x k =>
    let th := s.thread pc x k
    s.setThread pc x k { th with rem := th.rem.map (fun r => { r with tag := some t }) }
  | .store pc x k =>
    let th := s.thread pc x k
    match findIdx? (fun (r : RemReq) => r.tag.isNone && (match r.target with | some (.fabric _ _ _) => true | _ => false)) th.stores with
    | some (i, _) => s.setThread pc x k { th with stores := th.stores.modify i (fun r => { r with tag := some t }) }
    | none => s
  | _ => s

/-! ### Gateways (R301) -/

/-- The gateway of a class 2 card. -/
def gatewayOf (card : Nat) : Nat := (card ^^^ (card >>> 2)) &&& 3

def State.gateway (s : State) (g : Nat) : Gateway := Tbl.get ({} : Gateway) s.fab.gw g
def State.setGateway (s : State) (g : Nat) (x : Gateway) : State :=
  { s with fab := { s.fab with gw := Tbl.put ({} : Gateway) s.fab.gw g x } }

/-- Bytes of an open frame. -/
def GwFrame.bytes (f : GwFrame) : Nat := f.reqs.foldl (fun n r => n + 32 + r.2.payBytes) 0

/-- The frame's payload: the headers and payloads of its requests, in order. -/
def State.frameBytes (s : State) : List (Nat × FabReq) → Nat
  | [] => 0
  | (t, r) :: rest => s.reqHeader t r + (r.pay t) <<< 256 + (s.frameBytes rest) <<< (8 * (32 + r.payBytes))

/-- The poisoned slots of the frame, its first request at slot k. -/
def frameBad : Nat → List (Nat × FabReq) → List Nat
  | _, [] => []
  | k, (_, r) :: rest => r.bad.map (· + k + 1) ++ frameBad (k + ceilDiv (32 + r.payBytes) 32) rest

/-- A buffer for a gateway's frame: the lowest-numbered enabled pool that grants one to the gateway's port. -/
def State.gwBuffer (s : State) (g : Nat) (timed : Bool) : Option (Nat × Nat) × State :=
  let ok (p : Nat) : Bool :=
    let c := s.reg (MEM_POOL_CFG p)
    let x := Tbl.get ({} : Pool) s.pools p
    let free := bits c 7 17 - x.owners.length
    bit c 0 && x.waiters.isEmpty && decide ((if timed then 0 else bits c 29 17) < free)
  match (List.range 64).find? ok with
  | none => (none, s)
  | some p =>
    let x := Tbl.get ({} : Pool) s.pools p
    let b := ((List.range (x.owners.length + 1)).find? (fun b => (Tbl.get none x.owners b).isNone)).getD 0
    let o : PoolOwner := { port := 65 + g, inst := noInst, gen := 0, timed := timed }
    (some (p, b), { s with pools := Tbl.put ({} : Pool) s.pools p { x with owners := Tbl.put none x.owners b (some o), pointer := 66 + g } })

/-- Return a frame's buffer. -/
def State.gwReturn (s : State) (b : Option (Nat × Nat)) : State :=
  match b with
  | some (p, i) =>
    let x := Tbl.get ({} : Pool) s.pools p
    { s with pools := Tbl.put ({} : Pool) s.pools p { x with owners := Tbl.put none x.owners i none } }
  | none => s

/-- Send the open frame of a card as one BULK packet. -/
def State.gwSend (s : State) (g card : Nat) : State :=
  let x := s.gateway g
  let f := Tbl.get ({} : GwFrame) x.openFr card
  if f.reqs.isEmpty then s
  else
    let timed := f.reqs.any (fun r => r.2.timed)
    let n := f.bytes
    let r : FabReq := { op := 0x30, card := card, part := 0, addr := 0, len := n, payload := s.frameBytes f.reqs,
                        owner := .note, inst := noInst, gen := 0, timed := timed, srcPart := some 0 }
    let s := s.setGateway g { x with openFr := Tbl.put ({} : GwFrame) x.openFr card {}, flight := x.flight ++ [f.reqs.map (·.1)] }
    let s := s.gwReturn f.buf
    let p : FabPkt := { val := s.reqHeader 0 r + r.payload <<< 256, size := 32 + n, card := card, tc := timed, bad := frameBad 1 f.reqs }
    (s.toPort (s.pathPort card 0 false) p).bump64 FAB_TX_REQ_CNT 1

/-- Move requests that hold a tag from the input queue into the open frames, in order: a frame that has no room for the
next request, or that is full, is sent; a window of 0 sends each request in a frame of its own; a refused buffer holds
the queue. -/
def State.gwPack (s : State) (g : Nat) : Nat → State
  | 0 => s
  | fuel + 1 =>
    let x := s.gateway g
    match x.queue with
    | (some t, r) :: rest =>
      let f := Tbl.get ({} : GwFrame) x.openFr r.card
      let n := 32 + r.payBytes
      if f.reqs.isEmpty = false ∧ 4096 < f.bytes + n then (s.gwSend g r.card).gwPack g fuel
      else
        let q := if f.buf.isSome then (f.buf, s) else s.gwBuffer g r.timed
        match q.1 with
        | none => s
        | some b =>
          let s := q.2
          let x := s.gateway g
          let f := { f with reqs := f.reqs ++ [(t, r)], buf := some b }
          let s := s.setGateway g { x with queue := rest, openFr := Tbl.put ({} : GwFrame) x.openFr r.card f }
          let s := if 4096 ≤ f.bytes ∨ s.fld FAB_GW_CFG 0 16 = 0 then s.gwSend g r.card else s
          s.gwPack g fuel
    | _ => s

/-- A class 2 request enters its gateway's input queue, with its tag when one is granted (R297, R301). -/
def State.gwEnter (s : State) (r : FabReq) : State :=
  let g := gatewayOf r.card
  let x := s.gateway g
  if s.tagOk r then
    let t := s.fab.freeTag
    let s := s.holdTag t (some { req := r })
    ((s.setGateway g { x with queue := x.queue ++ [(some t, r)] }).noteTag r.owner t).gwPack g 1024
  else (s.setGateway g { x with queue := x.queue ++ [(none, r)] }).bump64 FAB_TAG_WAIT_CNT 1

def State.holdRequest (s : State) (r : FabReq) : State := { s with fab := { s.fab with waiting := s.fab.waiting ++ [r] } }

/-- Is a card reached without sending, through a gateway, or directly: class 3 or an empty mask is unreachable (R289). -/
def State.unreachable (s : State) (card : Nat) : Bool :=
  card != s.ownCard && (s.fld (FAB_ROUTE card) 24 2 == 3 || (s.routeMask card).isEmpty)
def State.throughGateway (s : State) (card : Nat) : Bool := card != s.ownCard && s.fld (FAB_ROUTE card) 24 2 == 2

/-- Issue a request (R289, R297, R301): unreachable cards complete with RETIRED; class 2 goes to its gateway's input
queue; otherwise the request takes a tag and is sent, or waits for one. -/
def State.fabIssue (s : State) (r : FabReq) : State :=
  if s.unreachable r.card then ((s.bump FAB_UNREACH_CNT).event FAB_EVENT 2).fabArrive r.owner { status := stRetired }
  else if s.throughGateway r.card then
    if (s.gateway (gatewayOf r.card)).queue.length < 512 then s.gwEnter r
    else (s.holdRequest r).bumpFld (FAB_GW_STAT (gatewayOf r.card)) 20 32 1
  else if s.tagOk r then
    let t := s.fab.freeTag
    (s.fabSend t r).noteTag r.owner t
  else (s.holdRequest r).bump64 FAB_TAG_WAIT_CNT 1

/-! ### Atomics (R295) -/

/-- Fabric opcodes (Table 11.5). -/
def atomCode : AtomOp → Nat
  | .swap => 0x10
  | .cas => 0x11
  | .faddI64 => 0x12
  | .addI64 => 0x13
  | .addRec => 0x14
  | .addF32 => 0x15

def atomOfCode (c : Nat) : Option AtomOp :=
  if c = 0x10 then some .swap else if c = 0x11 then some .cas else if c = 0x12 then some .faddI64
  else if c = 0x13 then some .addI64 else if c = 0x14 then some .addRec else if c = 0x15 then some .addF32 else none

/-- Elements of w bytes combined one by one, from the lowest: the new value and the count of anchor mismatches. -/
def mapElems (w : Nat) (f : Nat → Nat → Nat × Nat) : Nat → Nat → Nat → Nat × Nat
  | 0, _, _ => (0, 0)
  | n + 1, a, b =>
    let r := f (a % 2 ^ (8 * w)) (b % 2 ^ (8 * w))
    let rest := mapElems w f n (a >>> (8 * w)) (b >>> (8 * w))
    (r.1 + rest.1 <<< (8 * w), r.2 + rest.2)

/-- The value an atomic leaves in len held bytes, and the anchor mismatches it counts (R295). -/
def atomApply (op : AtomOp) (len old operand cmp : Nat) : Nat × Nat :=
  match op with
  | .swap => (operand % 2 ^ 64, 0)
  | .cas => (if old = cmp then operand % 2 ^ 64 else old, 0)
  | .faddI64 => ((old + operand) % 2 ^ 64, 0)
  | .addI64 => mapElems 8 (fun a b => ((a + b) % 2 ^ 64, 0)) (len / 8) old operand
  | .addF32 => mapElems 4 (fun a b => ((fp32Add a b).1, 0)) (len / 4) old operand
  | .addRec =>
    mapElems 32 (fun a b =>
      let r := (Rec.ofNat a).combine (Rec.ofNat b)
      (r.1.toNat, b2n r.2)) (len / 32) old operand

/-- Bytes of the held value that a thread's atomic acts on. -/
def atomBytes : AtomOp → Nat
  | .addRec => 32
  | .addF32 => 4
  | _ => 8

end Sys2Proof.Machine
end

