-- ==== Sys2Proof/Machine/Check.lean ====
section
/-!
DEFINITION. Machine/Check.lean: what the check codes of scratch, cluster SRAM, HBM and Silo find when a word or line is read
(R152 to R154): corrections, uncorrectable errors and poison reads, with their counts.
-/
namespace Sys2Proof.Machine

/-- The DRAM row of a line, with its channel: at 2^32 × channel + row. HBM: pseudo-channel 64 × stack + pseudo-channel. -/
def hbmRow (l : Nat) : Nat := (64 * (hbmChannel l).1 + (hbmChannel l).2) * 2 ^ 32 + Config.dramRow l % 2 ^ 32
def siloRow (l : Nat) : Nat := siloChannel l * 2 ^ 32 + Config.dramRow l % 2 ^ 32

/-- A field of the error counters of a core's scratch (MEM_SCR_ERR of the logical core it carries). -/
def State.scrErr (s : State) (pc lo : Nat) : State :=
  if s.lcOf pc < 480 then s.bumpFld (MEM_SCR_ERR (s.lcOf pc)) lo 16 1 else s

/-- A marked word of a core's scratch is read (R152, R153): a corrected word is written back; the others keep their mark. -/
def State.scrWord (s : State) (pc w k : Nat) : State :=
  match k with
  | 0 => s
  | 1 => ((s.scrErr pc 0).setCore pc { s.core pc with scr := (s.core pc).scr.setMark w 0 }).countErr 3 pc 1
  | 2 => (s.scrErr pc 16).countErr 4 pc 1
  | _ => (s.bump MEM_POISON_RD_CNT).scrErr pc 32

/-- An access of n bytes of a core's scratch reads the words it touches; a store only those it covers in part (R152). -/
def State.scrChecked (s : State) (pc off n : Nat) (store : Bool := false) : State :=
  ((s.core pc).scr.readMarks 8 off n store).foldl (fun (s : State) c => s.scrWord pc c.1 c.2) s

/-- One operation reads several stretches of a core's scratch, given by offset and bytes: each marked word is met once. -/
def State.scrSpans (s : State) (pc : Nat) (l : List (Nat × Nat)) : State :=
  ((s.core pc).scr.marks.filter (fun c => l.any (fun r => decide (r.1 < c.1 + 8) && decide (c.1 < r.1 + r.2)))).foldl
    (fun (s : State) c => s.scrWord pc c.1 c.2) s

/-- A store of n bytes to a core's scratch, with the counts of the reads it makes of words that it covers in part. -/
def State.scrWrite (s : State) (pc off n v : Nat) : State := (s.scrChecked pc off n true).scrStore pc off n v

/-- A marked word or line of cluster SRAM, HBM or Silo is read (R152 to R154). -/
def State.devWord (s : State) (w k : Nat) : State :=
  let fixed (s : State) : State := { s with dev := s.dev.setMark w 0 }
  match s.tierOf w, k with
  | _, 0 => s
  | .hbm, 1 => fixed ((s.bump MEM_HBM_CE_CNT).countErr 12 (hbmRow w) 1)
  | .hbm, 2 => (s.bump MEM_HBM_UE_CNT).countErr 13 (hbmRow w / 2 ^ 32) 1
  | .silo, 1 => fixed ((s.bump MEM_SILO_CE_CNT).countErr 14 (siloRow w) 1)
  | .silo, 2 => (s.bump MEM_SILO_UE_CNT).countErr 15 (siloRow w / 2 ^ 32) 1
  | .cluster n, 1 => fixed ((s.bumpFld (MEM_CL_ERR n) 0 16 1).countErr 8 n 1)
  | .cluster n, 2 => (s.bumpFld (MEM_CL_ERR n) 16 16 1).countErr 9 n 1
  | .cluster n, _ => (s.bump MEM_POISON_RD_CNT).bumpFld (MEM_CL_ERR n) 32 16 1
  | .hbm, _ | .silo, _ => s.bump MEM_POISON_RD_CNT
  | _, _ => s

/-- An access of n bytes at a device-local address reads the words or lines it touches; a store only those it covers in part
(R152, R154). -/
def State.devChecked (s : State) (a n : Nat) (store : Bool := false) : State :=
  match s.tierOf a with
  | .scratch lc off =>
    let pc := s.physCtx lc (ctxAt off)
    if pc = noCore then s else s.scrChecked pc off n store
  | t => (s.dev.readMarks t.granule a n store).foldl (fun (s : State) c => s.devWord c.1 c.2) s

/-- A read with its counts: the value, whether it carries a poison tag, and the state after it. -/
def State.devRead (s : State) (a n : Nat) : (Nat × Bool) × State := (s.devLoad a n, s.devChecked a n)

/-- A store with the counts of the read it makes of a word or line that it covers in part. -/
def State.devWrite (s : State) (a n v : Nat) : State := (s.devChecked a n true).devStore a n v

/-- Bit errors appear in a word of a physical core's scratch. -/
def State.scrUpset (s : State) (pc off : Nat) (e : MemErr) : State :=
  match e with
  | .none => s
  | e => s.setCore pc { s.core pc with scr := (s.core pc).scr.upset (off / 8 * 8) e }

/-- Bit errors appear in the word or line at a device-local address. -/
def State.devUpset (s : State) (a : Nat) (e : MemErr) : State :=
  match e, s.tierOf a with
  | .none, _ => s
  | e, .scratch lc off =>
    let pc := s.physCtx lc (ctxAt off)
    if pc = noCore then s else s.scrUpset pc off e
  | _, .control => s
  | _, .none => s
  | e, t => { s with dev := s.dev.upset (a / t.granule * t.granule) e }

end Sys2Proof.Machine
end

