-- ==== Sys2Proof/Machine/Xlt.lean ====
section
/-!
DEFINITION. Machine/Xlt.lean: instance translation (chapter 07): the table walk, the checks of a leaf, the translation
caches, walks in progress and invalidations.
-/
namespace Sys2Proof.Machine

/-- The class of an access (R188). -/
inductive Access where
  | read | write | atom | dmaRead | dmaWrite
  deriving DecidableEq, Repr

/-- What a translation answers: a target, a fault, or that a walk is needed first. level: where the walk for it stopped, 0 when none
ran (Table 7.9). -/
inductive XRes where
  | ok (t : Target) (enc : Bool) (level : Nat)
  | fault (status cause level : Nat)
  | miss
  deriving DecidableEq, Repr

/-- The level of a leaf that maps pages of 2^lg bytes (Table 7.1). -/
def levelOf : Nat → Nat
  | 30 => 1
  | 21 => 2
  | _ => 3

/-- log2 of the page a leaf at a level maps (Table 7.1). -/
def levelLg : Nat → Nat
  | 1 => 30
  | 2 => 21
  | _ => 16

/-- The index of an instance address at a level, and the entry's address in its table (Table 7.1). -/
def levelIndex (level va : Nat) : Nat :=
  match level with
  | 0 => bits va 39 9
  | 1 => bits va 30 9
  | 2 => bits va 21 9
  | _ => bits va 16 5

/-- Is a valid entry read at a level malformed (R186)? -/
def State.malformed (s : State) (level e : Nat) : Bool :=
  let ty := bits e 1 2
  if ty = 3 then true
  else if ty = 0 then
    let next := bits e 8 40 <<< 8
    level == 3 || bits e 48 16 != 0 || (decide (level < 2) && next % 4096 != 0) || s.tierOf next != .hbm
  else
    level == 0 || bits e 8 8 != 0 || (bits e 16 32 <<< 16) % 2 ^ levelLg level != 0
      || (ty == 1 && bits e 48 16 != 0)

/-- What a walk finds; seen: the entries for the walk cache, reads: the table addresses it read. -/
inductive WalkRes where
  | leaf (entry lg : Nat) (seen : List WalkEntry) (reads : List Nat)
  | fault (status cause level : Nat) (seen : List WalkEntry) (reads : List Nat)
  deriving DecidableEq, Repr

/-- Walk the levels given from the table at base, using the walk cache's entries for levels 0 to 2 (R185, R189). -/
def State.walkFrom (s : State) (inst va : Nat) : List Nat → Nat → List WalkEntry → List Nat → WalkRes
  | [], _, seen, reads => .fault stFaultXlat cMalformed 3 seen reads
  | l :: rest, base, seen, reads =>
    let pre := va >>> (if l = 3 then 16 else if l = 2 then 21 else if l = 1 then 30 else 39)
    let cached := s.wcache.find? (fun w => w.inst == inst && w.level == l && w.pre == pre)
    let rd := s.devLoad (base + 8 * levelIndex l va) 8
    let reads := if cached.isNone then reads ++ [base + 8 * levelIndex l va] else reads
    let e := match cached with | some w => w.entry | none => rd.1
    if cached.isNone && rd.2 then .fault stPoison cPoisonEntry l seen reads
    else if bit e 0 = false then .fault stFaultXlat cUnmapped l seen reads
    else if s.malformed l e then .fault stFaultXlat cMalformed l seen reads
    else
      let seen := if l < 3 then seen ++ [⟨inst, l, pre, e⟩] else seen
      if bits e 1 2 = 0 then s.walkFrom inst va rest (bits e 8 40 <<< 8) seen reads
      else .leaf e (levelLg l) seen reads

/-- The address of an instance's level 0 table (Table 7.3). -/
def State.rootOf (s : State) (inst : Nat) : Nat :=
  (s.fld (XLT_CTX inst 0) 32 32 + s.fld (XLT_CTX inst 1) 0 8 <<< 32) <<< 8

def State.walk (s : State) (inst va : Nat) : WalkRes := s.walkFrom inst va [0, 1, 2, 3] (s.rootOf inst) [] []

/-- Permission bits an access needs in the leaf (R188): the cause of the first one missing. -/
def permCause (acc : Access) (e : Nat) : Option Nat :=
  let r := bit e 3
  let w := bit e 4
  let a := bit e 5
  let d := bit e 6
  match acc with
  | .read => if r then none else some cPermR
  | .write => if w then none else some cPermW
  | .atom => if !r then some cPermR else if !w then some cPermW else if a then none else some cPermAtom
  | .dmaRead => if !d then some cPermDma else if r then none else some cPermR
  | .dmaWrite => if !d then some cPermDma else if w then none else some cPermW

/-- Key ids of the ranges a device-local address hits (R451). -/
def State.keyHits (s : State) (a : Nat) : List Nat :=
  s.regs.filterMap (fun r =>
    if 0x51000 ≤ r.1 ∧ r.1 < 0x59000 ∧ r.1 % 16 = 0 ∧ bit r.2 63 then
      let base := bits r.2 16 32 <<< 16
      let k := s.reg (r.1 + 8)
      if base ≤ a ∧ a < base + bits k 0 32 * 65536 then some (bits k 32 10) else none
    else none)

/-- Is a key live (R450)? -/
def State.keyLive (s : State) (k : Nat) : Bool := bit (s.reg (SEC_KEY_LIVE (k / 64))) (k % 64)

/-- Table 16.8: the status and cause that stop an HBM or Silo access through a leaf with this enc bit; none where it goes on. -/
def State.keyFault (s : State) (a : Nat) (enc : Bool) : Option (Nat × Nat) :=
  match s.tierOf a with
  | .hbm | .silo =>
    match s.keyHits a with
    | [] => if enc then some (stFaultXlat, cMalformed) else none
    | [k] => if s.keyLive k then none else some (stFaultAccess, cPrivilege)
    | _ => some (stFaultAccess, cPrivilege)
  | _ => none

/-- Two ranges or more are hit: the event (Table 16.8). -/
def State.noteKeys (s : State) (a : Nat) : State :=
  match s.tierOf a with
  | .hbm | .silo => if 2 ≤ (s.keyHits a).length then s.event SEC_EVENT 7 else s
  | _ => s

/-- The checks of a leaf against an access (R188, R151), and where the access goes; lvl is the level of the walk that found the leaf,
0 when none ran (Table 7.9). -/
def State.useLeaf (s : State) (inst va : Nat) (acc : Access) (e lg lvl : Nat) : XRes :=
  match permCause acc e with
  | some c => .fault stFaultAccess c lvl
  | none =>
    let a := bits e 16 32 <<< 16 + va % 2 ^ lg
    if bits e 1 2 = 2 then .ok (.fabric (bits e 48 12) (bits e 60 4) a) (bit e 7) lvl
    else match s.tierOf a with
      | .scratch _ off =>
        if inScratch (if s.instTimed inst then .timed else .elastic) off 1 then .ok (.local a) (bit e 7) lvl
        else .fault stFaultAccess cWrongContext lvl
      | .control => if mappedPage a then .ok (.local a) (bit e 7) lvl else .fault stFaultAccess cOutOfRange lvl
      | .none => .fault stFaultAccess cOutOfRange lvl
      | _ =>
        match s.keyFault a (bit e 7) with
        | some f => .fault f.1 f.2 lvl
        | none => .ok (.local a) (bit e 7) lvl

/-- Use a leaf; an access that meets two key ranges raises the event of Table 16.8. -/
def State.tryLeaf (s : State) (inst va : Nat) (acc : Access) (e lg lvl : Nat) : XRes × State :=
  (s.useLeaf inst va acc e lg lvl,
    if (permCause acc e).isNone && bits e 1 2 != 2 then s.noteKeys (bits e 16 32 <<< 16 + va % 2 ^ lg) else s)

def TlbEntry.hits (t : TlbEntry) (p : TlbPlace) (inst va : Nat) : Bool :=
  t.place == p && t.inst == inst && va / 2 ^ t.lg * 2 ^ t.lg == t.base

/-- Entries a cache holds (Table 7.4). -/
def TlbPlace.size : TlbPlace → Nat
  | .micro _ _ => 32
  | .cluster _ => 1024
  | .dma => 256
  | .hub => 0

/-- Put an entry into its cache; the oldest entry of a full cache leaves. -/
def State.tlbInsert (s : State) (t : TlbEntry) : State :=
  let others := s.tlb.filter (fun x => x.place != t.place)
  let mine := (s.tlb.filter (fun x => x.place == t.place && !(x.hits t.place t.inst t.base))) ++ [t]
  let n := t.place.size
  { s with tlb := others ++ mine.drop (mine.length - n) }

/-- The access that asked for a walk uses the entry the walk brought. -/
def State.tlbUsed (s : State) (t : TlbEntry) : State :=
  if t.fresh then { s with tlb := s.tlb.map (fun u => if u = t then { u with fresh := false } else u) } else s

/-- The cluster TLB behind a micro-TLB. -/
def TlbPlace.behind : TlbPlace → Option TlbPlace
  | .micro core _ => some (.cluster (clusterOf core))
  | _ => none

/-- Start a walk, timed walks ahead of elastic ones (R191), unless one for the page already runs. -/
def State.startWalk (s : State) (w : Walk) : State :=
  if s.walks.any (fun x => x.place == w.place && x.inst == w.inst && x.va / 65536 == w.va / 65536) then s
  else
    let s := s.bump64 XLT_WALK_CNT 1
    if w.timed then { s with walks := s.walks.filter (·.timed) ++ [w] ++ s.walks.filter (fun x => !x.timed) }
    else { s with walks := s.walks ++ [w] }

/-- The entries a walk has read enter the walk cache (R186, R189), and their lines count what their check codes found. -/
def State.walkSeen (s : State) (seen : List WalkEntry) (reads : List Nat) : State :=
  let s := reads.foldl (fun (s : State) a => s.devChecked a 8) s
  { s with wcache := (seen.filter (fun x => !s.wcache.contains x)) ++ s.wcache |>.take 4096 }

/-- A walk that stopped at a malformed entry is counted. -/
def State.walkMalformed (s : State) (st c : Nat) : State :=
  if c = cMalformed ∧ st = stFaultXlat then s.bump XLT_MALFORMED_CNT else s

/-- A requester of the hub without a TLB walks for each access, through the walk cache (Table 7.5); the walk ends within the access. -/
def State.hubWalk (s : State) (inst va : Nat) (acc : Access) : XRes × State :=
  let s := s.bump64 XLT_WALK_CNT 1
  match s.walk inst va with
  | .leaf e lg seen reads => (s.walkSeen seen reads).tryLeaf inst va acc e lg (levelOf lg)
  | .fault st c l seen reads => (.fault st c l, (s.walkSeen seen reads).walkMalformed st c)

/-- Translate an instance address (R182 to R192): checks, caches, a fault left by a finished walk, or a new walk. -/
def State.xlate (s : State) (place : TlbPlace) (inst va : Nat) (acc : Access) (timed : Bool) : XRes × State :=
  if 2 ^ 48 ≤ va then (.fault stFaultAccess cOutOfRange 0, s)
  else if s.instValid inst = false then (.fault stFaultAccess cWrongOwner 0, s)
  else if place = .hub then s.hubWalk inst va acc
  else match s.tlb.find? (fun t => t.hits place inst va) with
    | some t => (s.tlbUsed t).tryLeaf inst va acc t.entry t.lg (if t.fresh then levelOf t.lg else 0)
    | none =>
      match s.walkFaults.find? (fun f => f.place == place && f.inst == inst && f.va / 65536 == va / 65536) with
      | some f => (.fault f.status f.cause f.level, { s with walkFaults := s.walkFaults.filter (fun g => g != f) })
      | none =>
        let s := match place with
          | .micro _ _ => s.bump64 XLT_UTLB_MISS_CNT 1
          | .dma => s.bump64 XLT_DTLB_MISS_CNT 1
          | _ => s
        match place.behind with
        | some c =>
          match s.tlb.find? (fun t => t.hits c inst va) with
          | some t => (s.tlbInsert { t with place := place }).tryLeaf inst va acc t.entry t.lg 0
          | none =>
            (.miss, (s.bump64 XLT_CTLB_MISS_CNT 1).startWalk
              { place := place, inst := inst, gen := s.instGen inst, va := va, timed := timed })
        | none =>
          (.miss, s.startWalk { place := place, inst := inst, gen := s.instGen inst, va := va, timed := timed })

/-- Does an invalidation cover an address of an instance (R193)? -/
def Inval.covers (v : Inval) (inst base lg : Nat) : Bool :=
  match v.op with
  | 3 => true
  | 1 => v.inst == inst
  | _ => v.inst == inst && decide (v.addr < base + 2 ^ lg) && decide (base < v.addr + v.size * 65536)

/-- The end of a walk (R185, R186, R188, R191, R194): true when it ended, and the page it served. -/
def State.walkDone (s : State) (i : Nat) : Option Walk × State :=
  match s.walks[i]? with
  | none => (none, s)
  | some w =>
    let blocked := match s.inval with | some v => v.covers w.inst (w.va / 65536 * 65536) 16 | none => false
    if blocked then (none, { s with walks := s.walks.modify i (fun w => { w with again := true }) })
    else
      let s := { s with walks := eraseAt s.walks i }
      if w.gen ≠ s.instGen w.inst ∨ s.instValid w.inst = false then (none, s.bump XLT_STALE_CNT)
      else match s.walk w.inst w.va with
        | .leaf e lg seen reads =>
          let s := s.walkSeen seen reads
          let t : TlbEntry := ⟨w.place, w.inst, w.va / 2 ^ lg * 2 ^ lg, lg, e, false⟩
          let s := match w.place.behind with | some c => s.tlbInsert { t with place := c } | none => s
          (some w, s.tlbInsert { t with fresh := true })
        | .fault st c l seen reads =>
          let s := (s.walkSeen seen reads).walkMalformed st c
          (some w, { s with walkFaults := s.walkFaults ++ [⟨w.place, w.inst, w.va, st, c, l⟩] })

/-- A write that starts an invalidation (R193). -/
def State.invStart (s : State) (wr : Writer) (v : Inval) : State :=
  match wr with
  | .host i =>
    (s.charge { addr := 0x030000000000 + XLT_INV_CMD, status := stFaultAccess, cause := cPrivilege, kind := 1,
                unit := uReg, inst := i.val, gen := s.instGen i.val }).answer stFaultAccess cPrivilege
  | .mc =>
    if s.fld XLT_INV_STATUS 0 1 = 1 then s.refuseReg XLT_INV_CMD
    else if v.op = 2 ∧ v.size = 0 then (s.setReg XLT_INV_STATUS (stNop <<< 1)).answer stNop
    else ({ s with inval := some v }.setReg XLT_INV_STATUS 1).answer stOk

/-- An access in flight that was translated through an entry the invalidation drops (R194). -/
def Thread.usesLocal (t : Thread) : Bool :=
  (match t.rem with | some r => r.target.isSome && r.arrived.isNone | none => false)
    || t.stores.any (fun r => r.target.isSome && r.arrived.isNone)

/-- Is an access of the instance still in flight (R194)? -/
def State.inFlight (s : State) (v : Inval) : Bool :=
  s.cores.any (fun p =>
    (v.op == 3 || s.instOf p.1 .timed == v.inst) && p.2.t.threads.any (fun q => q.2.usesLocal)
      || (v.op == 3 || s.instOf p.1 .elastic == v.inst) && p.2.e.threads.any (fun q => q.2.usesLocal))

/-- Every cached entry that matches an invalidation is dropped, and walks of its range walk again (R194). -/
def State.invApply (s : State) (v : Inval) : State :=
  { s with
    tlb := s.tlb.filter (fun t => !v.covers t.inst t.base t.lg),
    wcache := s.wcache.filter (fun w =>
      !v.covers w.inst (w.pre <<< (if w.level = 0 then 39 else if w.level = 1 then 30 else 21))
        (if w.level = 0 then 39 else if w.level = 1 then 30 else 21)),
    walks := s.walks.map (fun w => { w with again := false }) }

/-! ### Meanings -/

def execXltInvInstance (wr : Writer) (inst : Fin 512) (s : State) : Host.Outcome State Fault Refusal :=
  .next (s.invStart wr { op := 1, inst := inst.val, addr := 0, size := 0 })

def execXltInvRange (wr : Writer) (inst : Fin 512) (s : State) : Host.Outcome State Fault Refusal :=
  .next (s.invStart wr
    { op := 2, inst := inst.val, addr := s.fld XLT_INV_ADDR 16 32 <<< 16, size := s.fld XLT_INV_SIZE 0 32 })

def execXltInvAll (wr : Writer) (s : State) : Host.Outcome State Fault Refusal :=
  .next (s.invStart wr { op := 3, inst := 0, addr := 0, size := 0 })

/-- R194: the invalidation completes once no access translated through a dropped entry is in flight; busy clears. -/
def execXltInvComplete (s : State) : Host.Outcome State Fault Refusal :=
  match s.inval with
  | none => .next s
  | some v =>
    if s.inFlight v then .next s
    else .next ({ s.invApply v with inval := none }.setReg XLT_INV_STATUS (stOk <<< 1))

/-- R207, Table 7.11: an instance consumes records of its fault ring, oldest first. -/
def execXltIfDone (inst : Fin 512) (value : Word) (s : State) : Host.Outcome State Fault Refusal :=
  let n := bits value.toNat 0 5
  let ring := Tbl.get [] s.ifr inst.val
  if n = 0 then .next (s.answer stNop)
  else if ring.length < n then .next ((s.refuseLog 4 0x1010 inst.val 0x1FF).answer stState)
  else .next ({ s with ifr := Tbl.put [] s.ifr inst.val (ring.drop n) }.answer stOk)

end Sys2Proof.Machine
end

