-- ==== Sys2Proof/Machine/Sc.lean ====
section
/-!
DEFINITION. Machine/Sc.lean: the scalar controller (chapter 04): thread operations, tasks, events, remote accesses,
program memory, fencing and the hand-over to a spare.
-/
namespace Sys2Proof.Machine

/-! ### Accesses at a device-local address (R25, R121, R151 to R154, R295) -/

/-- Can n bytes at a be performed at all: the answer when not. -/
def State.accBlocked (s : State) (a n : Nat) : Option Arrived :=
  if s.devRetired a then some { status := stRetired }
  else if s.devOk a n then none
  else some { status := stFaultAccess, cause := cOutOfRange }

/-- A load of n bytes (R153): its status, its data, and the counts. -/
def State.accRead (s : State) (a n inst : Nat) (unit : Nat := uSc) : Arrived × State :=
  if mappedPage a then ({ status := stOk, data := s.pageLoad a n }, s)
  else match s.accBlocked a n with
  | some r => (r, s)
  | none =>
    if s.devGated a then ({ status := stOk }, (s.gatedLog a unit false inst).taint inst 4)
    else
      let r := s.devRead a n
      if r.1.2 then ({ status := stPoison, data := r.1.1 }, r.2.taint inst 3)
      else ({ status := stOk, data := r.1.1 }, r.2)

/-- A store of n bytes (R152, R154). -/
def State.accWrite (s : State) (a n v inst : Nat) (unit : Nat := uSc) : Arrived × State :=
  if mappedPage a then ({ status := stOk }, s.pageStore a n v)
  else match s.accBlocked a n with
  | some r => (r, s)
  | none =>
    if s.devGated a then ({ status := stOk }, (s.gatedLog a unit true inst).taint inst 4)
    else
      let p := s.devStorePoisoned a n
      ({ status := if p then stPoison else stOk }, s.devWrite a n v)

/-- An atomic over len bytes (R295); one aimed at scratch is refused (Table 11.1, row 7). -/
def State.accAtom (s : State) (op : AtomOp) (a len operand cmp inst : Nat) : Arrived × State :=
  match s.accBlocked a len with
  | some r => (r, s)
  | none =>
    match s.tierOf a with
    | .scratch _ _ => ({ status := stState }, s)
    | _ =>
      if s.devGated a then ({ status := stOk }, (s.gatedLog a uSc true inst).taint inst 4)
      else
        let r := s.devRead a len
        if r.1.2 then ({ status := stPoison }, r.2.devPoison a len)
        else
          let n := atomApply op len r.1.1 operand cmp
          let s := r.2.devStore a len n.1
          ({ status := stOk, data := r.1.1 % 2 ^ 64 }, if n.2 = 0 then s else s.bumpFld FAB_AMIS_CNT 0 32 n.2)

/-! ### Ending a task (R106, R119, R200) -/

/-- A task completion record (Table 4.18). -/
def taskRecord (t : Task) (status thread pc : Nat) : Nat :=
  complRecord t.tag t.gen status + (bits thread 0 3) <<< 40 + (bits pc 0 15) <<< 43

def faultReg (pc : Nat) : Ctx → Nat
  | .timed => RAS_CORE_FAULT_T pc
  | .elastic => RAS_CORE_FAULT_E pc

def faultAddrReg (pc : Nat) : Ctx → Nat
  | .timed => RAS_CORE_FADDR_T pc
  | .elastic => RAS_CORE_FADDR_E pc

/-- The first thread fault of a context since the last read (Table 4.16). -/
def State.noteFault (s : State) (pc : Nat) (x : Ctx) (status thread word tag addr : Nat) : State :=
  if s.fld (faultReg pc x) 0 1 = 1 then s
  else
    (s.setReg (faultReg pc x) (1 + (bits status 0 8) <<< 1 + (bits thread 0 3) <<< 9 + (bits word 0 15) <<< 12
      + (bits tag 0 16) <<< 27)).setReg (faultAddrReg pc x) (bits addr 0 48)

/-- A thread back to FREE: nothing of its task stays but stores still to be acknowledged. -/
def Thread.freed (t : Thread) : Thread :=
  { stores := t.stores.map (fun r => { r with orphan := true }) }

/-- End the task of a thread with a status at a program word: the record takes the entry reserved at acceptance, the
thread is FREE, and done_evt is raised for OK (R106, Table 4.2, Table 4.3). -/
def State.endTask (s : State) (pc : Nat) (x : Ctx) (t status word : Nat) : State :=
  let c := s.ctx pc x
  let th := c.thread t
  match th.task with
  | none => s
  | some k =>
    let c := c.setThread t th.freed
    let s := s.setCtx pc x { c with tq := c.tq.complete (taskRecord k status t word) }
    if status = stOk then s.raiseEvt pc x k.doneEvt else s

def ctxElastic : Ctx → Bool
  | .timed => false
  | .elastic => true

/-- The fields of a fault record for a unit of a context (R198). -/
def State.faultOf (s : State) (pc : Nat) (x : Ctx) (unit tag status cause addr level : Nat) : FaultInfo :=
  let i := s.instOf pc x
  { addr := addr, status := status, cause := cause, level := level, unit := unit, elastic := ctxElastic x,
    inst := i, gen := s.instGen i, lc := s.lcOf pc, tag := tag }

/-- A refusal at a fabric target is recorded under the global address it met (R206). -/
def FaultInfo.far (f : FaultInfo) (g : Option Nat) : FaultInfo :=
  match g with
  | some a => if f.cause = cRemoteRefused then { f with addr := a, kind := 1 } else f
  | none => f

/-- The global address of a fabric target. -/
def Target.global : Target → Option Nat
  | .fabric c p a => some (globalAddr c p a)
  | _ => none

/-- A fault of a thread ends its task (R119, R197, R201): records, the fault register, RETIRED taints (R462). -/
def State.threadFault (s : State) (pc : Nat) (x : Ctx) (t status cause addr level word : Nat) (g : Option Nat := none) : State :=
  let th := s.thread pc x t
  let tag := match th.task with | some k => k.tag | none => 0
  let s := if status = stFaultXlat ∨ status = stFaultAccess ∨ status = stPoison then
      s.charge ((s.faultOf pc x uSc tag status cause addr level).far g) else s
  let s := if status = stRetired then s.taint (s.instOf pc x) 2 else s
  let s := s.noteFault pc x status t word tag addr
  s.endTask pc x t status word

/-! ### Issue (R102, R114, R119, R120) -/

/-- Does a context's program region hold word w (R114)? -/
def inProgram (x : Ctx) (w : Nat) : Bool :=
  match x with
  | .timed => decide (w < 8192)
  | .elastic => decide (8192 ≤ w) && decide (w < 32768)

def State.pmMarked (s : State) (pc w : Nat) : Bool := Tbl.get false (s.core pc).pmMark w

def State.markPm (s : State) (pc w : Nat) : State :=
  s.setCore pc { s.core pc with pmMark := Tbl.put false (s.core pc).pmMark w true }

/-- A fetch of a program word (R120): corrected errors are counted, an uncorrectable one marks the word. True when the
fetch is poisoned. -/
def State.fetchPm (s : State) (pc w : Nat) (e : MemErr) : Bool × State :=
  match e with
  | .none => (s.pmMarked pc w, s)
  | .corrected => (s.pmMarked pc w, (s.bump (MEM_PM_CE_CNT pc)).countErr 0 pc 1)
  | .uncorrectable => (true, ((s.markPm pc w).bump (MEM_PM_UE_CNT pc)).countErr 1 pc 1)

/-- Issue of one instruction by a thread: it takes effect only when its context owns the core, the thread is ACTIVE and
no program load holds the fetch (R102, R117). A fault recorded while the context was parked is taken first (R113);
then the fetch is checked (R114, R119). -/
def State.issue (s : State) (th : ThreadAt) (k : State → State) : State :=
  let pc := th.core.val
  let t := s.thread pc th.ctx th.t.val
  let w := th.pc.toNat
  if !(s.owns pc th.ctx) || t.st != .active || (s.core pc).load.isSome then s
  else match t.fault with
    | some f => s.endTask pc th.ctx th.t.val f.status t.pc
    | none =>
      if inProgram th.ctx w = false then
        s.threadFault pc th.ctx th.t.val stFaultAccess cProgramRange (8 * w) 0 w
      else
        let f := s.fetchPm pc w th.fetch
        if f.1 then f.2.threadFault pc th.ctx th.t.val stPoison 0 (8 * w) 0 w
        else if th.parity then (f.2.countErr 2 pc 1).threadFault pc th.ctx th.t.val stPoison 0 (8 * w) 0 w
        else k (f.2.setThread pc th.ctx th.t.val { t with pc := w + 1 })

/-- The word index a thread is at: the instruction it issued last. -/
def Thread.at (t : Thread) : Nat := t.pc - 1

/-! ### Loads, stores and atomics (R104, R105, R182, R200) -/

def accBytes : AccSize → Nat
  | .b1 => 1
  | .b2 => 2
  | .b4 => 4
  | .b8 => 8

/-- A read of a context's own scratch (R152, R153): whether the data carries a poison tag, and the counts. e: bit errors in the
first word it touches. -/
def State.scrRead (s : State) (pc off n : Nat) (e : MemErr) : Bool × State :=
  let s := s.scrUpset pc off e
  (s.scrPoison pc off n, s.scrChecked pc off n)

/-- What a remote access brings back, for a target already translated. -/
def State.perform (s : State) (r : RemReq) (a inst : Nat) : Arrived × State :=
  match r.kind with
  | .load => s.accRead a r.size inst
  | .store => s.accWrite a r.size r.data inst
  | .atom op => s.accAtom op a (atomBytes op) r.data r.cmp inst

/-- The fabric request of a remote access (R290, R293): ordered, its flow the page of its address. -/
def RemReq.fab (r : RemReq) (card part a inst gen : Nat) (timed : Bool) (o : FabOwner) : FabReq :=
  { op := match r.kind with | .load => 1 | .store => 2 | .atom op => atomCode op,
    card := card, part := part, addr := a,
    len := match r.kind with | .atom .cas => 16 | .atom op => (atomBytes op) | _ => r.size,
    payload := match r.kind with | .atom .cas => r.cmp + r.data <<< 64 | _ => r.data,
    owner := o, inst := inst, gen := gen, timed := timed, flow := a >>> 12,
    unit := match o with | .load pc _ _ => pc / 8 | .store pc _ _ => pc / 8 | _ => 69 }

def RemKind.access : RemKind → Access
  | .load => .read
  | .store => .write
  | .atom _ => .atom

/-- Translate a thread's remote access; a fabric leaf's request is issued at once (R192, R104). -/
def State.resolve (s : State) (pc : Nat) (x : Ctx) (r : RemReq) : RemReq × Option FabReq × State :=
  let i := s.instOf pc x
  let q := s.xlate (.micro pc x) i r.addr r.kind.access (x == .timed)
  match q.1 with
  | .ok (.local a) _ l => ({ r with target := some (.local a), lvl := l }, none, q.2)
  | .ok (.fabric c p a) _ l =>
    ({ r with target := some (.fabric c p a), lvl := l },
     some (r.fab c p a i (s.instGen i) (x == .timed) .note), q.2)
  | .fault st cause l => ({ r with arrived := some { status := st, cause := cause }, lvl := l }, none, q.2)
  | .miss => (r, none, q.2)

/-- Begin a remote load or atomic of a thread: WAIT_REM (R104). -/
def State.startRemote (s : State) (pc : Nat) (x : Ctx) (t : Nat) (r : RemReq) : State :=
  let q := s.resolve pc x r
  let s := q.2.2
  let s := s.setThread pc x t { s.thread pc x t with st := .waitRem, rem := some q.1 }
  match q.2.1 with
  | some f => s.fabIssue { f with owner := .load pc x t }
  | none => s

/-- Post a store of a thread (R104). -/
def State.postStore (s : State) (pc : Nat) (x : Ctx) (t : Nat) (r : RemReq) : State :=
  let q := s.resolve pc x r
  let s := q.2.2
  let th := s.thread pc x t
  let s := s.setThread pc x t { th with stores := th.stores ++ [q.1] }
  match q.2.1 with
  | some f => s.fabIssue { f with owner := .store pc x t }
  | none => s

/-- R104, R105, R28, R182: an SC load. -/
def execLd (th : ThreadAt) (rd : Fin 32) (addr : Word) (size : AccSize) (err : MemErr) (s : State) :
    Host.Outcome State Fault Refusal :=
  .next (s.issue th (fun s =>
    let pc := th.core.val
    let t := th.t.val
    let a := addr.toNat
    let n := accBytes size
    if a < 0x400000 then
      if inScratch th.ctx a n then
        let q := s.scrRead pc a n err
        if q.1 then q.2.threadFault pc th.ctx t stPoison 0 a 0 th.pc.toNat
        else q.2.setThread pc th.ctx t ((q.2.thread pc th.ctx t).setReg rd.val (q.2.scrLoad pc a n))
      else s.threadFault pc th.ctx t stFaultAccess cScratchRange a 0 th.pc.toNat
    else s.startRemote pc th.ctx t { kind := .load, addr := a, size := n, rd := rd.val }))

/-- R104, R28, R152: an SC store: local, or posted, or waiting when 8 are unacknowledged. -/
def execSt (th : ThreadAt) (addr : Word) (size : AccSize) (data : Word) (err : MemErr) (s : State) :
    Host.Outcome State Fault Refusal :=
  .next (s.issue th (fun s =>
    let pc := th.core.val
    let t := th.t.val
    let a := addr.toNat
    let n := accBytes size
    if a < 0x400000 then
      if inScratch th.ctx a n then
        ((s.scrUpset pc a err).scrChecked pc a n true).scrStore pc a n data.toNat
      else s.threadFault pc th.ctx t stFaultAccess cScratchRange a 0 th.pc.toNat
    else
      let r : RemReq := { kind := .store, addr := a, size := n, data := data.toNat % 2 ^ (8 * n) }
      let k := s.thread pc th.ctx t
      if k.stores.length < 8 then s.postStore pc th.ctx t r
      else s.setThread pc th.ctx t { k with st := .waitRem, heldStore := some r }))

/-- R104, R295: an SC atomic, on the context's own scratch or remote. -/
def execAtom (th : ThreadAt) (op : AtomOp) (rd : Fin 32) (addr : Word) (data : BitVec 256) (cmp : Word) (s : State) :
    Host.Outcome State Fault Refusal :=
  .next (s.issue th (fun s =>
    let pc := th.core.val
    let t := th.t.val
    let a := addr.toNat
    let n := (atomBytes op)
    if a < 0x400000 then
      if inScratch th.ctx a n then
        let q := s.scrRead pc a n .none
        if q.1 then q.2.threadFault pc th.ctx t stPoison 0 a 0 th.pc.toNat
        else
          let old := q.2.scrLoad pc a n
          let new := atomApply op n old data.toNat cmp.toNat
          let s := q.2.scrStore pc a n new.1
          s.setThread pc th.ctx t ((s.thread pc th.ctx t).setReg rd.val old)
      else s.threadFault pc th.ctx t stFaultAccess cScratchRange a 0 th.pc.toNat
    else
      s.startRemote pc th.ctx t
        { kind := .atom op, addr := a, size := n, rd := rd.val, data := data.toNat, cmp := cmp.toNat }))

/-- FENCE.REM (Table 4.2): waits while posted stores of the thread are unacknowledged. -/
def execFenceRem (th : ThreadAt) (s : State) : Host.Outcome State Fault Refusal :=
  .next (s.issue th (fun s =>
    let t := s.thread th.core.val th.ctx th.t.val
    if t.stores.isEmpty then s else s.setThread th.core.val th.ctx th.t.val { t with st := .waitRem }))

/-- The global address of a remote access through a fabric leaf. -/
def RemReq.far (r : RemReq) : Option Nat := r.target.bind Target.global

/-- Deliver what came back for a thread's load or atomic (R104, R113, R119, R202). -/
def State.deliver (s : State) (pc : Nat) (x : Ctx) (t : Nat) (r : RemReq) (a : Arrived) : State :=
  let th := s.thread pc x t
  if a.status = stOk then
    s.setThread pc x t ({ th with st := .active, rem := none }.setReg r.rd a.data)
  else
    let s := s.setThread pc x t { th with st := .active, rem := none }
    if s.owns pc x then s.threadFault pc x t a.status a.cause r.addr r.lvl th.at r.far
    else
      let tag := match th.task with | some k => k.tag | none => 0
      let s := if a.status = stFaultXlat ∨ a.status = stFaultAccess ∨ a.status = stPoison then
          s.charge (s.faultOf pc x uSc tag a.status a.cause r.addr r.lvl |>.far r.far) else s
      let s := s.noteFault pc x a.status t th.at tag r.addr
      s.setThread pc x t { s.thread pc x t with fault := some ⟨a.status, r.addr⟩ }

/-- Perform a thread's posted local stores that are not yet performed, in order, so that its later access to the same
place sees them (R309). -/
def State.flushStores (s : State) (pc : Nat) (x : Ctx) (t : Nat) : List RemReq → State
  | [] => s
  | r :: rest =>
    match r.target, r.arrived with
    | some (.local a), none =>
      let q := s.perform r a (s.instOf pc x)
      let th := q.2.thread pc x t
      let k := th.stores.length - (rest.length + 1)
      State.flushStores (q.2.setThread pc x t { th with stores := th.stores.modify k (fun r => { r with arrived := some q.1 }) })
        pc x t rest
    | _, _ => State.flushStores s pc x t rest

/-- R104: the reply of a thread's remote load or atomic arrives. err: bit errors in the word or line
it reads first. -/
def execRemoteReply (u : CtxAt) (t : Fin 8) (err : MemErr) (s : State) : Host.Outcome State Fault Refusal :=
  let pc := u.core.val
  let th := s.thread pc u.ctx t.val
  .next (match th.rem with
  | none => s
  | some r =>
    match r.arrived, r.target with
    | some a, _ => s.deliver pc u.ctx t.val r a
    | none, some (.local a) =>
      let s := s.flushStores pc u.ctx t.val th.stores
      let q := (s.devUpset a err).perform r a (s.instOf pc u.ctx)
      q.2.deliver pc u.ctx t.val r q.1
    | none, some (.fabric _ _ _) => s
    | none, none => s.startRemote pc u.ctx t.val r)

/-- After an acknowledgement: a held ninth store posts; a thread at FENCE.REM goes on when no store is left. -/
def State.afterAck (s : State) (pc : Nat) (x : Ctx) (t : Nat) : State :=
  let th := s.thread pc x t
  if th.st == .waitRem && th.rem.isNone then
    match th.heldStore with
    | some r => (s.setThread pc x t { th with st := .active, heldStore := none }).postStore pc x t r
    | none => if th.stores.isEmpty then s.setThread pc x t { th with st := .active } else s
  else s

/-- The end of the oldest posted store: a fault ends the task (R119, R200). -/
def State.ackStore (s : State) (pc : Nat) (x : Ctx) (t : Nat) (r : RemReq) (a : Arrived) : State :=
  let th := s.thread pc x t
  let s := s.setThread pc x t { th with stores := th.stores.drop 1 }
  if a.status = stOk then s.afterAck pc x t
  else if r.orphan || th.task.isNone then
    if a.status = stFaultXlat ∨ a.status = stFaultAccess ∨ a.status = stPoison then
      s.charge (s.faultOf pc x uSc 0 a.status a.cause r.addr r.lvl |>.far r.far) else s
  else if s.owns pc x then s.threadFault pc x t a.status a.cause r.addr r.lvl th.at r.far
  else
    let s := if a.status = stFaultXlat ∨ a.status = stFaultAccess ∨ a.status = stPoison then
        s.charge (s.faultOf pc x uSc ((th.task.map (·.tag)).getD 0) a.status a.cause r.addr r.lvl |>.far r.far) else s
    let s := s.noteFault pc x a.status t th.at ((th.task.map (·.tag)).getD 0) r.addr
    (s.setThread pc x t { s.thread pc x t with fault := some ⟨a.status, r.addr⟩ }).afterAck pc x t

/-- R104: the acknowledgement of a thread's oldest posted store arrives. -/
def execStoreAck (u : CtxAt) (t : Fin 8) (s : State) : Host.Outcome State Fault Refusal :=
  let pc := u.core.val
  let th := s.thread pc u.ctx t.val
  .next (match th.stores with
  | [] => s
  | r :: rest =>
    match r.arrived, r.target with
    | some a, _ => s.ackStore pc u.ctx t.val r a
    | none, some (.local a) =>
      let q := s.perform r a (s.instOf pc u.ctx)
      q.2.ackStore pc u.ctx t.val r q.1
    | none, some (.fabric _ _ _) => s
    | none, none =>
      let q := s.resolve pc u.ctx r
      let s := q.2.2
      let s := s.setThread pc u.ctx t.val { s.thread pc u.ctx t.val with stores := q.1 :: rest }
      match q.2.1 with
      | some f => s.fabIssue { f with owner := .store pc u.ctx t.val }
      | none => s)

/-- R185: a walk ends; the threads that waited on its page go on with their accesses. -/
def execTableWalkDone (i : Fin 32) (s : State) : Host.Outcome State Fault Refusal :=
  let q := s.walkDone i.val
  .next (match q.1 with
  | none => q.2
  | some w =>
    match w.place with
    | .micro pc x =>
      (List.range 8).foldl (fun s t =>
        match (s.thread pc x t).rem with
        | some r =>
          if r.target.isNone && r.arrived.isNone && r.addr / 65536 == w.va / 65536 then s.startRemote pc x t r else s
        | none => s) q.2
    | _ => q.2)

/-! ### Engine queues (R112) -/

def CoreCtx.dq (c : CoreCtx) : Eng → DescQ
  | .me => c.me.dq
  | .vce0 => c.vce0.dq
  | .vce1 => c.vce1.dq
  | .tme => c.tme.dq

def CoreCtx.setDq (c : CoreCtx) (e : Eng) (d : DescQ) : CoreCtx :=
  match e with
  | .me => { c with me := { c.me with dq := d } }
  | .vce0 => { c with vce0 := { c.vce0 with dq := d } }
  | .vce1 => { c with vce1 := { c.vce1 with dq := d } }
  | .tme => { c with tme := { c.tme with dq := d } }

/-- The queue of an engine, or the task queue. -/
def CoreCtx.queue (c : CoreCtx) : Option Eng → DescQ
  | some e => c.dq e
  | none => c.tq

def CoreCtx.setQueue (c : CoreCtx) (e : Option Eng) (d : DescQ) : CoreCtx :=
  match e with
  | some e => c.setDq e d
  | none => { c with tq := d }

/-- Push an item into a queue, or hold it in WAIT_ENG when the queue is full (R112). -/
def State.pushOrHold (s : State) (pc : Nat) (x : Ctx) (t : Nat) (e : Option Eng) (i : CItem) : State :=
  let c := s.ctx pc x
  let d := c.queue e
  if d.q.room queueDepth then s.setCtx pc x (c.setQueue e { d with q := d.q.push i })
  else s.setThread pc x t { c.thread t with st := .waitEng, held := some ⟨e, i⟩ }

/-- ISSUE and SPAWN: copy n bytes of the context's scratch into a queue as one item (R112). -/
def State.issueItem (s : State) (th : ThreadAt) (off n : Nat) (e : Option Eng) (prio : Nat → Nat) : State :=
  s.issue th (fun s =>
    let pc := th.core.val
    if inScratch th.ctx off n then
      let d := s.scrLoad pc off n
      (s.scrChecked pc off n).pushOrHold pc th.ctx th.t.val e { data := d, prio := prio d, poison := s.scrPoison pc off n }
    else s.threadFault pc th.ctx th.t.val stFaultAccess cScratchRange off 0 th.pc.toNat)

def execIssueMe (th : ThreadAt) (off : Word) (prio : Fin 4) (s : State) : Host.Outcome State Fault Refusal :=
  .next (s.issueItem th off.toNat 64 (some .me) (fun _ => prio.val))

def execIssueVce (th : ThreadAt) (v : Fin 2) (off : Word) (prio : Fin 4) (s : State) :
    Host.Outcome State Fault Refusal :=
  .next (s.issueItem th off.toNat 64 (some (if v = 0 then .vce0 else .vce1)) (fun _ => prio.val))

def execIssueTme (th : ThreadAt) (off : Word) (prio : Fin 4) (s : State) : Host.Outcome State Fault Refusal :=
  .next (s.issueItem th off.toNat 64 (some .tme) (fun _ => prio.val))

/-- SPAWN (Table 4.2): the priority is the descriptor's (Table 4.3). -/
def execSpawn (th : ThreadAt) (off : Word) (s : State) : Host.Outcome State Fault Refusal :=
  .next (s.issueItem th off.toNat 32 none (fun d => bits d 8 2))

/-- R112: an item held in WAIT_ENG is taken once its queue has room. -/
def execQueuedItemPush (u : CtxAt) (t : Fin 8) (s : State) : Host.Outcome State Fault Refusal :=
  let c := s.ctx u.core.val u.ctx
  let th := c.thread t.val
  .next (match th.held with
  | none => s
  | some h =>
    let d := c.queue h.eng
    if d.q.room queueDepth then
      s.setCtx u.core.val u.ctx
        ((c.setQueue h.eng { d with q := d.q.push h.item }).setThread t.val { th with st := .active, held := none })
    else s)

/-! ### Events -/

def execRaise (th : ThreadAt) (e : BitVec 8) (s : State) : Host.Outcome State Fault Refusal :=
  .next (s.issue th (fun s => s.raiseEvt th.core.val th.ctx e.toNat))

/-- WAITEVT (R110): takes one count, or waits. -/
def execWaitevt (th : ThreadAt) (e : BitVec 8) (s : State) : Host.Outcome State Fault Refusal :=
  .next (s.issue th (fun s =>
    let c := s.ctx th.core.val th.ctx
    let n := Tbl.get 0 c.events e.toNat
    if n = 0 then
      s.setCtx th.core.val th.ctx
        (c.setThread th.t.val { c.thread th.t.val with st := .waitEvt, evt := e.toNat })
    else s.setCtx th.core.val th.ctx { c with events := Tbl.put 0 c.events e.toNat (n - 1) }))

/-! ### Tasks (R106 to R111) -/

/-- A task descriptor's fields (Table 4.3). -/
def taskOf (d : Nat) : Task :=
  { tag := bits d 16 16, gen := bits d 32 16, entry := bits d 64 15, arg0 := bits d 96 64, arg1 := bits d 160 64,
    doneEvt := bits d 224 8, prio := bits d 8 2, waitEvt := bits d 48 8, waits := bit d 56 }

/-- Reserved bits of a task descriptor (Table 4.3). -/
def taskReserved (d : Nat) : Bool :=
  bits d 10 6 != 0 || bits d 57 7 != 0 || bits d 79 17 != 0 || bits d 232 24 != 0

/-- Does a hand-over still keep a context of a core from the logical number's work (R122)? -/
def State.handoverBlocks (s : State) (pc : Nat) (x : Ctx) : Bool :=
  s.handovers.any (fun h => h.spare == some pc &&
    (match x with | .timed => !h.timedDone | .elastic => !h.elasticDone))

/-- A queued item ends without having been accepted: its record takes a completion entry. -/
def CoreCtx.finishQueued (c : CoreCtx) (d : Nat) (status : Nat) : CoreCtx :=
  { c with tq := { c.tq with compl := c.tq.compl.push { data := taskRecord (taskOf d) status 0 0 } } }

/-- Accept the task at the head of a context's queue under Table 4.4. -/
def State.acceptTask (s : State) (pc : Nat) (x : Ctx) : State :=
  let c := s.ctx pc x
  if c.tq.canAccept = false ∨ s.clocked pc = false then s
  else match c.tq.q.pop with
    | none => s
    | some (i, q) =>
      let c := { c with tq := { c.tq with q := q } }
      let t := taskOf i.data
      let s1 := s.setCtx pc x c
      if t.gen ≠ c.tq.gen then s1.bump (PRT_TQ_STALE_CNT pc)
      else if i.poison then s.setCtx pc x (c.finishQueued i.data stPoison)
      else if bits i.data 0 8 ≠ 1 ∨ taskReserved i.data then (s.setCtx pc x (c.finishQueued i.data stState)).stateAt pc x (bits i.data 0 8)
      else if inProgram x t.entry = false then
        (s.setCtx pc x (c.finishQueued i.data stFaultAccess)).charge
          (s.faultOf pc x uSc t.tag stFaultAccess cProgramRange (8 * t.entry) 0)
      else
        let n := Tbl.get 0 c.events t.waitEvt
        let taken := t.waits && decide (0 < n)
        let c := if taken then { c with events := Tbl.put 0 c.events t.waitEvt (n - 1) } else c
        s.setCtx pc x
          { c with tq := { c.tq with reserved := c.tq.reserved + 1 },
                   tasks := c.tasks ++ [{ t with waits := t.waits && !taken }] }

/-- A task descriptor that the hub writes joins the queue, whose head is then checked; it completes with RETIRED when the
core is fenced or its number is not handed over yet (R121, R122); a write to a clock-gated island is discarded (R25). The
status it completes with at once, whether it was taken (the queue had room), and the state. -/
def State.hubTask (s : State) (pc : Nat) (x : Ctx) (d : Nat) : Option Nat × Bool × State :=
  if s.islandOn (clusterOf pc) = false then
    (none, true, s.gatedLog (0x030000000000 + RAS_CORE_STATE pc) uReg true (s.instOf pc x))
  else if (s.core pc).fenced ∨ s.handoverBlocks pc x then (some stRetired, true, s)
  else
    let c := s.ctx pc x
    if c.tq.q.room queueDepth then
      (none, true, (s.setCtx pc x { c with tq := { c.tq with q := c.tq.q.push { data := d, prio := bits d 8 2 } } }).acceptTask pc x)
    else (none, false, s.acceptTask pc x)

/-- R107: the head of the queue is checked; a task descriptor that the hub writes joins the queue first. -/
def execTaskAccept (u : CtxAt) (hub : Option (BitVec 256)) (s : State) : Host.Outcome State Fault Refusal :=
  let pc := u.core.val
  .next (match hub with
  | none => if (s.core pc).fenced then s else s.acceptTask pc u.ctx
  | some d =>
    let r := s.hubTask pc u.ctx d.toNat
    match r.1 with
    | some st => r.2.2.answer st 0 [taskRecord (taskOf d.toNat) st 0 0]
    | none => r.2.2)

/-- Is a context's dispatch held (R116)? -/
def State.held (s : State) (pc : Nat) (x : Ctx) : Bool :=
  match x with
  | .elastic => s.fld (MEM_PM_HOLD pc) 0 1 == 1
  | .timed => s.fld (MEM_PM_HOLD pc) 1 1 == 1 && !(s.core pc).tEntry

/-- The place of the READY task that dispatches next: highest priority, oldest. -/
def readyTask (ts : List Task) : Option Nat :=
  ((List.range 4).findSome? (fun p => findIdx? (fun t => !t.waits && t.prio == p) ts)).map (·.1)

/-- The status register of a program load (Table 4.15). -/
def State.setPmStatus (s : State) (pc status bytes : Nat) (busy : Bool) : State :=
  s.setReg (MEM_PM_STATUS pc) (status + (bits bytes 0 18) <<< 8 + (b2n busy) <<< 26)

/-- R108, R118: a READY task goes to the lowest FREE thread; a timed one stops a program load. -/
def execTaskDispatch (u : CtxAt) (s : State) : Host.Outcome State Fault Refusal :=
  let pc := u.core.val
  let c := s.ctx pc u.ctx
  .next (if !(s.owns pc u.ctx) || s.held pc u.ctx || ((s.core pc).load.isSome && u.ctx == .elastic) then s
  else match readyTask c.tasks, (List.range 8).find? (fun t => (c.thread t).st == .free) with
    | some k, some t =>
      match c.tasks[k]? with
      | none => s
      | some task =>
        let s := match (s.core pc).load with
          | some l => (s.setCore pc { s.core pc with load := none }).setPmStatus pc stPreempted l.done false
          | none => s
        let th : Thread := { c.thread t with st := .active, pc := task.entry, regs := [], task := some task }
        let th := (th.setReg 1 task.arg0).setReg 2 task.arg1
        s.setCtx pc u.ctx ({ c with tasks := eraseAt c.tasks k }.setThread t th)
    | _, _ => s)

/-- DONE s (Table 4.2). -/
def execDone (th : ThreadAt) (status : BitVec 8) (s : State) : Host.Outcome State Fault Refusal :=
  .next (s.issue th (fun s => s.endTask th.core.val th.ctx th.t.val status.toNat th.pc.toNat))

/-! ### Cancel (R109, R111) -/

/-- Does an engine of the context still hold an accepted or queued descriptor with a tag? -/
def CoreCtx.engineHolds (c : CoreCtx) (tag : Nat) : Bool :=
  c.me.jobs.any (fun j => bits j.desc 304 16 == tag)
    || (match c.vce0.job with | some j => j.tag == tag | none => false)
    || (match c.vce1.job with | some j => j.tag == tag | none => false)
    || c.tme.jobs.any (fun j => bits j.desc 16 16 == tag)

/-- Take queued descriptors with a tag out of a queue: each completes with CANCELLED. tagLo, genLo: where a descriptor
holds its tag and generation. -/
def DescQ.cancelQueued (d : DescQ) (tag tagLo genLo : Nat) : DescQ :=
  let hit := d.q.items.filter (fun i => bits i.data tagLo 16 == tag)
  { d with q := { d.q with items := d.q.items.filter (fun i => bits i.data tagLo 16 != tag) },
           aborts := d.aborts ++ hit.map (fun (i : CItem) => complRecord tag (bits i.data genLo 16) stCancelled) }.drainAborts

/-- The rows that stay in the array when descriptors are cancelled (R85): those of a pass that has begun to issue. -/
def MeCtx.cancelRows (c : MeCtx) (js : List MeJob) : List MeRow :=
  js.foldl (fun rows j =>
    match rows.find? (fun r => r.job == j.id) with
    | some h => rows.filter (fun r => r.job != j.id || (r.pass == h.pass && h.m != 0))
    | none => rows) c.array

/-- The cancel passed to the engines of a context (R85, R109, R145, R175). -/
def CoreCtx.cancelEngines (c : CoreCtx) (tag : Nat) : CoreCtx :=
  let me := { c.me with dq := c.me.dq.cancelQueued tag 304 320,
                        jobs := c.me.jobs.map (fun j => if bits j.desc 304 16 = tag then { j with cancelled := true } else j),
                        array := c.me.cancelRows (c.me.jobs.filter (fun j => bits j.desc 304 16 == tag)) }
  let vce (v : VceCtx) : VceCtx :=
    { v with dq := v.dq.cancelQueued tag 16 32,
             job := v.job.map (fun j => if j.tag = tag ∧ j.stop.isNone then { j with cancelled := true, stop := some stCancelled } else j) }
  let tme := { c.tme with dq := c.tme.dq.cancelQueued tag 16 32,
                          jobs := c.tme.jobs.map (fun j =>
                            if bits j.desc 16 16 = tag ∧ j.ended = false then { j with ended := true, status := stCancelled } else j) }
  { c with me := me, vce0 := vce c.vce0, vce1 := vce c.vce1, tme := tme }

/-- Cancelled tasks whose engine descriptors have all completed write their records (R109). -/
def CoreCtx.settleCancels (c : CoreCtx) : CoreCtx :=
  let ready := c.cancels.filter (fun w => !c.engineHolds w.tag)
  { c with cancels := c.cancels.filter (fun w => c.engineHolds w.tag),
           tq := ready.foldl (fun q w => q.complete w.record) c.tq }

/-- Does a context hold a task with a tag? -/
def CoreCtx.hasTask (c : CoreCtx) (tag : Nat) : Bool :=
  c.tq.q.items.any (fun i => bits i.data 16 16 == tag) || c.tasks.any (fun t => t.tag == tag)
    || (List.range 8).any (fun k => match (c.thread k).task with | some t => t.tag == tag | none => false)

/-- Cancel every task of a context with a tag (R109). -/
def State.cancelTag (s : State) (pc : Nat) (x : Ctx) (tag : Nat) : State :=
  let c := s.ctx pc x
  if c.hasTask tag = false then s.bump (PRT_CANCEL_MISS_CNT pc)
  else
    let queued := c.tq.q.items.filter (fun i => bits i.data 16 16 == tag)
    let tq := { c.tq with q := { c.tq.q with items := c.tq.q.items.filter (fun i => bits i.data 16 16 != tag) },
                          aborts := c.tq.aborts ++ queued.map (fun (i : CItem) => taskRecord (taskOf i.data) stCancelled 0 0) }.drainAborts
    let waits := (c.tasks.filter (fun t => t.tag == tag)).map (fun t => (⟨tag, taskRecord t stCancelled 0 0⟩ : CancelWait))
    let c := { c with tq := tq, tasks := c.tasks.filter (fun t => t.tag != tag), cancels := c.cancels ++ waits }
    let c := (List.range 8).foldl (fun (c : CoreCtx) k =>
      let th := c.thread k
      match th.task with
      | some t =>
        if t.tag = tag then
          { c.setThread k th.freed with cancels := c.cancels ++ [⟨tag, taskRecord t stCancelled k th.pc⟩] }
        else c
      | none => c) c
    s.setCtx pc x (c.cancelEngines tag).settleCancels

/-- CANCEL t (Table 4.2). -/
def execCancel (th : ThreadAt) (tag : BitVec 16) (s : State) : Host.Outcome State Fault Refusal :=
  .next (s.issue th (fun s => s.cancelTag th.core.val th.ctx tag.toNat))

/-- R109: a write of a tag to PRT_TASK_CANCEL_T or PRT_TASK_CANCEL_E. -/
def execPrtTaskCancel (u : CtxAt) (tag : BitVec 16) (s : State) : Host.Outcome State Fault Refusal :=
  .next ((s.cancelTag u.core.val u.ctx tag.toNat).answer stOk)

/-- R124: reset of one context's task queue: every queued or running task completes with a status. -/
def State.tqReset (s : State) (pc : Nat) (x : Ctx) (status : Nat) : State :=
  let c := s.ctx pc x
  let queued := c.tq.q.items.map (fun i => taskRecord (taskOf i.data) status 0 0)
  let running := (List.range 8).filterMap (fun k =>
    (c.thread k).task.map (fun t => taskRecord t status k (c.thread k).pc))
  let waiting := c.tasks.map (fun t => taskRecord t status 0 0) ++ c.cancels.map (fun w => w.record)
  let tq := (running ++ waiting).foldl (fun q r => q.complete r) { c.tq with q := {}, gen := (c.tq.gen + 1) % 2 ^ 16 }
  let tq := { tq with aborts := tq.aborts ++ queued }.drainAborts
  let s := s.setCtx pc x
    { c with tq := tq, tasks := [], cancels := [], events := if status = stPreempted then c.events else [],
             threads := Tbl.mapAll ({} : Thread) Thread.freed c.threads }
  match x with
  | .timed => s.setFld (PRT_TQ_GEN pc) 0 16 tq.gen
  | .elastic => s.setFld (PRT_TQ_GEN pc) 16 16 tq.gen

/-- R124: a write to PRT_TQ_RESET. -/
def execPrtTqReset (core : Fin 512) (t e : Bool) (s : State) : Host.Outcome State Fault Refusal :=
  let s := if t then s.tqReset core.val .timed stAbortedReset else s
  let s := if e then s.tqReset core.val .elastic stAbortedReset else s
  .next (s.answer stOk)

/-! ### Program loads (R117, R118) -/

/-- Is any thread or engine of a context busy (R115)? -/
def CoreCtx.busy (c : CoreCtx) : Bool :=
  (List.range 8).any (fun k => (c.thread k).st != .free && (c.thread k).st != .fenced)
    || !c.me.jobs.isEmpty || c.vce0.job.isSome || c.vce1.job.isSome || !c.tme.jobs.isEmpty

/-- IDLE of Table 4.6, for a core that is not fenced. -/
def Core.idle (c : Core) : Bool := !c.t.busy && !c.e.busy && c.load.isNone

/-- A refused write of a core register (R510). -/
def State.refuseCore (s : State) (pc off : Nat) : State := s.refuseReg (0x3200000 + 0x1000 * pc + off)

/-- Does a writer's instance own a context of a core (Table 4.7, row 1)? -/
def State.writerOwns (s : State) (wr : Writer) (pc : Nat) (x : Ctx) : Bool :=
  let i := s.instOf pc x
  i != noInst && (match wr with | .mc => true | .host j => i == j.val)

def pmBytes (x : Ctx) : Nat × Nat :=
  match x with
  | .timed => (0, 0x10000)
  | .elastic => (0x10000, 0x40000)

/-- R117: a write to MEM_PM_GO, checked in the order of Table 4.7. -/
def execMemPmGo (core : Fin 512) (wr : Writer) (go : Bool) (ctx : Ctx) (s : State) : Host.Outcome State Fault Refusal :=
  let pc := core.val
  let len := s.fld (MEM_PM_LEN pc) 0 18
  let dst := s.fld (MEM_PM_DST pc) 0 18
  let src := s.fld (MEM_PM_SRC pc) 0 48
  .next (if go = false then s.answer stOk
  else if s.writerOwns wr pc ctx = false then
    let f := { s.faultOf pc ctx uProgLoad 0 stFaultAccess cWrongOwner src 0 with
               inst := (match wr with | .mc => noInst | .host i => i.val),
               gen := (match wr with | .mc => 0 | .host i => s.instGen i.val) }
    ((s.charge f).setPmStatus pc stFaultAccess 0 false).answer stFaultAccess cWrongOwner
  else if len = 0 then (s.setPmStatus pc stNop 0 false).answer stNop
  else if len % 64 ≠ 0 ∨ dst % 64 ≠ 0 then ((s.refuseCore pc 0x120).setPmStatus pc stState 0 false)
  else if dst < (pmBytes ctx).1 ∨ (pmBytes ctx).2 < dst + len then
    ((s.charge (s.faultOf pc ctx uProgLoad 0 stFaultAccess cProgramRange dst 0)).setPmStatus pc stFaultAccess 0 false).answer
      stFaultAccess cProgramRange
  else if !(s.core pc).fenced && !(s.core pc).idle then
    (((s.refuseCore pc 0x120).bump (MEM_PM_REFUSE_CNT pc)).setPmStatus pc stState 0 false)
  else
    ((s.setCore pc { s.core pc with load := some { ctx := ctx, src := src, dst := dst, len := len } }).setPmStatus
      pc stOk 0 true).answer stOk)

/-- Write 64 bytes of program memory as 8 words, marked or not (R118, R120). -/
def Core.pmWrite (c : Core) (dst v : Nat) (mark : Bool) : Core :=
  (List.range 8).foldl (fun (c : Core) i =>
    { c with pm := Tbl.put 0 c.pm (dst / 8 + i) (bits v (64 * i) 64),
             pmMark := Tbl.put false c.pmMark (dst / 8 + i) mark }) c

/-- The end of a load with a status (R117, R118). -/
def State.pmEnd (s : State) (pc status done : Nat) : State :=
  (s.setCore pc { s.core pc with load := none }).setPmStatus pc status done false

/-- Little-endian value of bytes that came from outside. -/
def bytesNat (bs : List Byte) : Nat := leNat bs

/-- Load 64-byte words until the load ends, a fault stops it, or a translation is needed first. -/
def State.pmRun (s : State) (pc : Nat) (remote : Option PieceData) : Nat → State
  | 0 => s
  | fuel + 1 =>
    match (s.core pc).load with
    | none => s
    | some l =>
      if l.len ≤ l.done then s.pmEnd pc stOk l.len
      else
        let i := s.instOf pc l.ctx
        let q := s.xlate (.micro pc l.ctx) i (l.src + l.done) .read (l.ctx == .timed)
        let s := q.2
        let put (s : State) (v : Nat) (mark : Bool) : State :=
          s.setCore pc { (s.core pc).pmWrite (l.dst + l.done) v mark with load := some { l with done := l.done + 64 } }
        match q.1 with
        | .miss => s
        | .fault st c lv =>
          (s.charge (s.faultOf pc l.ctx uProgLoad 0 st c (l.src + l.done) lv)).pmEnd pc st l.done
        | .ok (.local a) _ lv =>
          let r := s.accRead a 64 i uProgLoad
          if r.1.status = stOk then (put r.2 r.1.data false).pmRun pc remote fuel
          else if r.1.status = stPoison then
            ((put r.2 r.1.data true).charge (s.faultOf pc l.ctx uProgLoad 0 stPoison 0 (l.src + l.done) lv)).pmEnd pc stPoison l.done
          else if r.1.status = stFaultAccess then
            (r.2.charge (s.faultOf pc l.ctx uProgLoad 0 stFaultAccess r.1.cause (l.src + l.done) lv)).pmEnd pc stFaultAccess l.done
          else r.2.pmEnd pc r.1.status l.done
        | .ok (.fabric fc fp fa) _ lv =>
          match remote with
          | none => s
          | some (.ok bs) => put s (bytesNat bs) false
          | some .poisoned =>
            ((put s 0 true).charge (s.faultOf pc l.ctx uProgLoad 0 stPoison 0 (l.src + l.done) lv)).pmEnd pc stPoison l.done
          | some .abort => (s.taint i 2).pmEnd pc stRetired l.done
          | some .refused =>
            (s.charge ((s.faultOf pc l.ctx uProgLoad 0 stFaultAccess cRemoteRefused (l.src + l.done) lv).far
              (some (globalAddr fc fp fa)))).pmEnd pc stFaultAccess l.done

/-- R117, R118: the load runs to its end, or to the word that stops it. A word read through a fabric leaf takes the
bytes that came back for it. -/
def execProgramLoadEnd (core : Fin 512) (remote : Option PieceData) (s : State) : Host.Outcome State Fault Refusal :=
  .next (s.pmRun core.val remote 4097)

/-! ### Fencing and the spare (R17, R18, R121, R122, R473 to R475) -/

/-- An engine context of a fenced core: every descriptor ends, and its queue is empty. -/
def DescQ.fence (d : DescQ) : DescQ := { d with q := {}, reserved := 0, aborts := [] }

def CoreCtx.fence (c : CoreCtx) : CoreCtx :=
  { c with me := { c.me with dq := c.me.dq.fence, jobs := [], array := [] },
           vce0 := { c.vce0 with dq := c.vce0.dq.fence, job := none },
           vce1 := { c.vce1 with dq := c.vce1.dq.fence, job := none },
           tme := { c.tme with dq := c.tme.dq.fence, jobs := [] },
           threads := tabulate 8 (fun k => (k, ({ st := .fenced } : Thread))) }

/-- End rotations without their effect. -/
def State.dropRot (s : State) (f : Rot → Bool) : State := { s with rots := s.rots.filter (fun r => !(f r)) }

/-- The work of a fenced core ends with RETIRED; its engines and threads are FENCED. -/
def State.fenceStop (s : State) (pc : Nat) : State :=
  let s := (s.taint (s.instOf pc .timed) 2).taint (s.instOf pc .elastic) 2
  let s := (s.tqReset pc .timed stRetired).tqReset pc .elastic stRetired
  s.setCore pc { s.core pc with fenced := true, t := (s.core pc).t.fence, e := (s.core pc).e.fence, load := none }

/-- The log, the FENCE record and the event of a fence; a hand-over to the fenced core waits for another spare. -/
def State.fenceNote (s : State) (pc kind : Nat) : State :=
  let s := if kind < 0x40 ∨ kind = 0x49 then s
    else s.errLog { level := if kind = 0x4A then 4 else 1, kind := kind, action := 3, place := .core pc }
  { s.event RAS_EVENT 2 with
    fenceRecs := s.fenceRecs ++ [(pc, kind)],
    handovers := s.handovers.map (fun (h : Handover) => if h.spare = some pc then { h with spare := none, cleared := false } else h) }

/-- The number lc of a fenced core waits for a hand-over; from the core that leaves in a rotation it goes to the rotation's spare
(R477). -/
def State.fenceHand (s : State) (pc lc : Nat) : State :=
  if lc = 0x1FF ∨ s.handovers.any (fun (h : Handover) => h.lc == lc) then s
  else match s.rots.find? (fun r => r.fromCore == pc) with
  | some r =>
    let s := (s.setFld RAS_WIT_STAT 0 10 0x1FF).dropRot (fun r => r.fromCore == pc)
    { s with map := Tbl.put (s.basePhys lc) s.map lc r.spare,
             handovers := s.handovers ++ [({ lc := lc, fromCore := pc, spare := some r.spare, cleared := r.elasticDone || r.timedDone,
                                             elasticDone := r.elasticDone, timedDone := r.timedDone } : Handover)] }
  | none => { s with handovers := s.handovers ++ [{ lc := lc, fromCore := pc }] }

/-- Fence a core (R121, R473); a fence of the spare of a rotation ends the rotation (R477). -/
def State.fenceCore (s : State) (pc kind : Nat) : State :=
  if (s.core pc).fenced then s
  else
    let s := if s.rots.any (fun r => r.spare == pc) then
        (s.setFld RAS_WIT_STAT 0 10 0x1FF).dropRot (fun r => r.spare == pc) else s
    ((s.fenceStop pc).fenceNote pc kind).fenceHand pc (s.lcOf pc)

/-- FENCE (R121): a core is fenced, at once for the errors that expose both contexts (R120, Table 4.8). -/
def execFence (core : Fin 512) (kind : FenceKind) (s : State) : Host.Outcome State Fault Refusal :=
  .next (s.fenceCore core.val (match kind with | .contextSelect => 0x40 | .sharedIssue => 0x41 | .commanded => 0x4A))

/-- R123: a write to RAS_CORE_FENCE; a host instance's write is a violation. -/
def execRasCoreFence (core : Fin 512) (wr : Writer) (value : Bool) (s : State) : Host.Outcome State Fault Refusal :=
  .next (s.mcOnly wr (RAS_CORE_FENCE core.val) (fun s =>
    (if value then s.fenceCore core.val 0x4A else s).answer stOk))

/-- Cores of a die that are unassigned spares (R15, R17). -/
def State.spares (s : State) (d : Nat) : List Nat :=
  ((tabulate 128 (fun i => 128 * d + i)).filter (fun p =>
    !(s.core p).fenced && !(s.failed.contains p) && s.lcOf p == 0x1FF && !(s.testing.any (fun t => t.1 == p))
      && !(s.handovers.any (fun h => h.spare == some p)))).take 8

/-- The spare for a fenced core (R17): one of its cluster, else the lowest-numbered of the die. -/
def State.chooseSpare (s : State) (fromCore : Nat) : Option Nat :=
  let sp := s.spares (fromCore / 128)
  match sp.find? (fun p => clusterOf p == clusterOf fromCore) with
  | some p => some p
  | none => sp.head?

/-- The highest logical number of a die that is not withdrawn (R475). -/
def State.highestLc (s : State) (d : Nat) : Option Nat :=
  (s.dieLcs d).reverse.find? (fun n => s.phys n != noCore)

/-- R17, R18, R19, R475: the hub chooses the spare for a fenced number, or withdraws a number. -/
def execSpareChoice (lc : Fin 512) (s : State) : Host.Outcome State Fault Refusal :=
  .next (match s.handovers.find? (fun h => h.lc == lc.val && h.spare.isNone) with
  | none => s
  | some h =>
    let setH (s : State) (f : Handover → Handover) : State :=
      { s with handovers := s.handovers.map (fun g => if g.lc = lc.val then f g else g) }
    let group := (s.core h.fromCore).group
    match s.chooseSpare h.fromCore with
    | some p =>
      let s := { s with map := Tbl.put (s.basePhys lc.val) s.map lc.val p }
      let s := s.setCore p { s.core p with group := group }
      setH s (fun g => { g with spare := some p })
    | none =>
      let s := (s.degrade 3)
      match s.highestLc (lc.val / s.grade.perDie) with
      | none => s
      | some top =>
        let p := s.phys top
        let s := { s with map := Tbl.put (s.basePhys top) s.map top noCore }
        if top = lc.val then { s with handovers := s.handovers.filter (fun g => g.lc != lc.val) }
        else
          let s := { s with map := Tbl.put (s.basePhys lc.val) s.map lc.val p }
          let s := s.setCore p { s.core p with group := group }
          setH s (fun g => { g with spare := some p, cleared := true }))

/-- Does a live Barista group's range hold a logical number (R122)? -/
def State.groupHolds (s : State) (lc : Nat) : Bool :=
  (List.range 64).any (fun g =>
    s.fld (BRS_GRP_STAT g) 0 3 != 0 && decide (s.fld (BRS_GRP_CFG0 g) 0 9 ≤ lc)
      && decide (lc < s.fld (BRS_GRP_CFG0 g) 0 9 + s.fld (BRS_GRP_CFG0 g) 9 9))

/-- Does a core's gate group belong to a running compute gate list? -/
def State.followsList (s : State) (pc : Nat) : Bool :=
  let g := (s.core pc).group
  decide (g < 0x7F) && s.fld CGL_STATUS (g / 8) 1 == 1

/-- A context takes a number over (R122); work that the core still ran for a withdrawn number ends with RETIRED
(R475). -/
def State.takeOver (s : State) (lc : Nat) (x : Ctx) : State :=
  match s.handovers.find? (fun h => h.lc == lc) with
  | none => s
  | some h =>
    match h.spare with
    | none => s
    | some p =>
      if h.cleared = false then s
      else
        let s := if (s.ctx p x).busy ∨ (s.ctx p x).tasks.isEmpty = false then s.tqReset p x stRetired else s
        let upd (g : Handover) : Handover :=
          match x with | .timed => { g with timedDone := true } | .elastic => { g with elasticDone := true }
        let hs := s.handovers.map (fun g => if g.lc = lc then upd g else g)
        { s with handovers := hs.filter (fun g => !(g.timedDone && g.elasticDone)) }

/-- Both program regions of a core, from the images its partitions registered (Table 4.9, step 3). -/
def State.loadImages (s : State) (pc : Nat) : State :=
  let one (s : State) (x : Ctx) : State :=
    let i := s.instOf pc x
    let img := Tbl.get (0, 0) s.progImages (2 * s.lcOf pc + b2n (ctxElastic x))
    if i = noInst then s
    else (List.range (min img.2 ((pmBytes x).2 - (pmBytes x).1) / 64)).foldl (fun s k =>
      let r := s.devRead (img.1 + 64 * k) 64
      r.2.setCore pc ((r.2.core pc).pmWrite ((pmBytes x).1 + 64 * k) r.1.1 r.1.2)) s
  one (one s .timed) .elastic

/-- R122, Table 4.9 step 3: the spare's scratch is cleared and its program regions are loaded. -/
def execSpareClearLoadEnd (lc : Fin 512) (s : State) : Host.Outcome State Fault Refusal :=
  .next (match s.handovers.find? (fun h => h.lc == lc.val) with
  | none => s
  | some h =>
    match h.spare with
    | none => s
    | some p =>
      let s := s.setCore p { s.core p with scr := {} }
      let s := s.loadImages p
      let s := { s with handovers := s.handovers.map (fun g => if g.lc = lc.val then { g with cleared := true } else g) }
      let s := if s.groupHolds lc.val then s else s.takeOver lc.val .elastic
      if s.followsList p then s
      else if s.groupHolds lc.val then s else s.takeOver lc.val .timed)

end Sys2Proof.Machine
end

