-- ==== Sys2Proof/Machine/Me.lean ====
section
/-!
DEFINITION. Machine/Me.lean: the matrix engine (chapter 03): acceptance (Table 3.4), the four operations (R82), rows that
reach the bank (R71), completion (R84), queue reset (R95) and Tamp (R90 to R92).
-/
namespace Sys2Proof.Machine

/-! ### Acceptance checks (R83, Table 3.4) -/

/-- The bank row's record, or the reset row (R75). -/
def MeCtx.row (c : MeCtx) (r : Nat) : BankRow := Tbl.get ({} : BankRow) c.bank r

def MeCtx.setRow (c : MeCtx) (r : Nat) (v : BankRow) : MeCtx := { c with bank := Tbl.put ({} : BankRow) c.bank r v }

/-- Row 3: a reserved code or bit. -/
def MeDesc.reserved (d : MeDesc) (raw : Nat) : Bool :=
  d.op == 0 || decide (4 < d.op) || d.mode == 3 || !d.sCtl.ok || !d.wCtl.ok || !d.oCtl.ok || meReserved raw

/-- Row 4. -/
def MeDesc.empty (d : MeDesc) : Bool := d.m == 0 || d.n == 0 || (d.op == 1 && d.k == 0)

/-- Row 5: pitches and alignment of the operands the operation uses. -/
def MeDesc.badPitch (d : MeDesc) : Bool :=
  let bad (base pitch bytes : Nat) : Bool := pitch == 0 || decide (64 * pitch < bytes) || base % 64 != 0
  (d.op == 1 && !d.conv && bad d.sBase d.sPitch (rowBytes d.sCtl.fmt d.k))
    || (d.op == 1 && bad d.wBase d.wPitch (rowBytes d.wCtl.fmt d.k))
    || (d.usesO && bad d.oBase d.oPitch d.oRowBytes)

/-- Rows of the bank the descriptor touches hold another mode (R75). -/
def MeDesc.modeConflict (d : MeDesc) (c : MeCtx) : Bool :=
  (d.op == 2 || ((d.op == 1 || d.op == 3) && !d.init))
    && (List.range d.rows).any (fun i => (c.row (d.accBase + i)).mode != d.mode)

/-- Row 6. -/
def MeDesc.badClass (d : MeDesc) (c : MeCtx) : Bool :=
  let s := d.sCtl.fmt
  let w := d.wCtl.fmt
  (d.op == 1 && (s == 0 || w == 0 || (s == 14) != (w == 14) || (s == 14) != (d.mode == 2)
      || (d.mode == 1 && (s == 1 || w == 1)) || (d.mode == 2 && decide (65536 < d.k))))
    || (d.conjW && d.mode != 2) || d.modeConflict c

/-- Row 7. -/
def MeDesc.badOutput (d : MeDesc) : Bool :=
  let o := d.oCtl.fmt
  ((d.op == 2 && !d.raw) || (d.op == 1 && d.drain))
      && (o == 12 || (o == 14) != (d.mode == 2) || (isMxFmt o && d.n % 32 != 0))
    || (d.raw && d.op != 2)

/-- Row 9. -/
def MeDesc.badConv (d : MeDesc) (t : TmeCtx) : Bool :=
  d.op == 1 && d.conv &&
    (decide (15 < d.slot) || (Tbl.get (false, 0) t.conv d.slot).1 == false
      || d.k != (let r := ConvRec.ofNat (Tbl.get (false, 0) t.conv d.slot).2; r.kh * r.kw * r.c)
      || !(d.sCtl.fmt == 1 || d.sCtl.fmt == 2 || d.sCtl.fmt == 3 || d.sCtl.fmt == 13))

/-- The first byte of a range that lies outside the context's scratch partition. -/
def firstOutside (x : Ctx) (lo n : Nat) : Option Nat :=
  if n = 0 ∨ inScratch x lo n then none
  else if lo < scrLo x ∨ scrHi x ≤ lo then some lo else some (scrHi x)

/-- Row 10: the first offending address. -/
def MeDesc.outside (d : MeDesc) (x : Ctx) (t : TmeCtx) : Option Nat :=
  let grid (base pitch rows bytes : Nat) : Option Nat := firstOutside x base (64 * pitch * (rows - 1) + bytes)
  let so :=
    if d.op != 1 then none
    else if d.conv then
      let r := ConvRec.ofNat (Tbl.get (false, 0) t.conv d.slot).2
      firstOutside x r.inBase (r.h * r.w * r.c * (elemBits d.sCtl.fmt / 8))
    else grid d.sBase d.sPitch d.m (rowBytes d.sCtl.fmt d.k)
  let wo := if d.op != 1 then none else grid d.wBase d.wPitch d.n (rowBytes d.wCtl.fmt d.k)
  let oo := if d.usesO then grid d.oBase d.oPitch d.m d.oRowBytes else none
  match so, wo with
  | some a, _ => some a
  | none, some a => some a
  | none, none => oo

/-- The outcome of Table 3.4 rows 2 to 10: none when the descriptor passes; else the status and, for row 10, the
address. -/
def MeDesc.check (d : MeDesc) (raw : Nat) (poison : Bool) (x : Ctx) (c : MeCtx) (t : TmeCtx) : Option (Nat × Nat) :=
  if poison then some (stPoison, 0)
  else if d.reserved raw then some (stState, 0)
  else if d.empty then some (stNop, 0)
  else if d.badPitch then some (stState, 0)
  else if d.badClass c then some (stState, 0)
  else if d.badOutput then some (stState, 0)
  else if bankRows d.mode < d.accBase + d.rows then some (stState, 0)
  else if d.badConv t then some (stState, 0)
  else match d.outside x t with
    | some a => some (stFaultAccess, a)
    | none => none

/-! ### Operand reads -/

/-- The streamed row m: its bits (elements packed as in scratch, convolution elements gathered) and whether a word of it
is poisoned (R67, R87, R94). -/
def State.meStream (s : State) (pc : Nat) (d : MeDesc) (t : TmeCtx) (m : Nat) : Nat × Bool :=
  if d.conv then
    let r := ConvRec.ofNat (Tbl.get (false, 0) t.conv d.slot).2
    let size := elemBits d.sCtl.fmt / 8
    let es := tabulate d.k (fun k => match r.addr size m k with
      | some a => (s.scrLoad pc a size, s.scrPoison pc a size)
      | none => (0, false))
    (packRow (8 * size) (es.map (·.1)), es.any (·.2))
  else
    let a := d.sBase + 64 * m * d.sPitch
    let n := rowBytes d.sCtl.fmt d.k
    (s.scrLoad pc a n, s.scrPoison pc a n)

/-- Row n of W and whether a word of it is poisoned. -/
def State.meWeights (s : State) (pc : Nat) (d : MeDesc) : List (Nat × Bool) :=
  tabulate d.n (fun n =>
    let a := d.wBase + 64 * n * d.wPitch
    let b := rowBytes d.wCtl.fmt d.k
    (s.scrLoad pc a b, s.scrPoison pc a b))

/-- The key of the first tile of a descriptor (w_keep). -/
def MeDesc.key (d : MeDesc) : TileKey :=
  { base := d.wBase, pitch := d.wPitch, ctl := d.wCtl.fmt + 16 * d.wCtl.rnd + 64 * b2n d.wCtl.sat, kChunk := 0, nChunk := 0 }

/-- The stretches of scratch that an MMA reads: its streamed rows, and the rows of W but for a first tile that the array holds. -/
def MeDesc.spans (d : MeDesc) (c : MeCtx) (t : TmeCtx) : List (Nat × Nat) :=
  let kept := d.wKeep && c.tile == some d.key
  let nb := rowBytes d.wCtl.fmt (min d.k d.kTile)
  let w := tabulate d.n (fun n =>
    let a := d.wBase + 64 * n * d.wPitch
    let b := rowBytes d.wCtl.fmt d.k
    if kept && decide (n < bankCols d.mode) then (a + nb, b - nb) else (a, b))
  let st (m : Nat) : List (Nat × Nat) :=
    if d.conv then
      let r := ConvRec.ofNat (Tbl.get (false, 0) t.conv d.slot).2
      let size := elemBits d.sCtl.fmt / 8
      (tabulate d.k (fun k => r.addr size m k)).filterMap (fun a => a.map (fun a => (a, size)))
    else [(d.sBase + 64 * m * d.sPitch, rowBytes d.sCtl.fmt d.k)]
  (List.range d.m).flatMap st ++ w

/-- W as the array holds it: with w_keep and a matching key, the first tile is the one already held (Table 3.3). -/
def MeDesc.stationary (d : MeDesc) (c : MeCtx) (w : List (Nat × Bool)) : List (Nat × Bool) :=
  if d.wKeep && c.tile == some d.key then
    let nb := 8 * rowBytes d.wCtl.fmt (min d.k d.kTile)
    (List.range w.length).zipWith (fun i r =>
      if i < bankCols d.mode then
        let h := listGet (0, false) c.tileRows i
        (setBits r.1 0 nb h.1, h.2 || (r.2 && decide (d.kTile < d.k)))
      else r) w
  else w

/-- The tile the array holds after the passes: the last chunk; its rows when it is the first chunk too. -/
def MeDesc.heldTile (d : MeDesc) (w : List (Nat × Bool)) : TileKey × List (Nat × Bool) :=
  ({ d.key with kChunk := ceilDiv d.k d.kTile - 1, nChunk := ceilDiv d.n (bankCols d.mode) - 1 },
   if d.k ≤ d.kTile ∧ d.n ≤ bankCols d.mode then w else [])

/-! ### Terms (R48, R57) -/

/-- The exact product of two operand elements; true when it is a NaN that neither operand was (R41). -/
def meProduct (a b : Num) : Num × Bool := (a.mul b, (a.mul b).isNan && !a.isNan && !b.isNan)

/-- The terms of elements lo to hi - 1 of a row pair: products, or block partials in anchored mode when either operand
is a block format (R57). -/
def MeDesc.terms (d : MeDesc) (srow wrow lo hi : Nat) : List Num × Bool :=
  let ps := tabulate (hi - lo) (fun i => meProduct (rowElem d.sCtl.fmt srow (lo + i)) (rowElem d.wCtl.fmt wrow (lo + i)))
  let vs := ps.map (·.1)
  let inv := ps.any (·.2)
  if d.mode = 1 ∧ (isBlockFmt d.sCtl.fmt ∨ isBlockFmt d.wCtl.fmt) then
    (tabulate (ceilDiv (hi - lo) 32) (fun b => ((vs.drop (32 * b)).take 32).foldl Num.add Num.zero), inv)
  else (vs, inv)

/-- The component sums of complex products lo to hi - 1 (R48). -/
def MeDesc.ciSum (d : MeDesc) (srow wrow lo hi : Nat) : Int × Int :=
  (List.range (hi - lo)).foldl (fun a i =>
    let p := ci16Mul (ciElem srow (lo + i)) (ciElem wrow (lo + i)) d.conjW
    (a.1 + p.1, a.2 + p.2)) (0, 0)

/-- The rows that an MMA issues: N-chunk outer, K-chunk inner, then m (R69). all: every element is poisoned (R93). -/
def MeDesc.issueRows (d : MeDesc) (id : Nat) (ss ws : List (Nat × Bool)) (err : MeErr) : List MeRow :=
  let cw := bankCols d.mode
  let kc := ceilDiv d.k d.kTile
  let all := err.shiftRetries.val == 3
  (List.range (ceilDiv d.n cw)).flatMap (fun nc =>
    (List.range kc).flatMap (fun q =>
      tabulate d.m (fun m =>
        let cols := min cw (d.n - nc * cw)
        let s := listGet (0, false) ss m
        let lo := q * d.kTile
        let hi := min d.k (lo + d.kTile)
        let wr (col : Nat) : Nat × Bool := listGet (0, false) ws (nc * cw + col)
        let ts := if d.mode = 2 then [] else tabulate cols (fun col => d.terms s.1 (wr col).1 lo hi)
        { job := id, pass := nc * kc + q, m := m, row := d.accBase + nc * d.m + m, mode := d.mode,
          init := d.init && q == 0, anchor := d.anchor, terms := ts.map (·.1),
          ci := if d.mode = 2 then tabulate cols (fun col => d.ciSum s.1 (wr col).1 lo hi) else [],
          poison := (List.range cols).filter (fun col =>
            all || s.2 || (wr col).2 || (match err.badCol with | some b => b.val == col | none => false)),
          inv := ts.any (·.2) })))

/-! ### Accumulation into a bank row (R55, R58, R62, R74 to R76, R94) -/

/-- FP32 accumulation in an order that the free picks choose (R55): two of the values become their rounded sum, until
one is left. -/
def fastReduce (pick : Nat → Nat) : Nat → Nat → List Num → NumFlags → Nat × NumFlags
  | 0, _, xs, f => ((FFmt.fp32.convert .rne false (xs.headD Num.zero)).1, f)
  | fuel + 1, i, xs, f =>
    match xs with
    | [] => (0, f)
    | [x] =>
      let r := FFmt.fp32.convert .rne false x
      (r.1, f.or { ovf := r.2.ovf })
    | x :: y :: t =>
      let l := x :: y :: t
      let ia := pick (2 * i) % l.length
      let a := listGet Num.zero l ia
      let l := eraseAt l ia
      let ib := pick (2 * i + 1) % l.length
      let b := listGet Num.zero l ib
      let r := fp32Result (a.isNan || b.isNan) (a.add b)
      fastReduce pick fuel (i + 1) (fp32 r.1 :: eraseAt l ib) (f.or r.2)

/-- A component pair as the bits of a CI16 accumulator. -/
def ciPack (c : Int × Int) : Nat := ofSigned 64 c.1 + (ofSigned 64 c.2) <<< 64

def ciUnpack (v : Nat) : Int × Int := (toSigned 64 (bits v 0 64), toSigned 64 (bits v 64 64))

def ciAdd (a b : Int × Int) : (Int × Int) × NumFlags :=
  let p := sat64 (a.1 + b.1)
  let q := sat64 (a.2 + b.2)
  ((p.1, q.1), p.2.or q.2)

/-- A free value that fits an accumulator of a mode. -/
def freeAcc (mode v : Nat) : Nat :=
  if mode = 0 then v % 2 ^ 32 else if mode = 2 then v % 2 ^ 128 else (Rec.ofNat v).canon.toNat

/-- A row set to a mode: elements of another mode that the descriptor does not write take free values (R75 states none),
from the counter at free. -/
def BankRow.toMode (b : BankRow) (mode cols free : Nat) : BankRow :=
  if b.mode = mode then b
  else
    { mode := mode,
      vals := (List.range (bankCols mode - cols)).map (fun i => (cols + i, freeAcc mode (Config.freeNat (free + i)))),
      poison := b.poison.filter (fun p => decide (cols ≤ p.1)) }

/-- Write one element; poison true marks it, false clears it. -/
def BankRow.set (b : BankRow) (col v : Nat) (poison : Bool) : BankRow :=
  { b with vals := Tbl.put 0 b.vals col v, poison := Tbl.put false b.poison col poison }

def BankRow.get (b : BankRow) (col : Nat) : Nat := Tbl.get 0 b.vals col
def BankRow.bad (b : BankRow) (col : Nat) : Bool := Tbl.get false b.poison col

/-- The free picks of one reduction, from the counter. -/
def picks (base : Nat) (i : Nat) : Nat := Config.freeNat (base + i)

/-- One element takes the terms of a row (fast: R55; anchored: R58, R76; CI16: R48): its value, flags, an anchor
mismatch. -/
def MeRow.element (r : MeRow) (col old base : Nat) : Nat × NumFlags :=
  let ts := listGet [] r.terms col
  if r.mode = 0 then
    let xs := if r.init then ts else fp32 old :: ts
    fastReduce (picks base) (xs.length + 1) 0 xs {}
  else if r.mode = 1 then
    let rec_ := ts.foldl Rec.addTerm { anchor := r.anchor }
    if r.init then (rec_.canon.toNat, {})
    else
      let c := (Rec.ofNat old).combine rec_
      (c.1.toNat, { amis := c.2 })
  else
    let q := ciAdd (if r.init then (0, 0) else ciUnpack old) (listGet (0, 0) r.ci col)
    (ciPack q.1, q.2)

/-- Columns of a row. -/
def MeRow.cols (r : MeRow) : Nat := max r.terms.length r.ci.length

/-- The row lands: every column of it, with the flags and the count of mismatches (R76, R94). -/
def MeRow.land (r : MeRow) (b : BankRow) (free : Nat) : BankRow × NumFlags × Nat :=
  let b := b.toMode r.mode r.cols free
  (List.range r.cols).foldl (fun a col =>
    let e := r.element col (a.1.get col) (64 + 1024 * col + free)
    let p := r.poison.contains col || (!r.init && a.1.bad col)
    (a.1.set col e.1 p, a.2.1.or e.2, a.2.2 + b2n e.2.amis)) (b, { inv := r.inv && r.mode == 0 }, 0)

/-! ### Acceptance -/

def State.meCtx (s : State) (pc : Nat) (x : Ctx) : MeCtx := (s.ctx pc x).me

def State.setMe (s : State) (pc : Nat) (x : Ctx) (m : MeCtx) : State := s.modCtx pc x (fun c => { c with me := m })

/-- Rows of the bank an accepted MMA has still to write or to drain (R79). -/
def MeCtx.hazard (c : MeCtx) (d : MeDesc) : Bool :=
  c.jobs.any (fun j =>
    let e := MeDesc.ofNat j.desc
    (c.array.any (fun r => r.job == j.id) || (j.drain && !j.cancelled))
      && decide (d.accBase < e.accBase + e.rows) && decide (e.accBase < d.accBase + d.rows))

def meFlagsReg (pc : Nat) : Ctx → Nat
  | .timed => ME_FLAGS_T pc
  | .elastic => ME_FLAGS_E pc

def meRowsReg (pc : Nat) : Ctx → Nat
  | .timed => ME_ROWS_T pc
  | .elastic => ME_ROWS_E pc

/-- Write the words of the active-descriptor window. -/
def State.setActDesc (s : State) (pc : Nat) (x : Ctx) (d : Nat) : State :=
  (List.range 8).foldl (fun s w =>
    s.setReg (match x with | .timed => ME_ACT_DESC_T pc w | .elastic => ME_ACT_DESC_E pc w) (bits d (64 * w) 64)) s

/-- Take the head of a context's ME queue for a command of one opcode (R77, R78, R79, R98, Table 3.4): the operation is
begun by k when every check passes. A head whose opcode is reserved is taken by a command of any opcode. -/
def State.meAccept (s : State) (pc : Nat) (x : Ctx) (op : Nat) (k : State → MeDesc → MeJob → State) : State :=
  let c := s.meCtx pc x
  if !(s.owns pc x) || s.fld (ME_CTRL pc) 0 1 == 0 || !c.dq.canAccept then s
  else match c.dq.q.pop with
    | none => s
    | some (i, q) =>
      let d := MeDesc.ofNat i.data
      if d.op ≠ op ∧ d.op ≠ 0 ∧ d.op ≤ 4 then s
      else if d.gen ≠ c.dq.gen then (s.setMe pc x { c with dq := { c.dq with q := q } }).bump (ME_STALE_CNT pc)
      else
        let t := (s.ctx pc x).tme
        let chk := d.check i.data i.poison x c t
        if c.hazard d then s
        else
          let j : MeJob := { id := c.nextId, desc := i.data, ramp := decide ((s.core pc).tampLevel < 8) && d.op == 1 }
          let dq := { c.dq with q := q, reserved := c.dq.reserved + 1 }
          match chk with
          | some (st, a) =>
            let s := s.setMe pc x { c with dq := dq, nextId := c.nextId + 1,
                                           jobs := c.jobs ++ [{ j with status := st, ramp := false }] }
            if st = stState then s.stateAt pc x d.op
            else if st = stFaultAccess then s.charge (s.faultOf pc x uMe d.tag st cScratchRange a 0) else s
          | none =>
            let s := s.setMe pc x { c with dq := dq, nextId := c.nextId + 1, jobs := c.jobs ++ [j] }
            k (s.setActDesc pc x i.data) d j

/-- Change the record of an accepted descriptor. -/
def MeCtx.modJob (c : MeCtx) (id : Nat) (f : MeJob → MeJob) : MeCtx :=
  { c with jobs := c.jobs.map (fun j => if j.id = id then f j else j) }

/-! ### MMA (R69, R82, R86, R93) -/

/-- Begin an MMA: its rows enter the array. -/
def State.meMma (s : State) (pc : Nat) (x : Ctx) (err : MeErr) (d : MeDesc) (j : MeJob) : State :=
  let c := s.meCtx pc x
  let t := (s.ctx pc x).tme
  let ws := d.stationary c (s.meWeights pc d)
  let ss := tabulate d.m (fun m => s.meStream pc d t m)
  let rows := d.issueRows j.id ss ws err
  let s := s.scrSpans pc (d.spans c t)
  let tile := d.heldTile ws
  let retries := min 2 err.shiftRetries.val
  let c := { c with array := c.array ++ rows, tile := some tile.1, tileRows := tile.2, cadence := 0 }
  let c := c.modJob j.id (fun j => { j with drain := d.drain, wpar := decide (0 < retries) })
  let s := s.setMe pc x c
  let s := if retries = 0 then s else (s.bumpFld (ME_WPAR_CNT pc) 0 32 retries).countErr 5 pc retries
  if err.shiftRetries.val = 3 ∨ err.badCol.isSome then s.countErr 6 pc 1 else s

def execMeMma (u : CtxAt) (err : MeErr) (s : State) : Host.Outcome State Fault Refusal :=
  .next (s.meAccept u.core.val u.ctx 1 (fun s d j => s.meMma u.core.val u.ctx err d j))

/-! ### DRAIN (R49, R64, R82, R94) -/

/-- One output element of a drain, not MX: its code and flags. -/
def MeDesc.finish (d : MeDesc) (v : Nat) : Nat × NumFlags :=
  let o := d.oCtl
  if d.mode = 2 then
    let c := ciUnpack v
    let p := ci16Component c.1 d.wbShift
    let q := ci16Component c.2 d.wbShift
    (p.1 + q.1 <<< 16, p.2.or q.2)
  else if d.mode = 1 then
    if o.fmt = 13 then (Rec.ofNat v).finishInt8
    else (Rec.ofNat v).finishTo ((elemFmt o.fmt).getD .fp32) o.rndMode o.sat
  else if o.fmt = 13 then convertInt8 (fp32 v)
  else ((elemFmt o.fmt).getD .fp32).convert o.rndMode o.sat (fp32 v)

/-- A row of N accumulators as the bits of a row of O, with flags (R44, R82). -/
def MeDesc.outRow (d : MeDesc) (vs : List Nat) : Nat × NumFlags :=
  if d.raw then
    (packRow (8 * rawBytes d.mode) (vs.map (fun v => if d.mode = 1 then (Rec.ofNat v).canon.toNat else v)), {})
  else if isMxFmt d.oCtl.fmt then
    let w := elemBits d.oCtl.fmt
    let blocks := tabulate (d.n / 32) (fun b =>
      let ins := ((vs.drop (32 * b)).take 32).map (fun v =>
        if d.mode = 1 then (Rec.ofNat v).finishMx d.oCtl.fmt else (fp32 v, {}))
      let e := mxEncode d.oCtl.fmt d.oCtl.rndMode (ins.map (·.1))
      (e.1 + (packRow w e.2.1) <<< 8, ins.foldl (fun f i => f.or i.2) e.2.2))
    (packRow (8 * (1 + 4 * w)) (blocks.map (·.1)), blocks.foldl (fun f b => f.or b.2) {})
  else
    let es := vs.map d.finish
    (packRow (elemBits d.oCtl.fmt) (es.map (·.1)), es.foldl (fun f e => f.or e.2) {})

/-- The first and last byte of element n of a row of O: an MX element belongs to its whole block. -/
def MeDesc.outSpan (d : MeDesc) (n : Nat) : Nat × Nat :=
  if d.raw then (n * rawBytes d.mode, rawBytes d.mode)
  else if isMxFmt d.oCtl.fmt then
    let b := 1 + 4 * elemBits d.oCtl.fmt
    (n / 32 * b, b)
  else
    let w := elemBits d.oCtl.fmt
    (n * w / 8, (n * w + w - 1) / 8 - n * w / 8 + 1)

/-- Drain row m of the tile: flags, and whether a poisoned element was written. -/
def State.meDrainRow (s : State) (pc : Nat) (x : Ctx) (d : MeDesc) (m : Nat) : State × NumFlags × Bool :=
  let c := s.meCtx pc x
  let cw := bankCols d.mode
  let at_ (n : Nat) : BankRow := c.row (d.accBase + n / cw * d.m + m)
  let r := d.outRow (tabulate d.n (fun n => (at_ n).get (n % cw)))
  let bad := (List.range d.n).filter (fun n => (at_ n).bad (n % cw))
  let a := d.oBase + 64 * m * d.oPitch
  let s := s.scrWrite pc a d.oRowBytes r.1
  (bad.foldl (fun s n => s.scrPoisonSet pc (a + (d.outSpan n).1) (d.outSpan n).2) s, r.2, !bad.isEmpty)

/-- Drain the tile (R82, R94). -/
def State.meDrain (s : State) (pc : Nat) (x : Ctx) (d : MeDesc) : State × NumFlags × Bool :=
  (List.range d.m).foldl (fun a m =>
    let r := a.1.meDrainRow pc x d m
    (r.1, a.2.1.or r.2.1, a.2.2 || r.2.2)) (s, {}, false)

/-- Note flags and poison on an accepted descriptor. -/
def State.meNote (s : State) (pc : Nat) (x : Ctx) (id : Nat) (f : NumFlags) (poison : Bool) : State :=
  s.setMe pc x ((s.meCtx pc x).modJob id (fun j =>
    { j with flags := j.flags.or f, status := if poison then stPoison else j.status }))

/-- DRAIN of the tile, noted on its descriptor. -/
def State.meDrainOp (s : State) (pc : Nat) (x : Ctx) (d : MeDesc) (j : MeJob) : State :=
  let r := s.meDrain pc x d
  r.1.meNote pc x j.id r.2.1 r.2.2

def execMeDrain (u : CtxAt) (s : State) : Host.Outcome State Fault Refusal :=
  .next (s.meAccept u.core.val u.ctx 2 (fun s d j => s.meDrainOp u.core.val u.ctx d j))

/-! ### LOADACC and CLEAR (R82) -/

/-- Element n of a raw row combined into a held element (R62, R82). -/
def MeDesc.loadElem (d : MeDesc) (old v : Nat) : Nat × NumFlags :=
  if d.init then (if d.mode = 1 then (Rec.ofNat v).canon.toNat else v, {})
  else if d.mode = 0 then fp32Add old v
  else if d.mode = 1 then
    let c := (Rec.ofNat old).combine (Rec.ofNat v)
    (c.1.toNat, { amis := c.2 })
  else
    let q := ciAdd (ciUnpack old) (ciUnpack v)
    (ciPack q.1, q.2)

/-- LOADACC of bank row i of the tile. -/
def State.meLoadRow (s : State) (pc : Nat) (x : Ctx) (d : MeDesc) (i : Nat) : State × NumFlags × Nat × Bool :=
  let c := s.meCtx pc x
  let cw := bankCols d.mode
  let nc := i / d.m
  let m := i % d.m
  let cols := min cw (d.n - nc * cw)
  let eb := rawBytes d.mode
  let a := d.oBase + 64 * m * d.oPitch + nc * cw * eb
  let b0 := (c.row (d.accBase + i)).toMode d.mode cols s.free
  let r := (List.range cols).foldl (fun (acc : BankRow × NumFlags × Nat × Bool) col =>
    let v := s.scrLoad pc (a + col * eb) eb
    let p := s.scrPoison pc (a + col * eb) eb
    let e := d.loadElem (acc.1.get col) v
    (acc.1.set col e.1 (p || (!d.init && acc.1.bad col)), acc.2.1.or e.2, acc.2.2.1 + b2n e.2.amis, acc.2.2.2 || p))
    (b0, {}, 0, false)
  let s := { s.scrSpans pc [(a, cols * eb)] with free := s.free + 64 }
  (s.setMe pc x (c.setRow (d.accBase + i) r.1), r.2)

/-- LOADACC of the tile. -/
def State.meLoad (s : State) (pc : Nat) (x : Ctx) (d : MeDesc) (j : MeJob) : State :=
  let r := (List.range d.rows).foldl (fun (a : State × NumFlags × Nat × Bool) i =>
    let q := a.1.meLoadRow pc x d i
    (q.1, a.2.1.or q.2.1, a.2.2.1 + q.2.2.1, a.2.2.2 || q.2.2.2)) (s, {}, 0, false)
  (r.1.bumpFld (ME_AMIS_CNT pc) 0 32 r.2.2.1).meNote pc x j.id r.2.1 r.2.2.2

def execMeLoadacc (u : CtxAt) (s : State) : Host.Outcome State Fault Refusal :=
  .next (s.meAccept u.core.val u.ctx 3 (fun s d j => s.meLoad u.core.val u.ctx d j))

/-- CLEAR of one bank row: zero elements, in anchored mode with the descriptor's anchor (R82). -/
def MeDesc.clearRow (d : MeDesc) (b : BankRow) (cols free : Nat) : BankRow :=
  (List.range cols).foldl (fun b col => b.set col (if d.mode = 1 then ({ anchor := d.anchor } : Rec).toNat else 0) false)
    (b.toMode d.mode cols free)

/-- CLEAR of the tile. -/
def State.meClear (s : State) (pc : Nat) (x : Ctx) (d : MeDesc) : State :=
  let c := s.meCtx pc x
  let cw := bankCols d.mode
  let c := (List.range d.rows).foldl (fun (c : MeCtx) i =>
    c.setRow (d.accBase + i)
      (d.clearRow (c.row (d.accBase + i)) (min cw (d.n - i / d.m * cw)) (s.free + 64 * i))) c
  { s.setMe pc x c with free := s.free + 64 * d.rows }

def execMeClear (u : CtxAt) (s : State) : Host.Outcome State Fault Refusal :=
  .next (s.meAccept u.core.val u.ctx 4 (fun s d _ => s.meClear u.core.val u.ctx d))

/-! ### Rows in flight, completion, reset -/

/-- R71, R93, R94: row r lands in its bank row; rest stays in the array; ue: the bank word shows an uncorrectable error. -/
def State.meRowLands (s : State) (pc : Nat) (x : Ctx) (ue : Bool) (r : MeRow) (rest : List MeRow) : State :=
  let c := s.meCtx pc x
  let l := r.land (c.row r.row) s.free
  let b := if ue then (List.range (bankCols r.mode)).foldl (fun (b : BankRow) col => b.set col (b.get col) true) l.1 else l.1
  let c := { c with array := rest, cadence := if r.mode = 1 then (c.cadence + 1) % 7 else c.cadence }
  let s := (s.setMe pc x (c.setRow r.row b)).meNote pc x r.job l.2.1 (!r.poison.isEmpty || ue)
  let s := { s with free := 64 + 1024 * 64 + s.free }
  let s := s.bumpFld (ME_AMIS_CNT pc) 0 32 l.2.2
  let s := if ue then s.countErr 6 pc 1 else s
  s.bump64 (meRowsReg pc x) 1

/-- The row that issued first lands. -/
def execMeRowReachesBank (u : CtxAt) (err : MemErr) (s : State) : Host.Outcome State Fault Refusal :=
  .next (match (s.meCtx u.core.val u.ctx).array with
  | [] => s
  | r :: rest => s.meRowLands u.core.val u.ctx (err == .uncorrectable) r rest)

/-- The flag bits of a completion record and of ME_FLAGS (Tables 3.5, 3.12). -/
def MeJob.flagBits (j : MeJob) : Nat :=
  b2n j.flags.inv + 2 * b2n j.flags.ovf + 4 * b2n j.flags.sat + 8 * b2n j.flags.amis

/-- Settle the cancelled tasks of a context that waited on engines (R109). -/
def State.settle (s : State) (pc : Nat) (x : Ctx) : State := s.modCtx pc x (fun c => c.settleCancels)

/-- The oldest accepted descriptor, j, completes: the drain of drain = 1, the completion record, the sticky flags, the event
(R84, R85, R94). -/
def State.meRetire (s : State) (pc : Nat) (x : Ctx) (j : MeJob) : State :=
  let d := MeDesc.ofNat j.desc
  let q := if j.drain && !j.cancelled then s.meDrain pc x d else (s, {}, false)
  let s := q.1
  let j := { j with flags := j.flags.or q.2.1, status := if q.2.2 then stPoison else j.status }
  let st := if j.cancelled then stCancelled else j.status
  let c := s.meCtx pc x
  let r := complRecord d.tag d.gen st + j.flagBits <<< 40 + (b2n j.wpar) <<< 44 + (b2n j.ramp) <<< 45
  let s := s.setMe pc x { c with jobs := c.jobs.drop 1, dq := c.dq.complete r }
  let s := s.setFld (meFlagsReg pc x) 0 6
    (s.fld (meFlagsReg pc x) 0 6 ||| (j.flagBits + 16 * b2n (st == stPoison) + 32 * b2n j.wpar))
  (s.settle pc x).raiseEvt pc x d.evt

/-- R84: the oldest accepted descriptor completes once none of its rows is in the array. -/
def execMeComplete (u : CtxAt) (s : State) : Host.Outcome State Fault Refusal :=
  let c := s.meCtx u.core.val u.ctx
  .next (match c.jobs with
  | [] => s
  | j :: _ =>
    if !(s.owns u.core.val u.ctx) || c.array.any (fun r => r.job == j.id) then s else s.meRetire u.core.val u.ctx j)

/-- Reset of one context's ME queue (R95, R425). -/
def State.meReset (s : State) (pc : Nat) (x : Ctx) (status : Nat := stAbortedReset) : State :=
  let c := s.meCtx pc x
  let dq := c.dq.reset (c.jobs.map (fun j => bits j.desc 304 16)) (c.dq.q.items.map (fun i => bits i.data 304 16)) status
  let s := s.setMe pc x { c with dq := dq, jobs := [], array := [] }
  let s := match x with
    | .timed => s.setFld (ME_QGEN pc) 0 16 dq.gen
    | .elastic => s.setFld (ME_QGEN pc) 16 16 dq.gen
  s.settle pc x

def execMeQreset (core : Fin 512) (t e : Bool) (s : State) : Host.Outcome State Fault Refusal :=
  let s := if t then s.meReset core.val .timed else s
  let s := if e then s.meReset core.val .elastic else s
  .next (s.answer stOk)

/-- R98: clearing en while a context is not IDLE is refused. -/
def execMeCtrlWrite (core : Fin 512) (en : Bool) (s : State) : Host.Outcome State Fault Refusal :=
  let busy := !(s.meCtx core.val .timed).jobs.isEmpty || !(s.meCtx core.val .elastic).jobs.isEmpty
  .next (if !en && busy then s.refuseReg (ME_CTRL core.val) else (s.setFld (ME_CTRL core.val) 0 1 (b2n en)).answer stOk)

/-- R97: the active-descriptor window takes a write only while its context is IDLE or FENCED. -/
def execMeActDescWrite (u : CtxAt) (w : Fin 8) (value : Word) (s : State) : Host.Outcome State Fault Refusal :=
  let pc := u.core.val
  let a := match u.ctx with | .timed => ME_ACT_DESC_T pc w.val | .elastic => ME_ACT_DESC_E pc w.val
  .next (if (s.meCtx pc u.ctx).jobs.isEmpty || (s.core pc).fenced then (s.setReg a value.toNat).answer stOk
  else (s.bump (ME_REFUSE_CNT pc)).refuseReg a)

/-! ### Tamp (R90 to R92, R251) -/

/-- One cycle of credit at a level: the credit after it, and whether a row could issue (R90). -/
def tampCycle (level credit : Nat) : Nat × Bool :=
  let c := min 15 (credit + level)
  if 8 ≤ c then (c - 8, true) else (c, false)

/-- The four cycles of a step: credit after them, and the cycles in which a row could issue. -/
def tampStep (level credit : Nat) : Nat × Nat :=
  (List.range 4).foldl (fun a _ =>
    let r := tampCycle level a.1
    (r.1, a.2 + b2n r.2)) (credit, 0)

/-- R91: a 4-cycle step ends. ready: a row was ready in the step's last cycle. With no row ready, or while the array
prewarms (R251), ballast rows run in the cycles where a row could issue. Pre-warm ends at the first timed row or 64
cycles, 16 steps, after the gate edge. -/
def execTampStepEnd (core : Fin 512) (ready : Bool) (s : State) : Host.Outcome State Fault Refusal :=
  let c := s.core core.val
  .next (if c.tampLevel = 0 then s
  else
    let q := tampStep c.tampLevel c.tampCredit
    let up := ready || c.tampBallast
    let l := if up then min 8 (c.tampLevel + 1) else c.tampLevel - 1
    let stop := (ready && c.owner == .timed) || c.tampWarmLeft == 1
    let s := s.setCore core.val { c with tampLevel := l, tampCredit := q.1, tampBallast := c.tampBallast && !stop,
                                         tampWarmLeft := if stop then 0 else c.tampWarmLeft - 1 }
    if ready then s else s.bump64 (ME_BALLAST_CNT core.val) q.2)

/-- R91: the first cycle with a row ready on a gated array. -/
def execTampRampStart (core : Fin 512) (s : State) : Host.Outcome State Fault Refusal :=
  let c := s.core core.val
  .next (if c.tampLevel = 0 then s.setCore core.val { c with tampLevel := 1, tampCredit := 0 } else s)

/-- R251: Tamp starts issuing ballast as if a row were ready in every cycle. -/
def execTampPrewarm (core : Fin 512) (s : State) : Host.Outcome State Fault Refusal :=
  let c := s.core core.val
  let c := if c.tampLevel = 0 then { c with tampLevel := 1, tampCredit := 0 } else c
  .next (s.setCore core.val { c with tampBallast := true })

end Sys2Proof.Machine
end

