-- ==== Sys2Proof/Machine/Rotate.lean ====
section
/-!
DEFINITION. Machine/Rotate.lean: rotation of a logical number to a spare (R477).
-/
namespace Sys2Proof.Machine

/-- Bytes of a context's scratch partition of one core, copied to another. -/
def State.copyScratch (s : State) (x : Ctx) (src dst : Nat) : State :=
  let lo := scrLo x
  let hi := scrHi x
  let inside (a : Nat) : Bool := decide (lo ≤ a) && decide (a < hi)
  let m := ((s.core dst).scr).zero lo (hi - lo)
  let m := ((s.core src).scr.cells.filter (fun c => inside c.1)).foldl (fun (m : Mem) c => m.setByte c.1 c.2.toNat) m
  let m := ((s.core src).scr.marks.filter (fun c => inside c.1)).foldl (fun (m : Mem) c => m.setPoison c.1 (decide (2 ≤ c.2))) m
  s.setCore dst { s.core dst with scr := m }

/-- Start a rotation of a logical number: the spare, its selector, its program images; the record and RAS_WIT_STAT (R17, R19,
R472, R477). Without a spare nothing happens. -/
def State.rotStart (s : State) (lc : Nat) : State :=
  let p := s.phys lc
  if p = noCore ∨ (s.core p).fenced ∨ s.rots.any (fun r => r.lc == lc) ∨ s.handovers.any (fun h => h.lc == lc) then s
  else match s.chooseSpare p with
    | none => s
    | some q =>
      let s := s.setCore q { s.core q with group := (s.core p).group }
      let s := { s with rots := s.rots ++ [({ lc := lc, fromCore := p, spare := q } : Rot)] }
      let s := (s.loadImages q).setFld RAS_WIT_STAT 0 10 (lc + 0x200)
      s.errLog { level := 1, kind := 0x46, action := 8, place := .core p }

/-- One context's hand-over of a rotation: the scratch partition is copied; with the second one the number has moved
(R477). -/
def State.rotHand (s : State) (lc : Nat) (x : Ctx) : State :=
  match s.rots.find? (fun r => r.lc == lc) with
  | none => s
  | some r =>
    let s := s.copyScratch x r.fromCore r.spare
    let s := match x with | .elastic => s.setFld (MEM_PM_HOLD r.fromCore) 0 1 1 | .timed => s
    let r' : Rot := match x with | .timed => { r with timedDone := true } | .elastic => { r with elasticDone := true }
    if r'.timedDone ∧ r'.elasticDone then
      let s := { s with map := Tbl.put (s.basePhys lc) s.map lc r.spare }
      let s := s.setCore r.fromCore { s.core r.fromCore with group := 0x7F }
      let s := { s.setFld (MEM_PM_HOLD r.fromCore) 0 1 0 with testing := s.testing ++ [(r.fromCore, s.cnt)] }
      let s := (s.setFld RAS_WIT_STAT 0 9 0x1FF).dropRot (fun q => q.lc == lc)
      (s.setFld (RAS_CORE_HIST r.fromCore) 21 1 0).event RAS_EVENT 3
    else { s with rots := s.rots.map (fun q => if q.lc = lc then r' else q) }

/-- The elastic hand-over at a boundary; the timed one of a core with no gate group goes with it (R477). -/
def State.rotElastic (s : State) (lc : Nat) : State :=
  match s.rots.find? (fun r => r.lc == lc && !r.elasticDone) with
  | none => s
  | some r =>
    let s := s.rotHand lc .elastic
    if (s.core r.fromCore).group = 0x7F ∧ r.timedDone = false then s.rotHand lc .timed else s

end Sys2Proof.Machine
end

