-- ==== Sys2Proof/Machine/Xfer.lean ====
section
/-!
DEFINITION. Machine/Xfer.lean: moving the bytes of one piece (R199): its pages translated first, the bytes read line by
line, and the bytes written, with poison carried per 64-byte line (R170). The buffer pools (R176 to R179).
-/
namespace Sys2Proof.Machine

/-- The pages of a span, translated: targets with their bytes, in order, and the level at which their walks stopped. -/
inductive Span where
  | ok (segs : List (Target × Nat)) (level : Nat)
  | miss
  | fault (status cause level addr : Nat)
  deriving DecidableEq, Repr

/-- Translate [va, va + n), split at 64 KiB boundaries. -/
def State.span (s : State) (place : TlbPlace) (inst : Nat) (acc : Access) (timed : Bool) :
    Nat → Nat → Nat → Span × State
  | 0, _, _ => (.ok [] 0, s)
  | fuel + 1, va, n =>
    if n = 0 then (.ok [] 0, s)
    else
      let m := min n (65536 - va % 65536)
      let q := s.xlate place inst va acc timed
      match q.1 with
      | .miss => (.miss, q.2)
      | .fault st c l => (.fault st c l va, q.2)
      | .ok t _ l =>
        let r := q.2.span place inst acc timed fuel (va + m) (n - m)
        match r.1 with
        | .ok segs k => (.ok ((t, m) :: segs) (max l k), r.2)
        | e => (e, r.2)

/-- What the bytes of a piece came to: the value, and which of its 64-byte lines are poisoned. -/
inductive Bytes where
  | ok (v : Nat) (bad : List Nat)
  | wait
  | stop (status cause : Nat)
  deriving DecidableEq, Repr

/-- The poisoned 64-byte lines among n bytes at a, numbered from line l. -/
def State.badLines (s : State) (a n l : Nat) : List Nat :=
  ((List.range (ceilDiv n 64)).filter (fun i => (s.devLoad (a + 64 * i) (min 64 (n - 64 * i))).2)).map (· + l)

/-- Loads through a fabric leaf: one LD per 256-byte granule (R293); what comes back is given with the piece. -/
def State.fabLoads (s : State) (card part inst gen : Nat) (timed : Bool) : Nat → Nat → Nat → State
  | 0, _, _ => s
  | fuel + 1, a, n =>
    if n = 0 then s
    else
      let m := min n (256 - a % 256)
      (s.fabIssue { op := 1, card := card, part := part, addr := a, len := m, owner := .note,
                    inst := inst, gen := gen, timed := timed, flow := a >>> 12 }).fabLoads
        card part inst gen timed fuel (a + m) (n - m)

/-- Read the segments of a piece; bytes behind a fabric leaf are those that came back for the piece. -/
def State.readSegs (s : State) (inst unit : Nat) (remote : Option PieceData) : Nat → List (Target × Nat) → Bytes × State
  | _, [] => (.ok 0 [], s)
  | off, (t, n) :: rest =>
    let here : Bytes × State :=
      match t with
      | .local a =>
        let r := s.accRead a n inst unit
        if r.1.status = stOk ∨ r.1.status = stPoison then (.ok (r.1.data % 2 ^ (8 * n)) (s.badLines a n (off / 64)), r.2)
        else (.stop r.1.status r.1.cause, r.2)
      | .fabric card part a =>
        let s' := s.fabLoads card part inst (s.instGen inst) (s.instTimed inst) 4096 a n
        match remote with
        | none => (.wait, s)
        | some (.ok bs) => (.ok (bits (leNat bs) (8 * off) (8 * n)) [], s')
        | some .poisoned => (.ok 0 ((List.range (ceilDiv n 64)).map (· + off / 64)), s')
        | some .abort => (.stop stRetired 0, s')
        | some .refused => (.stop stFaultAccess cRemoteRefused, s')
    match here.1 with
    | .ok v bad =>
      let r := here.2.readSegs inst unit remote (off + n) rest
      match r.1 with
      | .ok v2 bad2 => (.ok (v + v2 <<< (8 * n)) (bad ++ bad2), r.2)
      | e => (e, r.2)
    | e => (e, here.2)

/-- The 32-byte slots of n bytes, which begin off bytes into a piece, that lie in its poisoned 64-byte lines. -/
def badSlots (bad : List Nat) (off n : Nat) : List Nat :=
  (List.range (ceilDiv n 32)).filter (fun i =>
    bad.any (fun l => decide (64 * l < off + min n (32 * i + 32)) && decide (off + 32 * i < 64 * l + 64)))

/-- Stores through a fabric leaf: one ST per 256-byte granule (R293); the slots of its poisoned lines carry a poison tag (R319). -/
def State.fabStores (s : State) (card part inst gen : Nat) (timed : Bool) (bad : List Nat) : Nat → Nat → Nat → Nat → Nat → State
  | 0, _, _, _, _ => s
  | fuel + 1, off, a, n, v =>
    if n = 0 then s
    else
      let m := min n (256 - a % 256)
      (s.fabIssue { op := 2, card := card, part := part, addr := a, len := m, payload := v % 2 ^ (8 * m), owner := .note,
                    inst := inst, gen := gen, timed := timed, flow := a >>> 12, bad := badSlots bad off m }).fabStores
        card part inst gen timed bad fuel (off + m) (a + m) (n - m) (v >>> (8 * m))

/-- Write the segments of a piece; the status of a target that takes none of it. -/
def State.writeSegs (s : State) (inst unit : Nat) (timed : Bool) (bad : List Nat) :
    Nat → List (Target × Nat) → Nat → Option (Nat × Nat) × State
  | _, [], _ => (none, s)
  | off, (t, n) :: rest, v =>
    let here : Option (Nat × Nat) × State :=
      match t with
      | .local a =>
        let r := s.accWrite a n (v % 2 ^ (8 * n)) inst unit
        if r.1.status = stOk ∨ r.1.status = stPoison then
          (none, bad.foldl (fun s l =>
            if off ≤ 64 * l ∧ 64 * l < off + n then s.devPoison (a + 64 * l - off) (min 64 (off + n - 64 * l)) else s) r.2)
        else (some (r.1.status, r.1.cause), r.2)
      | .fabric c p a => (none, s.fabStores c p inst (s.instGen inst) timed bad 4096 off a n v)
    match here.1 with
    | some e => (some e, here.2)
    | none => here.2.writeSegs inst unit timed bad (off + n) rest (v >>> (8 * n))

/-! ### Buffer pools (R176 to R179) -/

/-- Pools: 0 to 63 the global pools, 64 + n the run-ahead pool of cluster n. Configuration: enabled, buffers, buffer
bytes, device-local base, buffers kept for timed requests. -/
def State.poolCfg (s : State) (p : Nat) : Bool × Nat × Nat × Nat × Nat :=
  if p < 64 then
    (s.fld (MEM_POOL_CFG p) 0 1 == 1, s.fld (MEM_POOL_CFG p) 7 17, 4096 * 2 ^ s.fld (MEM_POOL_CFG p) 3 4,
     s.fld (MEM_POOL_BASE p) 0 48, s.fld (MEM_POOL_CFG p) 29 17)
  else
    let n := min 512 (s.fld MEM_RA_POOL_CFG 0 10)
    (true, n, 4096, 0x020000000000 + (p - 64) * 0x800000 + 0x800000 - n * 4096, s.fld MEM_RA_POOL_CFG 10 10)

def State.pool (s : State) (p : Nat) : Pool := Tbl.get ({} : Pool) s.pools p
def State.setPool (s : State) (p : Nat) (x : Pool) : State := { s with pools := Tbl.put ({} : Pool) s.pools p x }

/-- Free buffers of a pool. -/
def State.poolFree (s : State) (p : Nat) : Nat := (s.poolCfg p).2.1 - (s.pool p).owners.length

/-- The lowest free buffer. -/
def Pool.freeBuf (x : Pool) : Nat :=
  ((List.range (x.owners.length + 1)).find? (fun b => Tbl.get none x.owners b == none)).getD 0

/-- Grant a buffer to an owner: the buffer's number. -/
def State.poolGrant (s : State) (p : Nat) (o : PoolOwner) : Nat × State :=
  let x := s.pool p
  let b := x.freeBuf
  (b, s.setPool p { x with owners := Tbl.put none x.owners b (some o) })

def State.bufAddr (s : State) (p b : Nat) : Nat := (s.poolCfg p).2.2.2.1 + b * (s.poolCfg p).2.2.1

/-- May a request of a class be granted now (R177)? -/
def State.poolCan (s : State) (p : Nat) (timed : Bool) : Bool :=
  if timed then decide (0 < s.poolFree p) else decide ((s.poolCfg p).2.2.2.2 < s.poolFree p)

/-- Waiters granted while buffers allow, timed waiters first, each class in order of arrival; a waiter of a stale
generation leaves (R177, R179). -/
def State.poolServe (s : State) (p : Nat) : Nat → State
  | 0 => s
  | fuel + 1 =>
    let x := s.pool p
    let pick := match findIdx? (fun (w : PoolOwner) => w.timed) x.waiters with
      | some r => some r
      | none => findIdx? (fun _ => true) x.waiters
    match pick with
    | none => s
    | some (k, w) =>
      if w.inst ≠ noInst ∧ w.gen ≠ s.instGen w.inst then
        let s := s.setPool p { x with waiters := eraseAt x.waiters k }
        (if p < 64 then s.bumpFld (MEM_POOL_CNT p) 48 16 1 else s).poolServe p fuel
      else if s.poolCan p w.timed then
        ((s.setPool p { x with waiters := eraseAt x.waiters k }).poolGrant p w).2.poolServe p fuel
      else s

/-- Return a buffer by number, and serve the waiters. -/
def State.poolGive (s : State) (p b : Nat) : State :=
  let x := s.pool p
  (s.setPool p { x with owners := Tbl.put none x.owners b none }).poolServe p (x.waiters.length + 1)

/-- A STATE answer of the memory block to a command (R510). -/
def State.memState (s : State) (code inst : Nat) : State := (s.refuseLog 3 code inst 0x1FF).answer stState

/-- R176 to R178: one request. The class is timed for a timed context or the FEC array. -/
def execPoolRequest (pool : Fin 128) (port : Fin 71) (inst : Fin 512) (timed wait : Bool) (s : State) :
    Host.Outcome State Fault Refusal :=
  let p := pool.val
  let cfg := s.poolCfg p
  let x := s.pool p
  let cls := if p < 64 ∧ 64 ≤ port.val then port.val == 69 else timed
  let o : PoolOwner := { port := port.val, inst := inst.val, gen := s.instGen inst.val, timed := cls }
  let count (s : State) (lo : Nat) : State := if p < 64 then s.bumpFld (MEM_POOL_CNT p) lo 16 1 else s
  let blockedByWaiter := x.waiters.any (fun w => w.timed || !cls)
  .next (if cfg.1 = false ∨ cfg.2.1 = 0 ∨ (64 ≤ p ∧ 8 ≤ port.val) then s.memState 0x10 inst.val
  else if s.poolCan p cls && !blockedByWaiter then
    let g := s.poolGrant p o
    let n := if p < 64 then 71 else 8
    let y := g.2.pool p
    (g.2.setPool p { y with pointer := (port.val + 1) % n }).answer stOk 0 [s.bufAddr p g.1]
  else if wait ∧ x.waiters.length < 32 then
    (count (s.setPool p { x with waiters := x.waiters ++ [o] }) 0).answer stDelayed
  else
    let reserve := !cls && decide (0 < s.poolFree p)
    (count s (if reserve then 32 else 16)).answer stRefusedCapacity)

/-- R179: a buffer comes back. -/
def execPoolReturn (pool : Fin 128) (port : Fin 71) (inst : Fin 512) (addr : BitVec 48) (s : State) :
    Host.Outcome State Fault Refusal :=
  let p := pool.val
  let cfg := s.poolCfg p
  let x := s.pool p
  let a := addr.toNat
  let b := (a - cfg.2.2.2.1) / cfg.2.2.1
  .next (if a < cfg.2.2.2.1 ∨ (a - cfg.2.2.2.1) % cfg.2.2.1 ≠ 0 ∨ cfg.2.1 ≤ b then s.memState 0x11 inst.val
  else match Tbl.get none x.owners b with
    | none => s.memState 0x11 inst.val
    | some o =>
      if o.port = port.val ∧ (o.inst = inst.val ∧ o.gen = s.instGen inst.val ∨ 64 ≤ port.val) then
        (s.poolGive p b).answer stOk
      else
        (s.charge { addr := a, status := stFaultAccess, cause := cWrongOwner, kind := 1, unit := uReg, inst := inst.val,
                    gen := s.instGen inst.val }).answer stFaultAccess cWrongOwner)

end Sys2Proof.Machine
end

