-- ==== Sys2Proof/Machine/Tme.lean ====
section
/-!
DEFINITION. Machine/Tme.lean: the tile mover (chapter 06): acceptance (Table 6.6), transfers (R163, R164, R169, R170,
R199), run-ahead and commit (R172 to R175), completion and queue reset.
-/
namespace Sys2Proof.Machine

def State.tme (s : State) (pc : Nat) (x : Ctx) : TmeCtx := (s.ctx pc x).tme
def State.setTme (s : State) (pc : Nat) (x : Ctx) (t : TmeCtx) : State := s.modCtx pc x (fun c => { c with tme := t })

/-! ### Acceptance (R165 to R168, R172) -/

/-- Row 5 of Table 6.6. -/
def TmeDesc.misaligned (d : TmeDesc) : Bool :=
  let rb := match tileLayout d.layout with | some l => l.1 | none => 0
  match d.op with
  | 1 => d.len % 64 != 0 || d.src % 64 != 0 || d.dst % 64 != 0
  | 2 => d.src % 4096 != 0 || d.dst % 64 != 0 || d.pitch == 0 || decide (64 * d.pitch < d.kTiles * rb)
  | 3 => d.dst % 4096 != 0 || d.src % 64 != 0 || d.pitch == 0 || decide (64 * d.pitch < d.kTiles * rb)
  | _ => d.src % 64 != 0 || decide (15 < d.slot)

/-- The first scratch byte outside the context's partition (row 6). -/
def TmeDesc.outside (d : TmeDesc) (x : Ctx) : Option Nat :=
  let rb := match tileLayout d.layout with | some l => l.1 | none => 0
  let n := 64 * d.pitch * (d.rows - 1) + d.kTiles * rb
  let out (a n : Nat) : Option Nat :=
    if inScratch x a n then none else if a < scrLo x ∨ scrHi x ≤ a then some a else some (scrHi x)
  match d.op with
  | 1 => none
  | 2 => out d.dst n
  | 3 => out d.src n
  | _ => out d.src 32

/-- Rows 2 to 6 of Table 6.6: the status, with the address of a violation; none when the descriptor passes. -/
def TmeDesc.check (d : TmeDesc) (raw : Nat) (poison : Bool) (x : Ctx) : Option (Nat × Nat) :=
  if poison then some (stPoison, 0)
  else if d.op = 0 ∨ 4 < d.op ∨ tmeReserved raw ∨ ((d.op = 2 ∨ d.op = 3) ∧ (tileLayout d.layout).isNone) then
    some (stState, 0)
  else if (d.op = 1 ∧ d.len = 0) ∨ ((d.op = 2 ∨ d.op = 3) ∧ (d.rows = 0 ∨ d.kTiles = 0)) then some (stNop, 0)
  else if d.misaligned then some (stState, 0)
  else match d.outside x with
    | some a => some (stFaultAccess, a)
    | none => none

/-- Further descriptors a context may accept while its head runs (R172). -/
def State.raDepth (s : State) (pc : Nat) (x : Ctx) : Nat :=
  match x with
  | .timed => s.fld (TME_RA_CFG pc) 0 3
  | .elastic => s.fld (TME_RA_CFG pc) 3 3

/-- Accept the head of a context's TME queue for a command of one opcode; a head of a reserved opcode is taken by a
command of any. -/
def State.tmeAccept (s : State) (pc : Nat) (x : Ctx) (op : Nat) : State :=
  let t := s.tme pc x
  if !(s.owns pc x) || s.fld (TME_CTRL pc) 0 1 == 0 || !t.dq.canAccept || decide (s.raDepth pc x < t.jobs.length) then s
  else match t.dq.q.pop with
    | none => s
    | some (i, q) =>
      let d := TmeDesc.ofNat i.data
      if d.op ≠ op ∧ d.op ≠ 0 ∧ d.op ≤ 4 then s
      else if d.gen ≠ t.dq.gen then (s.setTme pc x { t with dq := { t.dq with q := q } }).bump (TME_STALE_CNT pc)
      else
        let j : TmeJob := { desc := i.data }
        let dq := { t.dq with q := q, reserved := t.dq.reserved + 1 }
        match d.check i.data i.poison x with
        | some (st, a) =>
          let s := s.setTme pc x { t with dq := dq, jobs := t.jobs ++ [{ j with ended := true, status := st }] }
          if st = stState then s.stateAt pc x d.op
          else if st = stFaultAccess then s.charge (s.faultOf pc x uTme d.tag st cScratchRange a 0) else s
        | none => s.setTme pc x { t with dq := dq, jobs := t.jobs ++ [j] }

def execCopy (u : CtxAt) (s : State) : Host.Outcome State Fault Refusal := .next (s.tmeAccept u.core.val u.ctx 1)
def execGather (u : CtxAt) (s : State) : Host.Outcome State Fault Refusal := .next (s.tmeAccept u.core.val u.ctx 2)
def execScatter (u : CtxAt) (s : State) : Host.Outcome State Fault Refusal := .next (s.tmeAccept u.core.val u.ctx 3)

/-! ### Epochs (R174, R257, R273) -/

/-- The live Barista group whose range holds a logical number (R257). -/
def State.groupOf (s : State) (lc : Nat) : Option Nat :=
  (List.range 64).find? (fun g =>
    s.fld (BRS_GRP_STAT g) 0 3 != 0 && decide (s.fld (BRS_GRP_CFG0 g) 0 9 ≤ lc)
      && decide (lc < s.fld (BRS_GRP_CFG0 g) 0 9 + s.fld (BRS_GRP_CFG0 g) 9 9))

/-- May a descriptor commit: none to wait, false when its epoch is cancelled or its core lies in no group (R174, R175,
R257). -/
def State.epochSays (s : State) (pc : Nat) (d : TmeDesc) : Option Bool :=
  if d.spec = false then some true
  else match s.groupOf (s.lcOf pc) with
    | none => some false
    | some g =>
      match Tbl.get 0 s.epochs (65536 * g + d.epoch) % 4 with
      | 2 => some true
      | 3 => some false
      | _ => none

/-! ### One transfer -/

/-- The oldest accepted descriptor that has not ended, with its place. -/
def TmeCtx.head (t : TmeCtx) : Option (Nat × TmeJob) := findIdx? (fun (j : TmeJob) => !j.ended) t.jobs

def TmeCtx.modJob (t : TmeCtx) (k : Nat) (f : TmeJob → TmeJob) : TmeCtx := { t with jobs := t.jobs.modify k f }

def tmeBytesReg (pc : Nat) : Ctx → Nat
  | .timed => TME_BYTES_T pc
  | .elastic => TME_BYTES_E pc

def tmeFaultReg (pc : Nat) : Ctx → Nat
  | .timed => TME_FAULT_T pc
  | .elastic => TME_FAULT_E pc

/-- The first error of a context since the last read (Table 6.10). -/
def State.noteTmeFault (s : State) (pc : Nat) (x : Ctx) (status tag n : Nat) : State :=
  if s.fld (tmeFaultReg pc x) 0 1 = 1 then s
  else s.setReg (tmeFaultReg pc x) (1 + (bits status 0 8) <<< 1 + (bits tag 0 16) <<< 9 + (bits n 0 22) <<< 25)

/-- The staging buffers of a descriptor go back to the cluster's pool (R174, R175). -/
def State.freeStaged (s : State) (pc : Nat) (bs : List Staged) (discard : Bool) : State :=
  bs.foldl (fun s b =>
    let s := s.poolGive (64 + clusterOf pc) b.buf
    if discard then s.bump (TME_RA_DISCARD_CNT pc) else s) s

/-- End descriptor k of a context with a status. -/
def State.tmeEnd (s : State) (pc : Nat) (x : Ctx) (k status : Nat) : State :=
  s.setTme pc x ((s.tme pc x).modJob k (fun j => { j with ended := true, status := status }))

/-- A fault on a piece ends the descriptor (R199, R201). -/
def State.tmeFault (s : State) (pc : Nat) (x : Ctx) (k : Nat) (d : TmeDesc) (done status cause level addr : Nat)
    (g : Option Nat := none) : State :=
  let s := s.tmeEnd pc x k status
  let s := s.noteTmeFault pc x status d.tag done
  if status = stRetired then s.taint (s.instOf pc x) 2
  else s.charge ((s.faultOf pc x uTme d.tag status cause addr level).far g)

/-- Note one written transfer: bytes, and poison carried (R170). -/
def State.tmePieceDone (s : State) (pc : Nat) (x : Ctx) (k n addr : Nat) (bad : Bool) (lv : Nat) (d : TmeDesc) : State :=
  let t := s.tme pc x
  let was := match t.jobs[k]? with | some j => j.poisoned | none => true
  let s := s.setTme pc x { t.modJob k (fun j =>
    let done := j.done + 1
    { j with done := done, poisoned := j.poisoned || bad,
             ended := decide (d.pieces ≤ done),
             status := if j.poisoned || bad then stPoison else stOk }) with flight := t.flight - 1 }
  let s := s.bump64 (tmeBytesReg pc x) n
  if bad ∧ was = false then
    (s.noteTmeFault pc x stPoison d.tag ((match t.jobs[k]? with | some j => j.done | none => 0))).charge
      (s.faultOf pc x uTme d.tag stPoison 0 addr lv)
  else s

/-- The bytes of COPY piece k: offset from src, bytes (R199). -/
def TmeDesc.copyPiece (d : TmeDesc) (k : Nat) : Nat × Nat :=
  let lo := if k = 0 then 0 else (d.dst / 4096 + k) * 4096 - d.dst
  let hi := min d.len ((d.dst / 4096 + k + 1) * 4096 - d.dst)
  (lo, hi - lo)

/-- Source address and bytes of piece k of a COPY or a GATHER. -/
def TmeDesc.source (d : TmeDesc) (k : Nat) : Nat × Nat :=
  if d.op = 1 then (d.src + (d.copyPiece k).1, (d.copyPiece k).2) else (d.src + 4096 * k, 4096)

/-- The source bytes of piece k: from its staging buffer, or read now. -/
def State.tmeSource (s : State) (pc : Nat) (x : Ctx) (j : TmeJob) (k : Nat) (remote : Option PieceData)
    (segs : List (Target × Nat)) : Bytes × State :=
  match j.staged.find? (fun b => b.piece == k) with
  | some b => (.ok (packRow 8 b.data) b.poison, s)
  | none => s.readSegs (s.instOf pc x) uTme remote 0 segs

/-- Land a tile in scratch (R164, R170). -/
def State.landTile (s : State) (pc : Nat) (d : TmeDesc) (k v : Nat) (bad : List Nat) : State × Nat :=
  match tileLayout d.layout with
  | none => (s, 0)
  | some (rb, tp, r) =>
    let i := k / d.kTiles
    let j := k % d.kTiles
    (List.range r).foldl (fun (a : State × Nat) q =>
      let m := i * r + q
      if d.rows ≤ m then a
      else
        let dst := d.dst + 64 * m * d.pitch + j * rb
        let s := a.1.scrWrite pc dst rb (bits v (8 * tp * q) (8 * rb))
        let s := bad.foldl (fun s l =>
          let lo := max (64 * l) (tp * q)
          let hi := min (64 * l + 64) (tp * q + rb)
          if lo < hi then s.scrPoisonSet pc (dst + lo - tp * q) (hi - lo) else s) s
        (s, a.2 + rb)) (s, 0)

/-- Build tile k from scratch rows: its 4,096 bytes, its poisoned lines (R164). -/
def State.buildTile (s : State) (pc : Nat) (d : TmeDesc) (k : Nat) : Nat × List Nat :=
  match tileLayout d.layout with
  | none => (0, [])
  | some (rb, tp, r) =>
    let i := k / d.kTiles
    let j := k % d.kTiles
    (List.range r).foldl (fun (a : Nat × List Nat) q =>
      let m := i * r + q
      if d.rows ≤ m then a
      else
        let src := d.src + 64 * m * d.pitch + j * rb
        let bad := (granules 8 src rb).filterMap (fun w =>
          if (s.core pc).scr.poisoned w then some ((tp * q + (max w src - src)) / 64) else none)
        (a.1 + (s.scrLoad pc src rb) <<< (8 * tp * q), a.2 ++ bad)) (0, [])

/-- The stretches of scratch that tile k is built from. -/
def TmeDesc.tileSpans (d : TmeDesc) (k : Nat) : List (Nat × Nat) :=
  match tileLayout d.layout with
  | none => []
  | some (rb, _, r) =>
    (tabulate r (fun q => k / d.kTiles * r + q)).filterMap (fun m =>
      if d.rows ≤ m then none else some (d.src + 64 * m * d.pitch + k % d.kTiles * rb, rb))

/-- The global address of the first fabric target of a span. -/
def segsFar (l : List (Target × Nat)) : Option Nat := l.findSome? (fun t => t.1.global)

/-- How the stores of a piece through fabric leaves end, from what came back for the piece. -/
def farAck (l : List (Target × Nat)) (remote : Option PieceData) : Option (Nat × Nat) :=
  if (segsFar l).isNone then none
  else match remote with
    | some .abort => some (stRetired, 0)
    | some .refused => some (stFaultAccess, cRemoteRefused)
    | _ => none

/-- One transfer of descriptor k (at job index jk): pages first, then the bytes (R199). -/
def State.tmeTransfer (s : State) (pc : Nat) (x : Ctx) (jk : Nat) (j : TmeJob) (d : TmeDesc) (remote : Option PieceData) :
    State :=
  let k := j.done
  let inst := s.instOf pc x
  let timed := x == .timed
  let place : TlbPlace := .micro pc x
  let src := d.source k
  let dst := if d.op = 1 then (d.dst + (d.copyPiece k).1, (d.copyPiece k).2) else (d.dst + 4096 * k, 4096)
  let staged := j.staged.any (fun b => b.piece == k)
  let a := if d.op = 3 ∨ staged then (Span.ok [] 0, s) else s.span place inst .read timed 3 src.1 src.2
  match a.1 with
  | .miss => a.2
  | .fault st c l v => a.2.tmeFault pc x jk d k st c l v
  | .ok ssegs sl =>
    let b := if d.op = 2 then (Span.ok [] 0, a.2) else a.2.span place inst .write timed 3 dst.1 dst.2
    match b.1 with
    | .miss => b.2
    | .fault st c l v => b.2.tmeFault pc x jk d k st c l v
    | .ok dsegs dl =>
      if (segsFar dsegs).isSome ∧ remote.isNone then b.2
      else
      let r := if d.op = 3 then
          (let t := b.2.buildTile pc d k
           (Bytes.ok t.1 t.2, b.2.scrSpans pc (d.tileSpans k)))
        else b.2.tmeSource pc x j k remote ssegs
      match r.1 with
      | .wait => r.2
      | .stop st c => r.2.tmeFault pc x jk d k st c sl src.1 (segsFar ssegs)
      | .ok v bad =>
        let s := r.2
        let w : Option (Nat × Nat) × State × Nat :=
          if d.op = 2 then
            let q := s.landTile pc d k v bad
            (none, q.1, q.2)
          else
            let q := s.writeSegs inst uTme timed bad 0 dsegs v
            (match q.1 with | none => farAck dsegs remote | e => e, q.2, dst.2)
        match w.1 with
        | some (st, c) => w.2.1.tmeFault pc x jk d k st c dl dst.1 (segsFar dsegs)
        | none =>
          let s := w.2.1
          let s := s.freeStaged pc (j.staged.filter (fun b => b.piece == k)) false
          let s := s.setTme pc x ((s.tme pc x).modJob jk (fun j => { j with staged := j.staged.filter (fun b => b.piece != k) }))
          s.tmePieceDone pc x jk w.2.2 src.1 (!bad.isEmpty || (segsFar dsegs).isSome && remote == some .poisoned) sl d

/-- R168: SETCONV writes its slot, or ends with POISON or STATE. -/
def State.setConv (s : State) (pc : Nat) (x : Ctx) (jk : Nat) (d : TmeDesc) : State :=
  let r := s.scrLoad pc d.src 32
  let bad := s.scrPoison pc d.src 32
  let s := s.scrChecked pc d.src 32
  if bad then
    (s.noteTmeFault pc x stPoison d.tag 0 |>.charge (s.faultOf pc x uTme d.tag stPoison 0 d.src 0)).tmeEnd pc x jk stPoison
  else if (ConvRec.ofNat r).zeroField then (s.stateAt pc x 4).tmeEnd pc x jk stState
  else
    let t := s.tme pc x
    let t := { t with conv := Tbl.put (false, 0) t.conv d.slot (true, setBits r 31 1 0) }
    (s.setTme pc x t).tmeEnd pc x jk stOk

/-- SETCONV is accepted and, when it is the oldest descriptor of its context, copies its record. -/
def execSetconv (u : CtxAt) (s : State) : Host.Outcome State Fault Refusal :=
  let pc := u.core.val
  let s := s.tmeAccept pc u.ctx 4
  .next (match (s.tme pc u.ctx).head with
  | some (k, j) =>
    let d := TmeDesc.ofNat j.desc
    if d.op = 4 ∧ s.owns pc u.ctx ∧ s.epochSays pc d = some true then s.setConv pc u.ctx k d else s
  | none => s)

/-- May a transfer of a context end now: it owns the core, or the transfer was in flight when it was parked (R169). -/
def State.tmeMoves (s : State) (pc : Nat) (x : Ctx) : Bool :=
  !(s.core pc).fenced && (s.owns pc x || decide (0 < (s.tme pc x).flight))

/-- A descriptor whose epoch is cancelled frees its buffers and writes nothing (R175). -/
def State.specDiscard (s : State) (pc : Nat) (x : Ctx) (k : Nat) (j : TmeJob) : State :=
  let s := s.freeStaged pc j.staged true
  (s.setTme pc x ((s.tme pc x).modJob k (fun j => { j with staged := [] }))).tmeEnd pc x k stSpecDiscard

/-- R169: the oldest transfer that has not ended completes. A descriptor that ran ahead transfers only once committed;
one that did not commits with its first transfer (R174). -/
def execTmeTransferDone (u : CtxAt) (remote : Option PieceData) (s : State) : Host.Outcome State Fault Refusal :=
  let pc := u.core.val
  let x := u.ctx
  .next (match (s.tme pc x).head with
  | none => s
  | some (k, j) =>
    let d := TmeDesc.ofNat j.desc
    if s.tmeMoves pc x = false then s
    else if j.committed then
      (if d.op = 4 then s.setConv pc x k d else s.tmeTransfer pc x k j d remote)
    else match s.epochSays pc d with
      | none => s
      | some false => s.specDiscard pc x k j
      | some true =>
        if j.ra then s
        else
          let s := s.setTme pc x ((s.tme pc x).modJob k (fun j => { j with committed := true }))
          if d.op = 4 then s.setConv pc x k d else s.tmeTransfer pc x k { j with committed := true } d remote)

/-! ### Run-ahead (R172, R173) -/

/-- Does a source range overlap, at 4 KiB granularity, the destination of an earlier descriptor (R172)? -/
def overlapsDst (src n : Nat) (e : TmeDesc) : Bool :=
  let dst := if e.op = 1 then some (e.dst, e.len) else if e.op = 3 then some (e.dst, 4096 * e.pieces) else none
  match dst with
  | some (a, m) => decide (a / 4096 ≤ (src + n - 1) / 4096) && decide (src / 4096 ≤ (a + m - 1) / 4096)
  | none => false

/-- The first descriptor after the head that may run ahead and has a piece left to try. -/
def TmeCtx.runAhead (t : TmeCtx) (head : Nat) : Option (Nat × TmeJob) :=
  findIdx? (fun (p : Nat × TmeJob) =>
    let d := TmeDesc.ofNat p.2.desc
    decide (head < p.1) && !p.2.ended && !p.2.committed && d.raOk && (d.op == 1 || d.op == 2) && decide (p.2.raNext < d.pieces))
    ((List.range t.jobs.length).zip t.jobs) |>.map (fun r => (r.1, r.2.2))

/-- Staging buffers a context holds. -/
def TmeCtx.held (t : TmeCtx) : Nat := t.jobs.foldl (fun n j => n + j.staged.length) 0

/-- R172, R173, R175: the next piece of a descriptor that runs ahead is read into a staging buffer. A piece that gets no
buffer, faults, reads an error, or comes from a scratch frame is left to be read at commit. -/
def execTmeRunAheadRead (u : CtxAt) (s : State) : Host.Outcome State Fault Refusal :=
  let pc := u.core.val
  let x := u.ctx
  let t := s.tme pc x
  .next (match t.head with
  | none => s
  | some (h, _) =>
    match t.runAhead h with
    | none => s
    | some (k, j) =>
      let d := TmeDesc.ofNat j.desc
      let src := d.source j.raNext
      if !(s.owns pc x) || (t.jobs.take k).any (fun e => !e.ended && overlapsDst src.1 src.2 (TmeDesc.ofNat e.desc)) then s
      else
        let q := s.span (.micro pc x) (s.instOf pc x) .read (x == .timed) 3 src.1 src.2
        let skip (s : State) : State :=
          s.setTme pc x ((s.tme pc x).modJob k (fun j => { j with ra := true, raNext := j.raNext + 1 }))
        match q.1 with
        | .miss => q.2
        | .fault _ _ _ _ => skip q.2
        | .ok segs _ =>
          let scratchFrame := d.op == 1 && segs.any (fun g => match g.1 with
            | .local a => (match s.tierOf a with | .scratch _ _ => true | _ => false)
            | _ => false)
          if scratchFrame then skip q.2
          else if 16 ≤ t.held ∨ q.2.poolCan (64 + clusterOf pc) (x == .timed) = false then
            skip (q.2.bump (TME_RA_REFUSE_CNT pc))
          else
            let r := q.2.readSegs (s.instOf pc x) uTme none 0 segs
            match r.1 with
            | .ok v [] =>
              let o : PoolOwner := { port := pc % 8, inst := s.instOf pc x, gen := s.instGen (s.instOf pc x), timed := x == .timed }
              let g := r.2.poolGrant (64 + clusterOf pc) o
              let st : Staged := { piece := j.raNext, buf := g.1, data := tabulate src.2 (fun i => bits v (8 * i) 8), poison := [] }
              skip (g.2.setTme pc x ((g.2.tme pc x).modJob k (fun j => { j with staged := j.staged ++ [st] })))
            | _ => skip r.2)

/-- R174: the oldest descriptor commits when its epoch, if it has one, is confirmed. -/
def execTmeCommit (u : CtxAt) (s : State) : Host.Outcome State Fault Refusal :=
  let pc := u.core.val
  let x := u.ctx
  .next (match (s.tme pc x).head with
  | none => s
  | some (k, j) =>
    match s.epochSays pc (TmeDesc.ofNat j.desc) with
    | none => s
    | some false => s.specDiscard pc x k j
    | some true => s.setTme pc x ((s.tme pc x).modJob k (fun j => { j with committed := true })))

/-! ### Completion and reset (R165, R170, R171, R175) -/

/-- R170: the oldest accepted descriptor completes once it has ended. -/
def execTmeComplete (u : CtxAt) (s : State) : Host.Outcome State Fault Refusal :=
  let pc := u.core.val
  let x := u.ctx
  let t := s.tme pc x
  .next (match t.jobs with
  | [] => s
  | j :: rest =>
    if j.ended = false then s
    else
      let d := TmeDesc.ofNat j.desc
      let r := complRecord d.tag d.gen j.status + (b2n j.ra) <<< 40 + (b2n d.spec) <<< 41 + (bits j.done 0 22) <<< 42
      let s := s.freeStaged pc j.staged true
      let t := s.tme pc x
      let s := s.setTme pc x { t with jobs := rest, dq := t.dq.complete r }
      (s.modCtx pc x (fun c => c.settleCancels)).raiseEvt pc x d.evt)

/-- Reset of one context's TME queue (R168, R171, R425). -/
def State.tmeReset (s : State) (pc : Nat) (x : Ctx) (status : Nat := stAbortedReset) : State :=
  let s := (s.tme pc x).jobs.foldl (fun (s : State) j => s.freeStaged pc j.staged true) s
  let t := s.tme pc x
  let dq := t.dq.reset (t.jobs.map (fun j => bits j.desc 16 16)) (t.dq.q.items.map (fun i => bits i.data 16 16)) status
  let conv := if status = stPreempted then t.conv else Tbl.mapAll (false, 0) (fun (c : Bool × Nat) => (false, c.2)) t.conv
  let s := s.setTme pc x { t with dq := dq, jobs := [], flight := 0, conv := conv }
  let s := match x with
    | .timed => s.setFld (TME_QGEN pc) 0 16 dq.gen
    | .elastic => s.setFld (TME_QGEN pc) 16 16 dq.gen
  s.modCtx pc x (fun c => c.settleCancels)

def execTmeQreset (core : Fin 512) (t e : Bool) (s : State) : Host.Outcome State Fault Refusal :=
  let s := if t then s.tmeReset core.val .timed else s
  let s := if e then s.tmeReset core.val .elastic else s
  .next (s.answer stOk)

/-- R171: clearing en while a context is not IDLE is refused. -/
def execTmeCtrlWrite (core : Fin 512) (en : Bool) (s : State) : Host.Outcome State Fault Refusal :=
  let busy := !(s.tme core.val .timed).jobs.isEmpty || !(s.tme core.val .elastic).jobs.isEmpty
  .next (if !en && busy then s.refuseReg (TME_CTRL core.val)
  else (s.setFld (TME_CTRL core.val) 0 1 (b2n en)).answer stOk)

end Sys2Proof.Machine
end

