-- ==== Sys2Proof/Machine/Vce.lean ====
section
/-!
DEFINITION. Machine/Vce.lean: the vector complex engines (chapter 05): operands and addressing modes (R129 to R131),
instruction words (R134), the lane arithmetic (R127, R128, R135 to R137), repeats and loops (R138 to R140), descriptors
(R142 to R146).
-/
namespace Sys2Proof.Machine

/-! ### Instruction words (Table 5.3) -/

/-- The fields of an instruction word. -/
structure VWord where
  op : Nat
  fp : Bool
  d : Nat
  a : Nat
  b : Nat
  c : Nat
  x : Nat
  sh : Nat
  cj : Bool
  rsvd : Nat
  imm : Nat
  deriving DecidableEq, Repr

def VWord.ofNat (w : Nat) : VWord :=
  { op := bits w 0 8, fp := bit w 8, d := bits w 9 6, a := bits w 15 6, b := bits w 21 6, c := bits w 27 6,
    x := bits w 33 3, sh := bits w 36 6, cj := bit w 42, rsvd := bits w 43 5, imm := bits w 48 16 }

/-- The opcodes of Table 5.4. -/
def vceOpcodes : List Nat :=
  [0x01, 0x02, 0x10, 0x11, 0x12, 0x13, 0x14, 0x15, 0x16, 0x17, 0x18, 0x19, 0x1A, 0x1B, 0x1C, 0x1D, 0x20, 0x21, 0x22,
   0x23, 0x24, 0x30, 0x31, 0x32, 0x33, 0x34, 0x35, 0x3F]

/-- Opcodes defined for FP32 alone. -/
def vceFpOnly (op : Nat) : Bool := op == 0x1A || op == 0x20 || op == 0x21 || op == 0x22 || op == 0x24

/-! ### A vector: 2,048 bits and the poison of its 64 four-byte units -/

/-- A vector value with its poisoned units. -/
structure VVal where
  v : Nat := 0
  p : Nat := 0
  deriving DecidableEq, Repr

/-- The lanes of a CI16 vector are units; those of an FP32 vector are pairs of units. -/
def VVal.lanePoison (x : VVal) (fp : Bool) (i : Nat) : Bool := if fp then bit x.p (2 * i) || bit x.p (2 * i + 1) else bit x.p i

/-- The bits of lane i. -/
def VVal.lane (x : VVal) (fp : Bool) (i : Nat) : Nat := if fp then bits x.v (64 * i) 64 else bits x.v (32 * i) 32

/-- Real element i: half of a lane. -/
def VVal.elem (x : VVal) (fp : Bool) (i : Nat) : Nat := if fp then bits x.v (32 * i) 32 else bits x.v (16 * i) 16

/-- A vector built from its lanes, each with its poison. -/
def VVal.ofLanes (fp : Bool) (ls : List (Nat × Bool)) : VVal :=
  let w := if fp then 64 else 32
  let u := if fp then 2 else 1
  ls.foldr (fun l (r : VVal) =>
    { v := l.1 % 2 ^ w + r.v <<< w, p := (if l.2 then 2 ^ u - 1 else 0) + r.p <<< u }) {}

/-- Bytes of a vector of the type (R125). -/
def vecBytes (fp : Bool) : Nat := if fp then 256 else 128

/-! ### Addressing (R129 to R131) -/

/-- The low n bits of j reversed. -/
def revBits : Nat → Nat → Nat
  | 0, _ => 0
  | n + 1, j => (j % 2) * 2 ^ n + revBits n (j / 2)

/-- The address Mk gives, and a_k after the post-modification; none in an illegal state (Table 5.2). -/
def VceCtx.address (c : VceCtx) (k : Nat) : Option (Nat × Nat) :=
  let a := Tbl.get 0 c.a k
  let b := Tbl.get 0 c.b k
  let o := Tbl.get (0 : Int) c.o k
  let l := Tbl.get 0 c.l k
  let m := Tbl.get 0 c.m k
  let n := bits m 2 4
  match m % 4 with
  | 0 => some (a, a)
  | 1 => some (a, ofSigned 22 ((a : Int) + o))
  | 2 =>
    if l = 0 ∨ l < o.natAbs ∨ a < b ∨ b + l ≤ a then none
    else
      let r : Int := (a : Int) + o
      let r := if (b : Int) + l ≤ r then r - l else if r < b then r + l else r
      some (a, ofSigned 22 r)
  | _ =>
    if o ≤ 0 ∨ n = 0 ∨ a < b then none
    else
      let st := o.toNat
      if (a - b) % st ≠ 0 ∨ 2 ^ n * st ≤ a - b then none
      else some (b + revBits n ((a - b) / st) * st, ofSigned 22 ((b + (a - b + st) % (2 ^ n * st) : Nat) : Int))

/-- How a destination is written: whole (a register takes zeros above), or only its first bytes (R126). -/
structure VDst where
  spec : Nat
  bytes : Nat
  keep : Bool := false
  deriving DecidableEq, Repr

/-- Bytes that VMOV moves (Table 5.4). -/
def VWord.movBytes (w : VWord) : Nat :=
  match w.imm % 4 with
  | 0 => vecBytes w.fp
  | 1 => 64
  | 2 => 128
  | _ => 256

/-- The source operands an opcode reads: specifier and bytes. -/
def VWord.srcs (w : VWord) : List (Nat × Nat) :=
  let n := vecBytes w.fp
  match w.op with
  | 0x01 => [(w.a, w.movBytes)]
  | 0x02 => if 3 ≤ w.imm % 8 then [(w.a, n), (w.b, n)] else [(w.a, n)]
  | 0x10 | 0x11 | 0x12 | 0x15 | 0x16 | 0x19 | 0x1B | 0x1C => [(w.a, n), (w.b, n)]
  | 0x13 | 0x14 | 0x18 | 0x1A => [(w.a, n), (w.b, n), (w.c, n)]
  | 0x1D | 0x20 | 0x21 | 0x22 | 0x23 | 0x24 => [(w.a, n)]
  | _ => []

/-- Bytes CVTN packs: 128 for BF16, else 64. -/
def VWord.cvtnBytes (w : VWord) : Nat := if w.imm % 16 = 1 then 128 else 64

/-- The destination operands an opcode writes. -/
def VWord.dsts (w : VWord) : List VDst :=
  let n := vecBytes w.fp
  match w.op with
  | 0x01 => [⟨w.d, w.movBytes, w.imm % 4 != 0⟩]
  | 0x15 | 0x16 => []
  | 0x18 => [⟨w.d, n, false⟩, ⟨w.imm % 64, n, false⟩]
  | 0x23 => [⟨w.d, vecBytes (!w.fp), false⟩]
  | 0x24 => [⟨w.d, w.cvtnBytes, false⟩]
  | 0x02 | 0x10 | 0x11 | 0x12 | 0x13 | 0x14 | 0x17 | 0x19 | 0x1A | 0x1B | 0x1C | 0x1D | 0x20 | 0x21 | 0x22 =>
    [⟨w.d, n, false⟩]
  | _ => []

/-- Why a kernel stops at an instruction: its status, with the address of a violation (Table 5.5). -/
structure VStop where
  status : Nat
  cause : Nat := 0
  addr : Nat := 0
  deriving DecidableEq, Repr

/-- Every operand checked: reserved specifiers and illegal addressing states first, then ranges (Table 5.5). -/
def VceCtx.checkOperands (c : VceCtx) (x : Ctx) (ops : List (Nat × Nat)) : Option VStop :=
  if ops.any (fun o => decide (40 ≤ o.1)) then some { status := stState }
  else if ops.any (fun o => decide (32 ≤ o.1) && (c.address (o.1 - 32)).isNone) then some { status := stState }
  else
    ops.findSome? (fun o =>
      if o.1 < 32 then none
      else match c.address (o.1 - 32) with
        | some r =>
          if r.1 % 4 ≠ 0 ∨ inScratch x r.1 o.2 = false then some ⟨stFaultAccess, cScratchRange, r.1⟩ else none
        | none => none)

/-- The poison of the four-byte units of n bytes at a scratch offset. -/
def State.unitPoison (s : State) (pc a n : Nat) : Nat :=
  (List.range (n / 4)).foldl (fun m i => if s.scrPoison pc (a + 4 * i) 4 then m + 2 ^ i else m) 0

/-- The stretch of scratch that an operand reads. -/
def VceCtx.operandSpan (c : VceCtx) (o : Nat × Nat) : Option (Nat × Nat) :=
  if o.1 < 32 then none else (c.address (o.1 - 32)).map (fun r => (r.1, o.2))

/-- Read an operand. -/
def State.vceRead (s : State) (pc : Nat) (c : VceCtx) (o : Nat × Nat) : VVal :=
  if o.1 < 32 then
    { v := bits (Tbl.get 0 c.v o.1) 0 (8 * o.2), p := bits (Tbl.get 0 c.vp o.1) 0 (o.2 / 4) }
  else
    let a := match c.address (o.1 - 32) with | some r => r.1 | none => 0
    { v := s.scrLoad pc a o.2, p := s.unitPoison pc a o.2 }

/-- Poison the words under the units of a mask, from unit i on. -/
def State.poisonUnits (s : State) (pc a p n : Nat) : State :=
  (List.range n).foldl (fun s i => if bit p i then s.scrPoisonSet pc (a + 4 * i) 4 else s) s

/-- Write a destination (R126, R141): a register, or the scratch bytes with the syndrome for poisoned units. -/
def State.vceWrite (s : State) (pc : Nat) (c : VceCtx) (d : VDst) (v : VVal) : State × VceCtx :=
  if d.spec < 32 then
    let ov := if d.keep then Tbl.get 0 c.v d.spec else 0
    let op := if d.keep then Tbl.get 0 c.vp d.spec else 0
    (s, { c with v := Tbl.put 0 c.v d.spec (setBits ov 0 (8 * d.bytes) v.v),
                 vp := Tbl.put 0 c.vp d.spec (setBits op 0 (d.bytes / 4) v.p) })
  else
    let a := match c.address (d.spec - 32) with | some r => r.1 | none => 0
    ((s.scrWrite pc a d.bytes (v.v % 2 ^ (8 * d.bytes))).poisonUnits pc a v.p (d.bytes / 4), c)

/-- Every address register named by an operand is post-modified once (R131). -/
def VceCtx.postModify (c : VceCtx) (ops : List Nat) : VceCtx :=
  (List.range 8).foldl (fun (c : VceCtx) k =>
    if ops.contains (32 + k) then
      match c.address k with
      | some r => { c with a := Tbl.put 0 c.a k r.2 }
      | none => c
    else c) c

/-! ### Lane arithmetic -/

/-- The value an instruction gives: its outputs in destination order, flags, an accumulator it writes. -/
structure VRes where
  outs : List VVal := []
  flags : NumFlags := {}
  acc : Option VceAcc := none
  deriving DecidableEq, Repr

def sat16 (i : Int) : Nat × NumFlags := ci16Component i 0

/-- A lane as two signed components (CI16). -/
def ciLane (x : Nat) : Int × Int := (toSigned 16 (bits x 0 16), toSigned 16 (bits x 16 16))

/-- A CI16 lane from two exact components. -/
def ciJoin (i q : Int) : Nat × NumFlags :=
  let a := sat16 i
  let b := sat16 q
  (a.1 + b.1 <<< 16, a.2.or b.2)

/-- A lane as two FP32 values. -/
def fpLane (x : Nat) : Num × Num := (fp32 (bits x 0 32), fp32 (bits x 32 32))

/-- An FP32 lane from two exact components, each rounded once (R127). -/
def fpJoin (anyNan : Bool) (i q : Num) : Nat × NumFlags :=
  let a := fp32Result anyNan i
  let b := fp32Result anyNan q
  (a.1 + b.1 <<< 32, a.2.or b.2)

/-- The exact complex product of two FP32 lanes, b conjugated when cj; which components have a NaN input. -/
def fpProduct (a b : Nat) (cj : Bool) : Num × Num :=
  let x := fpLane a
  let y := fpLane b
  let q := if cj then y.2.neg else y.2
  ((x.1.mul y.1).add (x.2.mul q).neg, (x.1.mul q).add (x.2.mul y.1))

def fpNan (x : Nat) : Bool := (fpLane x).1.isNan || (fpLane x).2.isNan

/-- Apply a function of lanes to every lane: poison of any source lane poisons the result (R141). -/
def laneMap (fpIn fpOut : Bool) (srcs : List VVal) (f : List Nat → Nat × NumFlags) : VRes :=
  let rs := tabulate 32 (fun i => (f (srcs.map (fun s => s.lane fpIn i)), srcs.any (fun s => s.lanePoison fpIn i)))
  { outs := [VVal.ofLanes fpOut (rs.map (fun r => (r.1.1, r.2)))],
    flags := rs.foldl (fun a r => a.or r.1.2) {} }

/-- Apply a function of real elements to both components of every lane. -/
def realMap (fp : Bool) (srcs : List VVal) (f : List Nat → Nat × NumFlags) : VRes :=
  let w := if fp then 32 else 16
  laneMap fp fp srcs (fun ls =>
    let lo := f (ls.map (fun l => bits l 0 w))
    let hi := f (ls.map (fun l => bits l w w))
    (lo.1 % 2 ^ w + hi.1 <<< w, lo.2.or hi.2))

/-- The lanes of VPERM (Table 5.4): the source vector (0 a, 1 b) and lane of output lane i. -/
def permLane (sel i : Nat) : Nat × Nat :=
  match sel with
  | 0 => (0, 31 - i)
  | 1 => (0, revBits 5 i)
  | 2 => (0, (i + 16) % 32)
  | 3 => (i % 2, i / 2)
  | 4 => (i % 2, 16 + i / 2)
  | 5 => (i / 16, 2 * (i % 16))
  | _ => (i / 16, 2 * (i % 16) + 1)

/-- The sum tree of VSUM (R137): neighbours added until one is left. -/
def pairTree (f : Nat → Nat → Nat × NumFlags) : Nat → List Nat → NumFlags → Nat × NumFlags
  | 0, l, fl => (l.headD 0, fl)
  | n + 1, l, fl =>
    let ps := tabulate (l.length / 2) (fun j => f (listGet 0 l (2 * j)) (listGet 0 l (2 * j + 1)))
    pairTree f n (ps.map (·.1)) (ps.foldl (fun a p => a.or p.2) fl)

/-- The larger or smaller of two real elements (Table 5.4). -/
def fpMaxMin (max : Bool) (a b : Nat) : Nat :=
  let x := fp32 a
  let y := fp32 b
  if x.isNan || y.isNan then 0x7FC00000
  else if x.isZero && y.isZero then (if max then (if x.isNeg then b else a) else (if x.isNeg then a else b))
  else if (if max then x.lt y else y.lt x) then b else a

def ciMaxMin (max : Bool) (a b : Nat) : Nat :=
  if (if max then decide (toSigned 16 a < toSigned 16 b) else decide (toSigned 16 b < toSigned 16 a)) then b else a

/-- A CI16 product component pair under the shift (R128). -/
def ciShifted (a b : Nat) (cj : Bool) (sh : Nat) : Int × Int :=
  let p := ci16Mul a b cj
  (roundHalfUpShift p.1 sh, roundHalfUpShift p.2 sh)

/-- CMUL, CFMA, CFMS on one lane: c + sgn × (a × b̃), without c for CMUL. -/
def VWord.complexLane (w : VWord) (a b : Nat) (c : Option Nat) (sub : Bool) : Nat × NumFlags :=
  if w.fp then
    let p := fpProduct a b w.cj
    let p := if sub then (p.1.neg, p.2.neg) else p
    match c with
    | none => fpJoin (fpNan a || fpNan b) p.1 p.2
    | some c => fpJoin (fpNan a || fpNan b || fpNan c) ((fpLane c).1.add p.1) ((fpLane c).2.add p.2)
  else
    let p := ciShifted a b w.cj w.sh
    let p := if sub then (-p.1, -p.2) else p
    match c with
    | none => ciJoin p.1 p.2
    | some c => ciJoin ((ciLane c).1 + p.1) ((ciLane c).2 + p.2)

/-- One component of an accumulator: the held value plus an exact product component (R48, R127). -/
def accAdd (fp : Bool) (held : Option Nat) (prod : Num ⊕ Int) (anyNan : Bool) : Nat × NumFlags :=
  match prod with
  | .inl p =>
    match held with
    | some h => fp64Result (anyNan || (fp64 h).isNan) ((fp64 h).add p)
    | none => fp64Result anyNan p
  | .inr p =>
    let r := sat64 ((match held with | some h => toSigned 64 h | none => 0) + p)
    (if fp then 0 else ofSigned 64 r.1, r.2)

/-- CMAC (keep = true) and CMACI (R127). -/
def VWord.accumulate (w : VWord) (old : VceAcc) (a b : VVal) (keep : Bool) : VRes :=
  let rs := tabulate 32 (fun i =>
    let la := a.lane w.fp i
    let lb := b.lane w.fp i
    let held (c : Nat) : Option Nat := if keep then some (Tbl.get 0 old.vals (2 * i + c)) else none
    let nan := w.fp && (fpNan la || fpNan lb)
    let p0 : Num ⊕ Int := if w.fp then .inl (fpProduct la lb w.cj).1 else .inr (ci16Mul la lb w.cj).1
    let p1 : Num ⊕ Int := if w.fp then .inl (fpProduct la lb w.cj).2 else .inr (ci16Mul la lb w.cj).2
    ((accAdd w.fp (held 0) p0 nan, accAdd w.fp (held 1) p1 nan),
     a.lanePoison w.fp i || b.lanePoison w.fp i || (keep && bit old.poison i)))
  let vals := (List.range 32).foldl (fun t i =>
    let r := listGet (((0, {}), (0, {})), false) rs i
    Tbl.put 0 (Tbl.put 0 t (2 * i) r.1.1.1) (2 * i + 1) r.1.2.1) ([] : List (Nat × Nat))
  { flags := rs.foldl (fun f r => (f.or r.1.1.2).or r.1.2.2) {},
    acc := some { fp := w.fp, vals := vals, poison := (List.range 32).foldl (fun m i =>
      if (listGet (((0, {}), (0, {})), false) rs i).2 then m + 2 ^ i else m) 0 } }

/-- ACCRD (R127, R128). -/
def VWord.readAcc (w : VWord) (acc : VceAcc) : VRes :=
  let comp (k : Nat) : Nat × NumFlags :=
    let v := Tbl.get 0 acc.vals k
    if w.fp then
      let r := FFmt.fp32.convert .rne false (fp64 v)
      (r.1, { ovf := r.2.ovf })
    else ci16Component (toSigned 64 v) w.sh
  let rs := tabulate 32 (fun i =>
    let a := comp (2 * i)
    let b := comp (2 * i + 1)
    (a.1 + b.1 <<< (if w.fp then 32 else 16), a.2.or b.2, bit acc.poison i))
  { outs := [VVal.ofLanes w.fp (rs.map (fun r => (r.1, r.2.2)))], flags := rs.foldl (fun f r => f.or r.2.1) {} }

/-- The butterfly of one lane (R136): both outputs. -/
def VWord.butterfly (w : VWord) (a b c : Nat) : (Nat × NumFlags) × (Nat × NumFlags) :=
  if w.fp then
    let nan := fpNan b || fpNan c
    let p := fpProduct b c w.cj
    let ti := fp32Result nan p.1
    let tq := fp32Result nan p.2
    let x := fpLane a
    let t := (fp32 ti.1, fp32 tq.1)
    let nan2 := fpNan a || t.1.isNan || t.2.isNan
    let f := ti.2.or tq.2
    let u := fpJoin nan2 (x.1.add t.1) (x.2.add t.2)
    let v := fpJoin nan2 (x.1.add t.1.neg) (x.2.add t.2.neg)
    ((u.1, u.2.or f), (v.1, v.2.or f))
  else
    let p := ci16Mul b c w.cj
    let t := (roundHalfUpShift p.1 15, roundHalfUpShift p.2 15)
    let x := ciLane a
    (ciJoin (roundHalfUpShift (x.1 + t.1) w.sh) (roundHalfUpShift (x.2 + t.2) w.sh),
     ciJoin (roundHalfUpShift (x.1 - t.1) w.sh) (roundHalfUpShift (x.2 - t.2) w.sh))

/-- CVT with ty = 1 on one FP32 component: CI16 of a × 2^sh. -/
def cvtToCi (sh x : Nat) : Nat × NumFlags :=
  match fp32 x with
  | .nan => (0, { inv := true })
  | .inf neg => (if neg then 0x8000 else 0x7FFF, { ovf := true })
  | .fin neg m e => sat16 (finRoundHalfUp neg m (e + sh))

/-- CVTN of one element. -/
def cvtnElem (ctl : NumCtl) (x : Nat) : Nat × NumFlags :=
  if ctl.fmt = 13 then convertInt8 (fp32 x)
  else ((elemFmt ctl.fmt).getD .bf16).convert ctl.rndMode ctl.sat (fp32 x)

/-- CVTN (Table 5.4): 64 elements packed; a poisoned lane poisons the units its elements reach. -/
def VWord.convertNarrow (w : VWord) (a : VVal) : VRes :=
  let ctl := NumCtl.ofByte (w.imm % 256)
  let eb := if ctl.fmt = 1 then 2 else 1
  let es := tabulate 64 (fun i => cvtnElem ctl (a.elem true i))
  let v := (List.range 64).foldl (fun n i => n + ((listGet (0, {}) es i).1 % 2 ^ (8 * eb)) <<< (8 * eb * i)) 0
  let p := (List.range (16 * eb)).foldl (fun m u =>
    if (List.range (4 / eb)).any (fun k => a.lanePoison true ((u * (4 / eb) + k) / 2)) then m + 2 ^ u else m) 0
  { outs := [⟨v, p⟩], flags := es.foldl (fun f e => f.or e.2) {} }

/-- VEXP, VRCP and VRSQ in their two forms (R137). -/
def VWord.function (w : VWord) (a : VVal) (f : Nat → Nat × NumFlags) : VRes :=
  laneMap true true [a] (fun ls =>
    let l := ls.headD 0
    let i := f (bits l 0 32)
    if w.imm % 2 = 1 then
      let q := f (bits l 32 32)
      (i.1 + q.1 <<< 32, i.2.or q.2)
    else i)

/-- A VSUM result in every element (R137). -/
def VWord.sum (w : VWord) (a : VVal) : VRes :=
  let es := tabulate 64 (a.elem w.fp)
  let r := if w.fp then pairTree fp32Add 6 es {}
    else pairTree (fun x y => sat16 (toSigned 16 x + toSigned 16 y)) 6 es {}
  let wd := if w.fp then 32 else 16
  let bad := (List.range 32).any (a.lanePoison w.fp)
  { outs := [VVal.ofLanes w.fp (tabulate 32 (fun _ => (r.1 + r.1 <<< wd, bad)))], flags := r.2 }

/-- What an instruction computes from its sources (Table 5.4); none is STATE (Table 5.5). -/
def VWord.compute (w : VWord) (c : VceCtx) (src : List VVal) : Option VRes :=
  let a := listGet {} src 0
  let b := listGet {} src 1
  let z := listGet {} src 2
  let acc := Tbl.get ({} : VceAcc) c.acc w.x
  match w.op with
  | 0x01 => some { outs := [a] }
  | 0x02 =>
    if w.imm % 8 = 7 then none
    else some { outs := [VVal.ofLanes w.fp (tabulate 32 (fun i =>
      let p := permLane (w.imm % 8) i
      let s := if p.1 = 0 then a else b
      (s.lane w.fp p.2, s.lanePoison w.fp p.2)))] }
  | 0x10 => some (realMap w.fp [a, b] (fun l =>
      let x := listGet 0 l 0
      let y := listGet 0 l 1
      if w.fp then fp32Add x y else sat16 (toSigned 16 x + toSigned 16 y)))
  | 0x11 => some (realMap w.fp [a, b] (fun l =>
      let x := listGet 0 l 0
      let y := listGet 0 l 1
      if w.fp then fp32Sub x y else sat16 (toSigned 16 x - toSigned 16 y)))
  | 0x12 => some (laneMap w.fp w.fp [a, b] (fun l => w.complexLane (listGet 0 l 0) (listGet 0 l 1) none false))
  | 0x13 => some (laneMap w.fp w.fp [a, b, z]
      (fun l => w.complexLane (listGet 0 l 0) (listGet 0 l 1) (some (listGet 0 l 2)) false))
  | 0x14 => some (laneMap w.fp w.fp [a, b, z]
      (fun l => w.complexLane (listGet 0 l 0) (listGet 0 l 1) (some (listGet 0 l 2)) true))
  | 0x15 => if acc.fp = w.fp then some (w.accumulate acc a b true) else none
  | 0x16 => some (w.accumulate acc a b false)
  | 0x17 => if acc.fp = w.fp then some (w.readAcc acc) else none
  | 0x18 =>
    if w.fp ∧ w.sh ≠ 0 then none
    else
      let u := laneMap w.fp w.fp [a, b, z] (fun l => (w.butterfly (listGet 0 l 0) (listGet 0 l 1) (listGet 0 l 2)).1)
      let v := laneMap w.fp w.fp [a, b, z] (fun l => (w.butterfly (listGet 0 l 0) (listGet 0 l 1) (listGet 0 l 2)).2)
      some { outs := u.outs ++ v.outs, flags := u.flags.or v.flags }
  | 0x19 => some (realMap w.fp [a, b] (fun l =>
      let x := listGet 0 l 0
      let y := listGet 0 l 1
      if w.fp then fp32Mul x y else ci16Component (toSigned 16 x * toSigned 16 y) w.sh))
  | 0x1A => some (realMap true [a, b, z] (fun l => fp32Fma (listGet 0 l 0) (listGet 0 l 1) (listGet 0 l 2)))
  | 0x1B => some (realMap w.fp [a, b] (fun l =>
      (if w.fp then fpMaxMin true (listGet 0 l 0) (listGet 0 l 1) else ciMaxMin true (listGet 0 l 0) (listGet 0 l 1), {})))
  | 0x1C => some (realMap w.fp [a, b] (fun l =>
      (if w.fp then fpMaxMin false (listGet 0 l 0) (listGet 0 l 1) else ciMaxMin false (listGet 0 l 0) (listGet 0 l 1), {})))
  | 0x1D => some (w.sum a)
  | 0x20 => some (w.function a (fun x => vexp x (Config.expPick x)))
  | 0x21 => some (w.function a (fun x => vrcp x (Config.rcpPick x)))
  | 0x22 => some (w.function a (fun x => vrsq x (Config.rsqPick x)))
  | 0x23 =>
    if w.fp then
      some (laneMap true false [a] (fun l =>
        let x := l.headD 0
        let i := cvtToCi w.sh (bits x 0 32)
        let q := cvtToCi w.sh (bits x 32 32)
        (i.1 + q.1 <<< 16, i.2.or q.2)))
    else
      some (laneMap false true [a] (fun l =>
        let x := ciLane (l.headD 0)
        let f (i : Int) : Nat := (FFmt.fp32.convert .rne false ((Num.ofInt i).scale (-w.sh))).1
        (f x.1 + f x.2 <<< 32, {})))
  | 0x24 =>
    let ctl := NumCtl.ofByte (w.imm % 256)
    if !ctl.ok || bit w.imm 7 || !(ctl.fmt == 1 || ctl.fmt == 2 || ctl.fmt == 3 || ctl.fmt == 13) then none
    else some (w.convertNarrow a)
  | _ => none

/-! ### The context of a VCE in the state -/

def CoreCtx.vce (c : CoreCtx) (v : Nat) : VceCtx := if v = 0 then c.vce0 else c.vce1

def CoreCtx.setVce (c : CoreCtx) (v : Nat) (x : VceCtx) : CoreCtx := if v = 0 then { c with vce0 := x } else { c with vce1 := x }

def State.vce (s : State) (pc v : Nat) (x : Ctx) : VceCtx := (s.ctx pc x).vce v

def State.setVce (s : State) (pc v : Nat) (x : Ctx) (c : VceCtx) : State := s.modCtx pc x (fun k => k.setVce v c)

def vceFaultReg (pc v : Nat) : Ctx → Nat
  | .timed => VCE_FAULT_T pc v
  | .elastic => VCE_FAULT_E pc v

def vceFlagsReg (pc v : Nat) : Ctx → Nat
  | .timed => VCE_FLAGS_T pc v
  | .elastic => VCE_FLAGS_E pc v

def vceInstrReg (pc v : Nat) : Ctx → Nat
  | .timed => VCE_INSTR_T pc v
  | .elastic => VCE_INSTR_E pc v

/-- The repeat and loop state as the register shows it (Table 5.14). -/
def VceCtx.rptReg (c : VceCtx) : Nat :=
  bits c.rptLeft 0 16 + (bits c.rptPc 0 15) <<< 16 + (b2n c.rptActive) <<< 31 + (bits c.loopLeft 0 16) <<< 32
    + (bits c.loopPc 0 15) <<< 48 + (b2n c.loopActive) <<< 63

/-- The first kernel error of a context since the last read (Table 5.15). -/
def State.noteVceFault (s : State) (pc v : Nat) (x : Ctx) (status w tag : Nat) : State :=
  if s.fld (vceFaultReg pc v x) 0 1 = 1 then s
  else s.setReg (vceFaultReg pc v x) (1 + (bits status 0 8) <<< 1 + (bits w 0 15) <<< 9 + (bits tag 0 16) <<< 24)

/-- Stop the running kernel with a status (R141). -/
def State.vceStop (s : State) (pc v : Nat) (x : Ctx) (e : VStop) : State :=
  let c := s.vce pc v x
  let tag := match c.job with | some j => j.tag | none => 0
  let s := s.setVce pc v x { c with job := c.job.map (fun j => { j with stop := some e.status }), rptActive := false, runLeft := 0 }
  let s := if e.status = stState then s.stateAt pc x 0 else s
  let s := if e.status = stOk then s else s.noteVceFault pc v x e.status c.pc tag
  if e.status = stFaultAccess then s.charge (s.faultOf pc x uVce tag e.status e.cause e.addr 0) else s

def otherCtx : Ctx → Ctx
  | .timed => .elastic
  | .elastic => .timed

/-- Is a run of the other context still to end (R139, R147)? -/
def State.runBlocks (s : State) (pc v : Nat) (x : Ctx) : Bool :=
  let o := s.vce pc v (otherCtx x)
  o.job.isSome && decide (0 < o.runLeft)

/-- May the kernel of a context issue now: it is running, and its context owns the core or is inside a run (R139, R145,
R147)? -/
def State.vceMayIssue (s : State) (pc v : Nat) (x : Ctx) : Bool :=
  let c := s.vce pc v x
  (match c.job with
    | some j => (match j.stop with | none => true | some _ => j.cancelled && decide (0 < c.runLeft))
    | none => false)
    && ((s.owns pc x && !s.runBlocks pc v x) || decide (0 < c.runLeft)) && !(s.core pc).fenced

/-- The word after an instruction, with the loop's return to its start (R140). -/
def VceCtx.goto (c : VceCtx) (next : Nat) : VceCtx :=
  if c.loopActive && decide (c.loopPc + c.loopLen ≤ next) then
    if 1 < c.loopLeft then { c with pc := c.loopPc, loopLeft := c.loopLeft - 1 }
    else { c with pc := next, loopLeft := 0, loopActive := false }
  else { c with pc := next }

/-- Runs of a repeat (R139): at most 16 iterations in the elastic context, and of a timed repeat that started in a guard
interval (R249); all of it in the timed context otherwise. -/
def runSize (x : Ctx) (short : Bool) (left : Nat) : Nat :=
  match x with | .timed => if short then min 16 left else left | .elastic => min 16 left

/-- After one iteration: the repeat goes on, or the next instruction follows (R138). -/
def VceCtx.advance (c : VceCtx) (x : Ctx) : VceCtx :=
  if c.rptActive then
    let run := if c.runLeft = 0 then runSize x c.rptShort c.rptLeft else c.runLeft
    let left := c.rptLeft - 1
    if left = 0 then { c with rptActive := false, rptLeft := 0, runLeft := 0 }.goto (c.pc + 1)
    else { c with rptLeft := left, runLeft := run - 1 }
  else c.goto (c.pc + 1)

/-- Issue the word at the kernel's pc when its opcode is op: k is its effect. A word whose opcode no command names stops
the kernel at any of them. -/
def State.vceIssue (s : State) (u : VceAt) (op : Nat) (k : State → VWord → State) : State :=
  let pc := u.core.val
  let v := u.v.val
  let x := u.ctx
  let c := s.vce pc v x
  if s.vceMayIssue pc v x = false then s
  else if inProgram x c.pc = false then s.vceStop pc v x ⟨stFaultAccess, cProgramRange, 8 * c.pc⟩
  else
    let w := VWord.ofNat (Tbl.get 0 (s.core pc).pm c.pc)
    if w.op ≠ op ∧ vceOpcodes.contains w.op then s
    else
      let f := s.fetchPm pc c.pc u.fetch
      if f.1 then f.2.vceStop pc v x { status := stPoison }
      else if w.op ≠ op ∨ w.rsvd ≠ 0 ∨ (vceFpOnly op ∧ w.fp = false) then f.2.vceStop pc v x { status := stState }
      else k (f.2.bump64 (vceInstrReg pc v x) 1) w

/-- Note flags on the running kernel. -/
def VceCtx.noteFlags (c : VceCtx) (f : NumFlags) : VceCtx :=
  { c with job := c.job.map (fun j => { j with flags := j.flags.or f }) }

/-- The operands of an instruction: specifier and bytes. -/
def VWord.operands (w : VWord) : List (Nat × Nat) := w.srcs ++ w.dsts.map (fun d => (d.spec, d.bytes))

/-- The end of an instruction with vector operands that has read src and computed r: writes, post-modification, flags, the next word. -/
def State.vceResult (s : State) (u : VceAt) (w : VWord) (src : List VVal) (r : VRes) : State :=
  let pc := u.core.val
  let c := s.vce pc u.v.val u.ctx
  let accPoison := (w.op == 0x15 || w.op == 0x17) && (Tbl.get ({} : VceAcc) c.acc w.x).poison != 0
  let poison := src.any (fun q => q.p != 0) || accPoison
  let s := s.scrSpans pc (w.srcs.filterMap (fun o => c.operandSpan o))
  let q := (w.dsts.zip r.outs).foldl (fun (a : State × VceCtx) d => a.1.vceWrite pc a.2 d.1 d.2) (s, c)
  let c := q.2
  let c := match r.acc with | some a => { c with acc := Tbl.put ({} : VceAcc) c.acc w.x a } | none => c
  let c := c.postModify (w.operands.map (·.1))
  q.1.setVce pc u.v.val u.ctx ((c.noteFlags { r.flags with poison := poison }).advance u.ctx)

/-- The effect of an instruction with vector operands (opcodes 0x01 to 0x24): checks, reads, the result. -/
def State.vceOp (s : State) (u : VceAt) (w : VWord) : State :=
  let pc := u.core.val
  let c := s.vce pc u.v.val u.ctx
  match c.checkOperands u.ctx w.operands with
  | some e => s.vceStop pc u.v.val u.ctx e
  | none =>
    let src := w.srcs.map (fun o => s.vceRead pc c o)
    match w.compute c src with
    | none => s.vceStop pc u.v.val u.ctx { status := stState }
    | some r => s.vceResult u w src r

/-! ### Meanings of the instructions -/

def execVmov (u : VceAt) (s : State) : Host.Outcome State Fault Refusal := .next (s.vceIssue u 0x01 (fun s w => s.vceOp u w))
def execVperm (u : VceAt) (s : State) : Host.Outcome State Fault Refusal := .next (s.vceIssue u 0x02 (fun s w => s.vceOp u w))
def execVadd (u : VceAt) (s : State) : Host.Outcome State Fault Refusal := .next (s.vceIssue u 0x10 (fun s w => s.vceOp u w))
def execVsub (u : VceAt) (s : State) : Host.Outcome State Fault Refusal := .next (s.vceIssue u 0x11 (fun s w => s.vceOp u w))
def execCmul (u : VceAt) (s : State) : Host.Outcome State Fault Refusal := .next (s.vceIssue u 0x12 (fun s w => s.vceOp u w))
def execCfma (u : VceAt) (s : State) : Host.Outcome State Fault Refusal := .next (s.vceIssue u 0x13 (fun s w => s.vceOp u w))
def execCfms (u : VceAt) (s : State) : Host.Outcome State Fault Refusal := .next (s.vceIssue u 0x14 (fun s w => s.vceOp u w))
def execCmac (u : VceAt) (s : State) : Host.Outcome State Fault Refusal := .next (s.vceIssue u 0x15 (fun s w => s.vceOp u w))
def execCmaci (u : VceAt) (s : State) : Host.Outcome State Fault Refusal := .next (s.vceIssue u 0x16 (fun s w => s.vceOp u w))
def execAccrd (u : VceAt) (s : State) : Host.Outcome State Fault Refusal := .next (s.vceIssue u 0x17 (fun s w => s.vceOp u w))
def execBfly (u : VceAt) (s : State) : Host.Outcome State Fault Refusal := .next (s.vceIssue u 0x18 (fun s w => s.vceOp u w))
def execRmul (u : VceAt) (s : State) : Host.Outcome State Fault Refusal := .next (s.vceIssue u 0x19 (fun s w => s.vceOp u w))
def execRfma (u : VceAt) (s : State) : Host.Outcome State Fault Refusal := .next (s.vceIssue u 0x1A (fun s w => s.vceOp u w))
def execVmax (u : VceAt) (s : State) : Host.Outcome State Fault Refusal := .next (s.vceIssue u 0x1B (fun s w => s.vceOp u w))
def execVmin (u : VceAt) (s : State) : Host.Outcome State Fault Refusal := .next (s.vceIssue u 0x1C (fun s w => s.vceOp u w))
def execVsum (u : VceAt) (s : State) : Host.Outcome State Fault Refusal := .next (s.vceIssue u 0x1D (fun s w => s.vceOp u w))
def execVexp (u : VceAt) (s : State) : Host.Outcome State Fault Refusal := .next (s.vceIssue u 0x20 (fun s w => s.vceOp u w))
def execVrcp (u : VceAt) (s : State) : Host.Outcome State Fault Refusal := .next (s.vceIssue u 0x21 (fun s w => s.vceOp u w))
def execVrsq (u : VceAt) (s : State) : Host.Outcome State Fault Refusal := .next (s.vceIssue u 0x22 (fun s w => s.vceOp u w))
def execCvt (u : VceAt) (s : State) : Host.Outcome State Fault Refusal := .next (s.vceIssue u 0x23 (fun s w => s.vceOp u w))
def execCvtn (u : VceAt) (s : State) : Host.Outcome State Fault Refusal := .next (s.vceIssue u 0x24 (fun s w => s.vceOp u w))

/-- The running context of the issuing VCE changed by f. -/
def State.vceCtl (s : State) (u : VceAt) (f : VceCtx → VceCtx) : State :=
  s.setVce u.core.val u.v.val u.ctx (f (s.vce u.core.val u.v.val u.ctx))

/-- RPT (R138): the next instruction must be one of opcodes 0x01 to 0x24. -/
def execRpt (u : VceAt) (s : State) : Host.Outcome State Fault Refusal :=
  .next (s.vceIssue u 0x30 (fun s w =>
    let c := s.vce u.core.val u.v.val u.ctx
    let nextOp := bits (Tbl.get 0 (s.core u.core.val).pm (c.pc + 1)) 0 8
    if nextOp = 0 ∨ 0x24 < nextOp then s.vceStop u.core.val u.v.val u.ctx { status := stState }
    else if w.imm = 0 then s.vceCtl u (fun c => c.goto (c.pc + 2))
    else s.vceCtl u (fun c => { c with pc := c.pc + 1, rptActive := true,
                                       rptShort := List.contains s.guards (s.core u.core.val).group, rptLeft := w.imm, rptPc := c.pc + 1, runLeft := 0 })))

/-- LOOP (R140). -/
def execLoop (u : VceAt) (s : State) : Host.Outcome State Fault Refusal :=
  .next (s.vceIssue u 0x31 (fun s w =>
    let c := s.vce u.core.val u.v.val u.ctx
    if w.d = 0 ∨ c.loopActive then s.vceStop u.core.val u.v.val u.ctx { status := stState }
    else if w.imm = 0 then s.vceCtl u (fun c => { c with pc := c.pc + 1 + w.d })
    else s.vceCtl u (fun c =>
      { c with pc := c.pc + 1, loopActive := true, loopLeft := w.imm, loopPc := c.pc + 1, loopLen := w.d })))

def execSeta (u : VceAt) (s : State) : Host.Outcome State Fault Refusal :=
  .next (s.vceIssue u 0x32 (fun s w => s.vceCtl u (fun c =>
    { c with a := Tbl.put 0 c.a w.x (w.imm * 64), b := Tbl.put 0 c.b w.x (w.imm * 64) }.goto (c.pc + 1))))

def execSeto (u : VceAt) (s : State) : Host.Outcome State Fault Refusal :=
  .next (s.vceIssue u 0x33 (fun s w => s.vceCtl u (fun c =>
    { c with o := Tbl.put (0 : Int) c.o w.x (toSigned 16 w.imm * 4) }.goto (c.pc + 1))))

def execSetl (u : VceAt) (s : State) : Host.Outcome State Fault Refusal :=
  .next (s.vceIssue u 0x34 (fun s w => s.vceCtl u (fun c =>
    { c with l := Tbl.put 0 c.l w.x (w.imm * 64) }.goto (c.pc + 1))))

def execSetm (u : VceAt) (s : State) : Host.Outcome State Fault Refusal :=
  .next (s.vceIssue u 0x35 (fun s w => s.vceCtl u (fun c =>
    { c with m := Tbl.put 0 c.m w.x (bits w.imm 0 2 + 4 * bits w.imm 4 4) }.goto (c.pc + 1))))

/-- END (Table 5.4): the kernel ends at this word. -/
def execEndKernel (u : VceAt) (s : State) : Host.Outcome State Fault Refusal :=
  .next (s.vceIssue u 0x3F (fun s _ => s.vceStop u.core.val u.v.val u.ctx { status := stOk }))

/-! ### Descriptors (R142 to R146, R148) -/

/-- Reserved opcode or bits of a descriptor (Table 5.6). -/
def vceReserved (d : Nat) : Bool :=
  bits d 0 8 != 1 || bits d 8 8 != 0 || bits d 56 8 != 0 || bits d 79 17 != 0 || bits d 352 160 != 0
    || (List.range 8).any (fun i => bits d (32 * i + 118) 10 != 0)

/-- VCE_RUN (R143): the head of the queue is accepted. -/
def execVceRun (u : VceAt) (s : State) : Host.Outcome State Fault Refusal :=
  let pc := u.core.val
  let v := u.v.val
  let x := u.ctx
  let c := s.vce pc v x
  .next (if !(s.owns pc x) || s.runBlocks pc v x || s.fld (VCE_CTRL pc v) 0 1 == 0 || c.job.isSome || !c.dq.canAccept then s
  else match c.dq.q.pop with
    | none => s
    | some (i, q) =>
      let d := i.data
      let entry := bits d 64 15
      let j : VceJob := { tag := bits d 16 16, gen := bits d 32 16, evt := bits d 48 8 }
      if j.gen ≠ c.dq.gen then (s.setVce pc v x { c with dq := { c.dq with q := q } }).bump (VCE_STALE_CNT pc v)
      else
        let c := { c with dq := { c.dq with q := q, reserved := c.dq.reserved + 1 } }
        let stop (st : Nat) : State := s.setVce pc v x { c with pc := 0, job := some { j with stop := some st } }
        if i.poison then stop stPoison
        else if vceReserved d then (stop stState).stateAt pc x (bits d 0 8)
        else if inProgram x entry = false then
          (stop stFaultAccess).charge (s.faultOf pc x uVce j.tag stFaultAccess cProgramRange (8 * entry) 0)
        else
          let a := (List.range 8).foldl (fun t k => Tbl.put 0 t k (bits d (32 * k + 96) 22)) []
          s.setVce pc v x { c with pc := entry, a := a, b := a, o := [], l := [], m := [], job := some j,
                                   rptActive := false, rptLeft := 0, runLeft := 0, loopActive := false, loopLeft := 0 })

/-- R144: the kernel's completion record, sticky flags and event. -/
def execVceComplete (u : VceAt) (s : State) : Host.Outcome State Fault Refusal :=
  let pc := u.core.val
  let v := u.v.val
  let x := u.ctx
  let c := s.vce pc v x
  .next (match c.job with
  | none => s
  | some j =>
    match j.stop with
    | none => s
    | some st =>
      if decide (0 < c.runLeft) || !(s.owns pc x) then s
      else
        let st := if st = stOk ∧ j.flags.poison then stPoison else st
        let fb := b2n j.flags.inv + 2 * b2n j.flags.ovf + 4 * b2n j.flags.sat
        let r := complRecord j.tag j.gen st + fb <<< 40 + (b2n j.parked) <<< 43 + (bits c.pc 0 15) <<< 44
        let s := s.setVce pc v x { c with dq := c.dq.complete r, job := none, rptActive := false, loopActive := false }
        let s := s.setFld (vceFlagsReg pc v x) 0 4
          (s.fld (vceFlagsReg pc v x) 0 4 ||| (fb + 8 * b2n (st == stPoison)))
        let s := if j.flags.poison ∧ st = stPoison then s.noteVceFault pc v x stPoison c.pc j.tag else s
        (s.modCtx pc x (fun k => k.settleCancels)).raiseEvt pc x j.evt)

/-- Reset of one context's queue of one VCE (R146, R425). -/
def State.vceReset (s : State) (pc v : Nat) (x : Ctx) (status : Nat := stAbortedReset) : State :=
  let c := s.vce pc v x
  let acc := match c.job with | some j => [j.tag] | none => []
  let dq := c.dq.reset acc (c.dq.q.items.map (fun i => bits i.data 16 16)) status
  let s := s.setVce pc v x { c with dq := dq, job := none, rptActive := false, rptLeft := 0, runLeft := 0,
                                    loopActive := false, loopLeft := 0 }
  let s := match x with
    | .timed => s.setFld (VCE_QGEN pc v) 0 16 dq.gen
    | .elastic => s.setFld (VCE_QGEN pc v) 16 16 dq.gen
  s.modCtx pc x (fun k => k.settleCancels)

def execVceQreset (core : Fin 512) (v : Fin 2) (t e : Bool) (s : State) : Host.Outcome State Fault Refusal :=
  let s := if t then s.vceReset core.val v.val .timed else s
  let s := if e then s.vceReset core.val v.val .elastic else s
  .next (s.answer stOk)

/-- R148: clearing en while a context is not IDLE is refused. -/
def execVceCtrlWrite (core : Fin 512) (v : Fin 2) (en : Bool) (s : State) : Host.Outcome State Fault Refusal :=
  let busy := (s.vce core.val v.val .timed).job.isSome || (s.vce core.val v.val .elastic).job.isSome
  .next (if !en && busy then s.refuseReg (VCE_CTRL core.val v.val)
  else (s.setFld (VCE_CTRL core.val v.val) 0 1 (b2n en)).answer stOk)

end Sys2Proof.Machine
end

