-- ==== Sys2Proof/Machine/Cgl.lean ====
section
/-!
DEFINITION. Machine/Cgl.lean: compute gate lists (chapter 09): which context owns each core, the switch at an edge, swaps
and stops, group changes, guard intervals, starvation.
-/
namespace Sys2Proof.Machine

def State.cglList (s : State) (l : Nat) : CglList := Tbl.get ({} : CglList) s.cgl l

def State.setCgl (s : State) (l : Nat) (c : CglList) : State := { s with cgl := Tbl.put ({} : CglList) s.cgl l c }

/-- Is list l running? -/
def State.running (s : State) (l : Nat) : Bool := s.fld CGL_STATUS l 1 == 1

/-! ### The context select (R237 to R239) -/

/-- The context that the executor of a core's cluster gives the core: the list of its group when it runs, else the
elastic one. -/
def State.selects (s : State) (pc : Nat) : Ctx :=
  let g := (s.core pc).group
  if g = 0x7F ∨ s.running (g / 8) = false then .elastic
  else
    let c := s.cglList (g / 8)
    if c.faults.contains (clusterOf pc) || bit c.mask (g % 8) then .timed else .elastic

/-- Mark a context's kernel as having been parked (R144). -/
def VceCtx.park (c : VceCtx) : VceCtx := { c with job := c.job.map (fun j => { j with parked := true }) }

/-- The losing context: its kernels are parked, its transfers in flight may still end (R169). -/
def CoreCtx.park (c : CoreCtx) : CoreCtx :=
  { c with vce0 := c.vce0.park, vce1 := c.vce1.park, tme := { c.tme with flight := 8 } }

/-- The select of a core changes (Table 9.3, Table 9.4): nothing is moved. A timed run with more than 16 iterations left
is an overrun (R250). -/
def State.switch (s : State) (pc : Nat) (x : Ctx) : State :=
  let c := s.core pc
  let ran := c.owner == .timed && (decide (16 < c.t.vce0.runLeft) || decide (16 < c.t.vce1.runLeft))
  let warm := if x = .timed ∧ c.tampBallast then 16 else c.tampWarmLeft
  let s := s.setCore pc { c.setCtx c.owner (c.ctx c.owner).park with owner := x, tampWarmLeft := warm }
  let s := s.bump64 (CGL_CORE_SWITCH_CNT pc) 1
  if ran then (s.bump CGL_OVERRUN_CNT).event CGL_EVENT 3 else s

/-- Every core that is not fenced follows its executor. -/
def State.syncOwners (s : State) : State :=
  (s.cores.map (·.1)).foldl (fun (s : State) pc =>
    if (s.core pc).fenced ∨ (s.core pc).owner = s.selects pc then s else s.switch pc (s.selects pc)) s

/-- Groups of list l whose bit is in mask m: raise event e in the timed context of each of their cores (R239). -/
def State.raiseGroups (s : State) (l m e : Nat) : State :=
  (s.cores.map (·.1)).foldl (fun (s : State) pc =>
    let c := s.core pc
    if c.fenced || c.group == 0x7F || c.group / 8 != l || !(bit m (c.group % 8))
      || (s.cglList l).faults.contains (clusterOf pc) then s
    else s.raiseEvt pc .timed e) s

/-- CGL_CORE_SEL.t_entry of every core (R239). -/
def State.refreshTEntry (s : State) : State :=
  (s.cores.map (·.1)).foldl (fun (s : State) pc =>
    let c := s.core pc
    let l := c.group / 8
    let on := c.group != 0x7F && s.running l
      && (List.range (s.fld (CGL_OPER_STAT l) 0 9)).any (fun e => bit (s.reg (CGL_OPER_ENT l e)) (24 + c.group % 8))
    if c.tEntry = on then s else s.setCore pc { c with tEntry := on }) s

/-! ### Entries (Table 9.1, R240) -/

def entDur (e : Nat) : Nat := bits e 0 24
def entMask (e : Nat) : Nat := bits e 24 8

/-- The end of entry e of list l, in ns from the cycle start: the sum of the durations, cut at the cycle's end; the last
entry lasts until the cycle's end (R240). -/
def State.entEnd (s : State) (l e : Nat) : Nat :=
  let cyc := s.fld (CGL_OPER_CYCLE l) 0 24
  if e + 1 = s.fld (CGL_OPER_STAT l) 0 9 then cyc
  else min cyc ((List.range (e + 1)).foldl (fun n i => n + entDur (s.reg (CGL_OPER_ENT l i))) 0)

/-- Groups of list l that are set in m leave their guard intervals. -/
def State.dropGuards (s : State) (l m : Nat) : State :=
  { s with guards := s.guards.filter (fun g => !(g / 8 == l && bit m (g % 8))) }

/-- Put entry e of list l into force: edges against the mask in force, switches, events (R239). Errors: a cluster whose
executor finds bad parity in its copy of the entry, a core whose context select has bad parity at the edge
(Table 9.5). -/
def State.enterEntry (s : State) (l e : Nat) (exec : Option (Fin 64)) (sel : Option (Fin 512)) : State :=
  let c := s.cglList l
  let ent := s.reg (CGL_OPER_ENT l e)
  let s := match exec with
    | some k =>
      let s := s.setCgl l { c with mask := entMask ent, faults := c.faults ++ [k.val] }
      let s := (s.bump CGL_EXEC_ERR_CNT).event CGL_EVENT 6
      (s.setFld (CGL_OPER_STAT l) 19 1 1).countErr 11 k.val 1
    | none => s.setCgl l { c with mask := entMask ent }
  let s := s.setFld (CGL_OPER_STAT l) 9 8 e
  let s := match sel with
    | some pc => if (s.core pc.val).owner = s.selects pc.val then s else s.fenceCore pc.val 0x40
    | none => s
  let s := s.syncOwners
  let s := if bit ent 40 then s.raiseGroups l (entMask ent &&& (c.mask ^^^ 0xFF)) (bits ent 32 8) else s
  s.dropGuards l (entMask ent ^^^ 0xFF)

/-! ### Group changes (R236) -/

/-- The pending new group of a logical core. -/
def State.pendingGroup (s : State) (lc : Nat) : Option Nat :=
  let g := Tbl.get 0x80 s.grpPend lc
  if g = 0x80 then none else some g

/-- The group a logical core follows now. -/
def State.lcGroup (s : State) (lc : Nat) : Nat :=
  let pc := s.phys lc
  if pc = noCore then 0x7F else (s.core pc).group

/-- The list whose cycle start a change from a to b waits for: b's when it runs, else a's when it runs (R236). -/
def State.changeWaits (s : State) (a b : Nat) : Option Nat :=
  if b ≠ 0x7F ∧ s.running (b / 8) then some (b / 8)
  else if a ≠ 0x7F ∧ s.running (a / 8) then some (a / 8)
  else none

/-- The change of a logical core takes effect. -/
def State.applyChange (s : State) (lc b : Nat) : State :=
  let s := { s with grpPend := Tbl.put 0x80 s.grpPend lc 0x80 }
  let s := s.setFld (CGL_LC_GRP lc) 7 1 0
  let pc := s.phys lc
  if pc = noCore then s else s.setCore pc { s.core pc with group := b }

/-- The changes that wait for a cycle start of list l. -/
def State.dueChanges (s : State) (l : Nat) : State :=
  (s.grpPend.map (·.1)).foldl (fun (s : State) lc =>
    match s.pendingGroup lc with
    | some b => if s.changeWaits (s.lcGroup lc) b = some l then s.applyChange lc b else s
    | none => s) s

/-- R236: a write of CGL_LC_GRP[n]. -/
def execCglLcGrpWrite (wr : Writer) (lc : Fin 480) (grp : BitVec 7) (s : State) : Host.Outcome State Fault Refusal :=
  .next (s.mcOnly wr (CGL_LC_GRP lc.val) (fun s =>
    let g := grp.toNat
    if s.grade.lcs ≤ lc.val then s.answer stOk
    else if (g ≠ 0x7F ∧ s.lcPart lc.val .timed ≠ some (s.fld (CGL_LIST_CFG (g / 8)) 1 4)) ∨ (s.pendingGroup lc.val).isSome then
      (s.bump CGL_REFUSE_CNT).refuseReg (CGL_LC_GRP lc.val)
    else
      let s := { s with grpPend := Tbl.put 0x80 s.grpPend lc.val g }
      (s.setReg (CGL_LC_GRP lc.val) (g + 0x80)).answer stOk))

/-- R236, step 3: the hub cycle after the write, when no running list gives the core timed ownership. -/
def execGroupChangeApply (lc : Fin 480) (s : State) : Host.Outcome State Fault Refusal :=
  .next (match s.pendingGroup lc.val with
  | some b =>
    if (s.changeWaits (s.lcGroup lc.val) b).isSome then s
    else ((s.applyChange lc.val b).syncOwners).refreshTEntry
  | none => s)

/-! ### Boundaries (R239 to R243) -/

/-- A new cycle of list l starts at time t: the count, the group changes that are due, the executors' copies loaded
again, the hand-overs that wait for the timed context (R122, R236, R252). -/
def State.cycleStart (s : State) (l t : Nat) : State :=
  let s := s.setCgl l { s.cglList l with start := t, faults := [] }
  let s := s.setFld (CGL_OPER_STAT l) 19 1 0
  let s := s.bump64 (CGL_CYCLE_CNT l) 1
  let s := (s.dueChanges l).refreshTEntry
  let s := (s.handovers.map (·.lc)).foldl (fun (s : State) n =>
    let g := s.lcGroup n
    if g ≠ 0x7F ∧ g / 8 = l then s.takeOver n .timed else s) s
  (s.rots.filter (fun r => r.named && !r.timedDone)).foldl (fun (s : State) r =>
    let g := s.lcGroup r.lc
    if g ≠ 0x7F ∧ g / 8 = l then s.rotHand r.lc .timed else s) s

/-- Stop list l: every group of it is elastic-owned from then on (R247). -/
def State.stopList (s : State) (l : Nat) : State :=
  let s := s.setCgl l { s.cglList l with mask := 0, faults := [], stop := false }
  let s := s.setFld CGL_STATUS l 1 0
  let s := s.setReg (CGL_OPER_STAT l) (bits (s.reg (CGL_OPER_STAT l)) 18 1 <<< 18)
  ((s.dropGuards l 0xFF).syncOwners).refreshTEntry

/-- R239 to R243: after ticks of the time clock an entry boundary of list l fires, if network time has reached it and no
swap cuts the entry short before it. -/
def execCglBoundary (list : Fin 16) (ticks : BitVec 64) (exec : Option (Fin 64)) (sel : Option (Fin 512)) (s : State) :
    Host.Outcome State Fault Refusal :=
  let s := s.elapse ticks.toNat
  let l := list.val
  let c := s.cglList l
  let e := s.fld (CGL_OPER_STAT l) 9 8
  let off := s.entEnd l e
  let t := c.start + off
  let cut : Bool := match c.swap with | some w => decide (w.start ≤ t) | none => false
  .next (if s.running l = false ∨ s.reached t = false ∨ cut then s
  else if off < s.fld (CGL_OPER_CYCLE l) 0 24 then s.enterEntry l (e + 1) exec sel
  else if c.stop then s.stopList l
  else (s.cycleStart l t).enterEntry l 0 exec sel)

/-- When the guard interval of the entry in force of list l begins: the entry's guard before its end, at its start at the earliest
(R249). -/
def State.guardAt (s : State) (l : Nat) : Nat :=
  let e := s.fld (CGL_OPER_STAT l) 9 8
  let lo := if e = 0 then 0 else s.entEnd l (e - 1)
  (s.cglList l).start + max lo (s.entEnd l e - bits (s.reg (CGL_OPER_ENT l e)) 48 16)

/-- The groups of list l that lose timed ownership at the end of the entry in force. -/
def State.guardLosers (s : State) (l : Nat) : List Nat :=
  let e := s.fld (CGL_OPER_STAT l) 9 8
  let next := if s.entEnd l e < s.fld (CGL_OPER_CYCLE l) 0 24 then entMask (s.reg (CGL_OPER_ENT l (e + 1)))
    else if (s.cglList l).stop then 0 else entMask (s.reg (CGL_OPER_ENT l 0))
  (tabulate 8 (fun j => 8 * l + j)).filter (fun g => bit (entMask (s.reg (CGL_OPER_ENT l e)) &&& (next ^^^ 0xFF)) (g % 8))

/-- R249: after ticks of the time clock the guard interval of the entry in force begins. -/
def execGuardStart (list : Fin 16) (ticks : BitVec 64) (s : State) : Host.Outcome State Fault Refusal :=
  let s := s.elapse ticks.toNat
  let l := list.val
  .next (if s.running l = false ∨ bits (s.reg (CGL_OPER_ENT l (s.fld (CGL_OPER_STAT l) 9 8))) 48 16 = 0
      ∨ s.reached (s.guardAt l) = false then s
  else { s with guards := s.guards ++ (s.guardLosers l).filter (fun g => !(s.guards.contains g)) })

/-! ### Swaps and stops (R245 to R247) -/

/-- A refused command or write of the CGL block. -/
def State.cglRefuse (s : State) (a : Nat) : State := (s.bump CGL_REFUSE_CNT).refuseReg a

/-- Does an administrative entry break row 6 of Table 9.2? -/
def entBad (l e : Nat) : Bool :=
  decide (entDur e < 160) || decide (10000000 < entDur e) || bits e 42 6 != 0 || (l == 15 && bit e 31)

/-- The smallest k with base + k × cycle ≥ t (R246). -/
def firstCycle (base cycle t : Nat) : Nat := if t ≤ base then 0 else ceilDiv (t - base) cycle

/-- R245: a write of CGL_CMD[L] with swap = 1; stop: the stop bit is set too. -/
def execCglSwap (wr : Writer) (list : Fin 16) (stop : Bool) (s : State) : Host.Outcome State Fault Refusal :=
  let l := list.val
  .next (s.mcOnly wr (CGL_CMD l) (fun s =>
    let c := s.cglList l
    let n := s.fld (CGL_ADMIN_LEN l) 0 9
    let cyc := s.fld (CGL_ADMIN_CYCLE l) 0 24
    let base := s.reg (CGL_ADMIN_BASE l)
    let ents := tabulate n (fun e => s.reg (CGL_ADMIN_ENT l e))
    if stop ∨ s.fld (CGL_LIST_CFG l) 0 1 = 0 ∨ c.swap.isSome then s.cglRefuse (CGL_CMD l)
    else if n = 0 then s.answer stNop
    else if 256 < n ∨ cyc < 2000 ∨ 10000000 < cyc ∨ ents.any (entBad l) then s.cglRefuse (CGL_CMD l)
    else
      let k := firstCycle base cyc (20000 + s.nowNs)
      let s := s.setCgl l { c with swap := some { start := base + k * cyc, base := base, cycle := cyc, ents := ents } }
      let s := s.setFld (CGL_OPER_STAT l) 18 1 1
      let s := if k = 0 then s else (s.bump CGL_DEFER_CNT).event CGL_EVENT 2
      s.answer stOk))

/-- R247: a write of CGL_CMD[L] with stop = 1 alone. -/
def execCglStop (wr : Writer) (list : Fin 16) (s : State) : Host.Outcome State Fault Refusal :=
  let l := list.val
  .next (s.mcOnly wr (CGL_CMD l) (fun s =>
    let c := s.cglList l
    let s1 := (s.setCgl l { c with swap := none, stop := s.running l }).setFld (CGL_OPER_STAT l) 18 1 0
    if s.running l = false ∧ c.swap.isNone then s.answer stNop else s1.answer stOk))

/-- The operational list takes the copy of a swap (R246). -/
def State.putList (s : State) (l : Nat) (w : CglSwap) : State :=
  let c := s.cglList l
  let s := s.setCgl l { c with swap := none, stop := false, mask := if s.running l then c.mask else 0 }
  let s := (s.setReg (CGL_OPER_BASE l) w.base).setReg (CGL_OPER_CYCLE l) w.cycle
  let s := (w.ents.zipIdx).foldl (fun (s : State) p => s.setReg (CGL_OPER_ENT l p.2) p.1) s
  let s := s.setReg (CGL_OPER_STAT l) (2 ^ 17 + w.ents.length)
  ((s.setFld CGL_STATUS l 1 1).event CGL_EVENT 1).dropGuards l 0xFF

/-- R246: at the new start the operational list is replaced. -/
def execCglSwapApply (list : Fin 16) (ticks : BitVec 64) (s : State) : Host.Outcome State Fault Refusal :=
  let s := s.elapse ticks.toNat
  let l := list.val
  .next (match (s.cglList l).swap with
  | none => s
  | some w =>
    if s.reached w.start = false then s
    else ((s.putList l w).cycleStart l w.start).enterEntry l 0 none none)

/-! ### Starvation (R254) -/

/-- Does a context hold a task, a descriptor or a thread that is not FREE? -/
def CoreCtx.holdsWork (c : CoreCtx) : Bool :=
  c.busy || !c.tasks.isEmpty || !c.cancels.isEmpty || !c.tq.q.items.isEmpty || !c.me.dq.q.items.isEmpty
    || !c.vce0.dq.q.items.isEmpty || !c.vce1.dq.q.items.isEmpty || !c.tme.dq.q.items.isEmpty

/-- R254: an elastic context has stayed parked with work for longer than starve_us. -/
def execStarve (core : Fin 512) (s : State) : Host.Outcome State Fault Refusal :=
  let pc := core.val
  .next (if (s.core pc).owner = .elastic ∨ (s.core pc).fenced ∨ (s.core pc).e.holdsWork = false then s
  else
    let s := s.tqReset pc .elastic stPreempted
    let s := s.meReset pc .elastic stPreempted
    let s := (s.vceReset pc 0 .elastic stPreempted).vceReset pc 1 .elastic stPreempted
    let s := s.tmeReset pc .elastic stPreempted
    (s.bump CGL_STARVE_CNT).event CGL_EVENT 5)

end Sys2Proof.Machine
end

