-- ==== Sys2Proof/Machine/Mbx.lean ====
section
/-!
DEFINITION. Machine/Mbx.lean: the mailboxes (R417 to R424): channels, the header the hub writes, room, notices, the reads;
the attention field (R507) and MSI-X (R512).
-/
namespace Sys2Proof.Machine

def State.chan (s : State) (i c : Nat) : MbxChan := Tbl.get ({} : MbxChan) s.mbx (8 * i + c)
def State.setChan (s : State) (i c : Nat) (x : MbxChan) : State := { s with mbx := Tbl.put ({} : MbxChan) s.mbx (8 * i + c) x }

/-- Entries of a channel (R417). -/
def mbxDepth : Nat := 16

/-- State of an instance (Table 15.5): 0 FREE, 1 RUN, 2 RESETTING. -/
def State.instState (s : State) (i : Nat) : Nat := s.fld (PRT_INST i) 0 2

/-- Entries in use: messages waiting, and those taken whose reply has not been read (R420). -/
def MbxChan.used (x : MbxChan) : Nat := x.q.items.length + x.held.length

/-- Put a message into a channel. -/
def MbxChan.push (x : MbxChan) (m : Nat) : MbxChan :=
  { x with q := x.q.push { data := m, prio := bits m 8 2, last := bit m 11 }, part := if bit m 11 then 0 else x.part + 1 }

/-- Discard the packet that is not yet closed (R418). -/
def MbxChan.dropPacket (x : MbxChan) : MbxChan :=
  { x with q := { x.q with items := x.q.items.take (x.q.items.length - x.part) }, part := 0 }

def MbxChan.dropTag (x : MbxChan) (t : Nat) : MbxChan := { x with held := x.held.filter (fun u => u != t) }

/-- The header fields the hub writes (R419): kind, port, instance, context, generation, source. -/
def mbxStamp (m kind port inst ctx gen src : Nat) : Nat :=
  setBits (setBits m 13 1 0) 32 48
    (bits kind 0 4 + (bits port 0 2) <<< 4 + (instField inst) <<< 6 + (bits ctx 0 1) <<< 15 + (bits gen 0 16) <<< 16 + (bits src 0 16) <<< 32)

/-- A message of a hub unit or of the management cores: code, whether it is a reply, tag, status word, payload. -/
def mbxMsg (code : Nat) (rsp : Bool) (tag status payload : Nat) : Nat :=
  bits code 0 8 + (b2n rsp) <<< 10 + 1 <<< 11 + (bits tag 0 16) <<< 16 + (bits status 0 16) <<< 80 + (bits payload 0 384) <<< 128

/-- The channel of a code (Table 15.9). -/
def mbxRoute (code : Nat) : Nat := if 0x40 ≤ code ∧ code ≤ 0x4F then 1 else if 0x80 ≤ code then 2 else 0

/-- Is there room in the DN channel c for a message that answers no request: what replies are owed stays free (R420)? -/
def State.dnRoom (s : State) (i c : Nat) : Bool :=
  let up := s.chan i (c - 3)
  let own := ((s.chan i c).q.items.filter (fun x => !(bit x.data 10))).length
  decide (own + up.held.length + (up.q.items.filter (fun x => bit x.data 12)).length < mbxDepth)

/-! ### Attention and MSI-X -/

/-- The attention field of an instance (Table 20.5). -/
def State.attn (s : State) (i : Nat) : Nat :=
  let dn := [3, 4, 5].any (fun c => (s.chan i c).q.packets != 0)
  let out := (List.range 64).any (fun g =>
    s.fld (BRS_GRP_STAT g) 0 3 != 0 && s.fld (BRS_GRP_CFG2 g) 32 9 == i && s.fld (BRS_GRP_OUT g) 32 14 != 0)
  let ring := bits (s.wreg i 0x3018) 0 13 != 0
  let note := s.wreg i 0x0118 != 0
    || (s.fld (PRT_INST i) 18 1 == 1 && (s.fld RAS_EVENT 0 1 == 1 || s.fld RAS_STATUS 1 1 == 1))
  b2n dn + 2 * b2n (!(Tbl.get [] s.ifr i).isEmpty) + 4 * b2n (out || ring) + 8 * b2n note

def State.msixOf (s : State) (i : Nat) : Msix := Tbl.get ({} : Msix) s.msix i
def State.setMsix (s : State) (i : Nat) (x : Msix) : State := { s with msix := Tbl.put ({} : Msix) s.msix i x }

def State.detached (s : State) (i : Nat) : Bool := s.fld (PRT_INST i) 19 1 == 1

/-- A vector falls due (R512). -/
def State.msixDue (s : State) (i v : Nat) : State :=
  let x := s.msixOf i
  if x.on = false ∨ bit (s.wreg i 0x0108) v = false then s
  else if x.unmasked.contains v ∧ s.detached i = false then { s with msixOut := s.msixOut ++ [(i, v)] }
  else if x.pend.contains v then s
  else s.setMsix i { x with pend := x.pend ++ [v] }

/-- Send a pending vector that is unmasked while the link is up (R512). -/
def State.msixSend (s : State) (i v : Nat) : State :=
  let x := s.msixOf i
  if x.on ∧ x.unmasked.contains v ∧ x.pend.contains v ∧ s.detached i = false then
    { s.setMsix i { x with pend := x.pend.filter (fun u => u != v) } with msixOut := s.msixOut ++ [(i, v)] }
  else s

/-- R512: a vector is unmasked. Once the interface is locked, this is a write to locked configuration (Table 16.10). -/
def execMsixUnmask (inst : Fin 512) (vec : Fin 3) (s : State) : Host.Outcome State Fault Refusal :=
  let x := s.msixOf inst.val
  let t := Tbl.get 0 s.tdi inst.val
  .next (if t = 1 ∨ t = 2 then { s with tdi := Tbl.put 0 s.tdi inst.val 3 }
  else (s.setMsix inst.val { x with unmasked := if x.unmasked.contains vec.val then x.unmasked else x.unmasked ++ [vec.val] }).msixSend
    inst.val vec.val)

/-! ### Endpoints (R417, R424) -/

/-- The context of a partition's class. -/
def State.partCtx (s : State) (p : Nat) : Ctx := if s.partTimed p then .timed else .elastic

/-- Raise an event in the endpoint's context of partition p. -/
def State.epRaise (s : State) (p e : Nat) : State :=
  let pc := s.physCtx (s.partFld p 49 9) (s.partCtx p)
  if pc = noCore then s else s.raiseEvt pc (s.partCtx p) e

/-- Does a whole packet wait for the endpoint of p? -/
def State.epWaiting (s : State) (p : Nat) : Bool :=
  s.mbx.any (fun m => m.1 % 8 == 2 && s.instPart (m.1 / 8) == p && m.2.q.packets != 0)

/-! ### Sending -/

/-- Enter a message into UP_EP: when it closes a packet while none waits, ep_evt is raised (R424). -/
def State.upEp (s : State) (i m : Nat) : State :=
  let p := s.instPart i
  let idle := !(s.epWaiting p)
  let s := s.setChan i 2 ((s.chan i 2).push m)
  if idle && bit m 11 then s.epRaise p (s.partFld p 132 8) else s

/-- A fifth message without an end mark: the packet is discarded (R418). -/
def State.mbxOverlong (s : State) (i c off : Nat) : State :=
  ((s.setChan i c (s.chan i c).dropPacket).refuseLog 9 off i 0x1FF).answer stState

/-- A send without room (R420). -/
def State.mbxFull (s : State) (i : Nat) : State :=
  ((s.bump MBX_DROP_CNT).setWreg i 0x0100 (setBits (s.wreg i 0x0100) 30 1 1)).answer stRefusedCapacity

/-- A message of a host (R417 to R420). -/
def State.mbxHostSend (s : State) (i rid m : Nat) : State :=
  let c := mbxRoute (bits m 0 8)
  if s.instState i = 0 then s
  else if 4 ≤ (s.chan i c).part then s.mbxOverlong i c 0
  else if mbxDepth ≤ (s.chan i c).used then s.mbxFull i
  else
    let m := mbxStamp m 0 (s.fld (PRT_INST i) 6 2) i 0 (s.instGen i) rid
    (if c = 2 then s.upEp i m else s.setChan i c ((s.chan i c).push (setBits m 12 1 1))).answer stOk

/-- R417: a host's message. -/
def execMbxSend (inst : Fin 512) (rid : BitVec 16) (msg : BitVec 512) (s : State) : Host.Outcome State Fault Refusal :=
  .next (s.mbxHostSend inst.val rid.toNat msg.toNat)

/-- A notice in a DN channel, or at its sender while the channel has no room (R420). -/
def State.mbxNotice (s : State) (i c m : Nat) : State :=
  if (Tbl.get [] s.notices i).isEmpty ∧ s.dnRoom i c then s.setChan i c ((s.chan i c).push m)
  else { s with notices := Tbl.put [] s.notices i (Tbl.get [] s.notices i ++ [m + c <<< 512]) }

/-- A notice of the management cores to an instance (Table 15.11). -/
def State.notify (s : State) (i code payload : Nat) (status : Nat := stOk) : State :=
  s.mbxNotice i 3 (mbxStamp (mbxMsg code false 0 status payload) 1 0 i 0 (s.instGen i) 0)

/-- R420: notices that wait are delivered while there is room. -/
def State.noticePump (s : State) (i : Nat) : Nat → State
  | 0 => s
  | fuel + 1 =>
    match Tbl.get [] s.notices i with
    | [] => s
    | m :: rest =>
      let c := m >>> 512
      if s.dnRoom i c then
        ({ s with notices := Tbl.put [] s.notices i rest }.setChan i c ((s.chan i c).push (m % 2 ^ 512))).noticePump i fuel
      else s

/-- R420: a waiting notice finds room. -/
def execNoticeSend (inst : Fin 512) (s : State) : Host.Outcome State Fault Refusal :=
  .next (s.noticePump inst.val (Tbl.get [] s.notices inst.val).length)

/-- Enter a message of the part into a DN channel: a reply has its room; any other message needs what is not held for
replies. -/
def State.dnSend (s : State) (i c m off : Nat) (wait : Bool) : State :=
  if 4 ≤ (s.chan i c).part then s.mbxOverlong i c off
  else if bit m 10 then
    if (s.chan i c).q.items.length < mbxDepth then (s.setChan i c ((s.chan i c).push m)).answer stOk
    else s.mbxFull i
  else if wait then (s.mbxNotice i c m).answer stOk
  else if s.dnRoom i c then (s.setChan i c ((s.chan i c).push m)).answer stOk
  else s.mbxFull i

/-- R417: the management cores send into DN_MC. -/
def execMbxMcSend (mc : Fin 4) (inst : Fin 512) (msg : BitVec 512) (s : State) : Host.Outcome State Fault Refusal :=
  let i := inst.val
  .next (if s.instState i = 0 then (s.refuseLog 9 (0x10000 + 0x40 * i) 0x1FF 0x1FF).answer stState
  else s.dnSend i 3 (mbxStamp msg.toNat 1 0 i 0 (s.instGen i) mc.val) (0x10000 + 0x40 * i) true)

/-- R417: the endpoint of an instance's partition sends into DN_EP. -/
def execMbxEpSend (lc : Fin 480) (ctx : Ctx) (inst : Fin 512) (msg : BitVec 512) (s : State) : Host.Outcome State Fault Refusal :=
  let i := inst.val
  let p := s.instPart i
  let own := instTag (if ctx = .timed then s.fld (PRT_LC_INST lc.val) 0 9 else s.fld (PRT_LC_INST lc.val) 9 9)
  .next (if s.instState i = 0 ∨ s.partFld p 49 9 ≠ lc.val ∨ s.partCtx p ≠ ctx then
      (s.charge { addr := 0x030000000000 + MBX_EP_SEND i 0, status := stFaultAccess, cause := cWrongOwner, kind := 1, unit := uSc,
                  elastic := ctx == .elastic, inst := own, gen := s.instGen own, lc := lc.val }).answer stFaultAccess cWrongOwner
  else s.dnSend i 5 (mbxStamp msg.toNat 3 0 own (b2n (ctx == .elastic)) (s.instGen own) lc.val) (0x20000 + 0x40 * i) false)

/-! ### Reading -/

/-- Has the sender of a message a new generation (R419)? -/
def State.mbxStale (s : State) (m : Nat) : Bool := bits m 48 16 != s.instGen (bits m 38 9)

/-- Take the next message of a channel whose generation is current; messages of an old one are discarded and counted
(R419). bad: a word of it has bad parity (R425). -/
def State.mbxPop (s : State) (i c : Nat) (bad : Bool) : Nat → Option Nat × State
  | 0 => (none, s)
  | fuel + 1 =>
    let x := s.chan i c
    match x.q.pop with
    | none => (none, s)
    | some (it, q) =>
      let s' := s.setChan i c { x with q := q }
      if s.mbxStale it.data then (s'.bump MBX_STALE_CNT).mbxPop i c bad fuel
      else
        let s' := if c < 3 ∧ bit it.data 12 then
            s'.setChan i c { x with q := q, held := x.held ++ [bits it.data 16 16] } else s'
        let s' := if 3 ≤ c ∧ bit it.data 10 then
            s'.setChan i (c - 3) ((s'.chan i (c - 3)).dropTag (bits it.data 16 16)) else s'
        if bad then (some (setBits it.data 13 1 1), (s'.bump MBX_POISON_CNT).countErr 21 (0x1000 + 8 * i + c) 1)
        else (some it.data, s')

/-- What follows a read that took the last waiting message (R422). -/
def State.mbxEmptied (s : State) (i c : Nat) : State :=
  if (s.chan i c).q.items.isEmpty = false then s
  else if c < 3 then s.msixDue i c
  else if c = 5 ∧ s.fld (MBX_EP_CFG (s.instPart i)) 8 1 = 1 then s.epRaise (s.instPart i) (s.fld (MBX_EP_CFG (s.instPart i)) 0 8)
  else s

def State.mbxRead (s : State) (i c : Nat) (bad : Bool) : Option Nat × State :=
  let r := s.mbxPop i c bad (s.chan i c).q.items.length
  match r.1 with
  | some m => (some m, r.2.mbxEmptied i c)
  | none => r

/-- A message as 8 words. -/
def mbxWords (m : Nat) : List Nat := tabulate 8 (fun j => bits m (64 * j) 64)

/-- The idle item (R421): end mark and the status word with code NOP. -/
def mbxIdle (attn : Nat) : Nat := 1 <<< 11 + (statusWord stNop 0 attn) <<< 80

/-- A host's read of a receive window (R421, R507). -/
def State.mbxHostRead (s : State) (i c : Nat) (bad : Bool) : State :=
  let a := s.attn i
  let r := s.mbxRead i c bad
  let m := match r.1 with | some m => setBits m 92 4 a | none => mbxIdle a
  { r.2 with reply := { code := stOk, attn := a, data := mbxWords m } }

/-- R421: the next message of DN_MC, DN_BRS or DN_EP. -/
def execMbxRecv (inst : Fin 512) (ch : Fin 3) (bad : Bool) (s : State) : Host.Outcome State Fault Refusal :=
  .next (if s.instState inst.val = 0 then s else s.mbxHostRead inst.val (ch.val + 3) bad)

/-- The instance whose channel c the reader of many channels takes next (R424): that of the packet being read; else of the
highest priority that waits, the first one past the instance read last. -/
def State.mbxNext (s : State) (ptr c : Nat) (mine : Nat → Bool) : Option Nat :=
  let chs := (s.mbx.filter (fun m => m.1 % 8 == c && mine (m.1 / 8) && s.instState (m.1 / 8) == 1)).map (fun m => (m.1 / 8, m.2))
  match chs.find? (fun x => x.2.q.cur.isSome) with
  | some x => some x.1
  | none =>
    let order := chs.filter (fun x => decide (ptr < x.1)) ++ chs.filter (fun x => decide (x.1 ≤ ptr))
    ((List.range 4).findSome? (fun p => order.find? (fun x => x.2.q.whole p))).map (·.1)

/-- Read over many channels; a channel that holds nothing but stale messages is passed over. -/
def State.mbxReadMany (s : State) (key c : Nat) (mine : Nat → Bool) (bad : Bool) : Nat → Option Nat × State
  | 0 => (none, s)
  | fuel + 1 =>
    match s.mbxNext (Tbl.get 511 s.epPtr key) c mine with
    | none => (none, s)
    | some i =>
      let r := s.mbxRead i c bad
      match r.1 with
      | some m => (some m, { r.2 with epPtr := Tbl.put 511 r.2.epPtr key i })
      | none => r.2.mbxReadMany key c mine bad fuel

/-- The answer of a read by the management cores or the endpoint. -/
def State.mbxAnswer (r : Option Nat × State) : State := r.2.answer stOk 0 (mbxWords (r.1.getD (mbxIdle 0)))

/-- R417: the management cores read over all UP_MC channels. -/
def execMbxMcRecv (bad : Bool) (s : State) : Host.Outcome State Fault Refusal :=
  .next (State.mbxAnswer (s.mbxReadMany 16 0 (fun _ => true) bad 512))

/-- R424: the endpoint of a partition reads over its instances' UP_EP channels. -/
def execMbxEpRecv (part : Fin 16) (bad : Bool) (s : State) : Host.Outcome State Fault Refusal :=
  .next (State.mbxAnswer (s.mbxReadMany part.val 2 (fun i => s.instPart i == part.val) bad 512))

/-! ### Resets of receivers (R423) -/

/-- Clear a channel: every entry is freed; the tags of its entries. -/
def State.clearChan (s : State) (i c : Nat) : List Nat × State :=
  let x := s.chan i c
  (x.held ++ x.q.items.map (fun m => bits m.data 16 16), s.setChan i c {})

/-- The receiver of channel c of instance i is reset: the sender is told the tags of the entries that were cleared. -/
def State.abortChan (s : State) (i c : Nat) : State :=
  let r := s.clearChan i c
  let s := r.2
  if r.1.isEmpty then s
  else
    let pay := (bits r.1.length 0 5) + (r.1.foldr (fun t n => t + n <<< 16) 0) <<< 32
    let m := mbxStamp (mbxMsg 0x21 false 0 stAbortedReset pay) 2 0 i 0 (s.instGen i) 1
    if c < 3 then s.mbxNotice i (c + 3) m
    else if c = 5 then (if (s.chan i 2).used < mbxDepth then s.upEp i m else s)
    else s.bump MBX_ABORT_CNT

/-- The mailboxes of an instance that is reset (Table 15.6, step 1): the UP channels are cleared without a notice, since their
sender is reset itself (R407); the DN channels under R423; notices that wait are dropped. -/
def State.mbxInstReset (s : State) (i : Nat) : State :=
  let s := { s with notices := Tbl.put [] s.notices i [] }
  let s := [0, 1, 2].foldl (fun (s : State) c => (s.clearChan i c).2) s
  [3, 4, 5].foldl (fun (s : State) c => s.abortChan i c) s

/-- The endpoint of partition p is reset: every UP_EP channel of its instances (R423). -/
def State.mbxEpReset (s : State) (p : Nat) : State :=
  (s.mbx.filter (fun m => m.1 % 8 == 2 && s.instPart (m.1 / 8) == p)).foldl (fun (s : State) m => s.abortChan (m.1 / 8) 2) s

/-! ### Barista's side (R263) -/

/-- Take a packet from UP_BRS when the next message has this code: tag, payload, poison. -/
def State.brsTake (s : State) (i code : Nat) (bad : Bool) : Option (Nat × Nat × Bool) × State :=
  match (s.chan i 1).q.peek with
  | none => (none, s)
  | some (_, it) =>
    if s.instState i ≠ 1 ∨ bits it.data 0 8 ≠ code then (none, s)
    else
      let r := (List.range 4).foldl (fun (a : List Nat × State) _ =>
        if a.1.getLast?.elim true (fun m => !(bit m 11)) then
          let r := a.2.mbxRead i 1 bad
          match r.1 with | some m => (a.1 ++ [m], r.2) | none => (a.1, r.2)
        else a) (([], s) : List Nat × State)
      match r.1 with
      | [] => (none, r.2)
      | m :: _ => (some (bits m 16 16, m >>> 128, bit m 13), r.2)

/-- Barista's reply: the answer the command left, as a message in DN_BRS. -/
def State.brsReply (s : State) (i code tag : Nat) : State :=
  let w := statusWord s.reply.code s.reply.cause 0
  let pay := s.reply.data.foldr (fun v n => v + n <<< 64) 0
  s.setChan i 4 ((s.chan i 4).push (mbxStamp (mbxMsg code true tag w pay) 2 0 i 0 (s.instGen i) 0))

/-- A Barista command of instance i: taken from its channel; POISON for a poisoned one; else f, whose answer is sent. -/
def State.brsCommand (s : State) (i code : Nat) (bad : Bool) (f : State → Nat → State) : State :=
  let r := s.brsTake i code bad
  match r.1 with
  | none => r.2
  | some (tag, pay, poison) =>
    if poison then (r.2.answer stPoison).brsReply i code tag
    else (f r.2 pay).brsReply i code tag

end Sys2Proof.Machine
end

