-- ==== Sys2Proof/Machine/MemTier.lean ====
section
/-!
DEFINITION. Machine/MemTier.lean: allocation (R155 to R157), the mappings the management cores build (R184, Table 7.2),
address hashing (R158 to R161) and the scrub (R154).
-/
namespace Sys2Proof.Machine

/-! ### Scrub (R154) -/

/-- The byte offset of an HBM address within its pseudo-channel (R159, R160). -/
def State.hbmOffset (s : State) (a : Nat) : Nat :=
  if a < 0x008000000000 then (a >>> 17) * 256 + a % 256
  else
    let l := (a % 0x002000000000) >>> 8
    (48 - s.localGib) * 16 * mib + (l >>> 7) * 256 + a % 256

/-- A line of HBM or Silo in which the scrub meets bit errors that nothing had read yet. -/
def State.scrubFinds (s : State) (a : Nat) (e : MemErr) : State :=
  match s.tierOf a with
  | .hbm | .silo => s.devUpset a e
  | _ => s

/-- R154: one scrub reads all of HBM and Silo: every line with a correctable error is written back and counted, and every other
marked line is counted as a read of it. errs: errors that have appeared since and that the scrub is the first to meet. -/
def execScrub (errs : List (BitVec 48 × MemErr)) (s : State) : Host.Outcome State Fault Refusal :=
  let s := errs.foldl (fun (s : State) e => s.scrubFinds e.1.toNat e.2) s
  let here := s.dev.marks.filter (fun c => match s.tierOf c.1 with | .hbm | .silo => true | _ => false)
  .next (here.foldl (fun (s : State) c => s.devWord c.1 c.2) s)

/-! ### Mappings (R184, R185) -/

/-- Allocate n bytes of table memory, aligned to n, zeroed. -/
def State.newTable (s : State) (n : Nat) : Nat × State :=
  let a := alignUp s.nextTable n
  (a, { s.devZero a n with nextTable := a + n })

/-- Entry value of a pointer to a table. -/
def pointerEntry (a : Nat) : Nat := 1 + (bits a 8 40) <<< 8

/-- Entry value of a local leaf with every permission (R184). -/
def localLeaf (a : Nat) (enc : Bool) : Nat := 1 + 2 + 0x78 + (b2n enc) <<< 7 + (bits a 16 32) <<< 16

/-- Entry value of a fabric leaf. -/
def fabricLeaf (a card part : Nat) (r w atom : Bool) : Nat :=
  1 + 4 + 8 * b2n r + 16 * b2n w + 32 * b2n atom + (bits a 16 32) <<< 16 + (bits card 0 12) <<< 48 + (bits part 0 4) <<< 60

/-- Write the entry of an instance address at the level of its page, building the tables on the way. levels: those
still to walk; base: the table of the first. -/
def State.mapPage (s : State) (va lg entry : Nat) : List Nat → Nat → State
  | [], _ => s
  | l :: rest, base =>
    let a := base + 8 * levelIndex l va
    if levelLg l = lg ∧ l ≠ 0 then { s with dev := s.dev.store a 8 entry }
    else
      let e := s.dev.load a 8
      if bit e 0 ∧ bits e 1 2 = 0 then s.mapPage va lg entry rest (bits e 8 40 <<< 8)
      else
        let t := s.newTable (if l = 2 then 256 else 4096)
        ({ t.2 with dev := t.2.dev.store a 8 (pointerEntry t.1) }).mapPage va lg entry rest t.1

/-- Map n pages of 2^lg bytes of an instance from va on; leaf gives the entry of page i. -/
def State.mapPages (s : State) (inst va lg : Nat) (leaf : Nat → Nat) (n : Nat) : State :=
  (List.range n).foldl (fun s i => s.mapPage (va + i * 2 ^ lg) lg (leaf i) [0, 1, 2, 3] (s.rootOf inst)) s

/-- Remove the mapping of n pages, and complete the invalidation of their range (R184, R193). -/
def State.unmapPages (s : State) (inst va lg n : Nat) : State :=
  let s := s.mapPages inst va lg (fun _ => 0) n
  s.invApply { op := 2, inst := inst, addr := va, size := n * 2 ^ lg / 65536 }

/-- The lowest free instance address at or above 0x40_0000 that is aligned to the page (R184). -/
def State.freeVa (s : State) (inst size lg : Nat) : Nat :=
  let mine := s.regions.filter (fun r => r.inst == inst)
  let cands := alignUp 0x400000 (2 ^ lg) :: mine.map (fun r => alignUp (r.va + r.size) (2 ^ lg))
  let free (a : Nat) : Bool := mine.all (fun r => decide (a + size ≤ r.va) || decide (r.va + r.size ≤ a))
  (cands.filter free).foldl min (alignUp (mine.foldl (fun m r => max m (r.va + r.size)) 0x400000) (2 ^ lg))

/-! ### ALLOC and FREE (R155 to R157) -/

/-- Bytes of a partition's share of a tier (Table 15.1): tier 0 interleaved HBM, or die-local on a die; 1 Silo; 2 a
cluster that holds one of its cores. -/
def State.share (s : State) (p tier : Nat) (loc : Bool) (unit : Nat) : Nat :=
  match tier with
  | 0 => if loc then s.fld (PRT_PART p 1) (10 + 7 * unit) 7 * gib else s.fld (PRT_PART p 1) 0 10 * gib
  | 1 => s.fld (PRT_PART p 1) 38 10 * gib
  | _ =>
    let first := s.fld (PRT_PART p 0) 8 9
    let here := (List.range (s.fld (PRT_PART p 0) 17 9)).any (fun i =>
      let c := s.phys (first + i)
      c != noCore && clusterOf c == unit)
    if here then s.fld (PRT_PART p 2) 0 4 * mib else 0

/-- Bytes of a share that live regions of the partition's instances hold. -/
def State.shareUsed (s : State) (p tier : Nat) (loc : Bool) (unit : Nat) : Nat :=
  (s.regions.filter (fun r => s.instPart r.inst == p && r.tier == tier && r.local_ == loc && r.unit == unit)).foldl
    (fun n r => n + r.size) 0

/-- The range regions of a tier are placed in. -/
def State.tierRange (s : State) (tier : Nat) (loc : Bool) (unit : Nat) : Nat × Nat :=
  let c := s.localGib
  match tier with
  | 0 =>
    if loc then (0x008000000000 + unit * 0x002000000000, 0x008000000000 + unit * 0x002000000000 + 2 * c * gib)
    else (4 * gib, 8 * (48 - c) * gib - 16 * gib)
  | 1 => (0x010000000000, 0x010000000000 + 960 * gib)
  | _ => (0x020000000000 + unit * 0x800000, 0x020000000000 + unit * 0x800000 + s.clusterLimit)

/-- The lowest free base in a tier, aligned to the page; none where nothing fits. -/
def State.placeRegion (s : State) (tier : Nat) (loc : Bool) (unit size lg : Nat) : Option Nat :=
  let r := s.tierRange tier loc unit
  let live := s.regions.filter (fun q => q.tier == tier && q.local_ == loc && q.unit == unit)
  let cands := alignUp r.1 (2 ^ lg) :: live.map (fun q => alignUp (q.base + q.size) (2 ^ lg))
  let ok (a : Nat) : Bool :=
    decide (a + size ≤ r.2) && live.all (fun q => decide (a + size ≤ q.base) || decide (q.base + q.size ≤ a))
  match cands.filter ok with
  | [] => none
  | a :: t => some (t.foldl min a)

/-- Bind a device-local range of a partition with enc = 1 to an instance's key (R450, R451): none where every key range is in
use. Cluster SRAM is not encrypted (R449). -/
def State.bindKey (s : State) (p inst tier base size : Nat) : Option State :=
  if s.fld (PRT_PART p 0) 1 1 = 0 ∨ 2 ≤ tier then some s
  else ((List.range 2048).find? (fun n => s.fld (SEC_KRANGE0 n) 63 1 == 0)).map (fun n =>
    (s.setReg (SEC_KRANGE1 n) (size / 65536 + (inst + 1) <<< 32)).setReg (SEC_KRANGE0 n) (base + 1 <<< 63))

/-- Free the key range bound to an instance's region. -/
def State.unbindKey (s : State) (inst base size : Nat) : State :=
  match (List.range 2048).find? (fun n =>
      s.reg (SEC_KRANGE0 n) == base + 1 <<< 63 && s.fld (SEC_KRANGE1 n) 32 10 == inst + 1) with
  | some n => ((s.setReg (SEC_KRANGE0 n) 0).setReg (SEC_KRANGE1 n) 0).lose base size
  | none => s

/-- The state of partition p beside its registers. -/
def State.partSt (s : State) (p : Nat) : PartSt := Tbl.get ({} : PartSt) s.parts p
def State.setPartSt (s : State) (p : Nat) (x : PartSt) : State := { s with parts := Tbl.put ({} : PartSt) s.parts p x }

/-- Remove a region of an instance: the mapping and the invalidation (R184), the key range, the memory (R157). Tiers from 3 on
hold no memory of the share: KV windows, remote pages, scratch. -/
def State.freeRegion (s : State) (r : Region) : State :=
  let s := s.unmapPages r.inst r.va r.lg (r.size / 2 ^ r.lg)
  let s := { s with regions := s.regions.filter (fun q => q != r) }
  if 3 ≤ r.tier then s
  else
    let p := s.instPart r.inst
    (s.unbindKey r.inst r.base r.size).setPartSt p
      { s.partSt p with freed := (s.partSt p).freed ++ [(r.base, r.size)] }

/-- Key k is generated (R450): what was stored under a key of this number can no longer be read. -/
def State.loseKey (s : State) (k : Nat) : State :=
  (List.range 2048).foldl (fun (s : State) n =>
    if s.fld (SEC_KRANGE0 n) 63 1 = 1 ∧ s.fld (SEC_KRANGE1 n) 32 10 = k then
      s.lose (s.fld (SEC_KRANGE0 n) 16 32 * 65536) (s.fld (SEC_KRANGE1 n) 0 32 * 65536) else s) s

def State.keyMake (s : State) (k : Nat) : State := (s.loseKey k).setFld (SEC_KEY_LIVE (k / 64)) (k % 64) 1 1

/-- Key k is destroyed. -/
def State.keyDrop (s : State) (k : Nat) : State := (s.loseKey k).setFld (SEC_KEY_LIVE (k / 64)) (k % 64) 1 0

/-- Does the ALLOC break rows 2 to 6 of R157? -/
def State.allocBad (s : State) (req : AllocReq) : Bool :=
  let tier := req.tier.toNat
  let page := req.page.toNat
  let lc := req.lc.toNat
  tier == 3 || page == 3 || req.rsvd != 0 || (req.dieLocal && tier != 0)
    || (tier == 2 && (decide (s.grade.lcs ≤ lc) || s.phys lc == noCore)) || (tier == 2 && page == 2)
    || req.size.toNat * 65536 % 2 ^ (if page = 0 then 16 else if page = 1 then 21 else 30) != 0

/-- R157: ALLOC, in the order of its rows. -/
def execAlloc (inst : Fin 512) (req : AllocReq) (s : State) : Host.Outcome State Fault Refusal :=
  let tier := req.tier.toNat
  let lg := if req.page.toNat = 0 then 16 else if req.page.toNat = 1 then 21 else 30
  let size := req.size.toNat * 65536
  let loc := req.dieLocal && tier == 0
  let unit := if tier = 2 then clusterOf (s.phys req.lc.toNat) else if loc then req.die.toNat else 0
  let p := s.instPart inst.val
  .next (if req.size.toNat = 0 then s.answer stNop
  else if s.allocBad req then s.memState 0x01 inst.val
  else if s.share p tier loc unit < s.shareUsed p tier loc unit + size then
    (s.bump MEM_ALLOC_REFUSE_CNT).answer stRefusedCapacity
  else match s.placeRegion tier loc unit size lg with
    | none => (s.bump MEM_ALLOC_REFUSE_CNT).answer stRefusedCapacity
    | some base => match s.bindKey p inst.val tier base size with
      | none => (s.bump MEM_ALLOC_REFUSE_CNT).answer stRefusedCapacity
      | some s =>
      let va := s.freeVa inst.val size lg
      let s := s.devZero base size
      let s := s.mapPages inst.val va lg (fun i => localLeaf (base + i * 2 ^ lg) (s.fld (PRT_PART p 0) 1 1 == 1)) (size / 2 ^ lg)
      let r : Region := { inst := inst.val, va := va, size := size, tier := tier, local_ := loc, unit := unit, base := base, lg := lg }
      { s with regions := s.regions ++ [r] }.answer stOk 0 [va])

/-- R157: FREE; the invalidation completes before the reply (R184). -/
def execFree (inst : Fin 512) (addr : Word) (s : State) : Host.Outcome State Fault Refusal :=
  .next (match s.regions.find? (fun r => r.inst == inst.val && r.va == addr.toNat && !r.brs) with
  | none => s.memState 0x02 inst.val
  | some r =>
    (s.freeRegion r).answer stOk)

end Sys2Proof.Machine
end

