-- ==== Sys2Proof/Machine/Barista.lean ====
section
/-!
DEFINITION. Machine/Barista.lean: Barista (chapter 10): serving groups, the active sequence table, the paged KV cache and
the prefix table, the building and committing of steps.
-/
namespace Sys2Proof.Machine

def State.brsEnt (s : State) (q : Nat) : BrsEntry := Tbl.get ({} : BrsEntry) s.brs.ents q
def State.setBrsEnt (s : State) (q : Nat) (e : BrsEntry) : State :=
  { s with brs := { s.brs with ents := Tbl.put ({} : BrsEntry) s.brs.ents q e } }
def State.modBrsEnt (s : State) (q : Nat) (f : BrsEntry → BrsEntry) : State := s.setBrsEnt q (f (s.brsEnt q))
def State.brsGrp (s : State) (g : Nat) : BrsGroup := Tbl.get ({} : BrsGroup) s.brs.groups g
def State.setBrsGrp (s : State) (g : Nat) (x : BrsGroup) : State :=
  { s with brs := { s.brs with groups := Tbl.put ({} : BrsGroup) s.brs.groups g x } }
def State.brsBlk (s : State) (b : Nat) : BrsBlock := (Tbl.get none s.brs.blocks b).getD {}
def State.setBrsBlk (s : State) (b : Nat) (x : Option BrsBlock) : State :=
  { s with brs := { s.brs with blocks := Tbl.put none s.brs.blocks b x } }

/-! ### A group's configuration (Table 10.11) -/

def State.grpState (s : State) (g : Nat) : Nat := s.fld (BRS_GRP_STAT g) 0 3
def State.setGrpState (s : State) (g v : Nat) : State := s.setFld (BRS_GRP_STAT g) 0 3 v
def State.grpLcFirst (s : State) (g : Nat) : Nat := s.fld (BRS_GRP_CFG0 g) 0 9
def State.grpLcCount (s : State) (g : Nat) : Nat := s.fld (BRS_GRP_CFG0 g) 9 9
def State.grpTokBudget (s : State) (g : Nat) : Nat := s.fld (BRS_GRP_CFG0 g) 18 16
def State.grpSeqMax (s : State) (g : Nat) : Nat := s.fld (BRS_GRP_CFG0 g) 34 13
def State.grpChunkMax (s : State) (g : Nat) : Nat := s.fld (BRS_GRP_CFG0 g) 47 14
def State.grpChunkMin (s : State) (g : Nat) : Nat := s.fld (BRS_GRP_CFG1 g) 0 14
def State.grpPageTok (s : State) (g : Nat) : Nat := 16 * 2 ^ s.fld (BRS_GRP_CFG1 g) 14 3
def State.grpDraftMax (s : State) (g : Nat) : Nat := s.fld (BRS_GRP_CFG1 g) 17 3
def State.grpKvPool (s : State) (g : Nat) : Nat := s.fld (BRS_GRP_CFG1 g) 20 6
def State.grpSpillPool (s : State) (g : Nat) : Nat := s.fld (BRS_GRP_CFG1 g) 26 7
def State.grpQuota (s : State) (g : Nat) : Nat := s.fld (BRS_GRP_CFG1 g) 33 13
def State.grpMaxCtx (s : State) (g : Nat) : Nat := s.fld (BRS_GRP_CFG2 g) 0 20
def State.grpXchSize (s : State) (g : Nat) : Nat := s.fld (BRS_GRP_CFG2 g) 20 12 * 0x200000
def State.grpInst (s : State) (g : Nat) : Nat := s.fld (BRS_GRP_CFG2 g) 32 9
def State.grpPart (s : State) (g : Nat) : Nat := s.fld (BRS_GRP_CFG2 g) 41 4
def State.grpNb (s : State) (g : Nat) : Nat := s.grpMaxCtx g / s.grpPageTok g
def State.grpUsed (s : State) (g : Nat) : Nat := s.fld (BRS_GRP_STAT g) 3 13
/-- The number of the step in flight or being built: the steps committed before it. -/
def State.grpStep (s : State) (g : Nat) : Nat := s.reg (BRS_GRP_STEP g)
/-- Offset of the tenant slab (Table 10.1). -/
def State.slabOff (s : State) (g : Nat) : Nat := 0x200000 + alignUp (s.grpQuota g * s.grpNb g * 4) 0x200000

/-- Entries of a group in use, by entry index. -/
def State.grpEnts (s : State) (g : Nat) : List Nat :=
  (s.brs.ents.filter (fun p => p.2.state != 0 && p.2.grp == g)).map (·.1)

/-- Handles of a group whose entries a predicate names, ordered by two keys. -/
def orderBy (k1 k2 : Nat → Nat) (qs : List Nat) : List Nat :=
  let le (a b : Nat) : Bool := decide (k1 a < k1 b) || (k1 a == k1 b && decide (k2 a ≤ k2 b))
  qs.foldl (fun out q => out.filter (fun a => le a q) ++ q :: out.filter (fun a => !(le a q))) []

/-! ### Refusals of commands (R263) -/

def State.brsState (s : State) (code inst : Nat) : State :=
  ((s.bump BRS_REFUSE_ST_CNT).refuseLog 6 code inst 0x1FF).answer stState

def State.brsWrongOwner (s : State) (inst : Nat) : State :=
  (s.charge { addr := 0, status := stFaultAccess, cause := cWrongOwner, unit := uReg, inst := inst,
              gen := s.instGen inst }).answer stFaultAccess cWrongOwner

/-! ### Output records (R284) -/

/-- Write an output record of a group. -/
def State.outRecord (s : State) (g rec : Nat) : State :=
  let a := BRS_GRP_OUT g
  let tail := s.fld a 16 13
  let n := s.fld a 32 14
  if 8192 ≤ n then s
  else ((s.devWrite (0x140000 + (s.brsGrp g).xch + 64 * tail) 64 rec).setFld a 16 13 (tail + 1)).setFld a 32 14 (n + 1)

/-- The fields of a record that every kind has: entry, status, reason, kind, step. -/
def State.recHead (s : State) (q status reason kind : Nat) : Nat :=
  let e := s.brsEnt q
  q + e.gen <<< 16 + status <<< 32 + reason <<< 40 + kind <<< 44 + (bits (s.grpStep e.grp) 0 32) <<< 96

/-! ### Blocks (R268 to R271) -/

/-- Barista's request of a buffer with wait = 0 (R177, R270): the buffer, or a refusal that the pool counts. -/
def State.brsBuffer (s : State) (g p : Nat) : Option Nat × State :=
  if (s.poolCfg p).1 && s.poolCan p false && (s.pool p).waiters.isEmpty then
    let r := s.poolGrant p { port := 64, inst := s.grpInst g, gen := s.instGen (s.grpInst g), timed := false }
    let x := r.2.pool p
    (some r.1, r.2.setPool p { x with pointer := 65 })
  else (none, s.bumpFld (MEM_POOL_CNT p) (if 0 < s.poolFree p then 32 else 16) 16 1)

/-- Return a block's buffers and its record. -/
def State.dropBlock (s : State) (b : Nat) : State :=
  let k := s.brsBlk b
  let s := if k.place ≠ 1 then s.poolGive (s.grpKvPool k.grp) k.hbm else s
  let s := if k.place ≠ 0 then s.poolGive (s.grpSpillPool k.grp) k.silo else s
  let s := { s with brs := { s.brs with moves := s.brs.moves.filter (fun m => m != b) } }
  (s.setBrsBlk b none).setFld BRS_STATUS 16 18 (s.fld BRS_STATUS 16 18 - 1)

/-- A block table stops holding a block: one whose refs falls to 0 is retained when it is a keyed HBM block and keep
says so, and is returned otherwise (R269). -/
def State.releaseBlock (s : State) (b : Nat) (keep : Bool) : State :=
  let k := s.brsBlk b
  if 1 < k.refs then s.setBrsBlk b (some { k with refs := k.refs - 1 })
  else if keep && k.key.isSome && k.place == 0 then
    { s.setBrsBlk b (some { k with refs := 0, released := s.brs.order }) with
      brs := { (s.setBrsBlk b (some { k with refs := 0, released := s.brs.order })).brs with order := s.brs.order + 1 } }
  else s.dropBlock b

/-- The group's retained block that was released longest ago. -/
def State.oldestRetained (s : State) (g : Nat) : Option Nat :=
  let bs := (s.brs.blocks.filter (fun p => match p.2 with | some k => k.refs == 0 && k.grp == g | none => false)).map (·.1)
  (orderBy (fun b => (s.brsBlk b).released) id bs).head?

/-- Retained blocks of a group. -/
def State.retained (s : State) (g : Nat) : Nat :=
  (s.brs.blocks.filter (fun p => match p.2 with | some k => k.refs == 0 && k.grp == g | none => false)).length

/-- Steps 1 and 2 of R270: a buffer, evicting retained blocks while the request is refused. -/
def State.obtain (s : State) (g : Nat) : Nat → Option Nat × State
  | 0 => s.brsBuffer g (s.grpKvPool g)
  | fuel + 1 =>
    let r := s.brsBuffer g (s.grpKvPool g)
    match r.1 with
    | some b => (some b, r.2)
    | none =>
      match r.2.oldestRetained g with
      | none => r
      | some b => ((r.2.dropBlock b).bump BRS_EVICT_CNT).obtain g fuel

/-- The lowest free block record. -/
def State.freeBlk (s : State) : Nat :=
  ((List.range (s.brs.blocks.length + 1)).find? (fun b => (Tbl.get none s.brs.blocks b).isNone)).getD 0

/-- Write entry j of a sequence's block table (Table 10.1). -/
def State.writeTable (s : State) (q j : Nat) : State :=
  let e := s.brsEnt q
  match e.blocks[j]? with
  | none => s
  | some b =>
    s.devWrite (0x200000 + (s.brsGrp e.grp).xch + (e.qslot * s.grpNb e.grp + j) * 4) 4
      (0x80000000 + bits (s.brsBlk b).hbm 0 17)

/-- Write a sequence's whole block table. -/
def State.writeTables (s : State) (q : Nat) : State :=
  (List.range (s.brsEnt q).blocks.length).foldl (fun (s : State) j => s.writeTable q j) s

/-- One more private block for a sequence. -/
def State.addBlock (s : State) (q hbm : Nat) : State :=
  let b := s.freeBlk
  let e := s.brsEnt q
  let s := s.setBrsBlk b (some { hbm := hbm, grp := e.grp })
  let s := s.setFld BRS_STATUS 16 18 (s.fld BRS_STATUS 16 18 + 1)
  let s := s.setBrsEnt q { e with blocks := e.blocks ++ [b] }
  s.writeTable q e.blocks.length

/-- Blocks of a sequence that it alone holds and that lie in HBM. -/
def State.privateHbm (s : State) (q : Nat) : List Nat :=
  (s.brsEnt q).blocks.filter (fun b => (s.brsBlk b).refs == 1 && (s.brsBlk b).place == 0)

/-- Start the spill of a victim: every block of it whose refs is 1 (R270). -/
def State.startSpill (s : State) (q : Nat) : State :=
  let e := s.brsEnt q
  let s := (s.privateHbm q).foldl (fun (s : State) b =>
    let r := s.brsBuffer e.grp (s.grpSpillPool e.grp)
    match r.1 with
    | some i =>
      let s := r.2.setBrsBlk b (some { r.2.brsBlk b with place := 2, silo := i })
      { s with brs := { s.brs with moves := s.brs.moves ++ [b] } }
    | none => r.2) s
  s.setBrsEnt q { e with state := 5, saved := e.state }

/-- Victims in order: largest cls, then smallest last_served, then highest seq (R270, step 3). taken: sequences of the
step being built. -/
def State.victims (s : State) (q : Nat) (taken : List Nat) : List Nat :=
  let e := s.brsEnt q
  let c := (s.grpEnts e.grp).filter (fun v =>
    let x := s.brsEnt v
    v != q && (x.state == 2 || x.state == 3) && !(taken.contains v) && decide (e.cls ≤ x.cls)
      && !(s.privateHbm v).isEmpty
      && decide ((s.privateHbm v).length ≤ s.poolFree (s.grpSpillPool e.grp)))
  let k (v : Nat) : Nat := (3 - (s.brsEnt v).cls) * 2 ^ 32 + (s.brsEnt v).lastServed
  orderBy k (fun v => 32767 - v) c

/-- Spill victims until their blocks cover a shortfall. -/
def State.spillFor (s : State) (short : Nat) : List Nat → State
  | [] => s
  | v :: rest => if short = 0 then s else (s.startSpill v).spillFor (short - (s.privateHbm v).length) rest

/-- Blocks that n further positions of a sequence still need. -/
def State.blocksNeeded (s : State) (q n : Nat) : Nat :=
  let e := s.brsEnt q
  ceilDiv (e.ctxLen + n) (s.grpPageTok e.grp) - e.blocks.length

/-- room() of R272 under R270: does the sequence have the blocks of n further positions? -/
def State.room (s : State) (q n : Nat) (taken : List Nat) : Nat → Bool × State
  | 0 => (s.blocksNeeded q n == 0, s)
  | fuel + 1 =>
    let need := s.blocksNeeded q n
    let g := (s.brsEnt q).grp
    if need = 0 then (true, s)
    else
      let r := s.obtain g (s.retained g)
      match r.1 with
      | some b => (r.2.addBlock q b).room q n taken fuel
      | none => (false, if s.grpSpillPool g = 0x7F then r.2 else r.2.spillFor need (r.2.victims q taken))

/-- R271: start a reload of a PAUSED sequence when there is room for all its blocks. -/
def State.tryReload (s : State) (q : Nat) : State :=
  let e := s.brsEnt q
  let away := e.blocks.filter (fun b => (s.brsBlk b).place == 1)
  let p := s.grpKvPool e.grp
  let spare := s.poolFree p - (s.poolCfg p).2.2.2.2
  if spare + s.retained e.grp < away.length then s
  else
    let s := away.foldl (fun (s : State) b =>
      let r := s.obtain e.grp (s.retained e.grp)
      match r.1 with
      | some i =>
        let s := r.2.setBrsBlk b (some { r.2.brsBlk b with place := 3, hbm := i })
        { s with brs := { s.brs with moves := s.brs.moves ++ [b] } }
      | none => r.2) s
    if away.isEmpty then s.setBrsEnt q { e with state := e.saved } else s.setBrsEnt q { e with state := 5 }

/-- Copy n bytes of device memory; what carries a poison tag lands with the poison syndrome. -/
def Mem.copy (m : Mem) (src dst n : Nat) : Mem :=
  let here (a : Nat) : Bool := decide (src ≤ a) && decide (a < src + n)
  let z := m.zero dst n
  { cells := (m.cells.filter (fun c => here c.1)).foldl (fun t c => Tbl.put (0 : Byte) t (c.1 - src + dst) c.2) z.cells,
    marks := (m.marks.filter (fun c => here c.1)).foldl (fun t c => Tbl.put 0 t (c.1 - src + dst) (3 * b2n (decide (2 ≤ c.2)))) z.marks }

/-- R271: one of the four moves in flight completes. -/
def execBlockMoveDone (i : Fin 4) (s : State) : Host.Outcome State Fault Refusal :=
  .next (match s.brs.moves[i.val]? with
  | none => s
  | some b =>
    let k := s.brsBlk b
    let kv := s.grpKvPool k.grp
    let sp := s.grpSpillPool k.grp
    let h := s.bufAddr kv k.hbm
    let l := s.bufAddr sp k.silo
    let n := (s.poolCfg kv).2.2.1
    let s := { s with brs := { s.brs with moves := s.brs.moves.filter (fun m => m != b) } }
    let s := s.devChecked (if k.place = 2 then h else l) n
    let s := if k.place = 2 then
        (({ s with dev := s.dev.copy h l n }.setBrsBlk b (some { k with place := 1 })).poolGive kv k.hbm).bump BRS_SPILL_CNT
      else
        (({ s with dev := s.dev.copy l h n }.setBrsBlk b (some { k with place := 0 })).poolGive sp k.silo).bump BRS_RELOAD_CNT
    let qs := (s.grpEnts k.grp).filter (fun q => (s.brsEnt q).state == 5 && (s.brsEnt q).blocks.contains b)
    qs.foldl (fun (s : State) q =>
      let e := s.brsEnt q
      if e.blocks.any (fun c => s.brs.moves.contains c) then s
      else if k.place = 2 then s.setBrsEnt q { e with state := 4 }
      else (s.setBrsEnt q { e with state := e.saved }).writeTables q) s)

/-! ### The prefix table (R267, R269) -/

/-- The keyed block of a group that carries a key. -/
def State.prefixHit (s : State) (g key : Nat) : Option Nat :=
  (s.brs.blocks.find? (fun p => match p.2 with
    | some k => k.key == some key && k.grp == g && k.place == 0 && decide (k.refs < 65535)
    | none => false)).map (·.1)

/-- Give a full block its key: skipped when the four ways of its set are in use. -/
def State.prefixInsert (s : State) (b key : Nat) : State :=
  let set := (s.brs.blocks.filter (fun p => match p.2 with
    | some k => (match k.key with | some x => x % 32768 == key % 32768 | none => false)
    | none => false)).length
  if 4 ≤ set then s.bump BRS_PFX_SKIP_CNT
  else s.setBrsBlk b (some { s.brsBlk b with key := some key })

/-- Key j of a sequence (Table 10.1, Table 10.6). -/
def State.keyOf (s : State) (q j : Nat) : Nat :=
  let e := s.brsEnt q
  (s.devLoad ((s.brsGrp e.grp).xch + e.keyOff + 8 * j) 8).1

/-- The read of key j, with its counts. -/
def State.keyRead (s : State) (q j : Nat) : State := s.devChecked ((s.brsGrp (s.brsEnt q).grp).xch + (s.brsEnt q).keyOff + 8 * j) 8

/-- The lookup of a QUEUED sequence's keys: hits from j on. -/
def State.lookup (s : State) (q j : Nat) : Nat → State
  | 0 => s
  | fuel + 1 =>
    let e := s.brsEnt q
    if (j + 1) * s.grpPageTok e.grp < e.promptLen then
      let k := s.keyOf q j
      let s := s.keyRead q j
      match s.prefixHit e.grp k with
      | none => s
      | some b =>
        let s := s.setBrsBlk b (some { s.brsBlk b with refs := (s.brsBlk b).refs + 1 })
        let s := s.setBrsEnt q { e with blocks := e.blocks ++ [b], prefillDone := (j + 1) * s.grpPageTok e.grp,
                                        ctxLen := (j + 1) * s.grpPageTok e.grp }
        ((s.writeTable q j).bump BRS_PFX_HIT_CNT).lookup q (j + 1) fuel
    else s

/-- Promotion of a QUEUED entry (R267). -/
def State.promote (s : State) (q : Nat) : State :=
  (s.modBrsEnt q (fun e => { e with state := 2 })).lookup q 0 (s.brsEnt q).nKeys

/-- Blocks that become full at a commit take their keys (R269). -/
def State.fillBlocks (s : State) (q : Nat) : State :=
  let e := s.brsEnt q
  (e.blocks.zipIdx).foldl (fun (s : State) p =>
    let k := s.brsBlk p.1
    if k.full ∨ e.ctxLen < (p.2 + 1) * s.grpPageTok e.grp then s
    else
      let s := s.setBrsBlk p.1 (some { k with full := true })
      if p.2 < e.nKeys then (s.keyRead q p.2).prefixInsert p.1 (s.keyOf q p.2) else s) s

/-! ### Epochs (R273, R276) -/

def epochKey (g e : Nat) : Nat := 65536 * g + e % 65536

/-- Resolve n epochs of a group from first on. -/
def State.resolveEpochs (s : State) (g first n : Nat) (confirmed : Bool) : State :=
  let s := (List.range n).foldl (fun (s : State) i =>
    { s with epochs := Tbl.put 0 s.epochs (epochKey g (first + i)) ((if confirmed then 2 else 3) + 4 * s.grpStep g) }) s
  if confirmed then s else s.bump64 BRS_SPEC_DISCARD_CNT n

/-- Epochs resolved two steps ago become FREE at a commit. -/
def State.freeEpochs (s : State) (g : Nat) : State :=
  let live := s.epochs.filter (fun p => !(p.1 / 65536 == g && p.2 % 4 != 1 && decide (p.2 / 4 + 2 ≤ s.grpStep g)))
  { s with epochs := live }

/-- BRS_GRP_EPOCH's count of epochs that are not FREE. -/
def State.countEpochs (s : State) (g : Nat) : State :=
  s.setFld (BRS_GRP_EPOCH g) 16 16 (s.epochs.filter (fun p => p.1 / 65536 == g)).length

/-- The notices of a group's resolved epochs, to every card that has been sent a speculative dispatch (R308). -/
def State.epochNotices (s : State) (g first n mask : Nat) : State :=
  let rings := (List.range 64).filter (fun r => s.fld (FAB_XR_CFG r) 0 1 == 1 && s.fld (FAB_XR_CFG r) 14 6 == g)
  let marks := (rings.flatMap (fun r => Tbl.get [] s.brs.cards r)).eraseDups
  let cards := marks.foldl (fun (out : List Nat) m => if out.any (fun o => o % 4096 == m % 4096) then out else out ++ [m]) []
  let pay (k : Nat) : Nat :=
    g + ((first + 64 * k) % 65536) <<< 16 + (min 64 (n - 64 * k)) <<< 32 + (bits mask (64 * k) 64) <<< 64
  let s := cards.foldl (fun (s : State) c =>
    (List.range (ceilDiv n 64)).foldl (fun (s : State) k =>
      s.fabIssue { op := 0x22, card := c % 4096, part := c / 4096, addr := 0, len := 16, payload := pay k, owner := .note,
                   inst := noInst, gen := 0, timed := false, uo := true, srcPart := some (s.grpPart g), unit := 69 }) s) s
  if n = 0 then s
  else { s with brs := { s.brs with cards := s.brs.cards.filter (fun p => !(rings.contains p.1)) } }

/-! ### The end of a sequence (R278, R280, R282) -/

/-- A sequence ends with a status: its OPEN epochs are cancelled, its blocks released, its record written. keep: its
keyed blocks may be retained. -/
def State.endSeq (s : State) (q status : Nat) (keep : Bool) : State :=
  let e := s.brsEnt q
  let s := s.outRecord e.grp (s.recHead q status 0 3)
  let s := e.blocks.foldl (fun (s : State) b => s.releaseBlock b keep) s
  s.modBrsEnt q (fun e => { e with state := 6, blocks := [], nEpoch := 0 })

/-- Remove an ENDING entry: it becomes FREE under its next generation (R261). -/
def State.removeEnt (s : State) (q : Nat) : State :=
  let e := s.brsEnt q
  let s := s.setBrsEnt q { gen := (e.gen + 1) % 65536 }
  let s := s.setFld (BRS_GRP_STAT e.grp) 3 13 (s.grpUsed e.grp - 1)
  s.setFld BRS_STATUS 0 16 (s.fld BRS_STATUS 0 16 - 1)

/-! ### Commit (R275 to R280) -/

/-- Where a sequence's result record of the step in flight lies (Table 10.1). -/
def State.resultAddr (s : State) (g q : Nat) : Nat :=
  0x40000 + (s.brsGrp g).xch + 128 * (2 * (s.brsEnt q).qslot + s.grpStep g % 2)

/-- The result record of a sequence in the step in flight, and whether it is poisoned (R275). -/
def State.resultRec (s : State) (g q : Nat) : Nat × Bool := s.devLoad (s.resultAddr g q) 128

/-- A token record of n tokens at position pos (R284). -/
def State.tokenRecord (s : State) (g q pos n : Nat) (eos : Bool) (r : Nat) : State :=
  s.outRecord g (s.recHead q stOk 0 0 + (b2n eos) <<< 48 + (n - 1) <<< 49 + (bits pos 0 32) <<< 64
    + (bits r 128 (32 * n)) <<< 128)

/-- Tokens that an item emits when a of its drafts are accepted: a + 1 for a decode item, 1 for a prefill item that
completes the prompt (R275). -/
def BrsEntry.emits (e : BrsEntry) (it : BrsItem) (a : Nat) : Nat :=
  if it.prefill = false then a + 1
  else if e.promptLen ≤ e.prefillDone + it.nTok then 1 else 0

/-- The entry after an item commits: a drafts accepted, np proposals for the next step (R276, R278). -/
def BrsEntry.commit (e : BrsEntry) (it : BrsItem) (a np : Nat) : BrsEntry :=
  { e with ctxLen := e.ctxLen + (if it.prefill then it.nTok else 1 + a),
           nEpoch := 0, draftsNext := np,
           prefillDone := if it.prefill then e.prefillDone + it.nTok else e.prefillDone,
           state := if it.prefill ∧ e.emits it a ≠ 0 then 3 else e.state,
           generated := e.generated + e.emits it a }

/-- An item whose result record r is OK advances its sequence and emits its tokens. -/
def State.commitOk (s : State) (g : Nat) (it : BrsItem) (r : Nat) : State :=
  let q := it.seq
  let e := s.brsEnt q
  let a := min (bits r 40 3) it.d
  let eos := bit r 46
  let n := e.emits it a
  let s := (s.resolveEpochs g it.epoch0 a true).resolveEpochs g (it.epoch0 + a) (it.d - a) false
  let s := (s.setBrsEnt q (e.commit it a (min (bits r 43 3) (s.grpDraftMax g)))).fillBlocks q
  let s := if n = 0 then s else s.tokenRecord g q (it.pos + (if it.prefill then it.nTok else 1)) n eos r
  if n ≠ 0 ∧ (eos ∨ e.maxNew ≤ e.generated + n) then s.endSeq q stOk true else s

/-- Commit one item (R278, R280). -/
def State.commitItem (s : State) (g : Nat) (it : BrsItem) : State :=
  let r := s.resultRec g it.seq
  let s := s.devChecked (s.resultAddr g it.seq) 128
  let st := if r.2 then stPoison else bits r.1 32 8
  if (s.brsEnt it.seq).cancel then (s.resolveEpochs g it.epoch0 it.d false).endSeq it.seq stCancelled true
  else if st ≠ stOk then (s.resolveEpochs g it.epoch0 it.d false).endSeq it.seq st false
  else s.commitOk g it r.1

/-- How a task of the step in flight ended: none while it still runs. A record is taken from the core's completion
queue; a fenced core's task ended with RETIRED. -/
def State.taskStatus (s : State) (t : BrsTask) : Option Nat :=
  match t.ended with
  | some st => some st
  | none =>
    if t.sent = false then none
    else match (s.ctx t.pc .elastic).tq.compl.items.find? (fun i => bits i.data 0 16 == bits t.desc 16 16) with
      | some i => some (bits i.data 32 8)
      | none => if (s.core t.pc).fenced then some stRetired else none

/-- Take a task's record out of its completion queue. -/
def State.takeRecord (s : State) (t : BrsTask) : State :=
  let c := s.ctx t.pc .elastic
  match findIdx? (fun (i : CItem) => bits i.data 0 16 == bits t.desc 16 16) c.tq.compl.items with
  | some (k, _) => s.setCtx t.pc .elastic
      { c with tq := { c.tq with compl := { c.tq.compl with items := eraseAt c.tq.compl.items k } }.drainAborts }
  | none => s

/-- Does an item's result record name the item's sequence and step (R278)? -/
def State.resultMatches (s : State) (g : Nat) (it : BrsItem) : Bool :=
  let r := (s.resultRec g it.seq).1
  bits r 16 16 == (s.brsEnt it.seq).gen && bits r 64 32 == bits (s.grpStep g) 0 32

/-- The confirmed epochs of the items, as a mask from a first epoch on. -/
def State.confirmMask (s : State) (g first : Nat) (its : List BrsItem) : Nat :=
  its.foldl (fun m it => (List.range it.d).foldl (fun m i =>
    if Tbl.get 0 s.epochs (epochKey g (it.epoch0 + i)) % 4 = 2 then m ||| 2 ^ ((65536 + (it.epoch0 + i) - first) % 65536) else m) m) 0

/-- Commit or abort the step in flight (R278, R279), once its tasks have all ended with the statuses sts. -/
def State.commitStep (s : State) (g : Nat) (sts : List Nat) : State :=
  let x := s.brsGrp g
  let drafts := x.items.foldl (fun n it => n + it.d) 0
  let first := (x.items.find? (fun it => it.d != 0)).map (·.epoch0)
  let ok := sts.all (fun st => st == stOk) && x.items.all (fun it => s.resultMatches g it)
  let s := x.tasks.foldl State.takeRecord s
  let s := s.setBrsGrp g { x with items := [], tasks := [] }
  let s := if ok then
      let s := x.items.foldl (fun (s : State) it => s.commitItem g it) s
      let rest := (s.grpEnts g).filter (fun q => (s.brsEnt q).cancel && (s.brsEnt q).state != 6)
      let s := rest.foldl (fun (s : State) q => s.endSeq q stCancelled true) s
      let s := s.setFld (BRS_GRP_STAT g) 23 2 0
      (s.setReg (BRS_GRP_STEP g) (s.grpStep g + 1)).freeEpochs g
    else
      let s := x.items.foldl (fun (s : State) it => (s.resolveEpochs g it.epoch0 it.d false).modBrsEnt it.seq (fun e => { e with nEpoch := 0 })) s
      let s := s.bump BRS_ABORT_CNT
      if sts.any (fun st => st == stRetired || st == stPreempted) then s
      else
        let n := s.fld (BRS_GRP_STAT g) 23 2 + 1
        let s := s.setFld (BRS_GRP_STAT g) 23 2 n
        if 2 ≤ n then s.setGrpState g 3 else s
  match first with
  | some f => (s.epochNotices g f drafts (s.confirmMask g f x.items)).countEpochs g
  | none => s.countEpochs g

/-! ### Building a step (R272 to R274) -/

/-- What the build carries: the state, tokens left, the items so far. -/
structure Build where
  s : State
  budget : Nat
  items : List BrsItem := []

/-- pass(x, r) of R272. -/
def State.pass (s : State) (q reason : Nat) : State :=
  let e := s.brsEnt q
  let s := s.bump64 BRS_PASS_CNT 1
  let s := if e.dflag then s else s.outRecord e.grp (s.recHead q stDelayed reason 2)
  s.setBrsEnt q { e with delay := satAdd 16 e.delay 1, dflag := true }

/-- add() of R272, with the epochs of R273. -/
def Build.add (b : Build) (q : Nat) (prefill : Bool) (n d : Nat) : Build :=
  let s := b.s
  let e := s.brsEnt q
  let g := e.grp
  let first := s.fld (BRS_GRP_EPOCH g) 0 16
  let s := (List.range d).foldl (fun (s : State) i => { s with epochs := Tbl.put 0 s.epochs (epochKey g (first + i)) 1 }) s
  let s := s.setFld (BRS_GRP_EPOCH g) 0 16 (first + d)
  let e := { e with dflag := false, delay := 0, lastServed := bits (s.grpStep g) 0 32,
                    epoch0 := if d = 0 then e.epoch0 else first, nEpoch := d }
  { s := s.setBrsEnt q e, budget := b.budget - n,
    items := b.items ++ [{ seq := q, prefill := prefill, d := d, pos := e.ctxLen, nTok := n, epoch0 := if d = 0 then 0 else first }] }

/-- One sequence of the decode loop. -/
def Build.decode (g : Nat) (b : Build) (q : Nat) : Build :=
  let s := b.s
  let e := s.brsEnt q
  if e.state = 4 then { b with s := (s.tryReload q).pass q 4 }
  else if b.items.length = s.grpSeqMax g then { b with s := s.pass q 2 }
  else if b.budget = 0 then { b with s := s.pass q 1 }
  else
    let d := min (min e.draftsNext (b.budget - 1)) (e.maxNew - e.generated - 1)
    let r := s.room q (1 + d) (b.items.map (·.seq)) (2 + d)
    if r.1 then { b with s := r.2 }.add q false (1 + d) d else { b with s := r.2.pass q 3 }

/-- One sequence of the prefill loop. -/
def Build.prefill (g : Nat) (b : Build) (q : Nat) : Build :=
  let s := b.s
  let e := s.brsEnt q
  if e.state = 4 then { b with s := (s.tryReload q).pass q 4 }
  else
    let rem := e.promptLen - e.prefillDone
    let c := min (min rem (s.grpChunkMax g)) b.budget
    if b.items.length = s.grpSeqMax g then { b with s := s.pass q 2 }
    else if c < min (s.grpChunkMin g) rem then { b with s := s.pass q 1 }
    else
      let r := s.room q c (b.items.map (·.seq)) (c + 1)
      if r.1 then { b with s := r.2 }.add q true c 0 else { b with s := r.2.pass q 3 }

/-- The whole build of R272. -/
def State.build (s : State) (g : Nat) : Build :=
  let pick (s : State) (cls st : Nat) : List Nat := (s.grpEnts g).filter (fun q =>
    let e := s.brsEnt q
    e.cls == cls && (e.state == st || (e.state == 4 && e.saved == st)))
  let b := (List.range 4).foldl (fun (b : Build) c =>
    (orderBy (fun q => (b.s.brsEnt q).lastServed) id (pick b.s c 3)).foldl (Build.decode g) b) { s := s, budget := s.grpTokBudget g }
  (List.range 4).foldl (fun (b : Build) c =>
    (orderBy (fun q => (b.s.brsEnt q).admitStep) id (pick b.s c 2)).foldl (Build.prefill g) b) b

/-- A work item's 32 bytes (Table 10.9). -/
def State.workItem (s : State) (it : BrsItem) : Nat :=
  let e := s.brsEnt it.seq
  it.seq + (b2n it.prefill) <<< 15 + e.gen <<< 16 + e.qslot <<< 32 + it.d <<< 44 + (bits it.pos 0 32) <<< 64
    + (bits it.nTok 0 32) <<< 96 + it.epoch0 <<< 128
    + (if it.prefill then bits (e.promptOff + 4 * e.prefillDone) 0 32 else 0) <<< 160

/-- Write the tasks of the step that are still to be written. -/
def State.brsSend (s : State) (g : Nat) : State :=
  let x := s.brsGrp g
  let r := x.tasks.foldl (fun (a : State × List BrsTask) (t : BrsTask) =>
    if t.sent ∨ t.ended.isSome then (a.1, a.2 ++ [t])
    else
      let q := a.1.hubTask t.pc .elastic t.desc
      (q.2.2, a.2 ++ [{ t with sent := q.2.1, ended := q.1 }])) (s, [])
  r.1.setBrsGrp g { r.1.brsGrp g with tasks := r.2 }

/-- Dispatch a step of items: the work list, then one elastic task to each core of the group (R274). -/
def State.dispatchStep (s : State) (g : Nat) (items : List BrsItem) : State :=
  let half := 0x20000 * (s.grpStep g % 2)
  let s := (items.zipIdx).foldl (fun (s : State) p => s.devWrite ((s.brsGrp g).xch + half + 32 * p.2) 32 (s.workItem p.1)) s
  let arg0 := s.reg (BRS_GRP_XCH g) + half
  let arg1 := (bits (s.grpStep g) 0 32) <<< 32 + items.length
  let task (lc : Nat) : BrsTask :=
    let pc := s.physCtx lc .elastic
    let gen := (s.ctx pc .elastic).tq.gen
    let d := 1 + (bits (s.grpStep g) 0 16) <<< 16 + gen <<< 32 + 8192 <<< 64 + arg0 <<< 96 + arg1 <<< 160
    { pc := pc, desc := d }
  let ts := ((tabulate (s.grpLcCount g) (fun i => s.grpLcFirst g + i)).filter (fun lc => s.physCtx lc .elastic != noCore)).map task
  if items.isEmpty then s
  else (s.setBrsGrp g { s.brsGrp g with items := items, tasks := ts }).brsSend g

/-- Does the output ring have room for the next step (R282, step 7)? -/
def State.outRoom (s : State) (g : Nat) : Bool :=
  decide (2 * s.grpUsed g + 64 ≤ 8192 - s.fld (BRS_GRP_OUT g) 32 14)

def State.buildAndDispatch (s : State) (g : Nat) : State :=
  let b := s.build g
  (b.s.dispatchStep g b.items).countEpochs g

/-! ### Admission (R265, R266) -/

/-- The lowest free entry, and the lowest free slot of a group. -/
def State.freeSeq (s : State) : Nat :=
  ((List.range (s.brs.ents.length + 1)).find? (fun q => (s.brsEnt q).state == 0)).getD 0
def State.freeSlot (s : State) (g : Nat) : Nat :=
  ((List.range (s.grpUsed g + 1)).find? (fun k => (s.grpEnts g).all (fun q => (s.brsEnt q).qslot != k))).getD 0

/-- Give a request its entry: its index. -/
def State.takeEntry (s : State) (g : Nat) (r : BrsReq) : Nat × State :=
  let q := s.freeSeq
  let e : BrsEntry :=
    { state := 1, cls := r.cls, grp := g, qslot := s.freeSlot g, gen := (s.brsEnt q).gen, inst := s.grpInst g,
      promptLen := r.promptLen, maxNew := r.maxNew, promptOff := s.slabOff g + r.promptOff, nKeys := r.nKeys,
      keyOff := s.slabOff g + r.keyOff, lastServed := bits (s.grpStep g) 0 32, admitStep := bits (s.grpStep g) 0 32 }
  let s := s.setBrsEnt q e
  let s := s.setFld (BRS_GRP_STAT g) 3 13 (s.grpUsed g + 1)
  (q, s.setFld BRS_STATUS 0 16 (s.fld BRS_STATUS 0 16 + 1))

/-- Admit waiters into free slots, oldest first, with their ADMITTED records (R282, step 6). -/
def State.admitWaiters (s : State) (g : Nat) : Nat → State
  | 0 => s
  | fuel + 1 =>
    match (s.brsGrp g).waiters with
    | [] => s
    | w :: rest =>
      if s.grpUsed g < s.grpQuota g then
        let r := s.takeEntry g w
        let s := r.2.setBrsGrp g { r.2.brsGrp g with waiters := rest }
        let s := s.setFld (BRS_GRP_STAT g) 16 7 rest.length
        (s.outRecord g (s.recHead r.1 stOk 0 1)).admitWaiters g fuel
      else s

/-! ### Ends of groups (R263, R281, R283) -/

/-- Recount BRS_PART_USED of a partition. -/
def State.brsPartUsed (s : State) (p : Nat) : State :=
  s.setFld (BRS_PART_USED p) 0 16
    (((List.range 64).filter (fun g => s.grpState g != 0 && s.grpPart g == p)).foldl (fun n g => n + s.grpQuota g) 0)

/-- Destroy a group: no entry is left; every retained block, the KV window and, unless its records stay readable, the
exchange area go back. -/
def State.destroyGroup (s : State) (g : Nat) (keepArea : Bool) : State :=
  let bs := (s.brs.blocks.filter (fun p => match p.2 with | some k => k.grp == g | none => false)).map (·.1)
  let s := bs.foldl (fun (s : State) b => s.dropBlock b) s
  let x := s.brsGrp g
  let inst := s.grpInst g
  let gone := s.regions.filter (fun r => r.brs && r.inst == inst &&
    ((r.base == x.xch && r.tier == 0 && !keepArea) || (r.tier == 3 && r.unit == g)))
  let s := gone.foldl (fun (s : State) r => s.freeRegion r) s
  let s := { s with epochs := s.epochs.filter (fun p => p.1 / 65536 != g) }
  let p := s.grpPart g
  let s := (s.setBrsGrp g {}).setReg (BRS_GRP_STAT g) 0
  s.brsPartUsed p

/-- Every entry of a group ends with a status and is removed. -/
def State.endAll (s : State) (g status : Nat) : State :=
  (s.grpEnts g).foldl (fun (s : State) q => (s.endSeq q status true).removeEnt q) s

/-- R281: the owner's instance is reset: its groups end at once, without records. -/
def State.brsOwnerReset (s : State) (inst : Nat) : State :=
  ((List.range 64).filter (fun g => s.grpState g != 0 && s.grpInst g == inst)).foldl (fun (s : State) g =>
    let s := (s.brsGrp g).items.foldl (fun (s : State) it => s.resolveEpochs g it.epoch0 it.d false) s
    let s := (s.grpEnts g).foldl (fun (s : State) q =>
      let s := (s.brsEnt q).blocks.foldl (fun (s : State) b => s.releaseBlock b false) s
      s.removeEnt q) s
    s.destroyGroup g false) s

/-! ### Step boundaries (R282) -/

/-- Apply the pending migrations of a group (R282, step 3). -/
def State.migrations (s : State) (g : Nat) : State :=
  (s.grpEnts g).foldl (fun (s : State) q =>
    let e := s.brsEnt q
    match e.mig with
    | none => s
    | some h =>
      if s.grpUsed h < s.grpQuota h ∧ s.grpState h ≠ 0 then
        let s := (s.setFld (BRS_GRP_STAT g) 3 13 (s.grpUsed g - 1)).setFld (BRS_GRP_STAT h) 3 13 (s.grpUsed h + 1)
        let slot := s.freeSlot h
        let s := e.blocks.foldl (fun (s : State) b =>
          if (s.brsBlk b).refs = 1 then s.setBrsBlk b (some { s.brsBlk b with grp := h, key := none }) else s) s
        (s.setBrsEnt q { e with grp := h, qslot := slot, mig := none, lastServed := bits (s.grpStep h) 0 32,
                                draftsNext := min e.draftsNext (s.grpDraftMax h) }).writeTables q
      else s.setBrsEnt q { e with mig := none }) s

/-- The elastic hand-overs of a group's logical cores that have fallen due (R122, R282, step 4). -/
def State.elasticHandovers (s : State) (g : Nat) : State :=
  let mine (n : Nat) : Bool := decide (s.grpLcFirst g ≤ n) && decide (n < s.grpLcFirst g + s.grpLcCount g)
  let s := ((s.handovers.map (·.lc)).filter mine).foldl (fun (s : State) n => s.takeOver n .elastic) s
  ((s.rots.map (·.lc)).filter mine).foldl (fun (s : State) n => s.rotElastic n) s

/-- Armed card swaps are applied: every valid directory entry that names the old card (R483). -/
def State.cardSwaps (s : State) : State :=
  ((List.range 16).filter (fun k => s.fld (RAS_CARD_SWAP k) 24 1 == 1 && s.fld (RAS_CARD_SWAP k) 25 1 == 0)).foldl
    (fun (s : State) k =>
      let src := s.fld (RAS_CARD_SWAP k) 0 12
      let dst := s.fld (RAS_CARD_SWAP k) 12 12
      let named := (s.regs.filter (fun r => decide (0x2100000 ≤ r.1) && decide (r.1 < 0x2200000) && r.1 % 16 == 0
        && bit r.2 0 && bits r.2 4 12 == src)).map (·.1)
      let s := named.foldl (fun (s : State) a => s.setFld a 4 12 dst) s
      let s := (s.setFld (RAS_CARD_SWAP k) 25 1 1).event RAS_EVENT 7
      s.errLog { level := 4, kind := 0x48, action := 8, detail := src + dst <<< 12 }) s

/-- Stragglers among the cores of a group (R482): late: those whose task of the step ended more than pct percent after the
median. Cores with a gate group are not compared. -/
def State.stragglers (s : State) (g : Nat) (late : List Nat) : State :=
  (tabulate (s.grpLcCount g) (fun i => s.grpLcFirst g + i)).foldl (fun (s : State) n =>
    let pc := s.physCtx n .elastic
    if pc = noCore ∨ (s.core pc).group ≠ 0x7F then s
    else
      let c := if late.contains n then Tbl.get 0 s.lateSteps n + 1 else 0
      if s.fld RAS_STRAG_CFG 8 8 ≤ c then
        let s := { s with lateSteps := Tbl.put 0 s.lateSteps n 0 }
        let s := (s.setFld (RAS_CORE_HIST pc) 20 2 3).event RAS_EVENT 6
        (s.errLog { level := 1, kind := 0x47, action := 8, place := .core pc, count := c }).rotStart n
      else { s with lateSteps := Tbl.put 0 s.lateSteps n c }) s

/-- Steps 6 and 7 of R282. -/
def State.admitAndBuild (s : State) (g : Nat) : State :=
  let s := s.admitWaiters g 64
  let s := ((s.grpEnts g).filter (fun q => (s.brsEnt q).state == 1)).foldl (fun (s : State) q => s.promote q) s
  if s.outRoom g then s.buildAndDispatch g
  else (s.bump BRS_OUT_STALL_CNT).setBrsGrp g { s.brsGrp g with stalled := true }

/-- The boundary of a group after its commit, steps 2 to 7 of R282. -/
def State.boundary (s : State) (g : Nat) : State :=
  let s := ((s.grpEnts g).filter (fun q => (s.brsEnt q).state == 6)).foldl (fun (s : State) q => s.removeEnt q) s
  let s := ((s.migrations g).elasticHandovers g).cardSwaps
  let x := s.brsGrp g
  if s.grpState g = 5 then
    let i := s.grpInst g
    let s := ((s.endAll g stCancelled).destroyGroup g false).answer stOk
    match x.destroyTag with | some t => s.brsReply i 0x41 t | none => s
  else if x.reclaim then (s.endAll g stPreempted).destroyGroup g true
  else
    let s := if x.hold ∧ s.grpState g = 1 then (s.setBrsGrp g { x with hold := false }).setGrpState g 2 else s
    if s.grpState g = 2 ∨ s.grpState g = 3 then s else s.admitAndBuild g

/-! ### Commands (R263 to R266) -/

/-- The sum of the quotas of the groups of a partition. -/
def State.quotaLeft (s : State) (p : Nat) : Nat := s.fld (BRS_PART_QUOTA p) 0 16 - s.fld (BRS_PART_USED p) 0 16

/-- A limit of R258 broken, or a range, a pool or a slab that row 3 of Table 10.5 refuses; g0 to g2: the payload. -/
def State.grpBad (s : State) (g0 g1 g2 : Nat) : Bool :=
  let first := bits g0 0 9
  let n := bits g0 9 9
  let page := 16 * 2 ^ bits g1 14 3
  let kv := bits g1 20 6
  let sp := bits g1 26 7
  let nb := bits g2 0 20 / page
  let quota := bits g1 33 13
  let spOk := sp == 0x7F || (decide (sp < 64) && s.fld (MEM_POOL_CFG sp) 1 2 == 1 && s.fld (MEM_POOL_CFG sp) 0 1 == 1
    && s.fld (MEM_POOL_CFG sp) 3 4 == s.fld (MEM_POOL_CFG kv) 3 4)
  decide (s.grade.lcs < first + n)
    || (List.range 64).any (fun g => s.grpState g != 0 && decide (s.grpLcFirst g < first + n)
        && decide (first < s.grpLcFirst g + s.grpLcCount g))
    || s.fld (MEM_POOL_CFG kv) 0 1 == 0 || s.fld (MEM_POOL_CFG kv) 1 2 != 0 || !spOk
    || decide (4096 < bits g0 34 13) || decide (8192 < bits g0 47 14) || decide (8192 < bits g1 0 14)
    || decide (bits g0 47 14 < bits g1 0 14) || decide (4096 < quota) || bits g2 0 20 % page != 0
    || decide (16384 < bits g0 34 13 * bits g1 17 3)
    || decide (bits g2 20 12 * 0x200000 < 0x400000 + alignUp (quota * nb * 4) 0x200000)

/-- Row 1 of Table 10.5. -/
def grpReserved (g0 g1 g2 : Nat) : Bool :=
  bits g0 61 3 != 0 || bits g1 46 18 != 0 || bits g2 45 19 != 0 || bits g2 32 13 != 0
    || bits g0 9 9 == 0 || bits g0 18 16 == 0 || bits g0 34 13 == 0 || bits g0 47 14 == 0 || bits g1 0 14 == 0
    || bits g1 33 13 == 0 || bits g2 0 20 == 0 || decide (4 < bits g1 14 3)

/-- Row 2 of Table 10.5. -/
def State.grpForeign (s : State) (inst g0 g1 : Nat) : Bool :=
  let p := s.instPart inst
  let owns (pool : Nat) : Bool := s.fld (MEM_POOL_CFG pool) 24 4 == p
  s.instTimed inst
    || (List.range (bits g0 9 9)).any (fun i => decide (bits g0 0 9 + i < s.grade.lcs) && s.lcPart (bits g0 0 9 + i) .elastic != some p)
    || !(owns (bits g1 20 6)) || (decide (bits g1 26 7 < 64) && !(owns (bits g1 26 7)))

/-- Map a group's KV window: the HBM range of its pool, at 64 KiB pages (R259). -/
def State.mapWindow (s : State) (g inst : Nat) (enc : Bool) : State :=
  let c := s.poolCfg (s.grpKvPool g)
  let lo := c.2.2.2.1 / 65536 * 65536
  let size := alignUp (c.2.2.2.1 + c.2.1 * c.2.2.1) 65536 - lo
  let va := s.freeVa inst size 16
  let s := s.mapPages inst va 16 (fun i => localLeaf (lo + i * 65536) enc) (size / 65536)
  { s with regions := s.regions ++ [({ inst := inst, va := va, size := size, tier := 3, local_ := false, unit := g, base := lo, lg := 16, brs := true } : Region)] }

/-- The leaf of an exchange area's page: r, w and dma (R260). -/
def xchLeaf (a : Nat) (enc : Bool) : Nat := localLeaf a enc - 0x20

/-- Group g is created with its exchange area at base (R264): zeroed, mapped, its registers set, its KV window mapped. -/
def State.grpMake (s : State) (inst g base g0 g1 g2 : Nat) : State :=
  let p := s.instPart inst
  let size := bits g2 20 12 * 0x200000
  let enc := s.partFld p 1 1 == 1
  let va := s.freeVa inst size 21
  let s := s.devZero base size
  let s := s.mapPages inst va 21 (fun i => xchLeaf (base + i * 0x200000) enc) (size / 0x200000)
  let s := { s with regions := s.regions ++ [({ inst := inst, va := va, size := size, tier := 0, local_ := false, unit := 0, base := base, lg := 21, brs := true } : Region)] }
  let s := ((s.setReg (BRS_GRP_CFG0 g) g0).setReg (BRS_GRP_CFG1 g) g1).setReg (BRS_GRP_CFG2 g) (g2 + inst <<< 32 + p <<< 41)
  let s := (((s.setReg (BRS_GRP_XCH g) va).setReg (BRS_GRP_STEP g) 0).setReg (BRS_GRP_EPOCH g) 0).setReg (BRS_GRP_OUT g) 0
  let s := (s.setReg (BRS_GRP_STAT g) 1).setBrsGrp g { xch := base }
  ((s.mapWindow g inst enc).brsPartUsed p).answer stOk 0 [g, va]

/-- GRP_CREATE (R264): the fields of BRS_GRP_CFG0, CFG1 and CFG2. -/
def State.grpCreate (s : State) (inst g0 g1 g2 : Nat) : State :=
  let p := s.instPart inst
  let size := bits g2 20 12 * 0x200000
  if grpReserved g0 g1 g2 then s.brsState 0x40 inst
  else if s.grpForeign inst g0 g1 then s.brsWrongOwner inst
  else if s.grpBad g0 g1 g2 then s.brsState 0x40 inst
  else match (List.range 64).find? (fun g => s.grpState g == 0) with
    | none => s.answer stRefusedCapacity
    | some g =>
      if s.quotaLeft p < bits g1 33 13 ∨ s.share p 0 false 0 < s.shareUsed p 0 false 0 + size then s.answer stRefusedCapacity
      else match s.placeRegion 0 false 0 size 21 with
        | none => s.answer stRefusedCapacity
        | some base => match s.bindKey p inst 0 base size with
          | none => s.answer stRefusedCapacity
          | some s => s.grpMake inst g base g0 g1 g2

/-- The command names a group: f is the command on a group that is in use and belongs to the sender. -/
def State.onGroup (s : State) (code inst g : Nat) (f : State → State) : State :=
  if s.fld BRS_CTRL 0 1 = 0 ∨ s.grpState g = 0 then s.brsState code inst
  else if s.grpInst g ≠ inst then s.brsWrongOwner inst
  else f s

/-- The command names a sequence by its handle (R261). -/
def State.onSeq (s : State) (code inst q gen : Nat) (f : State → BrsEntry → State) : State :=
  let e := s.brsEnt q
  if s.fld BRS_CTRL 0 1 = 0 then s.brsState code inst
  else if e.state = 0 ∨ e.gen ≠ gen then (s.bump BRS_STALE_CNT).answer stAbortedGen
  else if e.inst ≠ inst then s.brsWrongOwner inst
  else f s e

def State.grpDestroy (s : State) (inst g : Nat) : State :=
  s.onGroup 0x41 inst g (fun s =>
    if s.grpState g = 5 then s.brsState 0x41 inst else (s.setGrpState g 5).answer stOk)

def State.grpHold (s : State) (inst g : Nat) (hold : Bool) : State :=
  s.onGroup 0x42 inst g (fun s =>
    let st := s.grpState g
    if hold then
      if st = 1 ∧ (s.brsGrp g).hold = false then (s.setBrsGrp g { s.brsGrp g with hold := true }).answer stOk
      else s.brsState 0x42 inst
    else if st = 2 ∨ st = 3 then ((s.setGrpState g 1).setFld (BRS_GRP_STAT g) 23 2 0).answer stOk
    else s.brsState 0x42 inst)

/-- ADMIT in the order of Table 10.7; the payload of Table 10.6. -/
def State.admitSeq (s : State) (inst d : Nat) : State :=
  let g := bits d 0 6
  let r : BrsReq := { cls := bits d 6 2, promptLen := bits d 16 32, maxNew := bits d 48 32, promptOff := bits d 80 32,
                      nKeys := bits d 112 16, keyOff := bits d 128 32 }
  let slab := s.grpXchSize g - s.slabOff g
  s.onGroup 0x43 inst g (fun s =>
    let st := s.grpState g
    if r.promptLen = 0 ∨ r.maxNew = 0 then s.answer stNop
    else if bits d 9 7 ≠ 0 ∨ bits d 160 96 ≠ 0 ∨ r.promptOff % 64 ≠ 0 ∨ r.keyOff % 8 ≠ 0
        ∨ slab < r.promptOff + 4 * r.promptLen ∨ slab < r.keyOff + 8 * r.nKeys
        ∨ r.promptLen / s.grpPageTok g < r.nKeys ∨ st = 3 ∨ st = 4 ∨ st = 5 then s.brsState 0x43 inst
    else if s.grpMaxCtx g < r.promptLen + r.maxNew ∨ (s.poolCfg (s.grpKvPool g)).2.1 < s.grpNb g then
      (s.bump BRS_REFUSE_CNT).answer stRefusedCapacity
    else if s.grpQuota g ≤ s.grpUsed g then
      let x := s.brsGrp g
      if bit d 8 ∧ x.waiters.length < 64 then
        let s := s.setBrsGrp g { x with waiters := x.waiters ++ [r] }
        ((s.setFld (BRS_GRP_STAT g) 16 7 (x.waiters.length + 1)).bump BRS_DELAY_CNT).answer stDelayed
      else (s.bump BRS_REFUSE_CNT).answer stRefusedCapacity
    else
      let t := s.takeEntry g r
      (t.2.bump BRS_ADMIT_CNT).answer stOk 0 [t.1 + (s.brsEnt t.1).gen <<< 16])

def State.cancelSeq (s : State) (inst q gen : Nat) : State :=
  s.onSeq 0x44 inst q gen (fun s e =>
    if e.state = 6 ∨ e.cancel then s.brsState 0x44 inst
    else (s.setBrsEnt q { e with cancel := true }).answer stOk)

def State.querySeq (s : State) (inst q gen : Nat) : State :=
  s.onSeq 0x45 inst q gen (fun s e => s.answer stOk 0 [e.state, e.cls, e.ctxLen, e.generated, e.delay])

def State.setClass (s : State) (inst q gen cls : Nat) : State :=
  s.onSeq 0x46 inst q gen (fun s e => (s.setBrsEnt q { e with cls := cls }).answer stOk)

/-- MIGRATE: the target must have the sender as owner, the same page_tok and kv_pool, and a free slot. -/
def State.migrate (s : State) (inst q gen h : Nat) : State :=
  s.onSeq 0x47 inst q gen (fun s e =>
    if s.grpState h = 0 ∨ s.grpInst h ≠ inst ∨ s.grpPageTok h ≠ s.grpPageTok e.grp ∨ s.grpKvPool h ≠ s.grpKvPool e.grp
        ∨ s.grpQuota h ≤ s.grpUsed h ∨ e.state = 6 then s.brsState 0x47 inst
    else (s.setBrsEnt q { e with mig := some h }).answer stOk)

/-- OUT_DONE: consume output records, oldest first. -/
def State.outDone (s : State) (inst g count : Nat) : State :=
  s.onGroup 0x48 inst g (fun s =>
    let a := BRS_GRP_OUT g
    let n := s.fld a 32 14
    if count = 0 then s.answer stNop
    else if n < count then s.brsState 0x48 inst
    else ((s.setFld a 0 13 (s.fld a 0 13 + count)).setFld a 32 14 (n - count)).answer stOk)

/-! ### The commands as they come over UP_BRS (R263, R417) -/

/-- Codes 0x49 to 0x4F at the head of an instance's channel: STATE (R263). -/
def State.brsUnknown (s : State) (i : Nat) (bad : Bool) : State :=
  match (s.chan i 1).q.peek with
  | some (_, it) => if 0x48 < bits it.data 0 8 then s.brsCommand i (bits it.data 0 8) bad (fun s _ => s.brsState (bits it.data 0 8) i) else s
  | none => s

/-- A command of instance i with w bits of payload; a bit above them is reserved (R509). -/
def State.brsRun (s : State) (i code w : Nat) (bad : Bool) (f : State → Nat → State) : State :=
  (s.brsUnknown i bad).brsCommand i code bad (fun s d => if 2 ^ w ≤ d then s.brsState code i else f s d)

def execGrpCreate (inst : Fin 512) (bad : Bool) (s : State) : Host.Outcome State Fault Refusal :=
  .next (s.brsRun inst.val 0x40 192 bad (fun s d =>
    if s.fld BRS_CTRL 0 1 = 0 then s.brsState 0x40 inst.val
    else s.grpCreate inst.val (bits d 0 64) (bits d 64 64) (bits d 128 64)))

/-- R263: GRP_DESTROY: its reply is sent at the boundary, when the group is gone. -/
def execGrpDestroy (inst : Fin 512) (bad : Bool) (s : State) : Host.Outcome State Fault Refusal :=
  let i := inst.val
  let s := s.brsUnknown i bad
  .next (let r := s.brsTake i 0x41 bad
  match r.1 with
  | none => r.2
  | some (tag, d, poison) =>
    if poison then (r.2.answer stPoison).brsReply i 0x41 tag
    else if 64 ≤ d then (r.2.brsState 0x41 i).brsReply i 0x41 tag
    else
      let s := r.2.grpDestroy i d
      if s.reply.code = stOk then s.setBrsGrp d { s.brsGrp d with destroyTag := some tag } else s.brsReply i 0x41 tag)

def execGrpHold (inst : Fin 512) (bad : Bool) (s : State) : Host.Outcome State Fault Refusal :=
  .next (s.brsRun inst.val 0x42 9 bad (fun s d =>
    if bits d 6 2 ≠ 0 then s.brsState 0x42 inst.val else s.grpHold inst.val (bits d 0 6) (bit d 8)))

def execAdmitSeq (inst : Fin 512) (bad : Bool) (s : State) : Host.Outcome State Fault Refusal :=
  .next (s.brsRun inst.val 0x43 256 bad (fun s d => s.admitSeq inst.val d))

/-- A command that names a sequence, with its reserved bits. -/
def State.seqCommand (s : State) (i code w : Nat) (bad : Bool) (f : State → Nat → State) : State :=
  s.brsRun i code w bad (fun s d => if bit d 15 then s.brsState code i else f s d)

def execCancelSeq (inst : Fin 512) (bad : Bool) (s : State) : Host.Outcome State Fault Refusal :=
  .next (s.seqCommand inst.val 0x44 32 bad (fun s d => s.cancelSeq inst.val (bits d 0 15) (bits d 16 16)))

def execQuerySeq (inst : Fin 512) (bad : Bool) (s : State) : Host.Outcome State Fault Refusal :=
  .next (s.seqCommand inst.val 0x45 32 bad (fun s d => s.querySeq inst.val (bits d 0 15) (bits d 16 16)))

def execSetClass (inst : Fin 512) (bad : Bool) (s : State) : Host.Outcome State Fault Refusal :=
  .next (s.seqCommand inst.val 0x46 34 bad (fun s d => s.setClass inst.val (bits d 0 15) (bits d 16 16) (bits d 32 2)))

def execMigrate (inst : Fin 512) (bad : Bool) (s : State) : Host.Outcome State Fault Refusal :=
  .next (s.seqCommand inst.val 0x47 38 bad (fun s d => s.migrate inst.val (bits d 0 15) (bits d 16 16) (bits d 32 6)))

def execOutDone (inst : Fin 512) (bad : Bool) (s : State) : Host.Outcome State Fault Refusal :=
  .next (s.brsRun inst.val 0x48 29 bad (fun s d =>
    if bits d 6 10 ≠ 0 then s.brsState 0x48 inst.val else s.outDone inst.val (bits d 0 6) (bits d 16 13)))

/-! ### Steps (R278, R282) -/

/-- R282: tasks still to be written are written; once every task of the step has ended, the step is committed and the boundary
follows. A group with no step in flight acts at once. late: cores whose task ended late (R482). -/
def execStepCommit (grp : Fin 64) (late : List (Fin 512)) (s : State) : Host.Outcome State Fault Refusal :=
  let g := grp.val
  .next (if s.fld CLK_EN_HUB 19 1 = 0 ∨ s.grpState g = 0 ∨ (s.brsGrp g).stalled then s
  else
    let s := s.brsSend g
    let x := s.brsGrp g
    if x.tasks.isEmpty then s.boundary g
    else
      let sts := x.tasks.filterMap s.taskStatus
      if sts.length < x.tasks.length then s
      else ((s.commitStep g sts).stragglers g (late.map (·.val))).boundary g)

/-- R282, step 7: a group that waits for room in its output ring builds and dispatches once OUT_DONE has made it. -/
def execOutputRoomWaitEnd (grp : Fin 64) (s : State) : Host.Outcome State Fault Refusal :=
  let g := grp.val
  .next (if s.fld CLK_EN_HUB 19 1 = 0 ∨ s.grpState g = 0 ∨ (s.brsGrp g).stalled = false ∨ s.outRoom g = false then s
  else (s.setBrsGrp g { s.brsGrp g with stalled := false }).buildAndDispatch g)

end Sys2Proof.Machine
end

