-- ==== Sys2Proof/Machine/Fec.lean ====
section
/-!
DEFINITION. Machine/Fec.lean: the FEC array (R349 to R358): job queues and their checks, the choice of code blocks, rate
matching, HARQ combining, completion, cancel and reset. What TS 38.212 fixes and the spec does not restate is marked
PRESUMED in the assumption log; the codes themselves are free values.
-/
namespace Sys2Proof.Machine

/-! ### Descriptor fields (Table 13.5) -/

def fecOp (d : Nat) : Nat := bits d 0 8
def fecPrio (d : Nat) : Nat := bits d 8 2
def fecNew (d : Nat) : Bool := bit d 10
def fecBg (d : Nat) : Nat := bits d 11 1
def fecRv (d : Nat) : Nat := bits d 12 2
def fecTag (d : Nat) : Nat := bits d 16 16
def fecGen (d : Nat) : Nat := bits d 32 16
def fecCell (d : Nat) : Nat := bits d 48 8
def fecListL (d : Nat) : Nat := bits d 56 5
def fecTbs (d : Nat) : Nat := bits d 64 24
def fecZ (d : Nat) : Nat := bits d 88 9
def fecC (d : Nat) : Nat := bits d 97 8
def fecCbg (d : Nat) : Nat := bits d 105 4
def fecE0 (d : Nat) : Nat := bits d 112 24
def fecE1 (d : Nat) : Nat := bits d 136 24
def fecNe0 (d : Nat) : Nat := bits d 160 8
def fecMaxIter (d : Nat) : Nat := bits d 193 6
def fecCinit (d : Nat) : Nat := bits d 200 31
def fecIn (d : Nat) : Nat := bits d 256 48
def fecOut (d : Nat) : Nat := bits d 304 48
def fecDeadline (d : Nat) : Nat := bits d 352 32

/-- Bits per symbol of the qm code. -/
def fecQm (d : Nat) : Nat := listGet 1 [1, 2, 4, 6, 8] (bits d 61 3)

/-- A decode job? -/
def fecDec (d : Nat) : Bool := fecOp d == 1 || fecOp d == 3

/-- An LDPC job? -/
def fecLdpc (d : Nat) : Bool := fecOp d == 1 || fecOp d == 2

/-- Rate-matched bits of code block i, of the blocks before it, of all. -/
def fecE (d i : Nat) : Nat := if i < fecNe0 d then fecE0 d else fecE1 d
def fecEBefore (d i : Nat) : Nat := min i (fecNe0 d) * fecE0 d + (i - fecNe0 d) * fecE1 d
def fecETotal (d : Nat) : Nat := fecEBefore d (fecC d)

/-! ### Segmentation and CRCs of TS 38.212 -/

/-- A lifting size. -/
def isLifting (z : Nat) : Bool :=
  [2, 3, 5, 7, 9, 11, 13, 15].any (fun a => (List.range 8).any (fun j => a * 2 ^ j == z && decide (z ≤ 384)))

/-- Bits of the TB's CRC. -/
def tbCrcLen (a : Nat) : Nat := if a ≤ 3824 then 16 else 24

/-- Bits of each code block before filling. -/
def fecKprime (d : Nat) : Nat :=
  let b := fecTbs d + tbCrcLen (fecTbs d)
  if fecC d ≤ 1 then b else (b + 24 * fecC d) / fecC d

/-- Information columns used for the choice of z. -/
def fecKb (d : Nat) : Nat :=
  let b := fecTbs d + tbCrcLen (fecTbs d)
  if fecBg d = 0 then 22 else if 640 < b then 10 else if 560 < b then 9 else if 192 < b then 8 else 6

/-- Do tbs, bg, z and c agree? -/
def fecSegOk (d : Nat) : Bool :=
  let b := fecTbs d + tbCrcLen (fecTbs d)
  let kcb := if fecBg d = 0 then 8448 else 3840
  let c := if b ≤ kcb then 1 else ceilDiv b (kcb - 24)
  let fits (z : Nat) : Bool := decide (fecKprime d ≤ fecKb d * z)
  fecC d == c && (c == 1 || (b + 24 * c) % c == 0) && fits (fecZ d)
    && (List.range (fecZ d)).all (fun z => !(isLifting z) || !(fits z))

/-- Information bits and circular-buffer length of a code block; the buffer in use, limited when lbrm = 1. -/
def fecK (d : Nat) : Nat := (if fecBg d = 0 then 22 else 10) * fecZ d
def fecN (d : Nat) : Nat := (if fecBg d = 0 then 66 else 50) * fecZ d
def fecNcb (d : Nat) : Nat := if bit d 192 then bits d 168 24 else fecN d

/-- The CRC of n bits, bit 0 first; bit k of the answer is the k-th parity bit sent. -/
def crcBits (poly len n v : Nat) : Nat :=
  let r := (List.range n).foldl (fun r i =>
    let top := (r >>> (len - 1)) % 2 != (v >>> i) % 2
    let r := (r * 2) % 2 ^ len
    if top then r ^^^ poly else r) 0
  (List.range len).foldr (fun k acc => (r >>> (len - 1 - k)) % 2 + 2 * acc) 0

def tbCrc (a v : Nat) : Nat := if a ≤ 3824 then crcBits 0x1021 16 a v else crcBits 0x864CFB 24 a v
def cbCrc (n v : Nat) : Nat := crcBits 0x800063 24 n v

/-- n bits of a function of the bit number, as one number. -/
def natOfBits (n : Nat) (f : Nat → Bool) : Nat := (List.range n).foldr (fun i acc => b2n (f i) + 2 * acc) 0

/-! ### Scrambling (TS 38.211): the length-31 Gold sequence -/

def gold1 (x : Nat) : Nat := x / 2 + ((x + x / 8) % 2) * 2 ^ 30
def gold2 (x : Nat) : Nat := x / 2 + ((x + x / 2 + x / 4 + x / 8) % 2) * 2 ^ 30

def goldSkip : Nat → Nat × Nat → Nat × Nat
  | 0, x => x
  | n + 1, x => goldSkip n (gold1 x.1, gold2 x.2)

def goldRun : Nat → Nat × Nat → Nat
  | 0, _ => 0
  | n + 1, x => (x.1 + x.2) % 2 + 2 * goldRun n (gold1 x.1, gold2 x.2)

/-- n bits of the sequence of c_init from bit off on. -/
def goldSeq (cinit off n : Nat) : Nat := goldRun n (goldSkip (1600 + off) (1, cinit))

/-! ### Rate matching and combining (R354, R355) -/

/-- The filler positions of the circular buffer: from the first to one past the last. -/
def fecFill (d : Nat) : Nat × Nat :=
  let n := min (fecNcb d) (fecN d)
  (min n (fecKprime d - 2 * fecZ d), min n (fecK d - 2 * fecZ d))

/-- The first position that a redundancy version sends. -/
def fecK0 (d : Nat) : Nat :=
  let m := if fecBg d = 0 then listGet 0 [0, 17, 33, 56] (fecRv d) else listGet 0 [0, 13, 25, 43] (fecRv d)
  m * fecNcb d / fecN d * fecZ d

/-- Positions of the buffer that are sent, and the order number of the first that is. -/
def fecSent (d : Nat) : Nat := min (fecNcb d) (fecN d) - ((fecFill d).2 - (fecFill d).1)
def fecRank0 (d : Nat) : Nat :=
  let f := fecFill d
  let k := fecK0 d
  k - (min k f.2 - min k f.1)

/-- The position of rate-matched bit k before interleaving. -/
def fecPos (d k : Nat) : Nat :=
  let f := fecFill d
  let i := (fecRank0 d + k) % max 1 (fecSent d)
  if i < f.1 then i else i + (f.2 - f.1)

/-- The order number, from the redundancy version's start, of position p. -/
def fecRank (d p : Nat) : Nat :=
  let f := fecFill d
  let i := if p < f.1 then p else p - (f.2 - f.1)
  (i + fecSent d - fecRank0 d % max 1 (fecSent d)) % max 1 (fecSent d)

/-- The bit before interleaving that bit t of a block of e bits carries, and back. -/
def deinterleave (qm e t : Nat) : Nat := (t % qm) * (e / qm) + t / qm
def interleave (qm e k : Nat) : Nat := (k % max 1 (e / qm)) * qm + k / max 1 (e / qm)

/-- An 8-bit soft value, kept within ±127. -/
def softOf (raw t : Nat) : Int := clampInt (-127) 127 (toSigned 8 (bits raw (8 * t) 8))

/-- Descrambled LLR t of a block that starts at bit off of the transmission (R350). -/
def descramble (raw mask t : Nat) : Int := if bit mask t then -(softOf raw t) else softOf raw t

/-- The soft values of block i after combining its LLRs onto what is stored (R355); filler positions hold +127. -/
def fecCombine (d i raw : Nat) (stored : Nat → Int) : List Int :=
  let e := fecE d i
  let mask := goldSeq (fecCinit d) (fecEBefore d i) e
  let f := fecFill d
  tabulate (fecNcb d) (fun p =>
    if f.1 ≤ p ∧ p < f.2 then 127
    else if min (fecNcb d) (fecN d) ≤ p then 0
    else (List.range (e / max 1 (fecSent d) + 1)).foldl (fun v r =>
      let k := fecRank d p + r * fecSent d
      if k < e ∧ 0 < fecSent d then clampInt (-127) 127 (v + descramble raw mask (interleave (fecQm d) e k)) else v) (stored p))

/-- The rate-matched, interleaved and scrambled bits of block i of an encoder (R350). -/
def fecMatch (d i code : Nat) : Nat :=
  let e := fecE d i
  natOfBits e (fun t => bit code (fecPos d (deinterleave (fecQm d) e t))) ^^^ goldSeq (fecCinit d) (fecEBefore d i) e

/-- The TB with its CRC, cut into the information bits of block i with its own CRC. -/
def fecBlockInfo (d tb i : Nat) : Nat :=
  let b := tb + tbCrc (fecTbs d) tb <<< fecTbs d
  if fecC d ≤ 1 then b
  else
    let n := fecKprime d - 24
    let v := bits b (i * n) n
    v + cbCrc n v <<< n

/-- The circular buffer of block i: the information bits past the two punctured columns, then the parity bits. -/
def fecCode (d info : Nat) : Nat :=
  let sys := fecK d - 2 * fecZ d
  bits info (2 * fecZ d) sys + bits (Config.ldpcParity (fecBg d) (fecZ d) info) 0 (fecN d - sys) <<< sys

/-- Does a decoded block pass its CRC (the TB's where there is one block, R355)? -/
def fecCbPass (d v : Nat) : Bool :=
  let k := fecKprime d
  if fecC d ≤ 1 then bits v (fecTbs d) (tbCrcLen (fecTbs d)) == tbCrc (fecTbs d) (bits v 0 (fecTbs d))
  else bits v (k - 24) 24 == cbCrc (k - 24) (bits v 0 (k - 24))

/-- The decoded TB and its CRC, from the blocks. -/
def fecJoin (d : Nat) (bs : List FecCb) : Nat :=
  let n := if fecC d ≤ 1 then fecKprime d else fecKprime d - 24
  bs.zipIdx.foldl (fun v b => v + bits b.1.out 0 n <<< (b.2 * n)) 0

def fecTbOk (d v : Nat) : Bool := bits v (fecTbs d) (tbCrcLen (fecTbs d)) == tbCrc (fecTbs d) (bits v 0 (fecTbs d))

/-! ### HARQ buffers (R354) -/

/-- A word of a cell's descriptor, and a field of it (Table 13.9). -/
def State.cellFld (s : State) (c lo w : Nat) : Nat :=
  bits (s.reg (FEC_CELL c 0) + s.reg (FEC_CELL c 1) <<< 64 + s.reg (FEC_CELL c 2) <<< 128 + s.reg (FEC_CELL c 3) <<< 192
    + s.reg (FEC_CELL c 4) <<< 256) lo w

/-- The state of a cell (Table 13.10). -/
def State.cellState (s : State) (c : Nat) : Nat := s.fld (FEC_CELL_STAT c) 0 3

/-- ACTIVE or HOLDOVER. -/
def State.cellOn (s : State) (c : Nat) : Bool := s.cellState c == 2 || s.cellState c == 3

/-- Bytes of a code block in a HARQ buffer, of the whole buffer; its offset in the cell's region; its address. -/
def harqStride (d : Nat) : Nat := alignUp (fecNcb d) 64
def harqLen (d : Nat) : Nat := 64 + fecC d * harqStride d
def harqOff (d : Nat) : Nat := bits d 384 32 * 64
def State.harqAddr (s : State) (d : Nat) : Nat :=
  s.fld MEM_HARQ_BASE 0 48 + s.cellFld (fecCell d) 128 14 * mib + harqOff d
def State.harqBlock (s : State) (d i : Nat) : Nat := s.harqAddr d + 64 + i * harqStride d

/-- Do the HARQ ranges of two decode jobs overlap (R352)? -/
def State.harqOverlap (s : State) (a b : Nat) : Bool :=
  fecOp a == 1 && fecOp b == 1 && decide (s.harqAddr a < s.harqAddr b + harqLen b)
    && decide (s.harqAddr b < s.harqAddr a + harqLen a)

/-- Do n bytes at a lie inside granted buffers of a pool that partition p owns (Table 13.6, row 7)? -/
def State.inGranted (s : State) (p a n : Nat) : Bool :=
  (List.range 64).any (fun q =>
    let c := s.poolCfg q
    let b0 := (a - c.2.2.2.1) / c.2.2.1
    let b1 := (a + n - 1 - c.2.2.2.1) / c.2.2.1
    c.1 && s.fld (MEM_POOL_CFG q) 24 4 == p && decide (c.2.2.2.1 ≤ a) && decide (b1 < c.2.1)
      && (List.range (b1 + 1 - b0)).all (fun i => (Tbl.get none (s.pool q).owners (b0 + i)).isSome))

/-! ### Queues and completion (R350, R356) -/

/-- Jobs of queue q that have started, and those that have not. -/
def State.fecRunning (s : State) (q : Nat) : Nat := (s.fec.jobs.filter (fun j => j.q == q && j.started)).length
def State.fecQueued (s : State) (q : Nat) : Nat := (s.fec.jobs.filter (fun j => j.q == q && !j.started)).length

/-- FEC_QSTAT follows the jobs. -/
def State.fecSync (s : State) (q : Nat) : State :=
  (s.setFld (FEC_QSTAT q) 0 6 (s.fecQueued q)).setFld (FEC_QSTAT q) 6 8 (s.fecRunning q)

/-- Free records of a completion ring. -/
def State.fecRoom (s : State) (q : Nat) : Nat :=
  (s.fld (FEC_QRPTR q) 0 8 + 255 - s.fld (FEC_QSTAT q) 14 8) % 256

/-- Raise an event in the timed context of a logical core. -/
def State.raiseLc (s : State) (lc e : Nat) : State :=
  let pc := s.physCtx lc .timed
  if pc = noCore then s else s.raiseEvt pc .timed e

/-- Write a record into the ring and raise evt. -/
def State.fecPut (s : State) (q r : Nat) : State :=
  let w := s.fld (FEC_QSTAT q) 14 8
  let s := s.devWrite (s.fld (FEC_QRING q) 0 48 + 32 * w) 32 r
  let s := s.setFld (FEC_QSTAT q) 14 8 (w + 1)
  s.raiseLc (s.fld (FEC_QCFG q) 14 9) (s.fld (FEC_QCFG q) 23 8)

/-- Records that waited for room. -/
def State.fecDrain (s : State) (q : Nat) : Nat → State
  | 0 => s
  | n + 1 =>
    match Tbl.get [] s.fec.recs q with
    | [] => s
    | r :: t =>
      if s.fecRoom q = 0 then s
      else ({ s with fec := { s.fec with recs := Tbl.put [] s.fec.recs q t } }.fecPut q r).fecDrain q n

/-- A completion record (Table 13.7) of an owner's generation; one of a generation that has moved on is discarded
(R204). -/
def State.fecRecord (s : State) (q inst gen r : Nat) : State :=
  if gen ≠ s.instGen inst then s.bump XLT_STALE_CNT
  else
    let l := Tbl.get [] s.fec.recs q
    { s with fec := { s.fec with recs := Tbl.put [] s.fec.recs q (l ++ [r]) } }.fecDrain q (l.length + 1)

/-- The fields every record has. -/
def State.fecRecBase (s : State) (d status : Nat) (late : Bool) : Nat :=
  fecTag d + fecGen d <<< 16 + status <<< 32 + b2n late <<< 42 + (s.nowNs % 2 ^ 32) <<< 96

/-- Complete a job that wrote nothing. -/
def State.fecEnd (s : State) (q inst gen d status : Nat) (late : Bool := false) : State :=
  let s := if late then (s.bump FEC_LATE_CNT).event FEC_EVENT 0 else s
  s.fecRecord q inst gen (s.fecRecBase d status late)

/-- The owner of a queue, and its partition. -/
def State.fecOwner (s : State) (q : Nat) : Nat := s.fld (FEC_QCFG q) 1 9
def State.fecPart (s : State) (q : Nat) : Nat := s.fld (FEC_QCFG q) 10 4

/-- Row 3 of Table 13.6. -/
def State.fecBad3 (s : State) (d : Nat) : Bool :=
  fecOp d == 0 || decide (4 < fecOp d) || decide (4 < bits d 61 3) || bits d 14 2 != 0 || bits d 109 3 != 0 || bit d 199
    || bit d 231 || bits d 252 4 != 0 || bits d 416 96 != 0 || (fecOp d != 1 && fecMaxIter d != 0)
    || (fecOp d != 3 && fecListL d != 0) || !(s.cellOn (fecCell d))

/-- Row 6 of Table 13.6. -/
def fecBad6 (d : Nat) : Bool :=
  (fecOp d == 1 && (fecMaxIter d == 0 || decide (32 < fecMaxIter d)))
    || (fecOp d == 3 && !([1, 2, 4, 8].contains (fecListL d))) || fecC d == 0 || decide (152 < fecC d)
    || (fecLdpc d && !(isLifting (fecZ d))) || fecE0 d == 0 || decide (fecC d < fecNe0 d)
    || (fecE1 d == 0 && decide (fecNe0 d < fecC d)) || (bit d 192 && bits d 168 24 == 0)
    || (if fecLdpc d then !(fecSegOk d) else decide (2 < fecC d))

/-- Bytes a job reads and writes. -/
def fecInLen (d : Nat) : Nat := if fecDec d then fecETotal d else ceilDiv (fecTbs d) 8
def fecOutLen (d : Nat) : Nat := if fecDec d then ceilDiv (fecTbs d) 8 else ceilDiv (fecETotal d) 8

/-- Row 7 of Table 13.6: the first address that lies outside, if any. -/
def State.fecBad7 (s : State) (q d : Nat) : Option Nat :=
  let p := s.fecPart q
  if !(s.inGranted p (fecIn d) (fecInLen d)) then some (fecIn d)
  else if !(s.inGranted p (fecOut d) (fecOutLen d)) then some (fecOut d)
  else if fecOp d = 1 ∧ s.cellFld (fecCell d) 142 15 * mib < harqOff d + harqLen d then some (s.harqAddr d)
  else none

/-- Refuse a job with STATE. -/
def State.fecState (s : State) (q inst gen d : Nat) : State :=
  ((s.bump FEC_REFUSE_CNT).refuseLog (blockId FEC_CTRL) (fecOp d) inst 0x1FF).fecEnd q inst gen d stState

/-- The record of R206 for a job. -/
def State.fecViolate (s : State) (inst gen addr cause : Nat) : State :=
  s.charge { addr := addr, status := stFaultAccess, cause := cause, unit := uReg, inst := inst, gen := gen }

/-- Check a pushed job in the order of Table 13.6, and accept it. -/
def State.fecEnter (s : State) (q d : Nat) (poison : Bool) : State :=
  let inst := s.fecOwner q
  let gen := s.instGen inst
  if fecGen d ≠ s.fld (FEC_QGEN q) 0 16 then s.bump FEC_STALE_CNT
  else if poison then (s.countErr 21 q 1).fecEnd q inst gen d stPoison
  else if s.fecBad3 d then s.fecState q inst gen d
  else if s.cellFld (fecCell d) 26 4 ≠ s.fecPart q then
    (s.fecViolate inst gen (fecIn d) cWrongOwner).fecEnd q inst gen d stFaultAccess
  else if fecTbs d = 0 then s.fecEnd q inst gen d stNop
  else if fecBad6 d then s.fecState q inst gen d
  else match s.fecBad7 q d with
    | some a => (s.fecViolate inst gen a cOutOfRange).fecEnd q inst gen d stFaultAccess
    | none =>
      let j : FecJob := { id := s.fec.next, q := q, desc := d, inst := inst, gen := gen,
                          blocks := List.replicate (fecC d) {} }
      { s with fec := { s.fec with jobs := s.fec.jobs ++ [j], next := s.fec.next + 1 } }

/-- Take held pushes while the queue has room. -/
def State.fecAccept (s : State) (q : Nat) : Nat → State
  | 0 => s.fecSync q
  | n + 1 =>
    match Tbl.get [] s.fec.held q with
    | [] => s.fecSync q
    | h :: t =>
      if 32 ≤ s.fecQueued q ∨ s.fld FEC_CTRL 0 1 = 0 then s.fecSync q
      else ({ s with fec := { s.fec with held := Tbl.put [] s.fec.held q t } }.fecEnter q h.1 h.2).fecAccept q n

/-- Let queue q go on: records that find room, pushes that find room. -/
def State.fecServe (s : State) (q : Nat) : State :=
  let s := s.fecDrain q (Tbl.get [] s.fec.recs q).length
  s.fecAccept q ((Tbl.get [] s.fec.held q).length + 1)

/-- May this writer use a window or a control that the management cores map into its owner (R365, R396)? -/
def State.ownerOnly (s : State) (wr : Writer) (a owner : Nat) (f : State → State) : State :=
  match wr with
  | .mc => f s
  | .host i => if i.val = owner then f s else s.privilege i.val a

/-- R350: a job pushed into the window of queue q. op: the row's opcode; a reserved opcode stays as it is. -/
def State.fecPush (s : State) (op : Nat) (wr : Writer) (q job : Nat) (poison : Bool) : State :=
  let d := if fecOp job = 0 ∨ 4 < fecOp job then job else setBits job 0 8 op
  s.ownerOnly wr (FEC_QWIN q 0) (s.fecOwner q) (fun s => s.pushInto q (some 26) 9 (FEC_QWIN q 0) (s.fecOwner q) (fun s =>
    if s.fld (FEC_QCFG q) 0 1 = 0 then (s.bump FEC_REFUSE_CNT).refuseReg (FEC_QWIN q 0)
    else
      let l := Tbl.get [] s.fec.held q
      ({ s with fec := { s.fec with held := Tbl.put [] s.fec.held q (l ++ [(d, poison)]) } }.fecServe q).answer stOk))

/-- R351, R355: an LDPC decode job. -/
def execLdpcDec (wr : Writer) (q : Fin 64) (job : BitVec 512) (poison : Bool) (s : State) : Host.Outcome State Fault Refusal :=
  .next (s.fecPush 1 wr q.val job.toNat poison)

/-- R351: an LDPC encode job. -/
def execLdpcEnc (wr : Writer) (q : Fin 64) (job : BitVec 512) (poison : Bool) (s : State) : Host.Outcome State Fault Refusal :=
  .next (s.fecPush 2 wr q.val job.toNat poison)

/-- R351: a polar decode job. -/
def execPolarDec (wr : Writer) (q : Fin 64) (job : BitVec 512) (poison : Bool) (s : State) : Host.Outcome State Fault Refusal :=
  .next (s.fecPush 3 wr q.val job.toNat poison)

/-- R351: a polar encode job. -/
def execPolarEnc (wr : Writer) (q : Fin 64) (job : BitVec 512) (poison : Bool) (s : State) : Host.Outcome State Fault Refusal :=
  .next (s.fecPush 4 wr q.val job.toNat poison)

/-! ### Code blocks (R352, R353) -/

/-- The opcode a unit serves. -/
def unitOp (u : Nat) : Nat := if u < 32 then 1 else if u < 40 then 2 else if u < 42 then 3 else 4

/-- Replace a job. -/
def State.setFecJob (s : State) (j : FecJob) : State :=
  { s with fec := { s.fec with jobs := s.fec.jobs.map (fun k => if k.id = j.id then j else k) } }

def State.dropFecJob (s : State) (j : FecJob) : State :=
  { s with fec := { s.fec with jobs := s.fec.jobs.filter (fun k => k.id != j.id) } }

/-- The next code block of a job that unit u may take. -/
def FecJob.nextBlock (j : FecJob) (u : Nat) : Option (Nat × FecCb) :=
  if j.stop.isSome then none else findIdx? (fun b => b.st == 0 && b.avoid != some u) j.blocks

/-- May unit u take a code block of the job (R352, R353)? -/
def State.fecEligible (s : State) (u : Nat) (j : FecJob) : Bool :=
  fecOp j.desc == unitOp u && (j.nextBlock u).isSome && decide (s.fecRunning j.q + 1 ≤ s.fecRoom j.q)
    && s.fec.jobs.all (fun k => decide (j.id ≤ k.id) || !(s.harqOverlap k.desc j.desc))

/-- Time left to a job's deadline, signed (mode 1). -/
def State.fecSlack (s : State) (d : Nat) : Int := toSigned 32 ((2 ^ 32 + fecDeadline d - s.nowNs % 2 ^ 32) % 2 ^ 32)

/-- Does job a come before b (R352)? -/
def State.fecBefore (s : State) (a b : FecJob) : Bool :=
  if s.fecSlack a.desc ≠ s.fecSlack b.desc then decide (s.fecSlack a.desc < s.fecSlack b.desc)
  else if fecPrio a.desc ≠ fecPrio b.desc then decide (fecPrio a.desc < fecPrio b.desc)
  else if a.q ≠ b.q then decide (a.q < b.q) else decide (a.id < b.id)

def State.fecBest (s : State) (u : Nat) : Option FecJob :=
  (s.fec.jobs.filter (s.fecEligible u)).foldl (fun b j =>
    match b with
    | none => some j
    | some k => if s.fecBefore j k then some j else some k) none

/-- Is a unit in service and free? -/
def State.unitFree (s : State) (u : Nat) : Bool :=
  !(bit (s.reg FEC_UNIT_RETIRED) u) && (Tbl.get none s.fec.units u).isNone

/-- Has a job that has not started passed its deadline? -/
def State.fecLate (s : State) (j : FecJob) : Bool := !j.started && j.stop.isNone && s.reached32 (fecDeadline j.desc)

/-- R353: a job whose deadline passed before its first code block completes with REFUSED_CAPACITY and late = 1. -/
def State.fecTooLate (s : State) (j : FecJob) : State :=
  ((s.dropFecJob j).fecEnd j.q j.inst j.gen j.desc stRefusedCapacity true).fecServe j.q

/-- The start of a decode job: the header is read, kept and written with valid = 0 (R355). Blocks marked passed are not
decoded again. -/
def State.fecBegin (s : State) (j : FecJob) : FecJob × State :=
  let d := j.desc
  if fecOp d ≠ 1 then ({ j with started := true }, s)
  else
    let a := s.harqAddr d
    let h := s.devLoad a 64
    let m := bit h.1 0 && bits h.1 1 16 == bits d 232 16 && bits h.1 17 4 == bits d 248 4 && bits h.1 21 8 == fecC d && !h.2
    let s := (s.devChecked a 64).devWrite a 64 (setBits h.1 0 1 0)
    if fecNew d then ({ j with started := true }, s)
    else if m then
      let old (i : Nat) (b : FecCb) : FecCb :=
        if bit h.1 (32 + i) then
          { b with st := 2, pass := true, reused := true, out := bits (s.devLoad (s.harqBlock d i) (ceilDiv (fecKprime d) 8)).1 0 (fecKprime d) }
        else b
      let kept := (List.range j.blocks.length).filter (fun i => bit h.1 (32 + i))
      ({ j with started := true, matched := true, blocks := j.blocks.zipIdx.map (fun b => old b.2 b.1) },
        kept.foldl (fun (s : State) i => s.devChecked (s.harqBlock d i) (ceilDiv (fecKprime d) 8)) s)
    else ({ j with started := true, lost := true }, (s.bump FEC_HARQ_LOST_CNT).event FEC_EVENT 1)

/-- Unit u takes the next code block of a job. -/
def State.fecTake (s : State) (u : Nat) (j : FecJob) : State :=
  let b := if j.started then (j, s) else s.fecBegin j
  match b.1.nextBlock u with
  | none => (b.2.setFecJob b.1).fecServe j.q
  | some (i, _) =>
    let k := { b.1 with blocks := b.1.blocks.modify i (fun c => { c with st := 1 }) }
    let s := b.2.setFecJob k
    { s with fec := { s.fec with units := Tbl.put none s.fec.units u (some (k.id, i)) } }.fecServe j.q

/-- R352: the first free unit that has an eligible job takes its next code block. -/
def execCodeBlockStart (s : State) : Host.Outcome State Fault Refusal :=
  let s := match s.fec.jobs.find? s.fecLate with | some j => s.fecTooLate j | none => s
  .next (if s.fld FEC_CTRL 0 1 = 0 then s
  else match (List.range 44).findSome? (fun u => if s.unitFree u then (s.fecBest u).map (fun j => (u, j)) else none) with
    | some (u, j) => s.fecTake u j
    | none => s)

/-- R353: after ticks of the time clock a job's deadline passes before its first code block. -/
def execFecDeadline (ticks : BitVec 64) (s : State) : Host.Outcome State Fault Refusal :=
  let s := s.elapse ticks.toNat
  .next (match s.fec.jobs.find? s.fecLate with
  | some j => s.fecTooLate j
  | none => s)

/-- What an LDPC decoder makes of block i. -/
def State.ldpcDecBlock (s : State) (j : FecJob) (i : Nat) (b : FecCb) : FecCb :=
  let d := j.desc
  let raw := s.devLoad (fecIn d + fecEBefore d i) (fecE d i)
  let old := s.devLoad (s.harqBlock d i) (fecNcb d)
  let soft := fecCombine d i raw.1 (fun p => if j.matched then softOf old.1 p else 0)
  let v := bits (Config.ldpcDecode (fecBg d) (fecZ d) (fecMaxIter d) soft) 0 (fecKprime d)
  let bad := raw.2 || (j.matched && old.2)
  { b with st := 2, soft := soft, out := v, pass := fecCbPass d v && !bad, bad := bad,
           iters := 1 + Config.ldpcIters (fecBg d) (fecZ d) (fecMaxIter d) soft % fecMaxIter d }

/-- What an encoder makes of block i. -/
def State.encBlock (s : State) (j : FecJob) (i : Nat) (b : FecCb) : FecCb :=
  let d := j.desc
  let raw := s.devLoad (fecIn d) (fecInLen d)
  let tb := bits raw.1 0 (fecTbs d)
  let v := if fecOp d = 2 then fecMatch d i (fecCode d (fecBlockInfo d tb i))
    else bits (Config.polarCode d tb) (fecEBefore d i) (fecE d i) ^^^ goldSeq (fecCinit d) (fecEBefore d i) (fecE d i)
  { b with st := 2, out := v, pass := true, bad := raw.2 }

/-- What a polar decoder makes of segment i: the payload comes with the last. -/
def State.polarDecBlock (s : State) (j : FecJob) (i : Nat) (b : FecCb) : FecCb :=
  let d := j.desc
  let raw := s.devLoad (fecIn d) (fecETotal d)
  let mask := goldSeq (fecCinit d) 0 (fecETotal d)
  let soft := tabulate (fecETotal d) (descramble raw.1 mask)
  { b with st := 2, out := if i = 0 then bits (Config.polarDecode d soft) 0 (fecTbs d) else 0,
           pass := Config.polarPass (2 * d + i) soft && !raw.2, bad := raw.2 }

def State.fecBlock (s : State) (j : FecJob) (i : Nat) (b : FecCb) : FecCb :=
  if fecOp j.desc = 1 then s.ldpcDecBlock j i b
  else if fecOp j.desc = 3 then s.polarDecBlock j i b
  else s.encBlock j i b

/-- The memory that block i of a job reads: its input, and the soft values held for it. -/
def State.fecReads (s : State) (j : FecJob) (i : Nat) : State :=
  let d := j.desc
  if fecOp d = 1 then
    let s := s.devChecked (fecIn d + fecEBefore d i) (fecE d i)
    if j.matched then s.devChecked (s.harqBlock d i) (fecNcb d) else s
  else s.devChecked (fecIn d) (if fecOp d = 3 then fecETotal d else fecInLen d)

/-- Counts of a block that ended. -/
def State.fecCountBlock (s : State) (d : Nat) (b : FecCb) : State :=
  if fecDec d then
    let s := (s.bump64 FEC_DEC_CB_CNT 1).bump64 FEC_DEC_ITER_CNT b.iters
    if b.pass then s else s.bump FEC_CB_FAIL_CNT
  else s.bump64 FEC_ENC_CB_CNT 1

/-- The end of code block i of job j on unit u: after an error of the unit it will run elsewhere; of a job that is stopped its result is
discarded; else its result and counts are noted. -/
def State.fecBlockEnd (s : State) (u : Nat) (j : FecJob) (i : Nat) (error : Bool) : State :=
  if error then
    let s := (s.bump FEC_UNIT_ERR_CNT).countErr 20 u 1
    s.setFecJob { j with blocks := j.blocks.modify i (fun b => { b with st := 0, avoid := some u }) }
  else if j.stop.isSome then s.setFecJob { j with blocks := j.blocks.modify i (fun b => { b with st := 2 }) }
  else
    let b := s.fecBlock j i (listGet {} j.blocks i)
    let s := (s.fecReads j i).fecCountBlock j.desc b
    s.setFecJob { j with blocks := listSet j.blocks i b, poison := j.poison || b.bad }

/-- R349, R358: a unit finishes its code block; error: it found an error of its own, and the block runs again elsewhere. -/
def execCodeBlockEnd (unit : Fin 44) (error : Bool) (s : State) : Host.Outcome State Fault Refusal :=
  .next (match Tbl.get none s.fec.units unit.val with
  | none => s
  | some (id, i) =>
    let s := { s with fec := { s.fec with units := Tbl.put none s.fec.units unit.val none } }
    match s.fec.jobs.find? (fun j => j.id == id) with
    | none => s
    | some j => s.fecBlockEnd unit.val j i error)

/-! ### Completion (R355, R356) -/

/-- Step 4 of R355: soft sums or decoded bits of each block, then the header. -/
def State.harqWrite (s : State) (j : FecJob) : State :=
  let d := j.desc
  let s := j.blocks.zipIdx.foldl (fun (s : State) b =>
    let a := s.harqBlock d b.2
    if b.1.pass then s.devWrite a (ceilDiv (fecKprime d) 8) b.1.out
    else if b.1.bad then s.devPoison a (harqStride d)
    else s.devWrite a (fecNcb d) (b.1.soft.foldr (fun v acc => ofSigned 8 v + 256 * acc) 0)) s
  let passed := j.blocks.zipIdx.foldl (fun m b => if b.1.pass then m + 2 ^ b.2 else m) 0
  s.devWrite (s.harqAddr d) 64
    (1 + bits d 232 16 <<< 1 + bits d 248 4 <<< 17 + fecC d <<< 21 + passed <<< 32)

/-- The blocks of group g of m groups (TS 38.214). -/
def cbgBlocks (c m g : Nat) : List Nat :=
  let m1 := c % m
  let k1 := ceilDiv c m
  let k2 := c / m
  if g < m1 then (List.range k1).map (fun k => g * k1 + k) else (List.range k2).map (fun k => m1 * k1 + (g - m1) * k2 + k)

/-- cbg_ok. -/
def cbgOk (d : Nat) (bs : List FecCb) : Nat :=
  let m := min (fecCbg d) (fecC d)
  natOfBits m (fun g => (cbgBlocks (fecC d) m g).all (fun i => (listGet {} bs i).pass))

/-- Mean iterations in units of 1/4; the spec does not say how a mean between two units is rounded. -/
def State.itAvg (s : State) (bs : List FecCb) : Nat × State :=
  let ran := bs.filter (fun b => !b.reused)
  let sum := 4 * ran.foldl (fun n b => n + b.iters) 0
  if ran.length = 0 ∨ sum % ran.length = 0 then (sum / max 1 ran.length, s)
  else
    let f := s.fresh
    (sum / ran.length + f.1 % 2, f.2)

/-- A job whose blocks have all ended completes. -/
def State.fecComplete (s : State) (j : FecJob) : State :=
  let d := j.desc
  let s := s.dropFecJob j
  match j.stop with
  | some st => (s.fecEnd j.q j.inst j.gen d st).fecServe j.q
  | none =>
    let late := s.reached32 (fecDeadline d)
    let tb := if fecOp d = 1 then fecJoin d j.blocks
      else if fecOp d = 3 then (listGet {} j.blocks 0).out
      else j.blocks.zipIdx.foldl (fun v b => v + b.1.out <<< fecEBefore d b.2) 0
    let ok := if fecOp d = 1 then fecTbOk d tb && j.blocks.all (fun b => b.pass) else j.blocks.all (fun b => b.pass)
    let s := if fecOp d = 1 then s.harqWrite j else s
    let wrote := fecDec d || !j.poison
    let s := if wrote then s.devWrite (fecOut d) (fecOutLen d) (if fecDec d then bits tb 0 (fecTbs d) else tb) else s
    let s := if late then (s.bump FEC_LATE_CNT).event FEC_EVENT 0 else s
    let s := if fecDec d && !ok then s.bump FEC_TB_FAIL_CNT else s
    let avg := s.itAvg j.blocks
    let r := avg.2.fecRecBase d (if j.poison then stPoison else stOk) late + b2n (fecDec d && ok) <<< 40
      + b2n j.lost <<< 41 + b2n (j.blocks.any (fun b => b.reused)) <<< 43
      + (if fecDec d then (j.blocks.filter (fun b => !b.pass)).length else 0) <<< 44
      + j.blocks.foldl (fun m b => max m b.iters) 0 <<< 52 + avg.1 <<< 58
      + (if fecDec d then cbgOk d j.blocks else 0) <<< 66 + (if wrote then fecOutLen d else 0) <<< 128
    (avg.2.fecRecord j.q j.inst j.gen r).fecServe j.q

/-- Has a started job no block left to run? -/
def FecJob.finished (j : FecJob) : Bool :=
  j.started && (if j.stop.isSome then j.blocks.all (fun b => b.st != 1) else j.blocks.all (fun b => b.st == 2))

/-- R356: the first job of queue q whose code blocks have all ended completes. -/
def execFecJobComplete (q : Fin 64) (s : State) : Host.Outcome State Fault Refusal :=
  .next (match s.fec.jobs.find? (fun j => j.q == q.val && j.finished) with
  | some j => s.fecComplete j
  | none => s)

/-! ### Cancel and reset (R357) -/

/-- Stop a job: one that has not started completes at once; one that runs starts no further code block. -/
def State.fecStop (s : State) (j : FecJob) (status : Nat) : State :=
  if j.started then s.setFecJob { j with stop := some (j.stop.getD status) }
  else (s.dropFecJob j).fecEnd j.q j.inst j.gen j.desc status

/-- R357: cancel of the queue's jobs that carry a tag. -/
def execFecQctlCancel (wr : Writer) (q : Fin 64) (tag : BitVec 16) (s : State) : Host.Outcome State Fault Refusal :=
  .next (s.ownerOnly wr (FEC_QCTL q.val) (s.fecOwner q.val) (fun s => s.ungated 9 (FEC_QCTL q.val) (s.fecOwner q.val) (fun s =>
    let js := s.fec.jobs.filter (fun j => j.q == q.val && fecTag j.desc == tag.toNat)
    ((js.foldl (fun (s : State) j => s.fecStop j stCancelled) s).fecServe q.val).answer stOk)))

/-- R357: the generation rises, and every job completes with ABORTED_RESET. -/
def State.fecQueueReset (s : State) (q : Nat) : State :=
  let s := s.setFld (FEC_QGEN q) 0 16 (s.fld (FEC_QGEN q) 0 16 + 1)
  let js := s.fec.jobs.filter (fun j => j.q == q)
  (js.foldl (fun (s : State) j => s.fecStop j stAbortedReset) s).fecServe q

/-- R357: a reset of queue q. -/
def execFecQctlReset (wr : Writer) (q : Fin 64) (s : State) : Host.Outcome State Fault Refusal :=
  .next (s.ownerOnly wr (FEC_QCTL q.val) (s.fecOwner q.val) (fun s => s.ungated 9 (FEC_QCTL q.val) (s.fecOwner q.val) (fun s =>
    (s.fecQueueReset q.val).answer stOk)))

end Sys2Proof.Machine
end

