-- ==== Sys2Proof/Machine/Cells.lean ====
section
/-!
DEFINITION. Machine/Cells.lean: radio cells: activation, deactivation, holdover (R360 to R364, R375) and the spectral-mask
monitor (R340, R341, R366).
-/
namespace Sys2Proof.Machine

/-! ### The cell descriptor (Table 13.9) and what follows from it -/

def State.cellMode (s : State) (c : Nat) : Nat := s.cellFld c 0 2
def State.cellMu (s : State) (c : Nat) : Nat := s.cellFld c 2 2
def State.cellRb (s : State) (c : Nat) : Nat := s.cellFld c 4 9
def State.cellFft (s : State) (c : Nat) : Nat := 512 * 2 ^ s.cellFld c 13 2
def State.cellPart (s : State) (c : Nat) : Nat := s.cellFld c 26 4
def State.cellPort (s : State) (c : Nat) : Nat := s.cellFld c 37 3
def State.cellSub (s : State) (c : Nat) : Nat := s.cellFld c 40 2
def State.cellTx (s : State) (c : Nat) : Nat := s.cellFld c 42 7
def State.cellRx (s : State) (c : Nat) : Nat := s.cellFld c 49 7
def State.cellDl (s : State) (c : Nat) : Nat := s.cellFld c 56 5
def State.cellUl (s : State) (c : Nat) : Nat := s.cellFld c 61 5
def State.cellWdl (s : State) (c : Nat) : Nat := s.cellFld c 66 5
def State.cellWul (s : State) (c : Nat) : Nat := s.cellFld c 71 5
def State.cellEaxc (s : State) (c : Nat) : Nat := s.cellFld c 76 16
def State.cellTa3 (s : State) (c : Nat) : Nat := s.cellFld c 102 10

/-- The cell's egress target (R367). -/
def State.cellTarget (s : State) (c : Nat) : Nat := 4 * s.cellPort c + s.cellSub c

/-- The normal and the long CP of a cell, scaled to its FFT size (Table 13.1). -/
def cpNormal (n : Nat) : Nat := 288 * n / 4096
def cpLong (mu n : Nat) : Nat := (if mu = 0 then 320 else if mu = 1 then 352 else 544) * n / 4096

/-- Does symbol l of a slot of the subframe have the long CP (Table 13.1)? -/
def isLongCp (mu slot l : Nat) : Bool :=
  if mu = 0 then l == 0 || l == 7 else if mu = 1 then l == 0 else l == 0 && slot % 4 == 0

def cpOf (mu n slot l : Nat) : Nat := if isLongCp mu slot l then cpLong mu n else cpNormal n

/-- Streams of a cell (R373). -/
def State.cellSdl (s : State) (c : Nat) : Nat := if s.cellMode c = 1 then s.cellDl c else s.cellTx c
def State.cellSul (s : State) (c : Nat) : Nat := if s.cellMode c = 1 then s.cellUl c else s.cellRx c

/-- PRBs or blocks of a symbol's uplink buffer (R374). -/
def State.cellNb (s : State) (c : Nat) : Nat :=
  if s.cellMode c = 2 then ceilDiv (s.cellFft c + cpLong (s.cellMu c) (s.cellFft c)) 12 else s.cellRb c

/-- Blocks of a symbol that may be sent: PRBs, or time-domain blocks (R372). -/
def State.cellBlocks (s : State) (c slot l : Nat) : Nat :=
  if s.cellMode c = 2 then ceilDiv (s.cellFft c + cpOf (s.cellMu c) (s.cellFft c) slot l) 12 else s.cellRb c

/-- A slot in ns, and the slots of a 1 ms subframe (R334). -/
def slotNs (mu : Nat) : Nat := if mu = 0 then 1000000 else if mu = 1 then 500000 else 125000
def slotsOf (mu : Nat) : Nat := if mu = 0 then 1 else if mu = 1 then 2 else 8

/-- Network time counted in the cell's frame timing. -/
def State.cellNow (s : State) (c : Nat) : Nat := (((s.nowNs : Int) - toSigned 32 (s.cellFld c 272 32)) % 2 ^ 64).toNat

/-- Samples from the start of its slot to symbol l, at N = 4,096. -/
def symStart (mu slot l : Nat) : Nat := (List.range l).foldl (fun n k => 4096 + n + cpOf mu 4096 slot k) 0

/-- The stamp less the air start of a symbol, in units of 1/1,536 of 2^-16 ns, for the occurrence that lies nearest to the
stamp (R374): frames are numbered modulo 256. -/
def State.airDelta (s : State) (c frame sub slot sym stamp : Nat) : Int :=
  let mu := s.cellMu c
  let k := slotsOf mu
  let air : Int := (((frame * 10000000 + sub * 1000000 + slot * slotNs mu) * 1536 + symStart mu (sub * k + slot) sym * 3125 * (8 / k) : Nat) : Int) * 65536
  let t : Int := ((stamp : Int) - toSigned 32 (s.cellFld c 272 32) * 65536) * 1536
  let p : Int := 2560000000 * 1536 * 65536
  let d := (t - air) % p
  if p ≤ 2 * d then d - p else d

/-- f of R361. -/
def slotFactor (mu : Nat) : Nat := if mu = 0 then 1 else if mu = 1 then 2 else 32

/-- The weight of a cell (R361). -/
def State.weightOf (s : State) (c : Nat) : Nat :=
  let l := max (s.cellDl c) (s.cellUl c)
  ceilDiv ((3 * l + (if s.cellMode c = 1 then 16 else 0) + (if s.cellMode c = 2 then 8 else 0)) * s.cellRb c * slotFactor (s.cellMu c)) 2184

/-- Decoder units in service, and the envelope limit (R361). -/
def State.decUnits (s : State) : Nat := ((List.range 32).filter (fun u => !(bit (s.reg FEC_UNIT_RETIRED) u))).length
def State.envelopeLimit (s : State) : Nat := 768 * s.decUnits / 32

/-- Cells that are not OFF. -/
def State.cellsOn (s : State) : List Nat := (List.range 256).filter (fun c => s.cellState c != 0)

/-- The weight in use. -/
def State.weightUsed (s : State) : Nat := s.cellsOn.foldl (fun n c => n + s.fld (FEC_CELL_STAT c) 3 10) 0

/-- FEC_ENVELOPE follows. -/
def State.envelopeSync (s : State) : State :=
  (s.setFld FEC_ENVELOPE 0 10 s.weightUsed).setFld FEC_ENVELOPE 10 10 s.envelopeLimit

/-- Put a cell into a state. -/
def State.setCell (s : State) (c st : Nat) : State := (s.setFld (FEC_CELL_STAT c) 0 3 st).envelopeSync

def State.cellX (s : State) (c : Nat) : CellSt := Tbl.get ({} : CellSt) s.cells c
def State.setCellX (s : State) (c : Nat) (x : CellSt) : State := { s with cells := Tbl.put ({} : CellSt) s.cells c x }

/-! ### FH_CELLX (Table 14.11) -/

def State.cellxFld (s : State) (c lo w : Nat) : Nat :=
  bits (s.reg (FH_CELLX c 0) + s.reg (FH_CELLX c 1) <<< 64 + s.reg (FH_CELLX c 2) <<< 128 + s.reg (FH_CELLX c 3) <<< 192) lo w
def State.ulBase (s : State) (c : Nat) : Nat := s.cellxFld c 80 48
def State.prachBase (s : State) (c : Nat) : Nat := s.cellxFld c 128 48

/-- The last eAxC of a cell's range (R375). -/
def State.eaxcLast (s : State) (c : Nat) : Nat := s.cellEaxc c + (if s.cellMode c = 2 then 63 else 127)

/-- The further check of R375. -/
def State.cellxBad (s : State) (c : Nat) : Bool :=
  let p := s.cellPart c
  s.cellxFld c 0 48 == 0 || (s.cellMode c == 1 && s.cellxFld c 64 5 == 0) || decide (0xFFFF < s.eaxcLast c)
    || s.cellsOn.any (fun k => s.cellTarget k == s.cellTarget c && decide (s.cellEaxc k ≤ s.eaxcLast c)
        && decide (s.cellEaxc c ≤ s.eaxcLast k))
    || !(s.inGranted p (s.ulBase c) (1024 + 4 * 14 * s.cellSul c * s.cellNb c * 48))
    || (s.cellMode c != 2 && !(s.inGranted p (s.prachBase c) (4 * s.cellSul c * 57344)))

/-! ### Activation (R362) -/

/-- Row 2: a zero. -/
def State.cellZero (s : State) (c : Nat) : Bool :=
  [s.cellRb c, s.cellTx c, s.cellRx c, s.cellDl c, s.cellUl c, s.cellWdl c, s.cellWul c, s.cellFld c 92 10, s.cellTa3 c,
   s.cellFld c 142 15, s.cellFld c 224 16, s.cellFld c 240 16, s.cellFld c 256 4].contains 0
    || (s.cellMode c == 2 && s.cellFld c 264 8 == 0)

/-- Row 3: a reserved code, and what does not go together. -/
def State.cellBad3 (s : State) (c : Nat) : Bool :=
  let mu := s.cellMu c
  let mode := s.cellMode c
  let fmt := s.cellFld c 182 4
  let w := s.cellFld c 160 9
  let maxRb := if mu = 0 then 270 else if mu = 1 then 273 else 264
  mode == 3 || mu == 2 || s.cellFld c 180 2 == 3 || decide (13 ≤ fmt) || decide (1007 < s.cellFld c 16 10)
    || decide (16 < s.cellWdl c) || decide (16 < s.cellWul c) || decide (16 < s.cellDl c) || decide (16 < s.cellUl c)
    || decide (64 < s.cellTx c) || decide (64 < s.cellRx c) || decide (256 < w)
    || decide ((if fmt ≤ 3 then 837 else 137) < s.cellFld c 186 10)
    || decide (maxRb < s.cellRb c) || decide (4 * s.cellFft c < 60 * s.cellRb c)
    || decide (s.cellTx c < s.cellDl c) || decide (s.cellRx c < s.cellUl c)
    || (mode == 2 && (decide (4 < s.cellTx c) || decide (4 < s.cellRx c)))
    || (mode == 0 && (decide (8 < s.cellTx c) || decide (8 < s.cellRx c)))
    || w % 2 == 1 || decide (cpNormal (s.cellFft c) < w) || (decide (fmt ≤ 3) && (mu == 3 || mode == 2))
    || (s.cellFld c 180 2 == 2 && mode != 2)

/-- Row 4: the partition, the gate group, the HARQ region. -/
def State.cellBad4 (s : State) (c : Nat) : Bool :=
  let p := s.cellPart c
  let g := s.cellFld c 30 7
  let lo := s.cellFld c 128 14
  let hi := lo + s.cellFld c 142 15
  s.partState p == 0 || !(s.partTimed p) || g == 0x7F || s.fld (CGL_LIST_CFG (g / 8)) 1 4 != p || decide (16384 < hi)
    || s.cellsOn.any (fun k => decide (s.cellFld k 128 14 < hi) && decide (lo < s.cellFld k 128 14 + s.cellFld k 142 15))

/-- Row 5: the envelope and the time-domain limits (R361). -/
def State.cellOver (s : State) (c : Nat) : Bool :=
  let td := s.cellsOn.filter (fun k => s.cellMode k == 2)
  decide (s.envelopeLimit < s.weightUsed + s.weightOf c)
    || (s.cellMode c == 2 && (decide (32 ≤ td.length)
        || decide (128 < td.foldl (fun n k => n + s.cellTx k) 0 + s.cellTx c)))

/-- A cell command refused. -/
def State.cellRefuse (s : State) (c : Nat) : State := (s.bump FEC_REFUSE_CNT).refuseReg (FEC_CELL_CMD c)

/-- The first 10 ms frame boundary of a cell at least 1 ms from now. -/
def State.nextFrame (s : State) (c : Nat) : Nat :=
  let t := 1000000 + s.cellNow c
  (((ceilDiv t 10000000 * 10000000 : Nat) : Int) + toSigned 32 (s.cellFld c 272 32)).toNat

/-- R362: activate. -/
def execActivate (wr : Writer) (cell : Fin 256) (s : State) : Host.Outcome State Fault Refusal :=
  let c := cell.val
  .next (s.mcOnly wr (FEC_CELL_CMD c) (fun s => s.ungated 9 (FEC_CELL_CMD c) 0x1FF (fun s =>
    if s.cellState c ≠ 0 ∨ s.cellxBad c ∨ s.cellZero c ∨ s.cellBad3 c ∨ s.cellBad4 c then s.cellRefuse c
    else if s.cellOver c then (s.bump FEC_REFUSE_CNT).answer stRefusedCapacity
    else
      let s := s.setCellX c { actAt := s.nextFrame c }
      ((s.setFld (FEC_CELL_STAT c) 3 10 (s.weightOf c)).setCell c 1).answer stOk)))

/-- The cell is OFF: its weight is free, and its sequence numbers and masks are as after reset. -/
def State.cellGone (s : State) (c : Nat) : State :=
  ((s.setFld (FEC_CELL_STAT c) 3 10 0).setCell c 0).setCellX c {}

/-- R362: deactivate: OFF at the next slot boundary. -/
def execDeactivate (wr : Writer) (cell : Fin 256) (s : State) : Host.Outcome State Fault Refusal :=
  let c := cell.val
  .next (s.mcOnly wr (FEC_CELL_CMD c) (fun s => s.ungated 9 (FEC_CELL_CMD c) 0x1FF (fun s =>
    if s.cellState c = 0 then s.answer stNop
    else (s.setCellX c { s.cellX c with offNext := true }).answer stOk)))

/-- R362, R363: a 10 ms frame boundary of a cell, after ticks of the time clock. -/
def execCellFrameBoundary (cell : Fin 256) (ticks : BitVec 64) (s : State) : Host.Outcome State Fault Refusal :=
  let s := s.elapse ticks.toNat
  let c := cell.val
  let st := s.cellState c
  .next (if st = 1 ∧ s.reached (s.cellX c).actAt then s.setCell c 2
  else if (st = 3 ∨ st = 4) ∧ s.timeValid then s.setCell c 2
  else s)

/-- A cell loses valid time (R363, Table 13.10). -/
def State.cellInvalid (s : State) (c : Nat) : State :=
  if s.cellState c ≠ 2 then s
  else if s.cellFld c 112 16 = 0 then (s.setCell c 4).event FEC_EVENT 4
  else ((s.setCell c 3).event FEC_EVENT 3).setCellX c { s.cellX c with since := s.cnt }

/-- TIME_STATUS.valid falls (R363). -/
def State.cellsInvalid (s : State) : State := (List.range 256).foldl (fun (s : State) c => s.cellInvalid c) s

/-- R363: holdover_ms elapses. -/
def execHoldoverExpiry (cell : Fin 256) (ticks : BitVec 64) (s : State) : Host.Outcome State Fault Refusal :=
  let s := s.elapse ticks.toNat
  let c := cell.val
  let run := (2 ^ 64 + s.cnt - (s.cellX c).since) % 2 ^ 64
  .next (if s.cellState c = 3 ∧ s.timeValid = false ∧ s.cellFld c 112 16 * 1250000 ≤ run then
      (s.setCell c 4).event FEC_EVENT 4
    else s)

/-! ### The spectral-mask monitor (R340, R341) -/

/-- Fields of a mask entry (Table 13.15). -/
def maskFirst (e : Nat) : Nat := bits e 0 13
def maskLast (e : Nat) : Nat := bits e 13 13
def maskLimit (e : Nat) : Int := toSigned 16 (bits e 26 16)

/-- The sum of P over bins a to b. -/
def binSum (pk : List Nat) (a b : Nat) : Nat := ((pk.drop a).take (b + 1 - a)).foldl (fun n p => n + p) 0

/-- The bins of the cell's subcarriers: 12 × n_rb about the carrier at bin N / 2. -/
def State.inBand (s : State) (c : Nat) : Nat × Nat :=
  let w := 12 * s.cellRb c
  (s.cellFft c / 2 - w / 2, s.cellFft c / 2 - w / 2 + w - 1)

/-- P_e / P_in as a ratio: numerator and denominator. -/
def State.maskRatio (s : State) (c : Nat) (pk : List Nat) (e : Nat) : Nat × Nat :=
  let b := s.inBand c
  let n := maskLast e + 1 - maskFirst e
  (binSum pk (maskFirst e) (maskLast e) * (b.2 + 1 - b.1), n * binSum pk b.1 b.2)

/-- Is 80·log10(a / b) above l: a^80 above b^80 × 10^l? -/
def aboveDb (a b : Nat) (l : Int) : Bool :=
  if 0 ≤ l then decide (b ^ 80 * 10 ^ l.toNat < a ^ 80) else decide (b ^ 80 < a ^ 80 * 10 ^ (-l).toNat)

/-- The largest n below the fuel for which 80·log10(a / b) - l is at least n; the excess is above 0. -/
def excessFloor (a b : Nat) (l : Int) : Nat → Nat
  | 0 => 0
  | n + 1 => if aboveDb a b (l + (n + 1 : Nat)) || a ^ 80 == b ^ 80 * 10 ^ (l + (n + 1 : Nat)).toNat then n + 1 else excessFloor a b l n

/-- Valid entries of a mask that the symbol violates: number, entry, ratio. -/
def State.maskViolated (s : State) (c : Nat) (pk : List Nat) : List (Nat × Nat × (Nat × Nat)) :=
  let m := s.cellFld c 176 4
  ((List.range 64).map (fun e => (e, s.reg (FH_MASK_ENT m e), s.maskRatio c pk (s.reg (FH_MASK_ENT m e))))).filter (fun v =>
    bit v.2.1 42 && aboveDb v.2.2.1 v.2.2.2 (maskLimit v.2.1))

/-- Is the excess of u above that of v? Both ratios have the same in-band power. -/
def worse (u v : Nat × Nat × (Nat × Nat)) : Bool :=
  let d := maskLimit u.2.1 - maskLimit v.2.1
  aboveDb (u.2.2.1 * v.2.2.2) (v.2.2.1 * u.2.2.2) d

/-- The entry with the largest excess. -/
def worst : List (Nat × Nat × (Nat × Nat)) → Option (Nat × Nat × (Nat × Nat))
  | [] => none
  | v :: t => match worst t with
    | none => some v
    | some u => if worse u v then some u else some v

/-- One record of FH_MASK_LOG. -/
def State.maskLog (s : State) (r : Nat) : State :=
  let h := s.fld FH_MASK_LOG_HEAD 0 6
  ((s.setReg (FH_MASK_LOG (2 * h)) (bits r 0 64)).setReg (FH_MASK_LOG (2 * h + 1)) (bits r 64 64)).setFld FH_MASK_LOG_HEAD 0 6 (h + 1)

/-- The register word and the bit of a stream's muted flag. -/
def mutedReg (i : Nat) : Nat := if i < 64 then FH_MASK_MUTED0 else FH_MASK_MUTED1
def State.muted (s : State) (i : Nat) : Bool := s.fld (mutedReg i) (i % 64) 1 == 1

/-- A violation of mode 2: the run of the stream, and the mute. -/
def State.maskHold (s : State) (i : Nat) : Bool × State :=
  let n := Tbl.get 0 s.maskRun i + 1
  let s := { s with maskRun := Tbl.put 0 s.maskRun i n }
  if s.fld FH_MASK_CFG 0 4 ≤ n ∧ s.muted i = false then (true, (s.setFld (mutedReg i) (i % 64) 1 1).event FH_MASK_EVENT 1)
  else (s.muted i, s)

/-- A symbol violates entry v the most: counted, logged with its excess, and in mode 2 sent as zeros. The spec does not say how an excess
between two units is rounded. -/
def State.maskHit (s : State) (i c ant sym : Nat) (v : Nat × Nat × (Nat × Nat)) : State :=
  let mode := s.cellFld c 180 2
  let s := (s.bump FH_MASK_VIOL_CNT).event FH_MASK_EVENT 0
  let f := s.fresh
  let n := excessFloor v.2.2.1 v.2.2.2 (maskLimit v.2.1) 65535
  let h := if mode = 2 then f.2.maskHold i else (false, f.2)
  let r := s.cnt + c <<< 64 + ant <<< 72 + sym <<< 78 + v.1 <<< 82 + (bits (n + f.1 % 2) 0 16) <<< 88 + b2n h.1 <<< 104
  (h.2.maskLog r).answer stOk 0 [if mode = 2 then 1 else 0]

/-- The entries a symbol violates: none where it has no power in the band. -/
def State.maskFound (s : State) (c : Nat) (pk : List Nat) : List (Nat × Nat × (Nat × Nat)) :=
  let b := s.inBand c
  if binSum pk b.1 b.2 = 0 then [] else s.maskViolated c pk

/-- R340, R341: the monitor checks a downlink symbol. pk: P_k of its N bins, from the lowest frequency. The answer tells how
the symbol is sent: 0 unchanged, 1 as zeros. -/
def execMaskCheck (stream : Fin 128) (cell : Fin 256) (ant : Fin 64) (sym : Fin 14) (pk : List Nat) (s : State) :
    Host.Outcome State Fault Refusal :=
  let c := cell.val
  let i := stream.val
  let mode := s.cellFld c 180 2
  .next (if s.cellMode c ≠ 2 ∨ (mode ≠ 1 ∧ mode ≠ 2) ∨ s.cellState c = 0 then s.answer stOk 0 [0]
  else
    let s := s.bump64 FH_MASK_CHK_CNT 1
    match worst (s.maskFound c pk) with
    | none => { s with maskRun := Tbl.put 0 s.maskRun i 0 }.answer stOk 0 [if mode = 2 ∧ s.muted i then 1 else 0]
    | some v => s.maskHit i c ant.val sym.val v)

/-- R341: a write of FH_MASK_UNMUTE. -/
def execFhMaskUnmute (wr : Writer) (stream : Fin 128) (go : Bool) (s : State) : Host.Outcome State Fault Refusal :=
  .next (s.mcOnly wr FH_MASK_UNMUTE (fun s =>
    if go then
      ({ s with maskRun := Tbl.put 0 s.maskRun stream.val 0 }.setFld (mutedReg stream.val) (stream.val % 64) 1 0).answer stOk
    else s.answer stOk))

end Sys2Proof.Machine
end

