-- ==== Sys2Proof/Machine/Links.lean ====
section
/-!
DEFINITION. Machine/Links.lean: the fabric ports (chapter 12): bring-up, flits, acknowledgement and replay, the swap to
the spare lane, retirement.
-/
namespace Sys2Proof.Machine

/-- A port enters a state (Table 12.6). -/
def State.setLink (s : State) (p st : Nat) : State :=
  ((s.setFld (LNK_STATE p) 0 3 st).event LNK_EVENT p).setFld LNK_STATUS p 1 (b2n (st == 3))

def isCopper (p : Nat) : Bool := decide (16 ≤ p)

/-- The port's clock enable bit in CLK_EN_HUB (Table 8.7). -/
def linkEnBit (p : Nat) : Nat := 20 + p

/-- This end's 72-bit key (R322). -/
def State.lnkKey (s : State) (p : Nat) : Nat := (s.reg LNK_SELF_ID) <<< 8 + p

/-- A refused LNK_CMD. -/
def State.lnkRefuse (s : State) (p : Nat) : State := s.refuseReg (LNK_CMD p)

/-- A packet back to the router: a request goes to the port its route names now, or completes with RETIRED where none is
left; anything else is lost. -/
def State.rehash (s : State) (k : FabPkt) : State :=
  match k.req with
  | some (t, r) =>
    if s.unreachable r.card then
      (((s.bump FAB_UNREACH_CNT).event FAB_EVENT 2).fabArrive r.owner { status := stRetired }).holdTag t none
    else s.toPort (s.pathPort r.card r.flow r.uo) k
  | none => if s.unreachable k.card then s else s.toPort (s.pathPort k.card k.flow false) k

/-- Return what waits at a port to the router (R328). -/
def State.rehashAll (s : State) (p : Nat) : State :=
  let q := (s.port p).txq
  q.foldl (fun (s : State) t => s.rehash t.pkt) (s.setPort p { s.port p with txq := [], ctrl := [] })

/-- Packets with a flit in the replay buffer, and packets sent in part, are dropped (R328). -/
def State.dropFlits (s : State) (p : Nat) : State :=
  let x := s.port p
  let hs := ((x.buf.filter (fun c => !c.ctrl)).map (·.hdr)).eraseDups
  let isCut (t : TxPkt) : Bool := decide (t.left < flitsOf t.pkt.size) || hs.contains (bits t.pkt.val 0 256)
  let more := (x.txq.filter (fun t => isCut t && !(hs.contains (bits t.pkt.val 0 256)))).length
  let s := s.setPort p { x with buf := [], txq := x.txq.filter (fun t => !(isCut t)), replays := 0, nakOut := false,
                                swaps := [], swSeen := false, ctrl := [], part0 := [], part1 := [] }
  let s := (s.setFld (LNK_STATE p) 12 4 0xF).setFld (LNK_STATE p) 17 1 0
  (s.bumpFld (LNK_DROP_CNT p) 0 32 (hs.length + more)).setFld (LNK_SEQ p) 36 10 0

/-- A port goes DOWN: its drain hold begins (R328). -/
def State.linkDown (s : State) (p : Nat) : State :=
  let s := (s.setLink p 5).dropFlits p
  (s.setFld (LNK_STATE p) 18 1 1).bump (LNK_DOWN_CNT p)

/-- Is the port one that coasting takes down: neither DISABLED nor RETIRED nor DOWN? -/
def State.linkAlive (s : State) (p : Nat) : Bool :=
  let st := s.portState p
  st != 0 && st != 5 && st != 7

/-- ACTIVE to RECOVERY: sequence state is kept (R326). -/
def State.toRecovery (s : State) (p : Nat) : State := if s.portState p = 3 then s.setLink p 4 else s

/-- A protocol error (R324, R325). -/
def State.protoErr (s : State) (p : Nat) : State := (s.bump (LNK_PROTO_ERR_CNT p)).toRecovery p

/-- A port enters RETIRED (R329, R476); its record and the error log name it. -/
def State.retirePort (s : State) (p : Nat) : State :=
  let s := (s.dropFlits p).setLink p 7
  let s := ((s.rehashAll p).event LNK_EVENT 48).degrade 5
  s.setFld (LNK_STATE p) 18 1 0

/-- Write the retired-lane record of a direction (R323, R329). -/
def State.laneRecord (s : State) (p lane : Nat) (tx : Bool) : State :=
  { s with laneRecs := Tbl.put none s.laneRecs (2 * p + b2n (!tx)) (some lane) }

/-- LNK_CMD.enable (Table 12.6). -/
def State.startArb (s : State) (p : Nat) : State :=
  let s := s.setPort p { s.port p with phase := 0, key := none, bursts := 0, round := 0, backoffUs := 0, disabling := false,
                                       masked := false, drainDone := false, ready := false }
  (s.setLink p 1).bumpFld (LNK_ARB_CNT p) 0 16 1

/-- A write of LNK_CMD[p] by the management cores, with the block's clock on. -/
def State.lnkCmd (s : State) (wr : Writer) (p : Nat) (f : State → State) : State :=
  s.mcOnly wr (LNK_CMD p) (fun s => s.ungated (linkEnBit p) (LNK_CMD p) 0x1FF f)

def execEnable (wr : Writer) (port : Fin 24) (s : State) : Host.Outcome State Fault Refusal :=
  let p := port.val
  .next (s.lnkCmd wr p (fun s => if s.portState p = 0 then (s.startArb p).answer stOk else s.lnkRefuse p))

/-- The end of a disable (R332). -/
def State.linkOff (s : State) (p : Nat) : State :=
  let s := (s.dropFlits p).rehashAll p
  (s.setPort p { s.port p with disabling := false, masked := false }).setLink p 0

/-- LNK_CMD.disable (R332): out of the masks at once; DISABLED when every flit is acknowledged. -/
def execDisable (wr : Writer) (port : Fin 24) (s : State) : Host.Outcome State Fault Refusal :=
  let p := port.val
  .next (s.lnkCmd wr p (fun s =>
    let st := s.portState p
    if st = 0 ∨ st = 7 then s.lnkRefuse p
    else if (st = 3 ∨ st = 4) ∧ (s.port p).buf.isEmpty = false then
      ((s.setPort p { s.port p with disabling := true, masked := true }).rehashAll p).answer stOk
    else (s.linkOff p).answer stOk))

def execRetrain (wr : Writer) (port : Fin 24) (s : State) : Host.Outcome State Fault Refusal :=
  let p := port.val
  .next (s.lnkCmd wr p (fun s => if s.portState p = 3 then (s.linkDown p).answer stOk else s.lnkRefuse p))

/-- Is a swap of a port pending (Table 12.8)? -/
def State.swapPending (s : State) (p : Nat) : Bool := s.fld (LNK_STATE p) 17 1 == 1
def State.spareOk (s : State) (p : Nat) : Bool := s.fld (LNK_STATE p) 16 1 == 1
def State.smap (s : State) (p : Nat) (tx : Bool) : Nat := s.fld (LNK_STATE p) (if tx then 4 else 8) 4

/-- This end requests the swap of a lane it receives (Table 12.8, step 2). -/
def State.requestSwap (s : State) (p lane : Nat) : State :=
  let x := s.port p
  let s := s.setPort p { x with swaps := x.swaps ++ [{ lane := lane, tx := false, stage := 2 }], ctrl := x.ctrl ++ [(1, lane)] }
  (s.setFld (LNK_STATE p) 17 1 1).lnkPump p 1024

/-- LNK_CMD.swap (R331). -/
def execSwapCommand (wr : Writer) (port : Fin 24) (lane : Fin 16) (s : State) : Host.Outcome State Fault Refusal :=
  let p := port.val
  .next (s.lnkCmd wr p (fun s =>
    if s.portState p ≠ 3 ∨ s.swapPending p ∨ s.smap p false ≠ 0xF ∨ s.spareOk p = false ∨ 7 < lane.val then
      (s.bumpFld (LNK_SWAP_CNT p) 16 16 1).lnkRefuse p
    else (s.requestSwap p lane.val).answer stOk))

/-- The degraded cause of retired ports follows the ports (R476). -/
def State.portCause (s : State) : State :=
  if (List.range 24).any (fun p => s.portState p == 7) then s
  else
    let s := s.setFld RAS_STATUS 5 1 0
    if s.fld RAS_STATUS 3 8 = 0 ∧ s.fld RAS_STATUS 0 1 = 1 then (s.setFld RAS_STATUS 0 1 0).event RAS_EVENT 8 else s

def execUnretire (wr : Writer) (port : Fin 24) (s : State) : Host.Outcome State Fault Refusal :=
  let p := port.val
  .next (s.lnkCmd wr p (fun s => if s.portState p = 7 then ((s.linkDown p).portCause).answer stOk else s.lnkRefuse p))

/-! ### Arbitration and training (R321 to R323) -/

/-- R322: an ANNOUNCE frame with a key is received in ARB. A copper end that has not sent its burst answers with it. -/
def execAnnounce (port : Fin 24) (key : BitVec 72) (s : State) : Host.Outcome State Fault Refusal :=
  let p := port.val
  let k := key.toNat
  .next (if s.portState p ≠ 1 then s
  else if k = s.lnkKey p then
    if isCopper p then s
    else if s.fld (LNK_CFG p) 1 1 = 1 then s.setLink p 6 else s.linkDown p
  else
    let x := s.port p
    let copper := isCopper p
    let mine := s.lnkKey p
    let s := s.setPort p { x with key := some k, bursts := if copper then max 1 x.bursts else x.bursts,
                                  phase := if copper then 1 else 3 }
    let s := (s.setReg (LNK_PARTNER_ID p) (k >>> 8)).setReg (LNK_PARTNER_PORT p) (k % 256 + 256)
    (s.setFld (LNK_STATE p) 3 1 (b2n (decide (k < mine)))).setLink p 2)

/-- R322: a copper end in ARB that has listened 20 µs on a quiet pair sends its burst. -/
def execArbListenEnd (port : Fin 24) (s : State) : Host.Outcome State Fault Refusal :=
  let p := port.val
  .next (if s.portState p = 1 ∧ isCopper p then s.setPort p { s.port p with bursts := (s.port p).bursts + 1 } else s)

/-- R322: a round that hears nothing for 16 µs: the wait is 4 µs or 12 µs by the key's next bit, then the burst again. -/
def execCollisionRound (port : Fin 24) (s : State) : Host.Outcome State Fault Refusal :=
  let p := port.val
  let x := s.port p
  .next (if s.portState p = 1 ∧ isCopper p ∧ 1 ≤ x.bursts ∧ x.round < 72 then
      (s.setPort p { x with round := x.round + 1, bursts := x.bursts + 1,
                            backoffUs := if bit (s.lnkKey p) (71 - x.round) then 12 else 4 }).bumpFld (LNK_ARB_CNT p) 16 16 1
    else s)

/-- The lane map of a direction from the two ends' records: none where they name different lanes (R323). -/
def agreeLane (a b : Option Nat) : Option Nat :=
  match a, b with
  | none, none => some 0xF
  | some x, none => some x
  | none, some y => some y
  | some x, some y => if x = y then some x else none

/-- Table 12.7: a training phase ends and the next begins. spare: the spare's idle pattern is good; tx, rx: the lanes the
partner's record names for the directions this end sends and receives. -/
def execTrainingPhaseEnd (port : Fin 24) (spare : Bool) (tx rx : Option (Fin 8)) (s : State) :
    Host.Outcome State Fault Refusal :=
  let p := port.val
  let x := s.port p
  let next (s : State) : State := s.setPort p { s.port p with phase := x.phase + 1 }
  .next (if s.portState p ≠ 2 ∨ 6 ≤ x.phase then s
  else if x.phase = 4 then next (s.setFld (LNK_STATE p) 16 1 (b2n (spare && !x.spareBad)))
  else if x.phase = 5 then
    match agreeLane (Tbl.get none s.laneRecs (2 * p)) (tx.map (·.val)), agreeLane (Tbl.get none s.laneRecs (2 * p + 1)) (rx.map (·.val)) with
    | some a, some b =>
      let s := (s.setFld (LNK_STATE p) 4 4 a).setFld (LNK_STATE p) 8 4 b
      next (s.setFld LNK_STATUS (24 + p) 1 (b2n (a != 0xF || b != 0xF)))
    | _, _ => s.retirePort p
  else next s)

/-- Both ends are READY: ACTIVE with sequence state cleared (Table 12.7, step 6). -/
def execReady (port : Fin 24) (s : State) : Host.Outcome State Fault Refusal :=
  let p := port.val
  let x := s.port p
  .next (if s.portState p = 2 ∧ x.phase = 6 then
      let s := s.setPort p { x with phase := 0, buf := [], replays := 0, nakOut := false, ackV := false, cred0 := 224, cred1 := 32,
                                    freed0 := 0, freed1 := 0, part0 := [], part1 := [], ready := true, masked := false }
      ((s.setReg (LNK_SEQ p) 0).setLink p 3).lnkPump p 1024
    else s)

def execTrainTimeout (port : Fin 24) (s : State) : Host.Outcome State Fault Refusal :=
  .next (if s.portState port.val = 2 then s.linkDown port.val else s)

/-- recov_us expires: a port in RECOVERY goes DOWN; a port being disabled drops the flits it still holds (R332). -/
def execRecoveryTimeout (port : Fin 24) (s : State) : Host.Outcome State Fault Refusal :=
  let p := port.val
  .next (if (s.port p).disabling then s.linkOff p
  else if s.portState p = 4 then (s.linkDown p).bumpFld (LNK_RECOV_CNT p) 32 32 1 else s)

def execCodewordLockLoss (port : Fin 24) (s : State) : Host.Outcome State Fault Refusal :=
  .next (s.toRecovery port.val)

/-- A direction's logical lane runs on the spare from now on (Table 12.8, step 7): on copper both directions. -/
def State.switchLane (s : State) (p lane : Nat) (tx : Bool) : State :=
  let set (s : State) (tx : Bool) : State :=
    (s.setFld (LNK_STATE p) (if tx then 4 else 8) 4 lane).laneRecord p lane tx
  let s := set s tx
  let s := if isCopper p then set s (!tx) else s
  let s := if tx ∨ isCopper p then s.setFld (LNK_STATE p) 12 4 0xF else s
  let x := s.port p
  let left := x.swaps.filter (fun w => w.lane != lane || w.tx != tx || w.tx)
  let s := s.setPort p { x with swaps := left.map (fun w => if w.lane = lane ∧ w.tx then { w with stage := 8 } else w), swSeen := false, dead := none }
  let s := s.setFld (LNK_STATE p) 17 1 (b2n (left.any (fun w => decide (w.stage < 8) && !(w.lane == lane && w.tx))))
  let s := (s.bumpFld (LNK_SWAP_CNT p) 0 16 1).event LNK_EVENT (24 + p)
  (s.setFld LNK_STATUS (24 + p) 1 1).errLog { level := 4, kind := 16, action := 2, res := p, detail := lane }

/-- Fast retrain ends: swaps between steps 3 and 7 are complete, a dead lane moves to a good spare, and the port replays
from its oldest flit (R326, R331). spare: the spare's idle pattern is good. -/
def execFastRetrainDone (port : Fin 24) (spare : Bool) (s : State) : Host.Outcome State Fault Refusal :=
  let p := port.val
  .next (if s.portState p ≠ 4 then s
  else
    let s := s.setFld (LNK_STATE p) 16 1 (b2n (spare && !(s.port p).spareBad))
    let s := (s.port p).swaps.foldl (fun (s : State) w => if 3 ≤ w.stage ∧ w.stage < 8 then s.switchLane p w.lane w.tx else s) s
    let s := match (s.port p).dead with
      | some j => if s.spareOk p ∧ s.smap p false = 0xF then s.switchLane p j false else s
      | none => s
    let x := s.port p
    let s := s.setPort p { x with recWin := x.recWin + 1, replays := 0 }
    let s := (s.bumpFld (LNK_RECOV_CNT p) 0 32 1).bumpFld (LNK_REPLAY_CNT p) 0 32 x.buf.length
    (s.setLink p 3).lnkPump p 1024)

/-- The drain hold ends: the port leaves the masks and what it held goes back to the router (R328). -/
def execDrainHoldEnd (port : Fin 24) (s : State) : Host.Outcome State Fault Refusal :=
  let p := port.val
  .next (if s.portState p = 5 ∧ s.fld (LNK_STATE p) 18 1 = 1 then
      let s := (s.setFld (LNK_STATE p) 18 1 0).setPort p { s.port p with drainDone := true }
      s.rehashAll p
    else s)

/-- 1 ms after its drain hold a DOWN port with auto = 1 enters ARB, unless the part coasts (R321). -/
def execDownToArb (port : Fin 24) (s : State) : Host.Outcome State Fault Refusal :=
  let p := port.val
  .next (if s.portState p = 5 ∧ (s.port p).drainDone ∧ s.fld (LNK_CFG p) 3 1 = 1 ∧ s.fld CLK_STATUS 2 1 = 0 then s.startArb p else s)

/-! ### Flits (R317, R324 to R327) -/

/-- One bit of the CRC-64 of R317 (ECMA-182, most significant bit first). -/
def crcBit (c : Nat) (b : Bool) : Nat :=
  let top := (c / 2 ^ 63 % 2 == 1) != b
  let c := c * 2 % 2 ^ 64
  if top then c ^^^ 0x42F0E1EBA9EA3693 else c

/-- One byte, most significant bit first. -/
def crcByte (c b : Nat) : Nat := (List.range 8).foldl (fun c i => crcBit c (bit b (7 - i))) c

/-- CRC-64 of the n low bytes of v: initial value and final XOR of all ones. -/
def crc64 (v n : Nat) : Nat :=
  ((List.range n).foldl (fun c i => crcByte c (bits v (8 * i) 8)) (2 ^ 64 - 1)) ^^^ (2 ^ 64 - 1)

/-- Bytes of the packet that begins with a slot: a reply of R294 or a request of Table 11.4. -/
def packetBytes (h : Nat) : Nat :=
  if bits h 0 8 = 0x80 then 16 + bits h 16 15
  else if bits h 0 8 = 1 then 32 else 32 + bits h 16 15

/-- A slot joins the packet being reassembled in its class; a whole packet is delivered to the router (R318, R319). -/
def LnkPort.slot (x : LnkPort) (tc sop poison : Bool) (v : Nat) : LnkPort :=
  let parts := (if sop then [] else if tc then x.part1 else x.part0) ++ [(v, poison)]
  let n := packetBytes (match parts with | h :: _ => h.1 | [] => 0)
  let done := decide (n ≤ 32 * parts.length)
  let rest := if done then [] else parts
  let x := if tc then { x with part1 := rest } else { x with part0 := rest }
  if done then { x with got := x.got ++ [(bits (packRow 256 (parts.map (·.1))) 0 (8 * n), n, parts.any (·.2))] } else x
where
  packRow (w : Nat) : List Nat → Nat
    | [] => 0
    | a :: t => a + (packRow w t) <<< w

/-- The slots of a delivered DATA flit. -/
def LnkPort.slots (x : LnkPort) (f : Nat) : LnkPort :=
  (List.range 19).foldl (fun (x : LnkPort) i =>
    if bit f (68 + i) then x.slot (bit f 4) (bit f (49 + i)) (bit f (87 + i)) (bits f (128 + 256 * i) 256) else x) x

/-- A NAK, if none is outstanding (R325). -/
def State.sendNak (s : State) (p : Nat) : State :=
  if (s.port p).nakOut then s
  else (s.setPort p { s.port p with nakOut := true }).bumpFld (LNK_NAK_CNT p) 0 32 1

/-- Resend every held copy; replay_max times in a row without progress is a protocol error's end (R326). -/
def State.replay (s : State) (p : Nat) : State :=
  let x := s.port p
  let s := s.bumpFld (LNK_REPLAY_CNT p) 0 32 x.buf.length
  let s := s.setPort p { x with replays := x.replays + 1 }
  if s.fld (LNK_REPLAY_CFG p) 16 8 ≤ x.replays + 1 then s.toRecovery p else s

/-- A received ack: valid inside the window, where it frees every copy up to and including it (R324). -/
def State.ackFlits (s : State) (p a : Nat) : State × Bool :=
  let next := s.fld (LNK_SEQ p) 0 12
  let oldest := s.fld (LNK_SEQ p) 12 12
  let n := (4096 + a - oldest + 1) % 4096
  if n ≤ (4096 + next - oldest) % 4096 then
    let x := s.port p
    let s := s.setPort p { x with buf := x.buf.drop n, replays := if n = 0 then x.replays else 0 }
    ((s.setFld (LNK_SEQ p) 12 12 (oldest + n)).setFld (LNK_SEQ p) 36 10 (x.buf.length - n), true)
  else (s.protoErr p, false)

/-- The sequence check of a DATA or CTRL flit (R325). -/
def State.takeFlit (s : State) (p f : Nat) : State :=
  let expected := s.fld (LNK_SEQ p) 24 12
  let d := (4096 + bits f 5 12 - expected) % 4096
  if d = 0 then
    let x := s.port p
    let x := { x with ackV := true, nakOut := false }
    let x := if bits f 0 4 = 1 then
        let x := x.slots f
        if bit f 4 then { x with freed1 := x.freed1 + 1 } else { x with freed0 := x.freed0 + 1 }
      else x
    (s.setPort p x).setFld (LNK_SEQ p) 24 12 (expected + 1)
  else if 4096 - 512 ≤ d then s.bump (LNK_DUP_CNT p)
  else if d ≤ 511 then s.sendNak p
  else s.protoErr p

/-- Corrected symbols of a codeword, by physical lane (R329). -/
def State.laneSyms (s : State) (p : Nat) (sym : List (Fin 9 × Nat)) : State :=
  sym.foldl (fun (s : State) e =>
    let x := s.port p
    let s := s.setPort p { x with laneWin := Tbl.put 0 x.laneWin e.1.val (Tbl.get 0 x.laneWin e.1.val + e.2) }
    s.bumpFld (LNK_LANE_SYM p e.1.val) 0 32 e.2) s

/-- The control field: a receiver that saw sw in the period switches at the next cwc = 0 (R330). -/
def State.cwControl (s : State) (p ctl : Nat) : State :=
  let x := s.port p
  let s := if bits ctl 0 8 = 0 ∧ x.swSeen then
      match x.swaps.find? (fun w => !w.tx) with
      | some w => s.switchLane p w.lane false
      | none => s
    else s
  if bit ctl 16 then s.setPort p { s.port p with swSeen := true } else s

/-- A flit whose CRC is right: its credits and time, its acknowledgement, its NAK, its sequence check and slots (R324 to R327); a port
being disabled is off once every flit it holds is acknowledged (R332). -/
def State.flitIn (s : State) (p f : Nat) : State :=
  let s := s.setPort p { s.port p with echo := bits f 5056 32, cred0 := (s.port p).cred0 + bits f 31 9,
                                       cred1 := (s.port p).cred1 + bits f 40 9 }
  let s := if bits f 5088 32 = 0 then s
    else s.setReg (LNK_RTT p) ((2 ^ 32 + s.cnt - bits f 5088 32) % 2 ^ 32)
  let a := if bit f 29 then s.ackFlits p (bits f 17 12) else (s, true)
  if a.2 = false then a.1
  else
    let s := a.1
    let s := if bit f 30 then (s.bumpFld (LNK_NAK_CNT p) 32 32 1).replay p else s
    let s := if bits f 0 4 = 1 ∨ bits f 0 4 = 2 then s.takeFlit p f else s
    let s := s.lnkPump p 1024
    if (s.port p).disabling ∧ (s.port p).buf.isEmpty then s.linkOff p else s

/-- R325: a codeword and its flit are received: ctl the control field, sym the symbols corrected by lane, bad that the
codeword is uncorrectable. -/
def execFlitRx (port : Fin 24) (ctl : BitVec 20) (flit : BitVec 5120) (sym : List (Fin 9 × Nat)) (bad : Bool) (s : State) :
    Host.Outcome State Fault Refusal :=
  let p := port.val
  let f := flit.toNat
  .next (if s.portState p ≠ 3 then s
  else
    let s := s.bump64 (LNK_CW_CNT p) 1
    if bad then
      let s := s.setPort p { s.port p with uncWin := (s.port p).uncWin + 1 }
      (s.bump (LNK_CW_UNCORR_CNT p)).sendNak p
    else
      let s := if sym.isEmpty then s else (s.bump64 (LNK_CW_CORR_CNT p) 1).laneSyms p sym
      let s := s.cwControl p ctl.toNat
      if crc64 f 624 ≠ bits f 4992 64 then (s.bump (LNK_CRC_ERR_CNT p)).sendNak p else s.flitIn p f)

/-- R326: the replay timer expires. -/
def execReplayTimer (port : Fin 24) (s : State) : Host.Outcome State Fault Refusal :=
  let p := port.val
  .next (if s.portState p = 3 ∧ (s.port p).buf.isEmpty = false then
      (s.bumpFld (LNK_REPLAY_CNT p) 32 32 1).replay p
    else s)

/-! ### The swap to the spare (R330, R331) -/

/-- CTRL SWAP_REQ(lane): this end mirrors the lane onto the spare. On copper with requests from both ends, the leader's is
carried out. -/
def execSwapReq (port : Fin 24) (lane : Fin 8) (s : State) : Host.Outcome State Fault Refusal :=
  let p := port.val
  let x := s.port p
  let both := isCopper p && x.swaps.any (fun w => !w.tx && decide (w.stage < 8))
  .next (if s.portState p ≠ 3 then s
  else if both ∧ s.fld (LNK_STATE p) 3 1 = 1 then (s.setPort p { x with ctrl := x.ctrl ++ [(3, lane.val)] }).lnkPump p 1024
  else
    let s := s.setPort p { x with swaps := x.swaps ++ [{ lane := lane.val, tx := true, stage := 3 }] }
    (s.setFld (LNK_STATE p) 12 4 lane.val).setFld (LNK_STATE p) 17 1 1)

/-- CTRL SWAP_ACK: sw = 1 from the next cwc = 0, and the switch one period later. -/
def execSwapAck (port : Fin 24) (s : State) : Host.Outcome State Fault Refusal :=
  let p := port.val
  .next (match (s.port p).swaps.find? (fun w => w.tx && w.stage == 3) with
  | some w => if s.portState p = 3 then s.switchLane p w.lane true else s
  | none => s)

/-- CTRL SWAP_REJ: the swap ends and the spare is not usable; a copper follower's request that met the leader's only
ends. -/
def execSwapRej (port : Fin 24) (s : State) : Host.Outcome State Fault Refusal :=
  let p := port.val
  let x := s.port p
  let met := isCopper p && x.swaps.any (fun w => w.tx) && x.swaps.any (fun w => !w.tx)
  .next (if x.swaps.isEmpty then s
  else
    let left := if met then x.swaps.filter (fun w => w.tx) else []
    let s := s.setPort p { x with swaps := left, spareBad := x.spareBad || !met }
    let s := if met then s else (s.setFld (LNK_STATE p) 16 1 0).setFld (LNK_STATE p) 12 4 0xF
    (s.setFld (LNK_STATE p) 17 1 (b2n (left.any (fun w => decide (w.stage < 8))))).bumpFld (LNK_SWAP_CNT p) 16 16 1)

/-- Table 12.8, step 8: the failed lane is driven no longer. -/
def execLaneDriveOff (port : Fin 24) (s : State) : Host.Outcome State Fault Refusal :=
  let p := port.val
  let x := s.port p
  .next (match x.swaps.find? (fun w => w.tx && w.stage == 8) with
  | some w => s.setPort p { x with swaps := x.swaps.filter (fun v => v != w), off := x.off ++ [w.lane] }
  | none => s)

/-! ### Windows and permanent failures (R329) -/

/-- A lane is permanently failed: it is swapped to a usable spare, or the port is retired. -/
def State.laneFailed (s : State) (p lane row count : Nat) : State :=
  let s := (s.event RAS_EVENT 1).errLog { level := 4, kind := row, action := 2, res := p, detail := lane, count := count }
  if s.smap p false ≠ 0xF ∨ s.spareOk p = false ∨ 7 < lane then s.retirePort p
  else if s.swapPending p then s
  else s.requestSwap p lane

/-- The window of one port ends. -/
def State.portWindow (s : State) (p : Nat) : State :=
  let x := s.port p
  let s := (List.range 9).foldl (fun (s : State) l => s.setFld (LNK_LANE_SYM p l) 32 32 (Tbl.get 0 x.laneWin l)) s
  let s := s.setPort p { x with laneWin := [], lockWin := [], uncWin := 0, recWin := 0 }
  let thr := s.fld (RAS_THR 16) 0 32 * s.fld LNK_WIN 0 16 / 1000
  let live := s.portState p == 3 || s.portState p == 4
  let portThr (row n : Nat) : Bool := decide (s.fld (RAS_THR row) 0 32 ≤ n)
  if live = false then s
  else if portThr 18 x.uncWin then
    ((s.event RAS_EVENT 1).errLog { level := 4, kind := 18, action := 2, res := p, count := x.uncWin }).retirePort p
  else if portThr 19 x.recWin then
    ((s.event RAS_EVENT 1).errLog { level := 4, kind := 19, action := 2, res := p, count := x.recWin }).retirePort p
  else (List.range 9).foldl (fun (s : State) l =>
    if thr ≤ Tbl.get 0 x.laneWin l ∧ s.portState p = 3 ∧ s.smap p false ≠ l then s.laneFailed p l 16 (Tbl.get 0 x.laneWin l) else s) s

/-- A win_ms window ends. -/
def execLnkWindowEnd (s : State) : Host.Outcome State Fault Refusal :=
  .next ((List.range 24).foldl State.portWindow s)

/-- A lane's receiver has lost lock for longer than row 17 allows: the lane is permanently failed, codewords fail, and
RECOVERY retrains on the spare (R329, R331). -/
def execLaneLockLoss (port : Fin 24) (lane : Fin 9) (s : State) : Host.Outcome State Fault Refusal :=
  let p := port.val
  let l := lane.val
  let x := s.port p
  .next (if s.portState p ≠ 3 ∧ s.portState p ≠ 4 then s
  else
    let s := (s.setFld (LNK_EC_STAT p l) 16 1 0).setPort p { x with lockWin := x.lockWin ++ [l] }
    if l = 8 ∧ s.smap p false = 0xF then
      (s.setPort p { s.port p with spareBad := true }).setFld (LNK_STATE p) 16 1 0
    else
      let s := (s.event RAS_EVENT 1).errLog { level := 4, kind := 17, action := 2, res := p, detail := l, count := 1 }
      if s.smap p false ≠ 0xF ∨ s.spareOk p = false then s.retirePort p
      else (s.setPort p { s.port p with dead := some l }).toRecovery p)

end Sys2Proof.Machine
end

