-- ==== Sys2Proof/Machine/Fabric.lean ====
section
/-!
DEFINITION. Machine/Fabric.lean: the fabric (chapter 11): inbound requests and their replies, tags and timeouts, gateway
frames and descriptors, the dispatch unit and the inboxes.
-/
namespace Sys2Proof.Machine

/-! ### What arrives (R288, R294) -/

/-- A request's header fields (Table 11.4). -/
structure ReqHdr where
  op : Nat
  rsvd : Bool
  spec : Bool
  len : Nat
  tag : Nat
  srcCard : Nat
  addr : Nat
  part : Nat
  card : Nat
  srcPart : Nat
  srcInst : Nat
  srcGen : Nat
  srcPgen : Nat
  epoch : Nat
  grp : Nat
  tc : Bool
  deriving DecidableEq, Repr

def ReqHdr.ofNat (h : Nat) : ReqHdr :=
  { op := bits h 0 8, rsvd := bits h 12 4 != 0 || bit h 31 || bits h 49 3 != 0 || bits h 195 29 != 0,
    spec := bit h 10, len := bits h 16 15, tag := bits h 32 17, srcCard := bits h 52 12, addr := bits h 64 48,
    part := bits h 112 4, card := bits h 116 12, srcPart := bits h 128 4, srcInst := bits h 132 9, srcGen := bits h 141 16, srcPgen := bits h 157 16,
    epoch := bits h 173 16, grp := bits h 189 6, tc := bit h 9 }

/-- Opcodes of requests (Table 11.5). -/
def fabOpcodes : List Nat := [0x01, 0x02, 0x10, 0x11, 0x12, 0x13, 0x14, 0x15, 0x20, 0x21, 0x22, 0x30]

/-- The size and alignment rules of Table 11.5 and R293. -/
def opShape (op len a : Nat) : Bool :=
  let grain (n : Nat) : Bool := decide (a % 256 + n ≤ 256)
  let natural : Bool := !(len == 2 || len == 4 || len == 8) || a % len == 0
  let vec (w : Nat) : Bool := decide (w ≤ len) && decide (len ≤ 256) && len % w == 0 && a % w == 0 && grain len
  if op = 1 ∨ op = 2 then decide (1 ≤ len) && decide (len ≤ 256) && natural && grain len
  else if op = 0x10 ∨ op = 0x12 then len == 8 && a % 8 == 0
  else if op = 0x11 then len == 16 && a % 8 == 0
  else if op = 0x13 then vec 8
  else if op = 0x14 then vec 32
  else if op = 0x15 then vec 4
  else if op = 0x20 then decide (192 ≤ len) && decide (len ≤ 128 + 4096) && len % 64 == 0
  else if op = 0x21 then decide (96 ≤ len) && decide (len ≤ 32 + 4096) && len % 64 == 32 && decide (a % 4096 + (len - 32) ≤ 4096)
  else if op = 0x22 then len == 16
  else decide (64 ≤ len) && decide (len ≤ 4096)

/-- Bytes of the target that a request touches. -/
def ReqHdr.touched (h : ReqHdr) : Nat := if h.op = 0x11 then 8 else if h.op = 0x21 then h.len - 32 else h.len

/-- Do the n bytes at a lie in what a partition owns: a live region of one of its instances, scratch of its cores, a pool
or an inbox of it (Table 11.1, row 6)? -/
def State.partOwns (s : State) (p a n : Nat) : Bool :=
  match s.tierOf a with
  | .scratch lc off => s.partHasLc p lc && inScratch (if s.partTimed p then .timed else .elastic) off n
  | .control => false
  | .none => false
  | _ =>
    let inside (lo size : Nat) : Bool := decide (lo ≤ a) && decide (a + n ≤ lo + size)
    s.regions.any (fun r => s.instPart r.inst == p && decide (r.tier < 3) && inside r.base r.size)
      || (List.range 64).any (fun k => bit (s.reg (MEM_POOL_CFG k)) 0 && s.fld (MEM_POOL_CFG k) 24 4 == p
          && inside (s.poolCfg k).2.2.2.1 ((s.poolCfg k).2.1 * (s.poolCfg k).2.2.1))
      || (List.range 64).any (fun i => s.fld (FAB_XI_CFG i) 0 1 == 1 && s.fld (FAB_XI_CFG i) 1 4 == p
          && inside (s.fld (FAB_XI_BASE i) 0 48) (s.fld (FAB_XI_CFG i) 25 12 * (4096 * 2 ^ s.fld (FAB_XI_CFG i) 22 3)))

/-- Does a peer entry of a partition match the sender (Table 11.2)? -/
def State.peerOk (s : State) (h : ReqHdr) : Bool :=
  (List.range 64).any (fun j =>
    let e := s.reg (FAB_PEER h.part j)
    bit e 32 && bits e 0 12 == h.srcCard && bits e 12 4 == h.srcPart && bits e 16 16 == h.srcPgen)

/-- What a served request answers: a status, data, and the 32-byte slots of the reply whose data carries a poison tag. -/
structure Served where
  status : Nat
  len : Nat := 0
  data : Nat := 0
  bad : List Nat := []
  deriving DecidableEq, Repr

/-- The target's record of a refused request (R206, Table 7.9): remote, under the global address it names, for the sender's
instance, partition and card. -/
def ReqHdr.fault (h : ReqHdr) (cause : Nat) : FaultInfo :=
  { addr := globalAddr h.card h.part h.addr, status := stFaultAccess, cause := cause, kind := 1, remote := 1, unit := uGateway, elastic := !h.tc,
    inst := h.srcInst, gen := h.srcGen, card := h.srcCard, part := h.srcPart }

/-- A refusal with FAULT_ACCESS: logged under R206 and counted. -/
def State.refusedIn (s : State) (h : ReqHdr) : Option Served × State :=
  let s := s.violate (h.fault cRemoteRefused)
  (some { status := stFaultAccess }, (s.bump FAB_REFUSED_IN_CNT).event FAB_EVENT 4)

/-- A STATE answer of the fabric block to an opcode. -/
def State.fabState (s : State) (op : Nat) : State := s.refuseLog 15 op 0x1FF 0x1FF

/-- Rows 3 to 7 of Table 11.1: none where the request may be performed. -/
def State.inboundStops (s : State) (h : ReqHdr) : Option (Option Served × State) :=
  let access := h.op == 1 || h.op == 2 || h.op == 0x21 || (decide (0x10 ≤ h.op) && decide (h.op ≤ 0x15))
  let scratch := match s.tierOf h.addr with | .scratch _ _ => true | _ => false
  if !(fabOpcodes.contains h.op) || h.rsvd || !(opShape h.op h.len h.addr) then some (some { status := stState }, s.fabState h.op)
  else if h.op = 0x30 then none
  else if s.partState h.part = 0 ∨ s.fld (FAB_IN_CFG h.part) 0 1 = 0 ∨ s.peerOk h = false then some (s.refusedIn h)
  else if access && !(s.partOwns h.part h.addr h.touched) then some (s.refusedIn h)
  else if access && (s.keyFault h.addr false).isSome then
    some (some { status := stFaultAccess },
      (s.noteKeys h.addr).violate (h.fault cPrivilege))
  else if access && scratch && h.op != 1 && h.op != 2 then some (some { status := stState }, s.fabState h.op)
  else none

/-! ### The ends of dispatch entries (R306) -/

def ringWord (r e w : Nat) : Nat := FAB_XR_RING r (8 * e + w)

/-- An entry of a dispatch ring, 64 bytes. -/
def State.ringEnt (s : State) (r e : Nat) : Nat :=
  (List.range 8).foldl (fun v w => v + (s.reg (ringWord r e w)) <<< (64 * w)) 0

/-- The context of a ring's class. -/
def State.ringCtx (s : State) (r : Nat) : Ctx := if s.fld (FAB_XR_CFG r) 21 1 = 1 then .timed else .elastic

/-- Write status and done into an entry and raise its event. -/
def State.ringDone (s : State) (r e status : Nat) : State :=
  let v := s.ringEnt r e
  let s := (s.setFld (ringWord r e 4) 56 8 status).setFld (ringWord r e 0) 63 1 1
  let lc := bits v 296 9
  let pc := s.physCtx lc (s.ringCtx r)
  if s.grade.lcs ≤ lc ∨ pc = noCore then s else s.raiseEvt pc (s.ringCtx r) (bits v 288 8)

def State.dispAt (s : State) (r e : Nat) : Option Disp := Tbl.get none s.fab.disp (256 * r + e)
def State.setDisp (s : State) (r e : Nat) (d : Option Disp) : State :=
  { s with fab := { s.fab with disp := Tbl.put none s.fab.disp (256 * r + e) d } }

/-- The time of a completed dispatch, in its card's running window (R483). -/
def State.cardLat (s : State) (card ns : Nat) : State :=
  let w := s.cnt / (s.fld RAS_STRAG_CFG 16 16 * 1250000)
  let old := Tbl.get (0, 0, 0) s.fab.lat card
  let mean := if old.2.2 = 0 then 0 else old.2.1 / old.2.2 / 10
  let s := if old.1 = w then s
    else s.setReg (RAS_CARD_LAT card) (min 0xFFFF mean + (min 0xFFFF old.2.2) <<< 16)
  let acc := if old.1 = w then (w, old.2.1 + ns, old.2.2 + 1) else (w, ns, 1)
  { s with fab := { s.fab with lat := Tbl.put (0, 0, 0) s.fab.lat card acc } }

/-- The tag of an entry's DISPATCH. -/
def State.dispTag (s : State) (r e : Nat) : Option Nat :=
  (s.fab.tags.find? (fun t => match t.2 with | some u => u.req.owner == .dispatch r e && !u.quarantined | none => false)).map (·.1)

/-- An entry completes with a status; its tag is freed unless it stays in quarantine. -/
def State.dispEnd (s : State) (r e status : Nat) : State :=
  let s := match s.dispAt r e with
    | some d => s.cardLat d.req.card (s.nowNs - d.sentNs)
    | none => s
  let s := match s.dispTag r e with | some t => s.holdTag t none | none => s
  (s.setDisp r e none).ringDone r e status

/-! ### Requests that wait on the hub's own units -/

/-- A request of the hub ends: a dispatch entry, a COMBINE of a slot, a thread. -/
def State.fabDone (s : State) (o : FabOwner) (a : Arrived) : State :=
  match o with
  | .dispatch r e =>
    match s.dispAt r e with
    | none => s
    | some d =>
      if a.status = stOk then s.setDisp r e (some { d with accepted := true })
      else if a.status = stRefusedCapacity ∧ d.retries < s.fld FAB_XD_CFG 16 4 then s.setDisp r e (some { d with waiting := true })
      else s.dispEnd r e a.status
  | .combine i k =>
    let s := if a.status = stOk then s else s.bumpFld (FAB_XI_CNT i) 0 32 1
    { s with fab := { s.fab with combining := s.fab.combining.map (fun (c : Combining) =>
        if c.inbox = i ∧ c.slot = k then { c with left := c.left - 1 } else c) } }
  | o => s.fabArrive o a

/-- Issue a request of the hub; one that reaches nowhere ends at once. -/
def State.hubIssue (s : State) (r : FabReq) : State :=
  if s.unreachable r.card then ((s.bump FAB_UNREACH_CNT).event FAB_EVENT 2).fabDone r.owner { status := stRetired }
  else s.fabIssue r

/-! ### Inboxes (R307) -/

def slotKey (i k : Nat) : Nat := 4096 * i + k
def State.slotState (s : State) (i k : Nat) : Nat := Tbl.get 0 s.fab.slots (slotKey i k)
def State.slotSize (s : State) (i : Nat) : Nat := 4096 * 2 ^ s.fld (FAB_XI_CFG i) 22 3
def State.slotAddr (s : State) (i k : Nat) : Nat := s.fld (FAB_XI_BASE i) 0 48 + k * s.slotSize i

/-- Set a slot's state, in the hub and in its header. -/
def State.setSlot (s : State) (i k st : Nat) : State :=
  let s := { s with fab := { s.fab with slots := Tbl.put 0 s.fab.slots (slotKey i k) st } }
  s.devWrite (s.slotAddr i k) 1 st

def State.slotHdr (s : State) (i k : Nat) : Nat := (s.devLoad (s.slotAddr i k) 128).1

/-- Is a cancellation in the filter (R308)? -/
def State.filtered (s : State) (card grp epoch : Nat) : Bool := s.fab.filter.contains (card, grp, epoch)

/-- The lowest free slot of an inbox. -/
def State.freeInboxSlot (s : State) (i : Nat) : Option Nat :=
  (List.range (s.fld (FAB_XI_CFG i) 25 12)).find? (fun k => s.slotState i k == 0)

/-- An arriving DISPATCH: hdr the slot header, act the activation (R307). -/
def State.dispatchIn (s : State) (h : ReqHdr) (pay : Nat) : Option Served × State :=
  let hdr := bits pay 0 1024
  let actLen := h.len - 128
  let i := s.fld (FAB_XDIR (bits hdr 64 16) 0) 24 6
  let cfg := s.reg (FAB_XI_CFG i)
  if bits cfg 0 1 = 0 ∨ bits cfg 1 4 ≠ h.part then s.refusedIn h
  else if s.slotSize i < 128 + actLen + bits hdr 192 32 then (some { status := stState }, s.fabState 0x20)
  else if h.spec && s.filtered h.srcCard h.grp h.epoch then (some { status := stSpecDiscard }, s.bump FAB_SPEC_DISCARD_CNT)
  else match s.freeInboxSlot i with
    | none => (some { status := stRefusedCapacity }, s.bumpFld (FAB_XI_CNT i) 0 32 1)
    | some k =>
      let s := s.devWrite (s.slotAddr i k) (128 + actLen) (bits pay 0 (8 * (128 + actLen)))
      let s := s.setSlot i k 1
      let s := { s with fab := { s.fab with outs := Tbl.put 0 s.fab.outs (slotKey i k) h.addr } }
      let s := { s with fab := { s.fab with arrived := Tbl.put [] s.fab.arrived i (Tbl.get [] s.fab.arrived i ++ [k]) } }
      let x : Ctx := if s.partTimed h.part then .timed else .elastic
      let pc := s.physCtx (bits cfg 5 9) x
      (some { status := stOk }, if pc = noCore then s else s.raiseEvt pc x (bits cfg 14 8))

/-- A slot returns to FREE. -/
def State.slotFree (s : State) (i k : Nat) : State :=
  let s := s.setSlot i k 0
  { s with fab := { s.fab with combining := s.fab.combining.filter (fun c => !(c.inbox == i && c.slot == k)),
                               arrived := Tbl.put [] s.fab.arrived i ((Tbl.get [] s.fab.arrived i).filter (fun j => j != k)) } }

/-- A slot of a cancelled epoch (R308). -/
def State.cancelSlot (s : State) (i k : Nat) : State :=
  let st := s.slotState i k
  let s := (s.bumpFld (FAB_XI_CNT i) 32 32 1).bump FAB_SPEC_DISCARD_CNT
  if st = 2 then s.setSlot i k 4 else s.slotFree i k

/-- An epoch notice: every cancelled epoch of it (R308). -/
def State.epochNote (s : State) (h : ReqHdr) (pay : Nat) : State :=
  let grp := bits pay 0 6
  (List.range (min 64 (bits pay 32 8))).foldl (fun (s : State) j =>
    if bit pay (64 + j) then s
    else
      let e := (bits pay 16 16 + j) % 65536
      let hits := s.fab.slots.filter (fun p =>
        let d := s.slotHdr (p.1 / 4096) (p.1 % 4096)
        (p.2 == 1 || p.2 == 2 || p.2 == 3) && bit d 80 && bits d 32 12 == h.srcCard && bits d 10 6 == grp && bits d 48 16 == e)
      let s := hits.foldl (fun (s : State) p => s.cancelSlot (p.1 / 4096) (p.1 % 4096)) s
      let f := s.fab.filter ++ [(h.srcCard, grp, e)]
      { s with fab := { s.fab with filter := f.drop (f.length - 4096) } }) s

/-! ### COMBINE at the requester (R307, R308) -/

/-- The granules of a COMBINE's bytes, performed one atomic after another in ascending order (R293). -/
def State.combineRun (s : State) (op : AtomOp) (inst : Nat) : Nat → Nat → Nat → Nat → Nat × State
  | 0, _, _, _ => (stOk, s)
  | fuel + 1, a, n, v =>
    if n = 0 then (stOk, s)
    else
      let m := min n (256 - a % 256)
      let r := s.accAtom op a m (v % 2 ^ (8 * m)) 0 inst
      let q := r.2.combineRun op inst fuel (a + m) (n - m) (v >>> (8 * m))
      (if r.1.status = stOk then q.1 else r.1.status, q.2)

/-- The first status other than OK, in address order of the pieces; OK where none is. -/
def piecesStatus (ps : List Piece) : Nat :=
  let sorted := ps.foldl (fun (out : List Piece) p => out.filter (fun q => decide (q.off ≤ p.off)) ++ p :: out.filter (fun q => decide (p.off < q.off))) []
  ((sorted.filterMap (·.status)).find? (fun st => st != stOk)).getD stOk

/-- A COMBINE arrives: none: it is dropped and gets no reply. -/
def State.combineIn (s : State) (h : ReqHdr) (pay : Nat) : Option Served × State :=
  let rtag := bits pay 0 17
  let mode := bits pay 17 2
  let off := bits pay 74 18
  let n := h.len - 32
  let stale : Option Served × State := (none, s.bump FAB_STALE_CNT)
  match Tbl.get none s.fab.tags rtag with
  | none => stale
  | some u =>
    match u.req.owner, u.quarantined with
    | .dispatch r e, false =>
      match s.dispAt r e with
      | none => (none, (s.bump FAB_STALE_CNT).holdTag rtag none)
      | some d =>
        if d.mode ≠ mode ∨ h.addr ≠ d.outGlobal + off ∨ d.outLen < off + n then stale
        else
          let ep := Tbl.get 0 s.epochs (epochKey d.grp d.epoch) % 4
          if d.spec ∧ (ep = 3 ∨ ep = 0 ∨ bits pay 42 32 ≠ d.step) then
            (some { status := stSpecDiscard }, (s.bump FAB_SPEC_DISCARD_CNT).dispEnd r e stSpecDiscard)
          else
            let op : AtomOp := if mode = 0 then .addF32 else if mode = 1 then .addI64 else .addRec
            let q := s.combineRun op d.inst 32 h.addr n (bits pay 256 (8 * n))
            let ps := d.pieces ++ [{ off := off, len := n, status := some q.1 }]
            let s := q.2.setDisp r e (some { d with pieces := ps })
            let all := decide (d.outLen ≤ ps.foldl (fun k p => k + p.len) 0)
            (some { status := q.1 }, if all then s.dispEnd r e (piecesStatus ps) else s)
    | _, _ => stale

/-! ### Serving a request (Table 11.1) -/

/-- A plain access or an atomic, rows 8 and 9. -/
def State.accessIn (s : State) (h : ReqHdr) (pay : Nat) : Option Served × State :=
  if h.op = 1 then
    let r := s.accRead h.addr h.len 0x1FF uGateway
    let tagged (k : Nat) : Bool :=
      let lo := 32 * k - 16
      let hi := min h.len (32 * k + 16)
      decide (lo < hi) && (s.devLoad (h.addr + lo) (hi - lo)).2
    (some { status := r.1.status, len := h.len, data := r.1.data,
            bad := if r.1.status = stPoison then (List.range (ceilDiv (16 + h.len) 32)).filter tagged else [] }, r.2)
  else if h.op = 2 then
    let r := s.accWrite h.addr h.len (bits pay 0 (8 * h.len)) 0x1FF uGateway
    (some { status := r.1.status }, r.2)
  else match atomOfCode h.op with
    | none => (none, s)
    | some op =>
      let operand := if h.op = 0x11 then bits pay 64 64 else bits pay 0 (8 * h.len)
      let r := s.accAtom op h.addr h.touched operand (bits pay 0 64) 0x1FF
      let old := decide (h.op ≤ 0x12)
      (some { status := r.1.status, len := if old then 8 else 0, data := if old then r.1.data else 0 }, r.2)

/-- Serve one request that is no frame: its header and payload as one number. -/
def State.serve (s : State) (v : Nat) (poison : Bool) : Option Served × State :=
  let h := ReqHdr.ofNat (bits v 0 256)
  let pay := v >>> 256
  if h.card ≠ s.ownCard then (none, (s.bump FAB_MISROUTE_CNT).event FAB_EVENT 3)
  else if poison then (some { status := stPoison }, s)
  else match s.inboundStops h with
    | some r => r
    | none =>
      if h.op = 0x20 then s.dispatchIn h pay
      else if h.op = 0x21 then s.combineIn h pay
      else if h.op = 0x22 then (none, s.epochNote h pay)
      else s.accessIn h pay

/-- A reply's 16-byte header and data (R294). -/
def State.replyBits (s : State) (h : ReqHdr) (r : Served) : Nat :=
  0x80 + r.status <<< 8 + r.len <<< 16 + h.tag <<< 32 + h.srcGen <<< 64 + (s.fld TIME_STATUS 0 1) <<< 80
    + (bits s.nowNs 0 32) <<< 112 + (bits r.data 0 (8 * r.len)) <<< 128

/-- Send a packet of the hub to a card. -/
def State.sendTo (s : State) (card flow : Nat) (tc : Bool) (val size : Nat) (bad : List Nat) : State :=
  if card ≠ s.ownCard ∧ (s.routeMask card).isEmpty then s
  else s.toPort (s.pathPort card flow false) { val := val, size := size, card := card, tc := tc, flow := flow, bad := bad }

/-- Serve a request and reply to its card. -/
def State.serveAndReply (s : State) (v : Nat) (poison : Bool) : State :=
  let h := ReqHdr.ofNat (bits v 0 256)
  let r := s.serve v poison
  match r.1 with
  | none => r.2
  | some a => r.2.sendTo h.srcCard (h.addr >>> 12) h.tc (r.2.replyBits h a) (16 + a.len) a.bad

/-- The packet that a port delivers next: its value, its bytes, its poison. -/
def State.rxTake (s : State) (p : Nat) : Option (Nat × Nat × Bool) × State :=
  match (s.port p).got with
  | [] => (none, s)
  | k :: rest => (some k, s.setPort p { s.port p with got := rest })

/-- A delivered request with opcode op; one with a reserved opcode is taken by any. -/
def State.inbound (s : State) (p op : Nat) : State :=
  let q := s.rxTake p
  match q.1 with
  | none => s
  | some (v, _, bad) =>
    let c := bits v 0 8
    if c = op ∨ (c ≠ 0x80 ∧ !(fabOpcodes.contains c)) then (q.2.bump64 FAB_RX_REQ_CNT 1).serveAndReply v bad
    else s

def execLdRequest (port : Fin 25) (s : State) : Host.Outcome State Fault Refusal := .next (s.inbound port.val 0x01)
def execStRequest (port : Fin 25) (s : State) : Host.Outcome State Fault Refusal := .next (s.inbound port.val 0x02)
def execSwap (port : Fin 25) (s : State) : Host.Outcome State Fault Refusal := .next (s.inbound port.val 0x10)
def execCas (port : Fin 25) (s : State) : Host.Outcome State Fault Refusal := .next (s.inbound port.val 0x11)
def execFaddI64 (port : Fin 25) (s : State) : Host.Outcome State Fault Refusal := .next (s.inbound port.val 0x12)
def execAddI64 (port : Fin 25) (s : State) : Host.Outcome State Fault Refusal := .next (s.inbound port.val 0x13)
def execAddRec (port : Fin 25) (s : State) : Host.Outcome State Fault Refusal := .next (s.inbound port.val 0x14)
def execAddF32 (port : Fin 25) (s : State) : Host.Outcome State Fault Refusal := .next (s.inbound port.val 0x15)
def execDispatch (port : Fin 25) (s : State) : Host.Outcome State Fault Refusal := .next (s.inbound port.val 0x20)
def execCombine (port : Fin 25) (s : State) : Host.Outcome State Fault Refusal := .next (s.inbound port.val 0x21)
def execEpochNote (port : Fin 25) (s : State) : Host.Outcome State Fault Refusal := .next (s.inbound port.val 0x22)

/-! ### Replies, timeouts, tags (R297, R298) -/

/-- The record that the hub builds from a refusal of a DISPATCH or COMBINE of its own (R206); those of threads, transfers and
program loads follow where their unit takes the reply. -/
def State.hubRefused (s : State) (r : FabReq) (st : Nat) : State :=
  match r.owner with
  | .dispatch _ _ | .combine _ _ =>
    if st = stFaultAccess then
      s.charge { addr := globalAddr r.card r.part r.addr, status := st, cause := cRemoteRefused, kind := 1, unit := uGateway,
                 elastic := !r.timed, inst := r.inst, gen := r.gen, part := r.srcPart.getD 0 }
    else s
  | _ => s

/-- A reply with its header and data as one number. -/
def State.reply1 (s : State) (v : Nat) (poison : Bool) : State :=
  let t := bits v 32 17
  let st := if poison then stPoison else bits v 8 8
  match Tbl.get none s.fab.tags t with
  | none => (s.bump FAB_LATE_CNT).event FAB_EVENT 1
  | some u =>
    if u.quarantined ∨ bits v 64 16 ≠ u.req.gen % 65536 then (s.bump FAB_LATE_CNT).event FAB_EVENT 1
    else
      let kept := match u.req.owner with
        | .dispatch _ _ => st == stOk || st == stRefusedCapacity
        | _ => false
      let a : Arrived := { status := st, cause := if st = stFaultAccess then cRemoteRefused else 0, data := bits (v >>> 128) 0 (8 * bits v 16 15) }
      if u.req.inst ≠ noInst ∧ u.req.gen ≠ s.instGen u.req.inst then (s.holdTag t none).bump XLT_STALE_CNT
      else ((if kept then s else s.holdTag t none).hubRefused u.req st).fabDone u.req.owner a

/-- A reply arrives at the requester. -/
def execFabricReply (port : Fin 25) (s : State) : Host.Outcome State Fault Refusal :=
  let q := s.rxTake port.val
  .next (match q.1 with
  | none => s
  | some (v, _, bad) => if bits v 0 8 = 0x80 then q.2.reply1 v bad else s)

/-- Serve the packed requests of a frame in order, packing their replies; or deliver its packed replies. rep: the replies
so far and their bytes. -/
def State.frameRun (s : State) (poison : Bool) : Nat → Nat → Nat → Nat × Nat → (Nat × Nat) × State
  | 0, _, _, rep => (rep, s)
  | fuel + 1, v, n, rep =>
    if n < 16 then (rep, s)
    else if bits v 0 8 = 0x80 then
      let m := 16 + bits v 16 15
      (s.reply1 (bits v 0 (8 * m)) poison).frameRun poison fuel (v >>> (8 * m)) (n - m) rep
    else
      let h := ReqHdr.ofNat (bits v 0 256)
      let m := 32 + (if h.op = 1 then 0 else h.len)
      let r := s.serve (bits v 0 (8 * m)) poison
      let rep := match r.1 with
        | none => rep
        | some a => (rep.1 + (r.2.replyBits h a) <<< (8 * rep.2), rep.2 + 16 + a.len)
      r.2.frameRun poison fuel (v >>> (8 * m)) (n - m) rep

/-- R301: an inbound gateway frame is unpacked; the replies go back in a BULK frame. -/
def execBulk (port : Fin 25) (s : State) : Host.Outcome State Fault Refusal :=
  let q := s.rxTake port.val
  .next (match q.1 with
  | none => s
  | some (v, _, bad) =>
    let h := ReqHdr.ofNat (bits v 0 256)
    if h.op ≠ 0x30 then s
    else
      let s := q.2.bump64 FAB_RX_REQ_CNT 1
      if h.card ≠ s.ownCard then (s.bump FAB_MISROUTE_CNT).event FAB_EVENT 3
      else if h.rsvd ∨ opShape 0x30 h.len h.addr = false then s.fabState 0x30
      else
        let r := s.frameRun bad 256 (v >>> 256) h.len (0, 0)
        if r.1.2 = 0 then r.2
        else
          let f : FabReq := { op := 0x30, card := h.srcCard, part := 0, addr := 0, len := r.1.2, owner := .note, inst := noInst,
                              gen := 0, timed := h.tc, srcPart := some 0 }
          r.2.sendTo h.srcCard 0 h.tc (r.2.reqHeader 0 f + r.1.1 <<< 256) (32 + r.1.2) (if bad then [0] else []))

/-- Is a waiting request of a stale generation (R300)? -/
def State.staleReq (s : State) (r : FabReq) : Bool := r.inst != noInst && r.gen != s.instGen r.inst

/-- Drop waiting requests of stale generations, and those in gateway input queues, with their tags (R300). -/
def State.dropStale (s : State) : State :=
  let gone := (s.fab.waiting.filter s.staleReq).length
  let s := { s with fab := { s.fab with waiting := s.fab.waiting.filter (fun r => !(s.staleReq r)) } }
  let s := s.bumpFld FAB_STALE_CNT 0 32 gone
  (List.range 4).foldl (fun (s : State) g =>
    let x := s.gateway g
    let out := x.queue.filter (fun e => s.staleReq e.2)
    let s := out.foldl (fun (s : State) e => match e.1 with | some t => s.holdTag t none | none => s) s
    (s.setGateway g { x with queue := x.queue.filter (fun e => !(s.staleReq e.2)) }).bumpFld FAB_STALE_CNT 0 32 out.length) s

/-- The next of a list by class, then by round robin over requesting units from ptr on (R297). -/
def nextRequest (ptr : Nat) (unit : FabReq → Nat) (ok : FabReq → Bool) (rs : List FabReq) : Option (Nat × FabReq) :=
  match findIdx? (fun r => r.timed && ok r) rs with
  | some r => some r
  | none => (List.range 70).findSome? (fun k => findIdx? (fun r => ok r && unit r == (ptr + k) % 70) rs)

/-- R297: a waiting request is granted a tag and sent; a class 2 request that holds an input-queue entry gets its tag. -/
def execTagGrant (s : State) : Host.Outcome State Fault Refusal :=
  let s := s.dropStale
  .next (match nextRequest s.fab.rr (·.unit) (fun r => !(s.throughGateway r.card) && s.tagOk r) s.fab.waiting with
  | some (k, r) =>
    let s := { s with fab := { s.fab with waiting := eraseAt s.fab.waiting k, rr := (r.unit + 1) % 70 } }
    if s.unreachable r.card then ((s.bump FAB_UNREACH_CNT).event FAB_EVENT 2).fabDone r.owner { status := stRetired }
    else
      let t := s.fab.freeTag
      (s.fabSend t r).noteTag r.owner t
  | none =>
    match (List.range 4).findSome? (fun g => (findIdx? (fun (e : Option Nat × FabReq) => e.1.isNone && s.tagOk e.2) (s.gateway g).queue).map (fun q => (g, q))) with
    | some (g, (k, e)) =>
      let t := s.fab.freeTag
      let x := s.gateway g
      let s := s.holdTag t (some { req := e.2 })
      let s := s.setGateway g { x with queue := x.queue.modify k (fun e => (some t, e.2)) }
      (s.noteTag e.2.owner t).gwPack g 1024
    | none => s)

/-- R301: a class 2 request that waits for an entry of a gateway's input queue is granted one. -/
def execGwEntryGrant (gw : Fin 4) (s : State) : Host.Outcome State Fault Refusal :=
  let s := s.dropStale
  .next (if 512 ≤ (s.gateway gw.val).queue.length then s
  else match nextRequest s.fab.rr (·.unit) (fun r => s.throughGateway r.card && gatewayOf r.card == gw.val) s.fab.waiting with
    | some (k, r) =>
      { s with fab := { s.fab with waiting := eraseAt s.fab.waiting k, rr := (r.unit + 1) % 70 } }.gwEnter r
    | none => s)

/-- R298: a request's reply has not arrived in time. -/
def execFabricTimeout (tag : Fin 131072) (s : State) : Host.Outcome State Fault Refusal :=
  let t := tag.val
  .next (match Tbl.get none s.fab.tags t with
  | none => s
  | some u =>
    if u.quarantined then s
    else
      let s := s.holdTag t (some { u with quarantined := true })
      ((s.bump FAB_TIMEOUT_CNT).event FAB_EVENT 0).fabDone u.req.owner { status := stRetired })

def execTagQuarantineEnd (tag : Fin 131072) (s : State) : Host.Outcome State Fault Refusal :=
  .next (match Tbl.get none s.fab.tags tag.val with
  | some u => if u.quarantined then s.holdTag tag.val none else s
  | none => s)

/-- R301: the window of a card's open frame expires, or the frame is full. -/
def execGwFrameSend (gw : Fin 4) (card : Fin 4096) (s : State) : Host.Outcome State Fault Refusal :=
  .next ((s.gwSend gw.val card.val).gwPack gw.val 1024)

/-! ### The dispatch unit (R305, R306) -/

/-- Does a writer own a ring's page, or is it a management core? -/
def State.mapped (s : State) (wr : Writer) (owner a : Nat) (f : State → State) : State :=
  match wr with
  | .mc => f s
  | .host i => if i.val = owner then f s else s.privilege i.val a

/-- R305: a write of FAB_XR_TAIL[r]. -/
def execFabXrTailWrite (wr : Writer) (ring : Fin 64) (tail : BitVec 8) (s : State) : Host.Outcome State Fault Refusal :=
  let r := ring.val
  .next (s.mapped wr (s.fld (FAB_XR_CFG r) 1 9) (FAB_XR_TAIL r) (fun s =>
    let head := s.fld (FAB_XR_HEAD r) 0 8
    let old := s.fld (FAB_XR_TAIL r) 0 8
    let posted (t : Nat) : Nat := (t + 256 - head) % 256
    if posted tail.toNat < posted old then s.refuseReg (FAB_XR_TAIL r)
    else (s.setFld (FAB_XR_TAIL r) 0 8 tail.toNat).answer stOk))

/-- Reserved bits, mode and length rules of an entry (R306, step 1). -/
def dispBad (v : Nat) (specOk : Bool) : Bool :=
  bits v 61 2 != 0 || bits v 208 16 != 0 || bits v 305 7 != 0 || bits v 376 136 != 0 || bits v 49 2 == 3
    || bits v 192 16 % 64 != 0 || decide (4096 < bits v 192 16) || bits v 352 24 % 64 != 0 || decide (131072 < bits v 352 24)
    || (bit v 48 && !specOk)

/-- The ring to read next: timed-class rings first, then round robin. -/
def State.nextRing (s : State) : Option Nat :=
  let ready (r : Nat) : Bool := s.fld (FAB_XR_CFG r) 0 1 == 1 && s.fld (FAB_XR_HEAD r) 0 8 != s.fld (FAB_XR_TAIL r) 0 8
  let order := (List.range 64).map (fun k => (s.fab.ringPtr + k) % 64)
  match order.find? (fun r => ready r && s.fld (FAB_XR_CFG r) 21 1 == 1) with
  | some r => some r
  | none => order.find? ready

/-- The head moves past an entry. -/
def State.ringAdvance (s : State) (r : Nat) : State :=
  let s := s.setFld (FAB_XR_HEAD r) 0 8 (s.fld (FAB_XR_HEAD r) 0 8 + 1)
  { s with fab := { s.fab with ringPtr := (r + 1) % 64 } }

/-- An entry that meets a fault of its owner's addresses. -/
def State.ringFault (s : State) (r e status cause level addr : Nat) : State :=
  let inst := s.fld (FAB_XR_CFG r) 1 9
  let s := s.charge { addr := addr, status := status, cause := cause, level := level, unit := uGateway, inst := inst,
                      gen := s.instGen inst }
  (s.ringAdvance r).ringDone r e status

/-- The 128-byte slot header a DISPATCH carries (Table 11.8). -/
def State.slotHeader (s : State) (r v tileBase : Nat) : Nat :=
  bits v 49 2 <<< 8 + (s.fld (FAB_XR_CFG r) 14 6) <<< 10 + (bits v 51 10) <<< 16 + s.ownCard <<< 32
    + (s.fld (FAB_XR_CFG r) 10 4) <<< 44 + (bits v 32 16) <<< 48 + (bits v 0 16) <<< 64 + (bits v 48 1) <<< 80
    + (bits v 64 32) <<< 96 + (bits v 96 32) <<< 128 + (bits v 192 16) <<< 160 + (bits v 352 24) <<< 192
    + (bits v 320 32) <<< 224 + tileBase <<< 288

/-- Step 6 of R306: the activation is read and the DISPATCH sent. -/
def State.sendDispatch (s : State) (r e v outA : Nat) (segs : List (Target × Nat)) (lv : Nat) : State :=
  let inst := s.fld (FAB_XR_CFG r) 1 9
  let grp := s.fld (FAB_XR_CFG r) 14 6
  let actLen := bits v 192 16
  let dir := s.reg (FAB_XDIR (bits v 0 16) 0) + (s.reg (FAB_XDIR (bits v 0 16) 1)) <<< 64
  let q := s.readSegs inst uGateway none 0 segs
  match q.1 with
  | .wait => (q.2.ringAdvance r).ringDone r e stState
  | .stop st c => q.2.ringFault r e st c lv (bits v 128 64)
  | .ok act bad =>
    let s := q.2.ringAdvance r
    if bad.isEmpty = false then s.ringDone r e stPoison
    else
      let timed := s.fld (FAB_XR_CFG r) 21 1 == 1
      let req : FabReq :=
        { op := 0x20, card := bits dir 4 12, part := bits dir 16 4, addr := outA, len := 128 + actLen,
          payload := s.slotHeader r v (bits dir 32 48) + act <<< 1024, owner := .dispatch r e, inst := inst,
          gen := s.instGen inst, timed := timed, uo := true, spec := bit v 48, epoch := bits v 32 16, grp := grp,
          flow := bits v 0 16, srcPart := some (s.fld (FAB_XR_CFG r) 10 4), unit := 68 }
      let d : Disp :=
        { ring := r, entry := e, inst := inst, req := req, outGlobal := outA, mode := bits v 49 2, spec := bit v 48,
          epoch := bits v 32 16, grp := grp, step := bits v 320 32, outLen := bits v 352 24, evt := bits v 288 8,
          lc := bits v 296 9, sentNs := s.nowNs }
      let set := Tbl.get [] s.brs.cards r
      let mark := req.card + 4096 * req.part
      let s := if bit v 48 ∧ !(set.any (fun m => m % 4096 == req.card)) then
          { s with brs := { s.brs with cards := Tbl.put [] s.brs.cards r (set ++ [mark]) } } else s
      (s.setDisp r e (some d)).hubIssue req

/-- R306: the dispatch unit reads the next posted entry and checks it. -/
def execDispatchRingRead (s : State) : Host.Outcome State Fault Refusal :=
  .next (match s.nextRing with
  | none => s
  | some r =>
    let e := s.fld (FAB_XR_HEAD r) 0 8
    let v := s.ringEnt r e
    let cfg := s.reg (FAB_XR_CFG r)
    let inst := bits cfg 1 9
    let dir := s.reg (FAB_XDIR (bits v 0 16) 0)
    let done (s : State) (st : Nat) : State := (s.ringAdvance r).ringDone r e st
    if dispBad v (bit cfg 20) then done (s.fabState 0x20) stState
    else if bits v 192 16 = 0 ∨ bits v 352 24 = 0 then done s stNop
    else if bit dir 0 = false then s.ringFault r e stFaultXlat cUnmapped 0 (bits v 128 64)
    else if bits dir 20 4 ≠ bits cfg 10 4 then s.ringFault r e stFaultAccess cWrongOwner 0 (bits v 128 64)
    else
      let a := s.span .hub inst .read (bit cfg 21) 3 (bits v 128 64) (bits v 192 16)
      match a.1 with
      | .miss => a.2
      | .fault st c l va => a.2.ringFault r e st c l va
      | .ok segs sl =>
        let b := a.2.span .hub inst .write (bit cfg 21) 4 (bits v 224 64) (bits v 352 24)
        match b.1 with
        | .miss => b.2
        | .fault st c l va => if c = cPermW ∧ st = stFaultAccess then done (b.2.fabState 0x20) stState else b.2.ringFault r e st c l va
        | .ok outs _ =>
          let at' := b.2.span .hub inst .atom (bit cfg 21) 4 (bits v 224 64) (bits v 352 24)
          match at'.1, outs with
          | .miss, _ => at'.2
          | .ok _ _, (.local o, _) :: _ =>
            let ep := Tbl.get 0 at'.2.epochs (epochKey (bits cfg 14 6) (bits v 32 16)) % 4
            if bit v 48 ∧ (ep = 3 ∨ ep = 0) then done (at'.2.bump FAB_SPEC_DISCARD_CNT) stSpecDiscard
            else at'.2.sendDispatch r e v o segs sl
          | _, _ => done (at'.2.fabState 0x20) stState)

/-- R306: retry_ns after a refusal the DISPATCH is sent again. -/
def execDispatchRetry (ring : Fin 64) (entry : Fin 256) (s : State) : Host.Outcome State Fault Refusal :=
  let r := ring.val
  let e := entry.val
  .next (match s.dispAt r e, s.dispTag r e with
  | some d, some t =>
    if d.waiting then
      let s := (s.setDisp r e (some { d with waiting := false, retries := d.retries + 1 })).bump FAB_XD_RETRY_CNT
      if s.unreachable d.req.card then ((s.bump FAB_UNREACH_CNT).event FAB_EVENT 2).dispEnd r e stRetired
      else if s.throughGateway d.req.card then
        let g := gatewayOf d.req.card
        (s.setGateway g { s.gateway g with queue := (s.gateway g).queue ++ [(some t, d.req)] }).gwPack g 1024
      else s.fabSend t d.req
    else s
  | _, _ => s)

/-- R306: an entry whose COMBINEs have been performed over all its bytes completes, if it has not yet. -/
def execDispatchEntryComplete (ring : Fin 64) (entry : Fin 256) (s : State) : Host.Outcome State Fault Refusal :=
  let r := ring.val
  let e := entry.val
  .next (match s.dispAt r e with
  | some d => if d.outLen ≤ d.pieces.foldl (fun k p => k + p.len) 0 then s.dispEnd r e (piecesStatus d.pieces) else s
  | none => s)

/-! ### The expert's side (R307) -/

/-- May a reader or writer use an inbox's page: a management core, or an instance of the inbox's partition? -/
def State.inboxPage (s : State) (wr : Writer) (i a : Nat) (f : State → State) : State :=
  match wr with
  | .mc => f s
  | .host k => if s.instPart k.val = s.fld (FAB_XI_CFG i) 1 4 ∧ s.instValid k.val then f s else s.privilege k.val a

/-- A read of FAB_XI_NEXT[i]: the oldest READY slot, which becomes TAKEN. -/
def execFabXiNext (wr : Writer) (inbox : Fin 64) (s : State) : Host.Outcome State Fault Refusal :=
  let i := inbox.val
  .next (s.inboxPage wr i (FAB_XI_NEXT i) (fun s =>
    match Tbl.get [] s.fab.arrived i with
    | [] => s.answer stOk 0 [0xFFFF]
    | k :: rest =>
      let s := { s with fab := { s.fab with arrived := Tbl.put [] s.fab.arrived i rest } }
      (s.setSlot i k 2).answer stOk 0 [k]))

/-- An FP32 element on the mode 1 grid: floor(x × 2^−anchor + 0.5), saturated; a NaN has no stated result and gives a free
value. -/
def gridI64 (anchor : Int) (x free : Nat) : Nat × Bool :=
  match (fp32 x).scale (-anchor) with
  | .fin neg m e =>
    let i := finRoundHalfUp neg m e
    let c := clampInt (-(2 ^ 63)) (2 ^ 63 - 1) i
    (ofSigned 64 c, i != c)
  | .inf neg => (ofSigned 64 (if neg then -(2 ^ 63) else 2 ^ 63 - 1), true)
  | .nan => (free % 2 ^ 64, false)

/-- n elements on the grid: the bytes, and whether one saturated. -/
def gridRow (anchor : Int) (free : Nat → Nat) : Nat → Nat → Nat × Bool
  | 0, _ => (0, false)
  | n + 1, v =>
    let a := gridI64 anchor (v % 2 ^ 32) (free n)
    let r := gridRow anchor free n (v >>> 32)
    (a.1 + r.1 <<< 64, a.2 || r.2)

/-- The 32-byte slots of a COMBINE whose result bytes, n from off on, carry a poison tag: in mode 1 an element of 8 bytes comes from
4 of the slot's. -/
def State.xiBad (s : State) (i k hdr off n : Nat) : List Nat :=
  let a := s.slotAddr i k + 128 + bits hdr 160 32
  let w := if bits hdr 8 2 = 1 then 2 else 1
  ((List.range (ceilDiv n 32)).filter (fun j =>
    (s.devLoad (a + (off + 32 * j) / w) (min 32 (n - 32 * j) / w)).2)).map (· + 1)

/-- The COMBINEs of a result: one for each 4 KiB page of out_global that it touches, in ascending order. -/
def State.sendCombines (s : State) (i k hdr outA v : Nat) : Nat → Nat → State
  | 0, _ => s
  | fuel + 1, off =>
    let len := bits hdr 192 32
    if len ≤ off then s
    else
      let n := min (len - off) (4096 - (outA + off) % 4096)
      let pay := bits hdr 256 17 + (bits hdr 8 2) <<< 17 + (bits hdr 80 1) <<< 19 + (bits hdr 48 16) <<< 20 + (bits hdr 10 6) <<< 36
        + (bits hdr 224 32) <<< 42 + off <<< 74 + (bits v (8 * off) (8 * n)) <<< 256
      let p := s.fld (FAB_XI_CFG i) 1 4
      let req : FabReq :=
        { op := 0x21, card := bits hdr 32 12, part := bits hdr 44 4, addr := outA + off, len := 32 + n, payload := pay,
          owner := .combine i k, inst := noInst, gen := 0, timed := s.partTimed p, uo := true, spec := bit hdr 80,
          epoch := bits hdr 48 16, grp := bits hdr 10 6, flow := outA >>> 12, srcPart := some p, unit := 68,
          bad := s.xiBad i k hdr off n }
      (s.hubIssue req).sendCombines i k hdr outA v fuel (off + n)

/-- Pages that n bytes from a touch. -/
def pagesOf (a n : Nat) : Nat := (granules 4096 a n).length

/-- The result bytes that a slot's COMBINEs carry: in mode 1 its FP32 elements on the grid, an element that saturates noted in the slot's
header; else as they stand. -/
def State.xiResult (s : State) (i k hdr : Nat) : Nat × State :=
  let len := bits hdr 192 32
  let a := s.slotAddr i k + 128 + bits hdr 160 32
  if bits hdr 8 2 = 1 then
    let raw := (s.devLoad a (len / 2)).1
    let f := (s.devChecked a (len / 2)).fresh
    let g := gridRow (toSigned 10 (bits hdr 16 10)) (fun n => Config.freeNat (f.1 + n)) (len / 8) raw
    (g.1, if g.2 then f.2.devWrite (s.slotAddr i k + 3) 1 (bits hdr 24 8 ||| 4) else f.2)
  else ((s.devLoad a len).1, s.devChecked a len)

/-- R307: a slot's result is sent: SENDING, its COMBINEs noted and issued. -/
def State.xiSend (s : State) (i k : Nat) : State :=
  let hdr := s.slotHdr i k
  let outA := Tbl.get 0 s.fab.outs (slotKey i k)
  let q := ((s.devChecked (s.slotAddr i k) 128).setSlot i k 3).xiResult i k hdr
  let s := q.2
  let s := { s with fab := { s.fab with combining := s.fab.combining ++
    [({ inbox := i, slot := k, left := pagesOf outA (bits hdr 192 32) } : Combining)] } }
  s.sendCombines i k hdr outA q.1 40 0

/-- R307: a write of FAB_XI_DONE[i]: the slot's result leaves as COMBINEs; a CANCELLED slot is freed. -/
def execFabXiDone (wr : Writer) (inbox : Fin 64) (slot : BitVec 16) (s : State) : Host.Outcome State Fault Refusal :=
  let i := inbox.val
  let k := slot.toNat
  .next (s.inboxPage wr i (FAB_XI_DONE i) (fun s =>
    let st := if k < s.fld (FAB_XI_CFG i) 25 12 then s.slotState i k else 0
    if st = 4 then (s.slotFree i k).answer stOk
    else if st ≠ 2 then s.refuseReg (FAB_XI_DONE i)
    else (s.xiSend i k).answer stOk))

/-- R307: a slot whose COMBINEs have all completed is freed. -/
def execInboxSlotFree (inbox : Fin 64) (slot : Fin 4096) (s : State) : Host.Outcome State Fault Refusal :=
  .next (if s.fab.combining.any (fun c => c.inbox == inbox.val && c.slot == slot.val && c.left == 0) then
      s.slotFree inbox.val slot.val else s)

/-! ### Gateway descriptors (R302, R303) -/

def State.gwQueue (s : State) (i : Nat) : DmaQ := Tbl.get ({} : DmaQ) s.fab.gwq i
def State.setGwQueue (s : State) (i : Nat) (q : DmaQ) : State :=
  { s with fab := { s.fab with gwq := Tbl.put ({} : DmaQ) s.fab.gwq i q } }

/-- Fields of a gateway descriptor. -/
def gwLocal (d : Nat) : Nat := bits d 64 64
def gwRemote (d : Nat) : Nat := bits d 128 64
def gwLen (d : Nat) : Nat := bits d 192 32
def gwCmpl (d : Nat) : Nat := bits d 224 64

/-- Reserved bits of a gateway descriptor. -/
def gwReserved (d : Nat) : Bool :=
  bits d 10 6 != 0 || bits d 48 16 != 0 || bits d 288 224 != 0 || (bits d 0 8 != 1 && bits d 0 8 != 2)

def isFabric : Target → Bool
  | .fabric _ _ _ => true
  | .local _ => false

/-- End a gateway job. -/
def State.gwEnd (s : State) (i status cause : Nat) : State :=
  let q := s.gwQueue i
  match findIdx? (fun (j : DmaJob) => !j.ended) q.jobs with
  | some (k, _) => s.setGwQueue i { q with jobs := q.jobs.modify k (fun j => { j with ended := true, status := status, cause := cause }) }
  | none => s

/-- A fault of a gateway job's addresses. -/
def State.gwFault (s : State) (i status cause level addr : Nat) (g : Option Nat := none) : State :=
  let f : FaultInfo := { addr := addr, status := status, cause := cause, level := level, unit := uGateway, inst := i, gen := s.instGen i }
  (s.charge (f.far g)).gwEnd i status cause

/-- Take the head of an instance's gateway queue into the job list, in the order of checks of R302. -/
def State.gwAccept (s : State) (i op : Nat) (bad : Bool) : State :=
  let q := s.gwQueue i
  match q.q.pop with
  | none => s
  | some (it, rest) =>
    let d := it.data
    let code := bits d 0 8
    if code ≠ op ∧ (code = 1 ∨ code = 2) then s
    else
      let job (st : Nat) (ended : Bool) : State :=
        s.setGwQueue i { q with q := rest, jobs := q.jobs ++ [{ desc := d, status := st, ended := ended }] }
      if bits d 32 16 ≠ q.gen then (s.setGwQueue i { q with q := rest }).bump FAB_STALE_CNT
      else if bad then (job stPoison true).countErr 21 (0x400 + i) 1
      else if gwReserved d then (job stState true).refuseLog 15 code i 0x1FF
      else if gwLen d = 0 then job stNop true
      else if gwLen d % 64 ≠ 0 ∨ gwLocal d % 64 ≠ 0 ∨ gwRemote d % 64 ≠ 0 ∨ gwCmpl d % 16 ≠ 0 then
        (job stState true).refuseLog 15 code i 0x1FF
      else job 0 false

/-- The next piece of the job in front: its offset and bytes, split at 4 KiB boundaries of the destination (R302). -/
def gwPiece (d done : Nat) : Nat :=
  let dst := (if bits d 0 8 = 1 then gwLocal d else gwRemote d) + done
  min (gwLen d - done) (4096 - dst % 4096)

/-- Move one piece. remote: what comes back for it. -/
def State.gwMove (s : State) (i : Nat) (j : DmaJob) (remote : PieceData) : State :=
  let d := j.desc
  let n := gwPiece d j.done
  let get := bits d 0 8 == 1
  let src := (if get then gwRemote d else gwLocal d) + j.done
  let dst := (if get then gwLocal d else gwRemote d) + j.done
  let timed := s.instTimed i
  let c := s.span .hub i .write timed 2 (gwCmpl d) 16
  let a := c.2.span .hub i .read timed 3 src n
  let b := a.2.span .hub i .write timed 3 dst n
  match c.1, a.1, b.1 with
  | .fault st k l v, _, _ => b.2.gwFault i st k l v
  | _, .fault st k l v, _ => b.2.gwFault i st k l v
  | _, _, .fault st k l v => b.2.gwFault i st k l v
  | .ok cs _, .ok ss ls, .ok ds ld =>
    let far := if get then ss else ds
    let near := if get then ds else ss
    if cs.any (fun t => isFabric t.1) ∨ near.any (fun t => isFabric t.1) ∨ far.any (fun t => !(isFabric t.1)) then
      (b.2.refuseLog 15 (bits d 0 8) i 0x1FF).gwEnd i stState 0
    else
      let r := b.2.readSegs i uGateway (some remote) 0 ss
      match r.1 with
      | .wait => r.2
      | .stop st k => if st = stFaultAccess then r.2.gwFault i st k ls src (ss.findSome? (fun t => t.1.global)) else r.2.gwEnd i st k
      | .ok v bad =>
        let w := r.2.writeSegs i uGateway timed bad 0 ds v
        let put : Option (Nat × Nat) :=
          if get then none
          else match remote with
            | .ok _ => none
            | .poisoned => some (stPoison, 0)
            | .abort => some (stRetired, 0)
            | .refused => some (stFaultAccess, cRemoteRefused)
        match w.1, put with
        | some (st, k), _ => if st = stFaultAccess then w.2.gwFault i st k ld dst else w.2.gwEnd i st k
        | none, some (st, k) =>
          if st = stFaultAccess then w.2.gwFault i st k ld dst (ds.findSome? (fun t => t.1.global)) else w.2.gwEnd i st k
        | none, none =>
          let q := w.2.gwQueue i
          let s := match findIdx? (fun (x : DmaJob) => !x.ended) q.jobs with
            | some (k, _) => w.2.setGwQueue i { q with jobs := q.jobs.modify k (fun x => { x with done := x.done + n }) }
            | none => w.2
          if bad.isEmpty = false then s.gwEnd i stPoison 0
          else if gwLen d ≤ j.done + n then s.gwEnd i stOk 0 else s
  | _, _, _ => b.2

/-- Serve an instance's gateway queue: accept the head when no job runs, then move one piece for each answer given. -/
def State.gwServe (s : State) (i op : Nat) (bad : Bool) (remote : List PieceData) : State :=
  let s := if (s.gwQueue i).jobs.any (fun j => !j.ended) then s else s.gwAccept i op bad
  remote.foldl (fun (s : State) r =>
    match (s.gwQueue i).jobs.find? (fun j => !j.ended) with
    | some j => if bits j.desc 0 8 = op then s.gwMove i j r else s
    | none => s) s

/-- GET (R302): remote to local. remote: what comes back for its pieces, in order. -/
def execGet (inst : Fin 512) (bad : Bool) (remote : List PieceData) (s : State) : Host.Outcome State Fault Refusal :=
  .next (s.gwServe inst.val 1 bad remote)

/-- PUT (R302): local to remote. -/
def execPut (inst : Fin 512) (bad : Bool) (remote : List PieceData) (s : State) : Host.Outcome State Fault Refusal :=
  .next (s.gwServe inst.val 2 bad remote)

/-- R303: what an instance reset does in the fabric block: unfinished descriptors end, unsent requests are dropped. -/
def State.gwReset (s : State) (i : Nat) : State :=
  let q := s.gwQueue i
  let dead := q.q.items.map (fun it => ({ desc := it.data, status := stAbortedReset, ended := true } : DmaJob))
  let jobs := q.jobs.map (fun (j : DmaJob) => if j.ended then j else { j with ended := true, status := stAbortedReset })
  (s.setGwQueue i { q := {}, gen := (q.gen + 1) % 65536, jobs := jobs ++ dead }).dropStale

end Sys2Proof.Machine
end

