-- ==== Sys2Proof/Machine/FhFrame.lean ====
section
/-!
DEFINITION. Machine/FhFrame.lean: the frames of the fronthaul (R371 to R377): headers in network byte order, O-RAN block
floating point of PRBs and beamforming weights. Layouts of eCPRI 2.0 and O-RAN CUS that the spec names and does not
restate are marked PRESUMED in the assumption log.
-/
namespace Sys2Proof.Machine

/-- The n bytes of v, most significant first. -/
def beBytes : Nat → Nat → List Nat
  | 0, _ => []
  | n + 1, v => (v / 256 ^ n) % 256 :: beBytes n v

/-- Bytes most significant first, as a number. -/
def beNat (l : List Nat) : Nat := l.foldl (fun n b => 256 * n + b % 256) 0

/-- Bytes in order of address, as a little-endian number, and back. -/
def leOf (l : List Nat) : Nat := l.foldr (fun b n => b % 256 + 256 * n) 0
def bytesOf (n v : Nat) : List Nat := tabulate n (fun i => bits v (8 * i) 8)

/-- Byte i of a list; 0 past its end. -/
def byteAt (l : List Nat) (i : Nat) : Nat := listGet 0 l i

/-- The big-endian field of n bytes at i. -/
def beAt (l : List Nat) (i n : Nat) : Nat := beNat ((List.range n).map (fun k => byteAt l (i + k)))

/-- Mantissas of width w, most significant bit first, in bytes; the last byte is filled with zeros. -/
def packBits (w : Nat) (ms : List Nat) : List Nat :=
  let v := ms.foldl (fun v m => v * 2 ^ w + m % 2 ^ w) 0
  let n := ceilDiv (w * ms.length) 8
  beBytes n (v * 2 ^ (8 * n - w * ms.length))

/-- Mantissa k of width w. -/
def unpackBits (w : Nat) (l : List Nat) (k : Nat) : Nat := (beNat l >>> (8 * l.length - w * (k + 1))) % 2 ^ w

/-- The components of n CI16 values: I then Q, little-endian. -/
def ci16s (raw n : Nat) : List Int := tabulate (2 * n) (fun k => toSigned 16 (bits raw (16 * k) 16))

/-- Components that compression saturates (R51). -/
def bfpSats (w e : Nat) (xs : List Int) : Nat :=
  (xs.filter (fun x =>
    let v := roundHalfUpShift x e
    decide (v < -(2 ^ (w - 1) : Nat)) || decide ((2 ^ (w - 1) : Nat) - 1 < v))).length

/-- One compressed block: its parameter byte and its mantissas; and the components that saturated. -/
def bfpBlock (w : Nat) (xs : List Int) : List Nat × Nat :=
  let c := bfpCompress w xs
  (c.1 :: packBits w c.2, bfpSats w c.1 xs)

/-! ### Headers -/

/-- The target's sub-port rate in Gb/s and its mtu (Table 14.1). -/
def State.fhSplit (s : State) (p : Nat) : Nat := s.fld (FH_PORT_CFG p) 0 2
def State.fhMtu (s : State) (p : Nat) : Nat := s.fld (FH_PORT_CFG p) 2 14
def State.fhRate (s : State) (t : Nat) : Nat := 200 / 2 ^ s.fhSplit (t / 4)

/-- Does target t have a sub-port (R367)? -/
def State.fhExists (s : State) (t : Nat) : Bool := decide (t < 32) && s.fhSplit (t / 4) != 3 && decide (t % 4 < 2 ^ s.fhSplit (t / 4))

/-- The state of target t: 0 DISABLED, 1 DOWN, 2 UP. -/
def State.fhState (s : State) (t : Nat) : Nat := s.fld (FH_PORT_STAT (t / 4)) (2 * (t % 4)) 2

/-- The source MAC of a sub-port. -/
def State.fhMac (s : State) (t : Nat) : Nat := (s.fld (FH_PORT_MAC (t / 4)) 0 48 + t % 4) % 2 ^ 48

/-- The Ethernet header of a cell's frames. -/
def State.ethHeader (s : State) (c : Nat) : List Nat :=
  let tag := if s.cellxFld c 63 1 = 1 then [0x81, 0x00] ++ beBytes 2 (s.cellxFld c 60 3 * 0x2000 + s.cellxFld c 48 12) else []
  beBytes 6 (s.cellxFld c 0 48) ++ beBytes 6 (s.fhMac (s.cellTarget c)) ++ tag ++ [0xAE, 0xFE]

/-- The eCPRI header with its message type, eAxC and sequence number; n: bytes that follow. -/
def ecpriHeader (ty eaxc seq n : Nat) : List Nat := [0x10, ty] ++ beBytes 2 (n + 4) ++ beBytes 2 eaxc ++ [seq % 256, 0x80]

/-- The key of a stream's sequence numbers: plane, target, eAxC. -/
def seqKey (plane target eaxc : Nat) : Nat := plane * 0x1000000 + target * 0x10000 + eaxc

/-- The next ecpriSeqid of an eAxC and plane (Table 14.3). -/
def State.nextSeq (s : State) (k : Nat) : Nat × State :=
  let n := Tbl.get 0 s.tm.seqOut k
  (n, { s with tm := { s.tm with seqOut := Tbl.put 0 s.tm.seqOut k ((n + 1) % 256) } })

/-- A frame of the hub's own is filled with zeros to 60 bytes before its FCS. -/
def padFrame (l : List Nat) : List Nat := l ++ List.replicate (60 - l.length) 0

/-! ### U-plane (R377) -/

/-- Fields of an egress descriptor (Table 14.4). -/
def egOp (d : Nat) : Nat := bits d 0 8
def egMcast (d : Nat) : Bool := bit d 8
def egCq (d : Nat) : Bool := bit d 9
def egTag (d : Nat) : Nat := bits d 16 16
def egGen (d : Nat) : Nat := bits d 32 16
def egQueue (d : Nat) : Nat := bits d 48 14
def egLaunch (d : Nat) : Nat := bits d 64 32
def egWin (d : Nat) : Nat := bits d 96 24
def egSrc (d : Nat) : Nat := bits d 128 48
def egLen (d : Nat) : Nat := bits d 192 16
def egCell (d : Nat) : Nat := bits d 208 8
def egStream (d : Nat) : Nat := bits d 216 7
def egFrameId (d : Nat) : Nat := bits d 224 8
def egSubframe (d : Nat) : Nat := bits d 232 4
def egSlot (d : Nat) : Nat := bits d 236 6
def egSymbol (d : Nat) : Nat := bits d 242 4
def egStart (d : Nat) : Nat := bits d 246 10
def egNum (d : Nat) : Nat := bits d 256 9
def egSection (d : Nat) : Nat := bits d 265 12

/-- Is the compression header left out on a port (ud_static)? -/
def State.udStatic (s : State) (t : Nat) : Bool := s.fld (FH_PORT_CFG (t / 4)) 16 1 == 1

/-- Bytes of a U-plane frame before its blocks, FCS counted, and of one block. -/
def State.uOverhead (s : State) (c : Nat) : Nat :=
  (s.ethHeader c).length + 8 + 4 + 4 + (if s.udStatic (s.cellTarget c) then 0 else 2) + 4
def uBlockBytes (w : Nat) : Nat := 1 + 3 * w

/-- Blocks that fit one frame. -/
def State.uFit (s : State) (c : Nat) : Nat :=
  (s.fhMtu (s.cellPort c) - s.uOverhead c) / uBlockBytes (s.cellWdl c)

/-- The cut of num blocks into messages of whole blocks: numPrbu holds 255 at most, or 0 for all of them. -/
def cutBlocks (per : Nat) : Nat → Nat → Nat → List (Nat × Nat)
  | 0, _, _ => []
  | fuel + 1, start, num =>
    if num = 0 then [] else (start, min per num) :: cutBlocks per fuel (start + min per num) (num - min per num)

def State.uMessages (s : State) (c start num all : Nat) : List (Nat × Nat) :=
  let fit := s.uFit c
  if num ≤ fit ∧ (num ≤ 255 ∨ num = all) then [(start, num)] else cutBlocks (min fit 255) (num + 1) start num

/-- One U-plane message: blocks start to start + num of the data, whose first block is first. -/
def State.uFrame (s : State) (d c seq raw first : Nat) (m : Nat × Nat) : List Nat × Nat :=
  let w := s.cellWdl c
  let bs := (List.range m.2).map (fun i => bfpBlock w ((ci16s (raw >>> (384 * (m.1 - first + i))) 12)))
  let sect := if s.cellMode c = 2 then 0xFFF else egSection d
  let hdr := [0x90, egFrameId d] ++ beBytes 2 (egSubframe d * 0x1000 + egSlot d * 0x40 + egSymbol d)
    ++ beBytes 3 (sect * 0x1000 + m.1) ++ [if 255 < m.2 then 0 else m.2]
    ++ (if s.udStatic (s.cellTarget c) then [] else [(w % 16) * 16 + 1, 0])
  let body := hdr ++ (bs.map (fun b => b.1)).flatten
  (padFrame (s.ethHeader c ++ ecpriHeader 0 (s.cellEaxc c + egStream d) seq body.length ++ body),
   bs.foldl (fun n b => n + b.2) 0)

/-- All messages of an UPLANE descriptor: bytes of each, components saturated, the sequence numbers used. -/
def State.uFrames (s : State) (d raw : Nat) : List (List Nat) × Nat × State :=
  let c := egCell d
  let k := seqKey 0 (s.cellTarget c) (s.cellEaxc c + egStream d)
  (s.uMessages c (egStart d) (egNum d) (s.cellBlocks c (egSlot d) (egSymbol d))).foldl (fun acc m =>
    let q := acc.2.2.nextSeq k
    let f := q.2.uFrame d c q.1 raw (egStart d) m
    (acc.1 ++ [f.1], acc.2.1 + f.2, q.2)) ([], 0, s)

/-! ### C-plane (R377, Table 14.3) -/

/-- One section extension from its first byte: an extension 1 with bfwCompMeth 1 has its weights compressed; any other is
copied. The answer: bytes used, bytes made, components saturated, whether another extension follows. -/
def extension (nW w : Nat) (l : List Nat) : Nat × List Nat × Nat × Bool :=
  let more := 128 ≤ byteAt l 0
  let used := 4 * max 1 (byteAt l 1)
  if byteAt l 0 % 128 = 1 ∧ byteAt l 2 % 16 = 1 then
    let xs := ci16s (leOf ((l.drop 4).take (4 * nW))) nW
    let b := bfpBlock w xs
    let body := [(w % 16) * 16 + 1] ++ b.1
    let words := ceilDiv (2 + body.length) 4
    (alignUp (4 + 4 * nW) 4, ([byteAt l 0, words % 256] ++ body) ++ List.replicate (4 * words - 2 - body.length) 0, b.2, more)
  else (used, l.take used, 0, more)

/-- The extensions of a section, and then the next sections: hdr: bytes of a section before its extensions. -/
def sections (hdr nW w : Nat) : Nat → Bool → List Nat → List Nat × Nat
  | 0, _, l => (l, 0)
  | fuel + 1, inExt, l =>
    if l.isEmpty then ([], 0)
    else if inExt then
      let e := extension nW w l
      let r := sections hdr nW w fuel e.2.2.2 (l.drop e.1)
      (e.2.1 ++ r.1, e.2.2.1 + r.2)
    else
      let r := sections hdr nW w fuel (decide (128 ≤ byteAt l 6)) (l.drop hdr)
      (l.take hdr ++ r.1, r.2)

/-- Section type of a C-plane body. -/
def sectionType (l : List Nat) : Nat := byteAt l 5

/-- A C-plane body with its weights compressed, and the components saturated. -/
def State.cBody (s : State) (c : Nat) (l : List Nat) : List Nat × Nat :=
  let n := if sectionType l = 3 then 12 else 8
  let r := sections n (s.cellSdl c) (s.cellxFld c 64 5) l.length false (l.drop n)
  (l.take n ++ r.1, r.2)

/-- The frame of a CPLANE descriptor. -/
def State.cFrame (s : State) (d : Nat) (l : List Nat) : List Nat × Nat × State :=
  let c := egCell d
  let e := s.cellEaxc c + egStream d
  let q := s.nextSeq (seqKey 1 (s.cellTarget c) e)
  let b := s.cBody c l
  (padFrame (s.ethHeader c ++ ecpriHeader 2 e q.1 b.1.length ++ b.1), b.2, q.2)

end Sys2Proof.Machine
end

