-- ==== Sys2Proof/Machine/Tm.lean ====
section
/-!
DEFINITION. Machine/Tm.lean: the traffic manager (R376 to R396): enqueue windows, the packet buffer, queues, scheduler,
shapers, egress gate lists, host rings.
-/
namespace Sys2Proof.Machine

/-! ### The packet buffer (R391) -/

def tmCells (n : Nat) : Nat := ceilDiv n 256

/-- Live buffers. -/
def State.tmLive (s : State) : List TmBuf := s.tm.bufs.filterMap (fun b => b.2)

def State.tmReserve (s : State) : Nat := s.fld TM_BUF_CFG 0 18
def State.tmReserveUsed (s : State) : Nat := s.tmLive.foldl (fun n b => n + b.reserve) 0
def State.tmSharedUsed (s : State) : Nat := s.tmLive.foldl (fun n b => n + (b.cells - b.reserve)) 0
def State.tmSharedFree (s : State) : Nat := 196608 - s.tmReserve - s.tmSharedUsed

/-- TM_BUF_STAT follows the buffers. -/
def State.tmBufSync (s : State) : State :=
  let used := s.tmLive.foldl (fun n b => n + b.cells) 0
  let timed := (s.tmLive.filter (fun b => b.timed)).foldl (fun n b => n + b.cells) 0
  (s.setFld TM_BUF_STAT 0 18 (196608 - used)).setFld TM_BUF_STAT 18 18 timed

/-- Cells from the timed reserve that a request for n cells takes, where it is granted. -/
def State.tmCan (s : State) (timed yellow : Bool) (target n : Nat) : Option Nat :=
  if timed then
    let r := min n (s.tmReserve - s.tmReserveUsed)
    if n - r ≤ s.tmSharedFree then some r else none
  else
    let mine := (s.tmLive.filter (fun b => b.target == target)).foldl (fun m b => m + (b.cells - b.reserve)) 0
    if n ≤ s.tmSharedFree ∧ 8 * (mine + n) ≤ s.fld TM_BUF_CFG 18 6 * s.tmSharedFree
      ∧ (yellow = false ∨ s.tmSharedUsed < s.fld TM_BUF_CFG 24 18) then some 0
    else none

/-- Take a buffer for a frame of len bytes, FCS counted, held by refs frames: its number. -/
def State.tmTake (s : State) (timed yellow : Bool) (target len refs : Nat) : Option (Nat × State) :=
  (s.tmCan timed yellow target (tmCells len)).map (fun r =>
    let id := s.tm.next
    let b : TmBuf := { cells := tmCells len, reserve := r, target := target, timed := timed, refs := refs }
    (id, { s with tm := { s.tm with bufs := Tbl.put none s.tm.bufs id (some b), next := id + 1 } }.tmBufSync))

/-- A frame lets go of its buffer. -/
def State.tmRelease (s : State) (id : Nat) : State :=
  match Tbl.get none s.tm.bufs id with
  | none => s
  | some b =>
    let b' := if b.refs ≤ 1 then none else some { b with refs := b.refs - 1 }
    { s with tm := { s.tm with bufs := Tbl.put none s.tm.bufs id b' } }.tmBufSync

/-! ### Queues and nodes (R382, R383) -/

def State.fhN (s : State) : Nat := s.fld TM_QSPLIT 0 14
def State.hostN (s : State) : Nat := s.fld TM_QSPLIT 14 14

def State.qEn (s : State) (q : Nat) : Bool := s.fld (TM_QCFG q) 0 1 == 1
def State.qLaunch (s : State) (q : Nat) : Bool := s.fld (TM_QCFG q) 1 1 == 1
def State.qNode (s : State) (q : Nat) : Nat := s.fld (TM_QCFG q) 2 10
def State.qMax (s : State) (q : Nat) : Nat := s.fld (TM_QCFG q) 25 12
def State.qPart (s : State) (q : Nat) : Nat := s.fld (TM_QCFG q) 37 4
def State.qQuantum (s : State) (q : Nat) : Nat := s.fld (TM_QCFG q) 41 8
def State.qInst (s : State) (q : Nat) : Nat := s.fld (TM_QCFG q) 49 9
def State.nodeTarget (s : State) (n : Nat) : Nat := s.fld (TM_NODE n) 1 6
def State.nodeClass (s : State) (n : Nat) : Nat := s.fld (TM_NODE n) 7 3
def State.nodeWeight (s : State) (n : Nat) : Nat := s.fld (TM_NODE n) 10 16
def State.qTarget (s : State) (q : Nat) : Nat := s.nodeTarget (s.qNode q)

def State.tmQ (s : State) (q : Nat) : List TmFrame := Tbl.get [] s.tm.queues q
def State.tmNode (s : State) (n : Nat) : TmNode := Tbl.get ({} : TmNode) s.tm.nodes n
def State.setTmNode (s : State) (n : Nat) (x : TmNode) : State := { s with tm := { s.tm with nodes := Tbl.put ({} : TmNode) s.tm.nodes n x } }
def State.setTmQ (s : State) (q : Nat) (l : List TmFrame) : State := { s with tm := { s.tm with queues := Tbl.put [] s.tm.queues q l } }

/-- TM_QSTAT follows the queue. -/
def State.tmQSync (s : State) (q : Nat) : State :=
  let l := s.tmQ q
  (s.setFld (TM_QSTAT q) 0 13 l.length).setFld (TM_QSTAT q) 13 18 (l.foldl (fun n f => n + tmCells (f.len + 4)) 0)

/-- A frame enters its queue, and the queue its node's ring. -/
def State.tmEnqueue (s : State) (q : Nat) (f : TmFrame) : State :=
  let n := s.qNode q
  let x := s.tmNode n
  let s := if x.ring.contains q then s else s.setTmNode n { x with ring := x.ring ++ [q] }
  (s.setTmQ q (s.tmQ q ++ [f])).tmQSync q

/-- A queue that became empty leaves its node's ring; the node's place stays on the queue that follows. -/
def TmNode.remove (x : TmNode) (q : Nat) : TmNode :=
  match findIdx? (fun r => r == q) x.ring with
  | none => x
  | some (i, _) =>
    let ring := eraseAt x.ring i
    { x with ring := ring, cur := (if i < x.cur then x.cur - 1 else x.cur) % max 1 ring.length, backlogged := x.backlogged && !ring.isEmpty }

/-- Frame k leaves queue q. -/
def State.tmLeave (s : State) (q k : Nat) : State :=
  let l := eraseAt (s.tmQ q) k
  let s := s.setTmQ q l
  let s := if l.isEmpty then
      let s := s.setTmNode (s.qNode q) ((s.tmNode (s.qNode q)).remove q)
      { s with tm := { s.tm with deficit := Tbl.put 0 s.tm.deficit q 0 } }
    else s
  s.tmQSync q

/-! ### Descriptors and their completion (R379, R381) -/

def State.tmOutstanding (s : State) (e : Nat) : Nat := (s.tm.jobs.filter (fun j => j.win == e)).length
def State.tmWin (s : State) (e : Nat) : Carafe := Tbl.get {} s.tm.wins e
def State.tmOwner (s : State) (e : Nat) : Nat := s.fld (TM_ENQ_CFG e) 1 9
def State.tmPart (s : State) (e : Nat) : Nat := s.fld (TM_ENQ_CFG e) 10 4

/-- TM_ENQ_STAT follows the window. -/
def State.tmWinSync (s : State) (e : Nat) : State :=
  (s.setFld (TM_ENQ_STAT e) 0 6 (s.tmWin e).items.length).setFld (TM_ENQ_STAT e) 6 9 (s.tmOutstanding e)

/-- Free records of a window's ring. -/
def State.tmRoom (s : State) (e : Nat) : Nat := (s.fld (TM_ENQ_RPTR e) 0 8 + 255 - s.fld (TM_ENQ_STAT e) 15 8) % 256

def State.tmPut (s : State) (e r : Nat) : State :=
  let w := s.fld (TM_ENQ_STAT e) 15 8
  let s := s.devWrite (s.fld (TM_ENQ_RING e) 0 48 + 16 * w) 16 r
  let s := s.setFld (TM_ENQ_STAT e) 15 8 (w + 1)
  s.raiseLc (s.fld (TM_ENQ_CFG e) 14 9) (s.fld (TM_ENQ_CFG e) 23 8)

/-- Records that waited for room. -/
def State.tmDrain (s : State) (e : Nat) : Nat → State
  | 0 => s
  | n + 1 =>
    match Tbl.get [] s.tm.recs e with
    | [] => s
    | r :: t =>
      if s.tmRoom e = 0 then s
      else ({ s with tm := { s.tm with recs := Tbl.put [] s.tm.recs e t } }.tmPut e r).tmDrain e n

/-- Write a completion record (Table 14.6); one for an owner whose generation has moved on is discarded (R204), and cq
leaves out OK. -/
def State.tmRecord (s : State) (e inst gen d status : Nat) (late down : Bool) (mask sent : Nat) : State :=
  if gen ≠ s.instGen inst then s.bump XLT_STALE_CNT
  else if egCq d && status == stOk then s
  else
    let r := egTag d + egGen d <<< 16 + status <<< 32 + b2n late <<< 40 + b2n down <<< 41 + bits mask 0 32 <<< 64 + bits sent 0 32 <<< 96
    let l := Tbl.get [] s.tm.recs e
    { s with tm := { s.tm with recs := Tbl.put [] s.tm.recs e (l ++ [r]) } }.tmDrain e (l.length + 1)

/-- Complete a descriptor that put no frame into a queue. -/
def State.tmEnd (s : State) (e d status : Nat) (late : Bool := false) : State :=
  s.tmRecord e (s.tmOwner e) (s.instGen (s.tmOwner e)) d status late false 0 0

def State.setTmJob (s : State) (j : TmJob) : State :=
  { s with tm := { s.tm with jobs := s.tm.jobs.map (fun k => if k.id = j.id then j else k) } }

/-- A frame of a copy has been sent, or dropped with a status. -/
def State.tmCopyDone (s : State) (o : Option (Nat × Nat)) (status : Nat) (late down bad : Bool) (sent : Option Nat) : State :=
  match o with
  | none => s
  | some (id, k) =>
    match s.tm.jobs.find? (fun j => j.id == id) with
    | none => s
    | some j =>
      let upd (c : TmCopy) : TmCopy :=
        { c with left := c.left - 1, status := if c.status = 0 then status else c.status, late := c.late || late, down := c.down || down }
      s.setTmJob { j with copies := j.copies.modify k upd, poison := j.poison || bad, tSent := if j.tSent.isSome then j.tSent else sent }

/-- Count a drop at a queue (R392). -/
def State.tmCountDrop (s : State) (q : Nat) : State := s.bumpFld (TM_QCNT q) 32 16 1

/-- A late symbol of a cell (R364). -/
def State.lateSym (s : State) (c : Nat) : State := s.bumpFld (FEC_CELL_MISS c) 16 16 1

/-- Where a downlink symbol is kept (R364). -/
def symKey (c frame sub slot sym : Nat) : Nat := (((c * 256 + frame) * 16 + sub) * 64 + slot) * 16 + sym

/-- The symbol of an UPLANE descriptor. -/
def egSym (d : Nat) : Nat := symKey (egCell d) (egFrameId d) (egSubframe d) (egSlot d) (egSymbol d)

/-- Has the send time of a symbol passed: air(k) − dl_adv_us, for its occurrence nearest to now (R364)? -/
def State.symDue (s : State) (c frame sub slot sym : Nat) : Bool :=
  decide (-((s.cellFld c 92 10 * 1000 * 1536 * 65536 : Nat) : Int) ≤ s.airDelta c frame sub slot sym s.timeQ)

/-- What has become of a symbol: 0 nothing yet. What is kept of an occurrence whose number has come round again is void. -/
def State.symOf (s : State) (c frame sub slot sym : Nat) : Nat :=
  let v := Tbl.get 0 s.tm.syms (symKey c frame sub slot sym)
  if v ≤ 1 ∨ s.symDue c frame sub slot sym then v else 0

def State.setSym (s : State) (k v : Nat) : State := { s with tm := { s.tm with syms := Tbl.put 0 s.tm.syms k v } }

/-- The state of the symbol of an UPLANE descriptor. -/
def State.egSymState (s : State) (d : Nat) : Nat := s.symOf (egCell d) (egFrameId d) (egSubframe d) (egSlot d) (egSymbol d)

/-- The U-plane of an accepted UPLANE descriptor is queued. -/
def State.symQueued (s : State) (d : Nat) : State := if egOp d = 1 ∧ s.egSymState d = 0 then s.setSym (egSym d) 1 else s

/-- Is the frame of an UPLANE descriptor, and of which cell? -/
def State.tmUplaneCell (s : State) (f : TmFrame) : Option Nat :=
  f.job.bind (fun o => (s.tm.jobs.find? (fun j => j.id == o.1)).bind (fun j => if egOp j.desc = 1 then some (egCell j.desc) else none))

/-- Drop the head frame of a queue. -/
def State.tmDropHead (s : State) (q : Nat) (f : TmFrame) (late down : Bool) : State :=
  ((s.tmCountDrop q).tmLeave q 0).tmRelease f.buf |>.tmCopyDone f.job stRefusedCapacity late down false none

/-- The status of a finished descriptor, its late and down bits, and its mask (R381). -/
def TmJob.outcome (j : TmJob) : Nat × Bool × Bool × Nat :=
  let good := j.copies.filter (fun c => c.status == 0)
  let first := listGet { target := 0, queue := 0, left := 0 } j.copies 0
  let mask := if egMcast j.desc then good.foldl (fun m c => m + 2 ^ c.target) 0 else 0
  if j.aborted then (stAbortedReset, false, false, 0)
  else if j.poison then (stPoison, first.late, first.down, mask)
  else if good.length = j.copies.length then (stOk, false, false, mask)
  else if egMcast j.desc ∧ good ≠ [] then
    (stPartial, j.copies.any (fun c => c.late), j.copies.any (fun c => c.down), mask)
  else
    let c := j.copies.foldl (fun (b : TmCopy) c => if b.status = 0 ∨ (egMcast j.desc ∧ c.target < b.target) then c else b) first
    (c.status, c.late, c.down, 0)

/-! ### Acceptance (R378, Table 14.5) -/

/-- The queues a descriptor's frames enter, by target. -/
def State.egQueues (s : State) (d : Nat) : List (Nat × Nat) :=
  if egMcast d then
    let g := egQueue d % 256
    ((List.range 32).filter (fun t => bit (s.reg (TM_MCG g)) t)).map (fun t => (t, s.fld (TM_MCG_Q g t) 0 14))
  else [(s.qTarget (egQueue d), egQueue d)]

/-- Bytes of source data. -/
def egBytes (d : Nat) : Nat := if egOp d = 1 then 48 * egNum d else egLen d

/-- The frames of a descriptor, whether its source carried poison, the state with sequence numbers used and saturations
counted. -/
def State.egBuild (s : State) (d : Nat) : List (List Nat) × Bool × State :=
  let src := s.devLoad (egSrc d) (egBytes d)
  let s := s.devChecked (egSrc d) (egBytes d)
  let count (n : Nat) (s : State) : State := s.bumpFld (FH_TX_SAT (s.cellPort (egCell d))) 0 32 n
  if egOp d = 1 then
    let f := s.uFrames d src.1
    (f.1, src.2, count f.2.1 f.2.2)
  else if egOp d = 2 then
    let f := s.cFrame d (bytesOf (egLen d) src.1)
    ([f.1], src.2, count f.2.1 f.2.2)
  else ([bytesOf (egLen d) src.1], src.2, s)

/-- Row 3. -/
def State.egBad3 (s : State) (d : Nat) : Bool :=
  egOp d == 0 || decide (3 < egOp d) || bits d 12 4 != 0 || bits d 62 2 != 0 || bits d 120 8 != 0 || bits d 176 16 != 0
    || bit d 223 || bits d 277 235 != 0
    || (egOp d == 2 && egLen d != 0
        && !([1, 3].contains (sectionType (bytesOf 8 (s.devLoad (egSrc d) 8).1))))

/-- The cell part of row 5. -/
def State.egCellBad (s : State) (d : Nat) : Bool :=
  let c := egCell d
  egOp d != 3 && (!(s.cellOn c) || decide (s.cellSdl c ≤ egStream d) || (egOp d == 2 && s.cellMode c == 2)
    || (egOp d == 1 && (decide (s.cellBlocks c (egSlot d) (egSymbol d) < egStart d + egNum d) || s.uFit c == 0)))

/-- Row 5. -/
def State.egBad5 (s : State) (d : Nat) (lens : List Nat) : Bool :=
  let qs := s.egQueues d
  (egMcast d && s.fld (TM_MCG (egQueue d % 256)) 32 1 == 0)
    || qs.any (fun q => decide (s.fhN ≤ q.2) || !(s.qEn q.2) || (s.qLaunch q.2 && (egWin d == 0 || decide (10000000 < egWin d)))
        || lens.any (fun n => decide (s.fhMtu (s.qTarget q.2 / 4) < n + 4)))
    || s.egCellBad d

/-- Take buffers for frames of a descriptor, each held once per queue that gets it; none where one is refused. -/
def State.tmTakeAll (s : State) (timed : Bool) (target refs : Nat) : List Nat → Option (List Nat × State)
  | [] => some ([], s)
  | n :: t =>
    (s.tmTake timed false target (n + 4) refs).bind (fun r =>
      (r.2.tmTakeAll timed target refs t).map (fun q => (r.1 :: q.1, q.2)))

/-- Put the frames of a descriptor into one queue. -/
def State.tmFill (s : State) (id k q d : Nat) (bad : Bool) (frames : List (List Nat)) (bufs : List Nat) : State :=
  (frames.zip bufs).foldl (fun (s : State) f =>
    s.tmEnqueue q { data := leOf f.1, len := f.1.length, buf := f.2, job := some (id, k), launch := egLaunch d, winNs := egWin d, bad := bad }) s

/-- Rows 9 and 10: room in each queue, cells, acceptance. -/
def State.tmAdmit (s : State) (e d : Nat) (frames : List (List Nat)) (bad : Bool) : State :=
  let qs := s.egQueues d
  let room := qs.filter (fun q => decide ((s.tmQ q.2).length + frames.length ≤ s.qMax q.2))
  let full := qs.filter (fun q => decide (s.qMax q.2 < (s.tmQ q.2).length + frames.length))
  let s := full.foldl (fun (s : State) q => (s.bumpFld TM_DROP_TAIL 0 32 frames.length).tmCountDrop q.2) s
  let timed := s.partTimed (s.tmPart e)
  let took := s.tmTakeAll timed (match room with | r :: _ => r.1 | [] => 0) room.length (frames.map List.length)
  if egMcast d = false ∧ room = [] then s.tmEnd e d stRefusedCapacity
  else match took with
    | none =>
      let s := (s.bumpFld TM_DROP_BUF 0 32 frames.length).event TM_EVENT 1
      (room.foldl (fun (s : State) q => s.tmCountDrop q.2) s).tmEnd e d stRefusedCapacity
    | some (bufs, s) =>
      let bufs := if room = [] then [] else bufs
      let id := s.tm.next
      let s := { s with tm := { s.tm with next := id + 1 } }
      let copies := qs.map (fun q =>
        if room.contains q then ({ target := q.1, queue := q.2, left := frames.length } : TmCopy)
        else { target := q.1, queue := q.2, left := 0, status := stRefusedCapacity })
      let j : TmJob := { id := id, win := e, desc := d, inst := s.tmOwner e, gen := s.instGen (s.tmOwner e), copies := copies }
      let s := { s with tm := { s.tm with jobs := s.tm.jobs ++ [j] } }
      let s := if room = [] then s else s.symQueued d
      qs.zipIdx.foldl (fun (s : State) q => if room.contains q.1 then s.tmFill id q.2 q.1.2 d bad frames bufs else s) s

/-- A refusal with STATE of a window's descriptor. -/
def State.tmState (s : State) (e d : Nat) : State :=
  ((s.bump TM_REFUSE_CNT).refuseLog (blockId TM_CTRL) (egOp d) (s.tmOwner e) 0x1FF).tmEnd e d stState

/-- Rows 6 to 10. The U-plane of a symbol that is never sent (R364) is late. -/
def State.tmAccept2 (s : State) (e d : Nat) (b : List (List Nat) × Bool × State) : State :=
  let p := s.tmPart e
  let inst := s.tmOwner e
  let viol (a cause : Nat) : State :=
    (s.charge { addr := a, status := stFaultAccess, cause := cause, unit := uReg, inst := inst, gen := s.instGen inst }).tmEnd e d stFaultAccess
  if (s.egQueues d).any (fun q => s.qPart q.2 != p) ∨ (egOp d ≠ 3 ∧ s.cellPart (egCell d) ≠ p) then viol (egSrc d) cWrongOwner
  else if s.inGranted p (egSrc d) (egBytes d) = false then viol (egSrc d) cOutOfRange
  else if (s.egQueues d).any (fun q => s.qLaunch q.2) ∧ s.reached32 (egLaunch d) then
    let s := (s.bump TM_DROP_LATE).event TM_EVENT 0
    let s := (s.egQueues d).foldl (fun (s : State) q => s.tmCountDrop q.2) s
    (if egOp d = 1 then s.lateSym (egCell d) else s).tmEnd e d stRefusedCapacity true
  else if egOp d = 1 ∧ s.egSymState d = 3 then
    ((s.egQueues d).foldl (fun (s : State) q => s.tmCountDrop q.2) ((s.bump TM_DROP_LATE).event TM_EVENT 0)).tmEnd e d stRefusedCapacity true
  else b.2.2.tmAdmit e d b.1 b.2.1

/-- A descriptor leaves its window: the checks of Table 14.5. -/
def State.tmAccept (s : State) (e : Nat) (i : CItem) : State :=
  let d := i.data
  if egGen d ≠ s.fld (TM_ENQ_GEN e) 0 16 then s.bump TM_STALE_CNT
  else if i.poison then (s.countErr 21 (0x100 + e) 1).tmEnd e d stPoison
  else if s.egBad3 d then s.tmState e d
  else if (egOp d ≠ 1 ∧ egLen d = 0) ∨ (egOp d = 1 ∧ egNum d = 0) then s.tmEnd e d stNop
  else if s.egCellBad d then s.tmState e d
  else
    let b := s.egBuild d
    if s.egBad5 d (b.1.map List.length) then s.tmState e d else s.tmAccept2 e d b

/-- The next descriptor of window e is accepted while the ring has more free records than there are descriptors
outstanding (R378). -/
def State.tmNext (s : State) (e : Nat) : Option (CItem × State) :=
  if s.tmOutstanding e < s.tmRoom e ∧ s.fld TM_CTRL 0 1 = 1 then
    (s.tmWin e).pop.map (fun r => (r.1, { s with tm := { s.tm with wins := Tbl.put {} s.tm.wins e r.2 } }))
  else none

/-- A held push enters window e when it has room. -/
def State.tmLetIn (s : State) (e : Nat) : Option State :=
  match Tbl.get [] s.tm.heldIn e with
  | [] => none
  | h :: t =>
    if (s.tmWin e).items.length < 32 then
      some { s with tm := { s.tm with heldIn := Tbl.put [] s.tm.heldIn e t, wins := Tbl.put {} s.tm.wins e ((s.tmWin e).push h) } }
    else none

/-- Let window e go on, step by step. -/
def State.tmServe (s : State) (e : Nat) : Nat → State
  | 0 => s.tmWinSync e
  | n + 1 =>
    match s.tmLetIn e with
    | some s => s.tmServe e n
    | none => match s.tmNext e with
      | some r => (r.2.tmAccept e r.1).tmServe e n
      | none => s.tmWinSync e

/-- All that window e can do now. -/
def State.tmRun (s : State) (e : Nat) : State :=
  let s := s.tmDrain e (Tbl.get [] s.tm.recs e).length
  s.tmServe e (2 * (Tbl.get [] s.tm.heldIn e).length + (s.tmWin e).items.length + 1)

/-- A descriptor pushed into window e. op: the row's opcode; a reserved opcode stays as it is. -/
def State.tmPush (s : State) (op : Nat) (wr : Writer) (e desc : Nat) (poison : Bool) : State :=
  let d := if egOp desc = 0 ∨ 3 < egOp desc then desc else setBits desc 0 8 op
  s.ownerOnly wr (TM_ENQ_WIN e 0) (s.tmOwner e) (fun s => s.pushInto (0x100 + e) none 0 (TM_ENQ_WIN e 0) (s.tmOwner e) (fun s =>
    if s.fld (TM_ENQ_CFG e) 0 1 = 0 then (s.bump TM_REFUSE_CNT).refuseReg (TM_ENQ_WIN e 0)
    else
      let l := Tbl.get [] s.tm.heldIn e
      let i : CItem := { data := d, prio := bits d 10 2, poison := poison }
      ({ s with tm := { s.tm with heldIn := Tbl.put [] s.tm.heldIn e (l ++ [i]) } }.tmRun e).answer stOk))

/-- R377: an UPLANE descriptor. -/
def execUplane (wr : Writer) (win : Fin 64) (desc : BitVec 512) (poison : Bool) (s : State) : Host.Outcome State Fault Refusal :=
  .next (s.tmPush 1 wr win.val desc.toNat poison)

/-- R377: a CPLANE descriptor. -/
def execCplane (wr : Writer) (win : Fin 64) (desc : BitVec 512) (poison : Bool) (s : State) : Host.Outcome State Fault Refusal :=
  .next (s.tmPush 2 wr win.val desc.toNat poison)

/-- R377: a RAW descriptor. -/
def execRaw (wr : Writer) (win : Fin 64) (desc : BitVec 512) (poison : Bool) (s : State) : Host.Outcome State Fault Refusal :=
  .next (s.tmPush 3 wr win.val desc.toNat poison)

/-- R379, R381: a descriptor of the window whose last copy has been sent or dropped completes. -/
def execEgressComplete (win : Fin 64) (s : State) : Host.Outcome State Fault Refusal :=
  .next (match s.tm.jobs.find? (fun j => j.win == win.val && j.copies.all (fun c => c.left == 0)) with
  | none => s
  | some j =>
    let s := { s with tm := { s.tm with jobs := s.tm.jobs.filter (fun k => k.id != j.id) } }
    let o := j.outcome
    let s := if o.1 = stPartial then s.bump TM_MC_PARTIAL_CNT else s
    (s.tmRecord j.win j.inst j.gen j.desc o.1 o.2.1 o.2.2.1 o.2.2.2 (j.tSent.getD 0)).tmRun j.win)

/-! ### Egress gate lists (R389, R390) -/

def State.gate (s : State) (t : Nat) : CglList := Tbl.get ({} : CglList) s.tm.gates t
def State.setGate (s : State) (t : Nat) (g : CglList) : State := { s with tm := { s.tm with gates := Tbl.put ({} : CglList) s.tm.gates t g } }
def State.gateRunning (s : State) (t : Nat) : Bool := s.fld (TM_GATE_OPER_STAT t) 21 1 == 1

/-- The first entry of target t among its port's 1,024, and how many it has. -/
def State.gateShare (s : State) (t : Nat) : Nat := 1024 / 2 ^ s.fhSplit (t / 4)
def State.gateFirst (s : State) (t : Nat) : Nat := (t % 4) * s.gateShare t

/-- Entry e of the operational list: duration and open classes. -/
def State.gateEnt (s : State) (t e : Nat) : Nat := s.reg (TM_GATE_OPER_ENT (t / 4) (s.gateFirst t + e))
def gateDur (e : Nat) : Nat := bits e 0 24
def gateBits (e : Nat) : Nat := bits e 24 8

/-- The entries of one cycle of a list as (start, open classes); an entry that would start past the cycle's end has
none. -/
def gateStarts (start cycle : Nat) : Nat → List Nat → List (Nat × Nat)
  | _, [] => []
  | off, e :: t => if cycle ≤ off then [] else (start + off, gateBits e) :: gateStarts start cycle (off + gateDur e) t

/-- The operational entries. -/
def State.gateOper (s : State) (t : Nat) : List Nat := tabulate (s.fld (TM_GATE_OPER_STAT t) 0 11) (s.gateEnt t)

/-- When the gate of class c next closes: from the operational list, and from a pending swap's start on from the new list.
None: it never does. -/
def State.gateCloses (s : State) (t c : Nat) : Option Nat :=
  let g := s.gate t
  let cyc := s.fld (TM_GATE_OPER_CYCLE t) 0 24
  let ents := s.gateOper t
  let old := if s.gateRunning t then gateStarts g.start cyc 0 ents ++ (if g.stop then [] else gateStarts (g.start + cyc) cyc 0 ents) else []
  let seq : List (Nat × Nat) := match g.swap with
    | none => old
    | some w => old.filter (fun p => decide (p.1 < w.start)) ++ gateStarts w.start w.cycle 0 w.ents ++ gateStarts (w.start + w.cycle) w.cycle 0 w.ents
  (seq.find? (fun (p : Nat × Nat) => decide (s.nowNs < p.1) && !(bit p.2 c))).map (fun p => p.1)

/-- Is the gate of class c open? -/
def State.gateOpen (s : State) (t c : Nat) : Bool := !(s.gateRunning t) || bit (s.gate t).mask c

/-- Does a frame of len bytes take no more than ns nanoseconds on the wire (R390)? -/
def State.fitsNs (s : State) (t len ns : Nat) : Bool := decide ((len + 20) * 8 ≤ ns * s.fhRate t)

/-- Does the frame fit its gate? -/
def State.gateFits (s : State) (t c len : Nat) : Bool :=
  s.gateOpen t c && (match s.gateCloses t c with
    | none => true
    | some at' => s.fitsNs t len (at' - s.nowNs))

/-- The longest run of class c open over two cycles of the operational list. -/
def longestOpen (c : Nat) (last : Nat) : List (Nat × Nat) → Option Nat → Nat
  | [], o => match o with | some a => last - a | none => 0
  | (t, g) :: r, o =>
    if bit g c then longestOpen c last r (some (o.getD t))
    else max (match o with | some a => t - a | none => 0) (longestOpen c last r none)

/-- A head frame that does not fit even a whole open interval of its class. -/
def State.gateNever (s : State) (t c len : Nat) : Bool :=
  let cyc := s.fld (TM_GATE_OPER_CYCLE t) 0 24
  let ents := s.gateOper t
  s.gateRunning t && (s.gateCloses t c).isSome && bit (s.gate t).mask c
    && !(s.fitsNs t len (longestOpen c (2 * cyc) (gateStarts 0 cyc 0 ents ++ gateStarts cyc cyc 0 ents) none))

/-- A refused command or write of the traffic manager. -/
def State.tmRefuse (s : State) (a : Nat) : State := (s.bump TM_REFUSE_CNT).refuseReg a

/-- A list is to come into force: at its base time, or at its first cycle boundary at least 20 µs from now. -/
def State.gateSwapSet (s : State) (t base cyc : Nat) (ents : List Nat) : State :=
  let now := 20000 + s.nowNs
  let k := if now ≤ base then 0 else ceilDiv (now - base) cyc
  let s := s.setGate t { s.gate t with swap := some { start := base + k * cyc, base := base, cycle := cyc, ents := ents } }
  let s := s.setFld (TM_GATE_OPER_STAT t) 22 1 1
  if k = 0 then s else s.event TM_EVENT 3

/-- The administrative entries of target t. -/
def State.gateAdmin (s : State) (t : Nat) : List Nat :=
  tabulate (s.fld (TM_GATE_ADMIN_LEN t) 0 11) (fun e => s.reg (TM_GATE_ADMIN_ENT (t / 4) (s.gateFirst t + e)))

/-- R390: TM_GATE_CMD[t] with swap = 1; stop: the stop bit is set too. -/
def execTmGateSwap (wr : Writer) (target : Fin 32) (stop : Bool) (s : State) : Host.Outcome State Fault Refusal :=
  let t := target.val
  .next (s.mcOnly wr (TM_GATE_CMD t) (fun s => s.ungated 0 (TM_GATE_CMD t) 0x1FF (fun s =>
    let g := s.gate t
    let n := s.fld (TM_GATE_ADMIN_LEN t) 0 11
    let cyc := s.fld (TM_GATE_ADMIN_CYCLE t) 0 24
    let ents := s.gateAdmin t
    if stop ∨ s.fld (TM_GATE_CFG t) 0 1 = 0 ∨ g.swap.isSome ∨ s.fhExists t = false then s.tmRefuse (TM_GATE_CMD t)
    else if n = 0 then s.answer stNop
    else if s.gateShare t < n ∨ cyc < 1000 ∨ 10000000 < cyc
      ∨ ents.any (fun e => decide (gateDur e < 20) || decide (10000000 < gateDur e) || bits e 32 32 != 0) then s.tmRefuse (TM_GATE_CMD t)
    else (s.gateSwapSet t (s.reg (TM_GATE_ADMIN_BASE t)) cyc ents).answer stOk)))

/-- R390: TM_GATE_CMD[t] with stop = 1 alone. -/
def execTmGateStop (wr : Writer) (target : Fin 32) (s : State) : Host.Outcome State Fault Refusal :=
  let t := target.val
  .next (s.mcOnly wr (TM_GATE_CMD t) (fun s => s.ungated 0 (TM_GATE_CMD t) 0x1FF (fun s =>
    let g := s.gate t
    if s.gateRunning t = false ∧ g.swap.isNone then s.answer stNop
    else ((s.setGate t { g with swap := none, stop := s.gateRunning t }).setFld (TM_GATE_OPER_STAT t) 22 1 0).answer stOk)))

/-- The end of entry e from the cycle's start. -/
def State.gateEnd (s : State) (t e : Nat) : Nat :=
  let cyc := s.fld (TM_GATE_OPER_CYCLE t) 0 24
  if e + 1 = s.fld (TM_GATE_OPER_STAT t) 0 11 then cyc
  else min cyc ((List.range (e + 1)).foldl (fun n i => n + gateDur (s.gateEnt t i)) 0)

/-- Entry e comes into force. -/
def State.gateEnter (s : State) (t e : Nat) : State :=
  (s.setGate t { s.gate t with mask := gateBits (s.gateEnt t e) }).setFld (TM_GATE_OPER_STAT t) 11 10 e

/-- The new list of a swap is in force from its start (R246). -/
def State.gateApply (s : State) (t : Nat) (w : CglSwap) : State :=
  let s := w.ents.zipIdx.foldl (fun (s : State) p => s.setReg (TM_GATE_OPER_ENT (t / 4) (s.gateFirst t + p.2)) p.1) s
  let s := (s.setReg (TM_GATE_OPER_BASE t) w.base).setReg (TM_GATE_OPER_CYCLE t) w.cycle
  let s := s.setReg (TM_GATE_OPER_STAT t) (2 ^ 21 + w.ents.length)
  let s := s.setGate t { start := w.start }
  (s.gateEnter t 0).event TM_EVENT 2

/-- A list stops: every gate is open. -/
def State.gateHalt (s : State) (t : Nat) : State :=
  (s.setGate t {}).setReg (TM_GATE_OPER_STAT t) (bits (s.reg (TM_GATE_OPER_STAT t)) 22 1 <<< 22)

/-- R389: after ticks of the time clock a boundary of target t's list fires. -/
def execGateBoundary (target : Fin 32) (ticks : BitVec 64) (s : State) : Host.Outcome State Fault Refusal :=
  let s := s.elapse ticks.toNat
  let t := target.val
  let g := s.gate t
  let e := s.fld (TM_GATE_OPER_STAT t) 11 10
  let off := s.gateEnd t e
  let at' := g.start + off
  let due : Option CglSwap := g.swap.bind (fun w => if s.reached w.start then some w else none)
  let first : Bool := match due with | some w => !(s.gateRunning t) || decide (w.start ≤ at') | none => false
  .next (if first then (match due with | some w => s.gateApply t w | none => s)
  else if s.gateRunning t = false ∨ s.reached at' = false then s
  else if off < s.fld (TM_GATE_OPER_CYCLE t) 0 24 then s.gateEnter t (e + 1)
  else if g.stop then s.gateHalt t
  else (s.setGate t { g with start := at' }).gateEnter t 0)

/-! ### Shapers (R387) -/

/-- The credit of shaper i now. -/
def State.shpCredit (s : State) (i : Nat) : Int :=
  let c := toSigned 48 (s.fld (TM_SHP_CRED i) 0 48)
  let since := Tbl.get 0 s.tm.shpAt i
  if s.fld (TM_SHP i) 48 1 = 0 then c
  else min ((s.fld (TM_SHP i) 21 20 * 65536 : Nat) : Int) (c + ((s.fld (TM_SHP i) 0 21 * ((2 ^ 64 + s.cnt - since) % 2 ^ 64) : Nat) : Int))

/-- Set the credit as of now. -/
def State.setCredit (s : State) (i : Nat) (v : Int) : State :=
  { s with tm := { s.tm with shpAt := Tbl.put 0 s.tm.shpAt i s.cnt } }.setFld (TM_SHP_CRED i) 0 48 (ofSigned 48 v)

/-- A shaper, when enabled, allows a frame to start. -/
def State.shpOk (s : State) (i : Nat) : Bool := decide (0 ≤ s.shpCredit i)

/-- Charge a frame of len bytes. -/
def State.shpCharge (s : State) (i len : Nat) : State :=
  let n := len + (if s.fld (TM_SHP i) 47 1 = 1 then s.fld (TM_SHP i) 41 6 else 0)
  s.setCredit i (s.shpCredit i - ((n * 65536 : Nat) : Int))

def State.qShp (s : State) (q : Nat) : Option Nat := if s.fld (TM_QCFG q) 24 1 = 1 then some (s.fld (TM_QCFG q) 12 12) else none
def State.nodeShp (s : State) (n : Nat) : Option Nat := if s.fld (TM_NODE n) 38 1 = 1 then some (s.fld (TM_NODE n) 26 12) else none

/-! ### Host rings (Table 14.8) -/

def State.hrBase (s : State) (i : Nat) : Nat := s.wreg i 0x3000
def State.hrSize (s : State) (i : Nat) : Nat := bits (s.wreg i 0x3008) 0 13
def State.hrTail (s : State) (i : Nat) : Nat := bits (s.wreg i 0x3010) 0 12
def State.hrStat (s : State) (i : Nat) : Nat := bits (s.wreg i 0x3018) 0 13

/-- A free slot in the instance's ring? -/
def State.hrRoom (s : State) (i : Nat) : Bool := decide (s.hrStat i < s.hrSize i)

/-! ### The scheduler (R383 to R385) -/

/-- Has a launch queue's time reached the head's launch? -/
def State.launched (s : State) (q : Nat) (f : TmFrame) : Bool := !(s.qLaunch q) || s.reached32 f.launch

/-- Has a launch queue's time passed the head's window? -/
def State.tooLate (s : State) (q : Nat) (f : TmFrame) : Bool := s.qLaunch q && s.reached32 ((f.launch + f.winNs + 1) % 2 ^ 32)

/-- Is the frame at queue q's head eligible? -/
def State.eligible (s : State) (q : Nat) : Bool :=
  match s.tmQ q with
  | [] => false
  | f :: _ =>
    let n := s.qNode q
    let t := s.nodeTarget n
    s.launched q f && !(s.tooLate q f) && ((s.qShp q).all s.shpOk) && ((s.nodeShp n).all s.shpOk)
      && (if t < 32 then s.fhState t == 2 && s.gateFits t (s.nodeClass n) (f.len + 4) else s.hrRoom (s.qInst q))

/-- Bytes of the head of a queue, FCS counted. -/
def State.headBytes (s : State) (q : Nat) : Nat := match s.tmQ q with | [] => 0 | f :: _ => f.len + 4

/-- drr_pick of node n: the queue it takes from; deficits and the ring's place have moved on. -/
def State.drrPick (s : State) (n : Nat) : Nat → Option Nat × State
  | 0 => (none, s)
  | k + 1 =>
    let x := s.tmNode n
    let q := listGet 0 x.ring x.cur
    let b := s.headBytes q
    let d := Tbl.get 0 s.tm.deficit q
    let d := if s.eligible q ∧ d < b then d + s.qQuantum q * 64 else d
    let s := if s.eligible q then { s with tm := { s.tm with deficit := Tbl.put 0 s.tm.deficit q d } } else s
    if s.eligible q ∧ b ≤ d then (some q, { s with tm := { s.tm with deficit := Tbl.put 0 s.tm.deficit q (d - b) } })
    else (s.setTmNode n { x with cur := (x.cur + 1) % max 1 x.ring.length }).drrPick n k

/-- drr_peek. -/
def State.drrPeek (s : State) (n : Nat) : Option Nat := (s.drrPick n (s.tmNode n).ring.length).1

/-- before(a, b) of finish tags. -/
def tagBefore (a b : Nat) : Bool := decide (toSigned 48 ((2 ^ 48 + a - b % 2 ^ 48) % 2 ^ 48) < 0)

/-- The finish tag a node offers; the node becomes backlogged. -/
def State.wfqOffer (s : State) (v n q : Nat) : Nat × State :=
  let x := s.tmNode n
  let start := if x.backlogged then x.start else if tagBefore x.start v then v else x.start
  let s := s.setTmNode n { x with start := start, backlogged := true }
  ((start + ceilDiv (s.headBytes q * 65536) (max 1 (s.nodeWeight n))) % 2 ^ 48, s)

/-- wfq_pick of class c of target t: the queue. -/
def State.wfqPick (s : State) (t c : Nat) : Option Nat × State :=
  let v := Tbl.get 0 s.tm.classV (8 * t + c)
  let ns := (s.tm.nodes.map (fun p => p.1)).filter (fun n => s.fld (TM_NODE n) 0 1 == 1 && s.nodeTarget n == t && s.nodeClass n == c)
  let r := ns.foldl (fun (acc : Option (Nat × Nat) × State) n =>
    match acc.2.drrPeek n with
    | none => acc
    | some q =>
      let o := acc.2.wfqOffer v n q
      match acc.1 with
      | none => (some (n, o.1), o.2)
      | some (m, fin) => if tagBefore o.1 fin then (some (n, o.1), o.2) else (some (m, fin), o.2)) (none, s)
  match r.1 with
  | none => (none, r.2)
  | some (n, fin) =>
    let p := r.2.drrPick n (r.2.tmNode n).ring.length
    let s := p.2.setTmNode n { p.2.tmNode n with start := fin }
    (p.1, { s with tm := { s.tm with classV := Tbl.put 0 s.tm.classV (8 * t + c) fin } })

/-- The queue that target t sends from: the highest class with a candidate. -/
def State.tmPick (s : State) (t : Nat) : Nat → Option Nat × State
  | 0 => (none, s)
  | c + 1 =>
    let r := if s.gateOpen t c ∨ 32 ≤ t then s.wfqPick t c else (none, s)
    match r.1 with
    | some q => (some q, r.2)
    | none => s.tmPick t c

/-- Count once each head frame of a target that waits while another is sent (Table 14.7). -/
def State.countHeld (s : State) (t : Nat) : State :=
  let qs := ((s.tm.nodes.filter (fun p => s.nodeTarget p.1 == t)).map (fun p => p.2.ring)).flatten
  qs.foldl (fun (s : State) q =>
    match s.tmQ q with
    | [] => s
    | f :: r => if f.held then s else (s.setTmQ q ({ f with held := true } :: r)).bumpFld (TM_QCNT q) 48 16 1) s

/-! ### Transmission (R228, R229, R370) -/

/-- The egress stamp of a port, in 2^-16 ns. -/
def State.egrStamp (s : State) (t : Nat) : Nat := (s.timeQ + s.fld (TIME_PORT_EGR_LAT (t / 4)) 0 32) % 2 ^ 80

/-- Where the payload after the EtherType begins, and the EtherType. -/
def etherOf (l : List Nat) : Nat × Nat := if beAt l 12 2 = 0x8100 then (18, beAt l 16 2) else (14, beAt l 12 2)

/-- Replace the n bytes at i by the big-endian value v. -/
def putBe (l : List Nat) (i n v : Nat) : List Nat := l.take i ++ beBytes n v ++ l.drop (i + n)

/-- A one-step PTP event message takes its egress stamp (R229). The residence correction of messages other than Sync is not
given by the spec: a free value. -/
def State.oneStep (s : State) (l : List Nat) (stamp : Nat) : List Nat × State :=
  let e := etherOf l
  let ty := byteAt l e.1 % 16
  if e.2 ≠ 0x88F7 ∨ 4 ≤ ty ∨ byteAt l (e.1 + 6) / 2 % 2 = 1 then (l, s)
  else if s.timeValid = false then (l, s.event TIME_EVENT 4)
  else
    let corr := beAt l (e.1 + 8) 8
    if ty = 0 then
      let ns := stamp / 65536
      (putBe (putBe (putBe l (e.1 + 34) 6 (ns / 1000000000)) (e.1 + 40) 4 (ns % 1000000000)) (e.1 + 8) 8
        ((corr + stamp % 65536) % 2 ^ 64), s)
    else
      let f := s.fresh
      (putBe l (e.1 + 8) 8 ((corr + f.1) % 2 ^ 64), f.2)

/-- Frame f of queue q starts on target t. -/
def State.tmSend (s : State) (t q : Nat) (f : TmFrame) (crcBad : Bool) : State :=
  let n := f.len + 4
  let s := match s.qShp q with | some i => s.shpCharge i n | none => s
  let s := match s.nodeShp (s.qNode q) with | some i => s.shpCharge i n | none => s
  let bad := f.bad || crcBad
  let stamp := s.egrStamp t
  let o := s.oneStep (bytesOf f.len f.data) stamp
  let s := (o.2.tmLeave q 0).tmRelease f.buf
  let s := (s.bump64 (FH_TX_FRAMES (t / 4)) 1).bumpFld (TM_QCNT q) 0 32 1
  let s := if crcBad then s.errLog { level := 4, kind := 0x42, action := 0, res := 1, detail := t } else s
  let s := if bad then (s.bump (FH_TX_CRC_BAD (t / 4))).event FH_EVENT 32 else s
  let s := { s with tm := { s.tm with sent := s.tm.sent ++ [({ target := t, data := leOf o.1, len := f.len, bad := bad, stamp := stamp } : FhSent)] } }
  s.tmCopyDone f.job 0 false false bad (some s.nowNs)

/-- R383 to R385: after ticks of the time clock target t picks a frame and sends it; crcBad: its CRC32C does not match
(R370). After a fatal error nothing is sent (R484). -/
def execFrameTx (target : Fin 32) (ticks : BitVec 64) (crcBad : Bool) (s : State) : Host.Outcome State Fault Refusal :=
  let s := s.elapse ticks.toNat
  let t := target.val
  .next (if s.fhState t ≠ 2 ∨ s.fld RAS_STATUS 1 1 = 1 then s
  else
    let r := s.tmPick t 8
    let s := match r.1 with
      | none => r.2
      | some q => match r.2.tmQ q with
        | [] => r.2
        | f :: _ => r.2.tmSend t q f crcBad
    s.countHeld t)

/-- R380, R390: after ticks of the time clock the head frame of a queue is dropped: past its window, for a target that is not
UP, or never fitting its gate. -/
def execHeadDrop (queue : Fin 16384) (ticks : BitVec 64) (s : State) : Host.Outcome State Fault Refusal :=
  let s := s.elapse ticks.toNat
  let q := queue.val
  .next (match s.tmQ q with
  | [] => s
  | f :: _ =>
    let t := s.qTarget q
    if 32 ≤ t then s
    else if s.tooLate q f then
      let s1 := (s.bump TM_DROP_LATE).event TM_EVENT 0
      let s1 := match s.tmUplaneCell f with | some c => s1.lateSym c | none => s1
      s1.tmDropHead q f true false
    else if s.fhState t ≠ 2 then ((s.bump TM_DROP_DOWN).event TM_EVENT 4).tmDropHead q f false true
    else if s.gateNever t (s.nodeClass (s.qNode q)) (f.len + 4) then (s.bump TM_DROP_GATE).tmDropHead q f false false
    else s)

/-- R364: after ticks of the time clock a downlink symbol of a cell reaches its send time. One whose U-plane is not queued is never
sent, and counted. -/
def execSymbolSendTime (cell : Fin 256) (frame : BitVec 8) (sub : Fin 10) (slot : Fin 8) (sym : Fin 14) (ticks : BitVec 64) (s : State) :
    Host.Outcome State Fault Refusal :=
  let s := s.elapse ticks.toNat
  let c := cell.val
  let f := frame.toNat
  let k := symKey c f sub.val slot.val sym.val
  .next (if s.cellOn c = false ∨ slotsOf (s.cellMu c) ≤ slot.val ∨ s.symDue c f sub.val slot.val sym.val = false then s
  else match s.symOf c f sub.val slot.val sym.val with
    | 0 => (s.setSym k 3).lateSym c
    | 1 => s.setSym k 2
    | _ => s)

/-! ### Windows: reset (R393) -/

/-- Frames of window e that have not started leave their queues; their descriptors complete with ABORTED_RESET. -/
def State.tmAbort (s : State) (e : Nat) : State :=
  let mine := (s.tm.jobs.filter (fun j => j.win == e)).map (fun j => j.id)
  let isMine (f : TmFrame) : Bool := match f.job with | some o => mine.contains o.1 | none => false
  let s := (s.tm.queues.map (fun p => p.1)).foldl (fun (s : State) q =>
    let fs := (s.tmQ q).filter isMine
    fs.foldl (fun (s : State) f =>
      match findIdx? (fun g => g == f) (s.tmQ q) with
      | some (k, _) => (s.tmLeave q k).tmRelease f.buf
      | none => s) s) s
  let js := s.tm.jobs.filter (fun j => j.win == e)
  js.foldl (fun (s : State) j =>
    if j.copies.any (fun c => c.left != 0) then
      s.setTmJob { j with aborted := true, copies := j.copies.map (fun c => { c with left := 0 }) }
    else s) s

/-- A reset of window e: the generation rises, what waits is stale. -/
def State.tmWinReset (s : State) (e : Nat) : State :=
  let s := s.setFld (TM_ENQ_GEN e) 0 16 (s.fld (TM_ENQ_GEN e) 0 16 + 1)
  let s := s.bumpFld TM_STALE_CNT 0 32 (s.tmWin e).items.length
  let s := { s with tm := { s.tm with wins := Tbl.put {} s.tm.wins e {} } }
  (s.tmAbort e).tmRun e

/-- R393: TM_ENQ_CTL[e].reset. -/
def execTmEnqCtlReset (wr : Writer) (win : Fin 64) (s : State) : Host.Outcome State Fault Refusal :=
  let e := win.val
  .next (s.ownerOnly wr (TM_ENQ_CTL e) (s.tmOwner e) (fun s => s.ungated 0 (TM_ENQ_CTL e) (s.tmOwner e) (fun s =>
    (s.tmWinReset e).answer stOk)))

/-! ### Host rings: commands (R394) -/

/-- A STATE answer to a write in an instance window (R510). -/
def State.refuseWin (s : State) (block off inst : Nat) : State := (s.refuseLog block off inst 0x1FF).answer stState

/-- TM_HR_DONE. -/
def execTmHrDone (inst : Fin 512) (n : BitVec 13) (s : State) : Host.Outcome State Fault Refusal :=
  let i := inst.val
  .next (s.ungated 0 0 i (fun s =>
    if n.toNat = 0 then s.answer stNop
    else if s.hrStat i < n.toNat then (s.bump TM_REFUSE_CNT).refuseWin (blockId TM_CTRL) 0x20 i
    else (s.setWreg i 0x3018 (s.hrStat i - n.toNat)).answer stOk))

/-- Is it 0 or a power of two from 16 to 4,096? -/
def hrSizeOk (n : Nat) : Bool := n == 0 || [16, 32, 64, 128, 256, 512, 1024, 2048, 4096].contains n

/-- A write of TM_HR_SIZE. A change of size starts the ring at slot 0. -/
def execTmHrSizeWrite (inst : Fin 512) (n : BitVec 13) (s : State) : Host.Outcome State Fault Refusal :=
  let i := inst.val
  .next (s.ungated 0 0 i (fun s =>
    if hrSizeOk n.toNat = false ∨ (n.toNat ≠ s.hrSize i ∧ s.hrStat i ≠ 0) then (s.bump TM_REFUSE_CNT).refuseWin (blockId TM_CTRL) 0x08 i
    else if n.toNat = s.hrSize i then s.answer stOk
    else ((s.setWreg i 0x3008 n.toNat).setWreg i 0x3010 0).answer stOk))

/-- Write a frame into the ring of an instance: a 64-byte header, then the frame. -/
def State.hrWrite (s : State) (i : Nat) (f : TmFrame) : State :=
  let t := s.hrTail i
  let hdr := f.len + f.port <<< 14 + f.sub <<< 17 + b2n f.stampOk <<< 19 + (f.stamp / 65536 % 2 ^ 64) <<< 64 + (f.stamp % 65536) <<< 128
  let w : HostWrite := { inst := i, addr := s.hrBase i + t * 10240, len := 64 + f.len, data := hdr + f.data <<< 512 }
  let s := { s with hostOut := s.hostOut ++ [w] }
  (s.setWreg i 0x3010 ((t + 1) % max 1 (s.hrSize i))).setWreg i 0x3018 (s.hrStat i + 1)

/-- Frame f, the head of queue q, leaves for its instance's ring. -/
def State.hrSend (s : State) (q : Nat) (f : TmFrame) : State :=
  let s := match s.qShp q with | some i => s.shpCharge i (f.len + 4) | none => s
  let s := match s.nodeShp (s.qNode q) with | some i => s.shpCharge i (f.len + 4) | none => s
  let s := ((s.tmLeave q 0).tmRelease f.buf).bumpFld (TM_QCNT q) 0 32 1
  s.hrWrite (s.qInst q) f

/-- R394: after ticks of the time clock host port p's target picks a frame and writes it into its instance's ring. -/
def execHostRingDeliver (port : Fin 4) (ticks : BitVec 64) (s : State) : Host.Outcome State Fault Refusal :=
  let s := s.elapse ticks.toNat
  let t := 32 + port.val
  let r := s.tmPick t 1
  .next (match r.1 with
  | none => s.countHeld t
  | some q => match r.2.tmQ q with
    | [] => s
    | f :: _ => (r.2.hrSend q f).countHeld t)

end Sys2Proof.Machine
end

