-- ==== Sys2Proof/Machine/FhRx.lean ====
section
/-!
DEFINITION. Machine/FhRx.lean: frames received on the fronthaul ports (R371 to R374), the ingress classifier and policers
(R388), the sub-ports' states (R368), and the slot boundary of a cell (R374).
-/
namespace Sys2Proof.Machine

/-! ### Policers (R388) -/

inductive Colour where
  | red | yellow | green
  deriving DecidableEq, Repr

def State.pol (s : State) (i : Nat) : TmPol := Tbl.get ({} : TmPol) s.tm.pols i

/-- The buckets of policer i now. -/
def State.polNow (s : State) (i : Nat) : Int × Int :=
  let p := s.pol i
  let dt := (2 ^ 64 + s.cnt - p.since) % 2 ^ 64
  (min ((s.fld (TM_POL0 i) 21 20 * 65536 : Nat) : Int) (p.tc + ((s.fld (TM_POL0 i) 0 21 * dt : Nat) : Int)),
   min ((s.fld (TM_POL1 i) 21 20 * 65536 : Nat) : Int) (p.tp + ((s.fld (TM_POL1 i) 0 21 * dt : Nat) : Int)))

def State.setPol (s : State) (i : Nat) (b : Int × Int) : State :=
  { s with tm := { s.tm with pols := Tbl.put ({} : TmPol) s.tm.pols i { tc := b.1, tp := b.2, since := s.cnt } } }

/-- Colour a frame of n bytes. -/
def State.police (s : State) (i n : Nat) : Colour × State :=
  if s.fld (TM_POL0 i) 41 1 = 0 then (.green, s)
  else
    let t := s.polNow i
    let b : Int := ((n * 65536 : Nat) : Int)
    if t.2 < b then (.red, s.setPol i t)
    else if t.1 < b then (.yellow, s.setPol i (t.1, t.2 - b))
    else (.green, s.setPol i (t.1 - b, t.2 - b))

/-! ### Stamps (R228) -/

/-- The ingress stamp of a port, in 2^-16 ns. -/
def State.ingStamp (s : State) (p : Nat) : Nat :=
  (((s.timeQ : Int) - (s.fld (TIME_PORT_ING_LAT p) 0 32 : Int) - toSigned 32 (s.fld (TIME_PORT_ASYM p) 0 32)) % 2 ^ 80).toNat

/-! ### Uplink U-plane (R371, R374) -/

/-- The eAxC's cell on a target, its stream, and whether it is PRACH. -/
def State.findEaxc (s : State) (t eaxc : Nat) : Option (Nat × Nat × Bool) :=
  (List.range 256).findSome? (fun c =>
    if s.cellOn c && s.cellTarget c == t then
      let b := s.cellEaxc c
      if b ≤ eaxc ∧ eaxc < b + s.cellSul c then some (c, eaxc - b, false)
      else if s.cellMode c ≠ 2 ∧ b + 64 ≤ eaxc ∧ eaxc < b + 64 + s.cellSul c then some (c, eaxc - b - 64, true)
      else none
    else none)

/-- One section of a U-plane message: first PRB, PRBs, width, whether it is compressed, its data. -/
structure UlSection where
  start : Nat
  num : Nat
  w : Nat
  comp : Bool
  data : List Nat
  deriving DecidableEq, Repr

/-- Bytes of a PRB. -/
def ulPrbBytes (w : Nat) (comp : Bool) : Nat := 3 * w + b2n comp

/-- The sections of a message; none where one is malformed. all: PRBs that numPrbu = 0 stands for; stat: the width of a port
without compression headers. -/
def ulSections (all : Nat) (stat : Option Nat) : Nat → List Nat → Option (List UlSection)
  | 0, _ => none
  | fuel + 1, l =>
    if l.isEmpty then some []
    else
      let start := beAt l 0 3 % 1024
      let num := if byteAt l 3 = 0 then all else byteAt l 3
      let meth := match stat with | some _ => 1 | none => byteAt l 4 % 16
      let w := match stat with | some w => w | none => if byteAt l 4 / 16 = 0 then 16 else byteAt l 4 / 16
      let h := if stat.isSome then 4 else 6
      let n := num * ulPrbBytes w (meth == 1)
      if l.length < h + n ∨ (meth ≠ 0 ∧ meth ≠ 1) then none
      else (ulSections all stat fuel (l.drop (h + n))).map (fun r =>
        { start := start, num := num, w := w, comp := meth == 1, data := (l.drop h).take n } :: r)

/-- One PRB as CI16 components, and how many of them saturated (R50). -/
def UlSection.prb (x : UlSection) (k : Nat) : List Nat × Nat :=
  let b := (x.data.drop (k * ulPrbBytes x.w x.comp)).take (ulPrbBytes x.w x.comp)
  if x.comp then
    let vs := tabulate 24 (fun m => bfpDecompress x.w (byteAt b 0 % 16) (unpackBits x.w (b.drop 1) m))
    (vs.map (fun v => v.1), (vs.filter (fun v => v.2)).length)
  else (tabulate 24 (fun m => ofSigned 16 (toSigned x.w (unpackBits x.w b m))), 0)

/-- CI16 components as the bytes of a number. -/
def compsNat (l : List Nat) : Nat := l.foldr (fun v n => v % 65536 + 65536 * n) 0

/-- The slot buffer of a message. -/
def State.slotBuf (s : State) (c frame sub slot : Nat) : Nat := ((frame * 10 + sub) * slotsOf (s.cellMu c) + slot) % 4

/-- Where PRB or block prb of symbol sym of stream i goes. -/
def State.ulAddr (s : State) (c b sym i prb : Nat) : Nat :=
  s.ulBase c + 1024 + ((b * 14 + sym) * s.cellSul c + i) * s.cellNb c * 48 + prb * 48
def State.prachAddr (s : State) (c b sym i re : Nat) : Nat :=
  s.prachBase c + (b * s.cellSul c + i) * 57344 + sym * 4096 + re * 4

/-- Write the PRBs of a section. In time-domain mode samples past the symbol's end are ignored. -/
def State.ulWrite (s : State) (c b slot sym i : Nat) (prach : Bool) (x : UlSection) : State :=
  (List.range x.num).foldl (fun (s : State) k =>
    let v := x.prb k
    let s := s.bumpFld (FH_RX_SAT (s.cellPort c)) 0 32 v.2
    let prb := x.start + k
    let n := if s.cellMode c = 2 then min 12 (s.cellFft c + cpOf (s.cellMu c) (s.cellFft c) slot sym - 12 * prb) else 12
    let a := if prach then s.prachAddr c b sym i (12 * prb) else s.ulAddr c b sym i prb
    s.devWrite a (4 * n) (compsNat v.1 % 2 ^ (32 * n))) s

/-- The map bit of an accepted message. -/
def State.ulMark (s : State) (c b sym i : Nat) (prach : Bool) : State :=
  let k := (if prach then 1024 else 0) + 64 * sym + i
  let a := s.ulBase c + 256 * b + k / 8
  s.devWrite a 1 ((s.devLoad a 1).1 ||| 2 ^ (k % 8))

/-- Is a section outside the cell's PRBs or blocks, or past RE 1,023 of a PRACH message? -/
def State.ulOutside (s : State) (c slot sym : Nat) (prach : Bool) (x : UlSection) : Bool :=
  if prach then decide (1023 < 12 * (x.start + x.num) - 1) else decide (s.cellBlocks c slot sym < x.start + x.num)

/-- A gap in the sequence numbers of a stream (Table 14.3). -/
def State.seqCheck (s : State) (t eaxc seq : Nat) : State :=
  let k := seqKey 0 t eaxc
  let exp := Tbl.get 0 s.tm.seqIn k
  let s := { s with tm := { s.tm with seqIn := Tbl.put 0 s.tm.seqIn k ((seq + 1) % 256 + 1) } }
  if exp = 0 ∨ exp = seq + 1 then s else s.bump (FH_RX_SEQGAP (t / 4))

/-- Rows 9 to 11: u: the U-plane message. -/
def State.ulAccept (s : State) (t c i : Nat) (prach : Bool) (u : List Nat) (xs : List UlSection) (stamp len : Nat) : State :=
  let frame := byteAt u 1
  let sub := beAt u 2 2 / 4096
  let slot := beAt u 2 2 / 64 % 64
  let sym := beAt u 2 2 % 64
  let d := s.airDelta c frame sub slot sym stamp
  if d < 0 then s.bump (FH_RX_EARLY (t / 4))
  else if ((s.cellTa3 c * 1000 * 1536 * 65536 : Nat) : Int) < d then (s.bump (FH_RX_LATE (t / 4))).lateSym c
  else if (s.tmCan true false t (tmCells len)).isNone then (s.bump TM_DROP_BUF).event TM_EVENT 1
  else
    let b := s.slotBuf c frame sub slot
    (xs.foldl (fun (s : State) x => s.ulWrite c b (sub * slotsOf (s.cellMu c) + slot) sym i prach x) s).ulMark c b sym i prach

/-- Rows 7 and 8 for an eCPRI message of type 0. -/
def State.rxUplane (s : State) (t : Nat) (e : List Nat) (stamp len : Nat) : State :=
  let p := t / 4
  match s.findEaxc t (beAt e 4 2) with
  | none => s.bump (FH_RX_NOMATCH p)
  | some (c, i, prach) =>
    let u := (e.drop 8).take (beAt e 2 2 - 4)
    let sub := beAt u 2 2 / 4096
    let slot := beAt u 2 2 / 64 % 64
    let sym := beAt u 2 2 % 64
    let sf := sub * slotsOf (s.cellMu c) + slot
    let all := if prach then 0 else s.cellBlocks c sf sym
    let xs := ulSections all (if s.udStatic t then some (s.cellWul c) else none) (u.length + 1) (u.drop 4)
    if 128 ≤ byteAt u 0 ∨ byteAt e 7 < 128 ∨ 9 < sub ∨ slotsOf (s.cellMu c) ≤ slot ∨ 13 < sym then s.bump (FH_RX_BADHDR p)
    else match xs with
      | none => s.bump (FH_RX_BADHDR p)
      | some xs =>
        if xs.any (s.ulOutside c sf sym prach) then s.bump (FH_RX_BADHDR p)
        else (s.seqCheck t (beAt e 4 2) (byteAt e 6)).ulAccept t c i prach u xs stamp len

/-! ### The classifier (R371) -/

/-- An FH_CLS entry. -/
def State.clsEnt (s : State) (e : Nat) : Nat := s.reg (FH_CLS e 0) + s.reg (FH_CLS e 1) <<< 64

/-- Does a frame match an entry? vid: of its tag, if any. -/
def clsMatch (e port dmac ety : Nat) (vid : Option Nat) : Bool :=
  bit e 63 && bit e (80 + port) && (bit e 60 || bits e 0 48 == dmac) && (bit e 61 || vid == some (bits e 48 12))
    && (bit e 62 || bits e 64 16 == ety)

/-- A frame for a host-range queue. -/
def State.toHostQueue (s : State) (q : Nat) (yellow : Bool) (f : TmFrame) : State :=
  let n := f.len + 4
  if s.qEn q = false ∨ s.qMax q ≤ (s.tmQ q).length then (s.bump TM_DROP_TAIL).tmCountDrop q
  else match s.tmTake (s.partTimed (s.qPart q)) yellow (s.qTarget q) n 1 with
    | some (id, s) => s.tmEnqueue q { f with buf := id }
    | none =>
      if yellow && (s.tmCan (s.partTimed (s.qPart q)) false (s.qTarget q) (tmCells n)).isSome then (s.bump TM_DROP_YEL).tmCountDrop q
      else ((s.bump TM_DROP_BUF).event TM_EVENT 1).tmCountDrop q

/-- Row 12. -/
def State.classify (s : State) (t : Nat) (l : List Nat) (stamp : Nat) : State :=
  let p := t / 4
  let vid := if beAt l 12 2 = 0x8100 then some (beAt l 14 2 % 4096) else none
  match (List.range 256).find? (fun e => clsMatch (s.clsEnt e) p (beAt l 0 6) (etherOf l).2 vid) with
  | none => s.bump (FH_RX_NOMATCH p)
  | some e =>
    let x := s.clsEnt e
    if bit x 113 then s.bump (FH_RX_NOMATCH p)
    else
      let c := if bit x 112 then s.police (bits x 102 10) (l.length + 4) else (.green, s)
      if c.1 = .red then c.2.bump TM_DROP_POL
      else c.2.toHostQueue (bits x 88 14) (c.1 == .yellow)
        { data := leOf l, len := l.length, buf := 0, port := p, sub := t % 4, stampOk := s.timeValid, stamp := stamp }

/-- A frame for the management cores (rows 4 and 6). -/
def State.rxMc (s : State) (t stamp : Nat) (l : List Nat) : State :=
  { s with tm := { s.tm with toMc := s.tm.toMc ++ [(t, stamp, leOf l)] } }

/-- A frame received on target t, without its FCS: the rows of Table 14.2 in their order. -/
def State.frameIn (s : State) (t : Nat) (fcsOk : Bool) (l : List Nat) : State :=
  let p := t / 4
  let stamp := s.ingStamp p
  let s := s.bump64 (FH_RX_FRAMES p) 1
  let e := etherOf l
  let ec := l.drop e.1
  if fcsOk = false then s.bump (FH_RX_FCS p)
  else if l.length + 4 < 64 ∨ s.fhMtu p < l.length + 4 then s.bump (FH_RX_LEN p)
  else if e.2 = 0x8808 then s.bump (FH_RX_CTRL p)
  else if e.2 = 0x88F7 then s.rxMc t stamp l
  else if e.2 = 0xAEFE then
    if byteAt ec 0 / 16 ≠ 1 ∨ byteAt ec 0 % 2 = 1 ∨ (byteAt ec 1 ≠ 0 ∧ byteAt ec 1 ≠ 5) then s.bump (FH_RX_BADHDR p)
    else if byteAt ec 1 = 5 then s.rxMc t stamp l
    else s.rxUplane t ec stamp (l.length + 4)
  else s.classify t l stamp

/-- R371: a frame arrives on a sub-port. frame: its bytes without the FCS. -/
def execFrameRx (target : Fin 32) (ticks : BitVec 64) (fcsOk : Bool) (frame : List Byte) (s : State) : Host.Outcome State Fault Refusal :=
  let s := s.elapse ticks.toNat
  .next (if s.fhState target.val ≠ 2 ∨ s.fld FH_CTRL 0 1 = 0 then s
  else s.frameIn target.val fcsOk (frame.map BitVec.toNat))

/-! ### Slot boundaries (R362, R363, R374) -/

/-- R374: after ticks of the time clock the air start of a slot of a cell: the map of its buffer is cleared, a missed slot is
counted (R363), a deactivation takes effect (R362). -/
def execUlMapClear (cell : Fin 256) (ticks : BitVec 64) (s : State) : Host.Outcome State Fault Refusal :=
  let s := s.elapse ticks.toNat
  let c := cell.val
  .next (if s.cellState c = 0 then s
  else if (s.cellX c).offNext then s.cellGone c
  else if s.cellState c = 1 then s
  else
    let b := s.cellNow c / slotNs (s.cellMu c) % 4
    let s1 := if s.cellState c = 4 then s else s.devWrite (s.ulBase c + 256 * b) 256 0
    if s.cellState c = 4 ∨ s.fhState (s.cellTarget c) ≠ 2 then s1.bumpFld (FEC_CELL_MISS c) 0 16 1 else s1)

/-! ### Sub-ports (R368) -/

/-- Put a sub-port into a state. -/
def State.setFh (s : State) (t st : Nat) : State :=
  if s.fhState t = st then s else (s.setFld (FH_PORT_STAT (t / 4)) (2 * (t % 4)) 2 st).event FH_EVENT t

/-- A command of a port: refused for a sub-port that its split does not have. -/
def State.fhCmd (s : State) (wr : Writer) (p sub : Nat) (f : State → State) : State :=
  s.mcOnly wr (FH_PORT_CMD p) (fun s => s.ungated (1 + p) (FH_PORT_CMD p) 0x1FF (fun s =>
    if s.fhExists (4 * p + sub) then f s else s.refuseReg (FH_PORT_CMD p)))

/-- R368: FH_PORT_CMD enables a sub-port: it is DOWN until its PCS has block lock. -/
def execFhPortCmdEnable (wr : Writer) (port : Fin 8) (sub : Fin 4) (s : State) : Host.Outcome State Fault Refusal :=
  let t := 4 * port.val + sub.val
  .next (s.fhCmd wr port.val sub.val (fun s =>
    if s.fhState t = 0 then (s.setFh t 1).answer stOk else s.answer stNop))

/-- R368: FH_PORT_CMD disables a sub-port. -/
def execFhPortCmdDisable (wr : Writer) (port : Fin 8) (sub : Fin 4) (s : State) : Host.Outcome State Fault Refusal :=
  let t := 4 * port.val + sub.val
  .next (s.fhCmd wr port.val sub.val (fun s =>
    if s.fhState t = 0 then s.answer stNop else (s.setFh t 0).answer stOk))

/-- R368: the PCS of an enabled sub-port gains or loses block lock. -/
def execSubportLinkChange (target : Fin 32) (up : Bool) (s : State) : Host.Outcome State Fault Refusal :=
  .next (if s.fhState target.val = 0 then s
  else s.setFh target.val (if up then 2 else 1))

/-- Loss of XCLK: every enabled sub-port is DOWN (R210, R368). -/
def State.fhDown (s : State) : State :=
  (List.range 32).foldl (fun (s : State) t => if s.fhState t = 0 then s else s.setFh t 1) s

end Sys2Proof.Machine
end

