-- ==== Sys2Proof/Machine/Part.lean ====
section
/-!
DEFINITION. Machine/Part.lean: partitions and instances (R397 to R416): the commands, instance resets, reclaim, teardown,
PRT_MODE, PRT_LC_INST, the host ports' links.
-/
namespace Sys2Proof.Machine

/-! ### Helpers -/

def State.pgen (s : State) (p : Nat) : Nat := s.fld (PRT_PART_STAT p) 3 16

/-- The logical numbers of the grade. -/
def State.allLcs (s : State) : List Nat := List.range s.grade.lcs

/-- Change a partition's state; a change sets its event (Table 15.12). -/
def State.setPartState (s : State) (p st : Nat) : State :=
  if s.partState p = st then s else (s.setFld (PRT_PART_STAT p) 0 3 st).event PRT_EVENT p

/-- pgen increments; the inbound enable and the peers are cleared (R402). -/
def State.bumpPgen (s : State) (p : Nat) : State :=
  let s := s.setFld (PRT_PART_STAT p) 3 16 (s.pgen p + 1)
  (List.range 64).foldl (fun (s : State) j => s.setReg (FAB_PEER p j) 0) (s.setFld (FAB_IN_CFG p) 0 1 0)

/-- Instances of a partition that are not FREE. -/
def State.partInsts (s : State) (p : Nat) : List Nat :=
  (List.range 512).filter (fun i => s.instState i != 0 && s.fld (PRT_INST i) 2 4 == p)

/-- Recount the instances in RUN. -/
def State.countRun (s : State) (p : Nat) : State :=
  s.setFld (PRT_PART_STAT p) 19 10 ((s.partInsts p).filter (fun i => s.instState i == 1)).length

/-- Bytes of a number, low first. -/
def natBytes (n v : Nat) : List Nat := tabulate n (fun i => bits v (8 * i) 8)

/-- Measurement 5 of a partition (Table 16.7). -/
def State.meas5 (s : State) (p : Nat) : Nat := (List.range 6).foldl (fun n j => n + s.reg (SEC_MEAS_PART p j) <<< (64 * j)) 0
def State.setMeas5 (s : State) (p v : Nat) : State :=
  (List.range 6).foldl (fun (s : State) j => s.setReg (SEC_MEAS_PART p j) (bits v (64 * j) 64)) s

/-- Measurement 5 starts again from the descriptor. -/
def State.startMeas5 (s : State) (p : Nat) : State := s.setMeas5 p (Config.sha384 (natBytes 32 (s.partDesc p)))

/-- The TDI of an instance (Table 16.10). -/
def State.tdiOf (s : State) (i : Nat) : Nat := Tbl.get 0 s.tdi i
def State.setTdi (s : State) (i v : Nat) : State := { s with tdi := Tbl.put 0 s.tdi i v }

/-- CONFIG_LOCKED and RUN fall to ERROR. -/
def State.tdiError (s : State) (i : Nat) : State := if s.tdiOf i = 1 ∨ s.tdiOf i = 2 then s.setTdi i 3 else s

/-! ### The reset of an instance (Table 15.6) -/

/-- The contexts that PRT_LC_INST tags with an instance: physical core and context. -/
def State.taggedBy (s : State) (i : Nat) : List (Nat × Ctx) :=
  s.allLcs.flatMap (fun n =>
    [Ctx.timed, Ctx.elastic].filterMap (fun x =>
      let f := match x with | .timed => s.fld (PRT_LC_INST n) 0 9 | .elastic => s.fld (PRT_LC_INST n) 9 9
      if f = i ∧ i ≠ 0x1FF ∧ s.physCtx n x ≠ noCore then some (s.physCtx n x, x) else none))

/-- Step 2: one tagged context. -/
def State.ctxReset (s : State) (pc : Nat) (x : Ctx) : State :=
  let s := (s.tqReset pc x stAbortedReset).meReset pc x
  ((s.vceReset pc 0 x).vceReset pc 1 x).tmeReset pc x

/-- Buffers granted to an instance return, its waiters leave (step 3, R179). -/
def State.poolsReset (s : State) (i : Nat) : State :=
  (s.pools.map (·.1)).foldl (fun (s : State) p =>
    let x := s.pool p
    let mine (o : PoolOwner) : Bool := o.inst == i
    let s := s.setPool p { x with waiters := x.waiters.filter (fun w => !(mine w)) }
    ((x.owners.filter (fun b => b.2.any mine)).map (·.1)).foldl (fun (s : State) b => s.poolGive p b) s) s

/-- Step 4: posted entries of an instance's rings are dropped; outstanding ones no longer match. -/
def State.ringsReset (s : State) (i : Nat) : State :=
  ((List.range 64).filter (fun r => s.fld (FAB_XR_CFG r) 0 1 == 1 && s.fld (FAB_XR_CFG r) 1 9 == i)).foldl (fun (s : State) r =>
    let s := s.setReg (FAB_XR_HEAD r) (s.reg (FAB_XR_TAIL r))
    { s with fab := { s.fab with disp := s.fab.disp.filter (fun d => d.1 / 256 != r) } }) s

def State.dmaQ (s : State) (i : Nat) : DmaQ := Tbl.get ({} : DmaQ) s.dma i
def State.setDmaQ (s : State) (i : Nat) (q : DmaQ) : State := { s with dma := Tbl.put ({} : DmaQ) s.dma i q }

/-- Crema slots close, and a command in progress writes nothing (R464). -/
def State.cremaReset (s : State) (i : Nat) : State :=
  let n := (s.crema.filter (fun c => c.1 / 4 == i && c.2.opened)).length
  let s := s.bumpFld SEC_CREMA_ABORT_CNT 0 32 n
  { s with crema := s.crema.filter (fun c => c.1 / 4 != i), cremaJobs := s.cremaJobs.filter (fun j => j.inst != i) }

/-- Steps 1 to 4 of Table 15.6. destroy: the reset ends as a destroy. -/
def State.instReset (s : State) (i : Nat) (destroy : Bool) : State :=
  let p := s.fld (PRT_INST i) 2 4
  let s := (s.setFld (PRT_INST i) 0 2 2).setFld (XLT_CTX i 0) 16 16 (s.instGen i + 1)
  let s := (s.countRun p).mbxInstReset i
  let ends := (List.range 16).filter (fun q => s.partState q != 0 && (
    let n := s.partFld q 49 9
    (match s.partCtx q with | .timed => s.fld (PRT_LC_INST n) 0 9 | .elastic => s.fld (PRT_LC_INST n) 9 9) == i))
  let s := ends.foldl (fun (s : State) q => s.mbxEpReset q) s
  let s := (s.cremaReset i).tdiError i
  let s := (s.taggedBy i).foldl (fun (s : State) c => s.ctxReset c.1 c.2) s
  let s := ((List.range 64).filter (fun q => s.fld (FEC_QCFG q) 0 1 == 1 && s.fecOwner q == i)).foldl
    (fun (s : State) q => s.fecQueueReset q) s
  let s := ((List.range 64).filter (fun e => s.fld (TM_ENQ_CFG e) 0 1 == 1 && s.tmOwner e == i)).foldl
    (fun (s : State) e => s.tmWinReset e) s
  let s := (s.gwReset i).brsOwnerReset i
  let d := s.dmaQ i
  let s := s.setDmaQ i { d with q := {}, gen := (d.gen + 1) % 65536, jobs := d.jobs.filter (fun j => !j.ended) }
  let s := ((s.poolsReset i).dropStale).ringsReset i
  if destroy ∧ s.dying.contains i = false then { s with dying := s.dying ++ [i] } else s

/-- Is work of an old generation of instance i still in the part (Table 15.6, steps 5 to 7)? -/
def State.instBusy (s : State) (i : Nat) : Bool :=
  let g := s.instGen i
  s.fec.units.any (fun u => match u.2 with
    | some (id, _) => s.fec.jobs.any (fun j => j.id == id && j.inst == i && j.gen != g)
    | none => false)
    || s.fab.tags.any (fun t => match t.2 with | some u => u.req.inst == i && u.req.gen != g | none => false)
    || !(s.dmaQ i).jobs.isEmpty

/-! ### Ends: teardown (R413) -/

/-- The end of a teardown, once every instance of p is FREE. -/
def State.teardownEnd (s : State) (p : Nat) : State :=
  if (s.partSt p).tearing = false ∨ (s.partInsts p).isEmpty = false then s
  else
    let mine := (List.range 64).filter (fun k => s.fld (MEM_POOL_CFG k) 24 4 == p)
    let s := mine.foldl (fun (s : State) k =>
      ((s.pool k).owners.map (·.1)).foldl (fun (s : State) b => s.poolGive k b) s) s
    let s := (s.keyDrop (513 + p)).setPartSt p { s.partSt p with tearing := false }
    let s := ((s.setPartState p 6).bumpPgen p).setMeas5 p 0
    s.setReg (PRT_RECLAIM_AT p) 0

/-- Nothing waits for an instance any more. -/
def State.forgetInst (s : State) (i : Nat) : State :=
  { s with dying := s.dying.filter (fun j => j != i), notices := Tbl.put [] s.notices i [] }

/-- Step 7 for a destroy: mappings and regions go, the context record is no longer valid, its key is destroyed. -/
def State.instFree (s : State) (i : Nat) : State :=
  let p := s.fld (PRT_INST i) 2 4
  let s := s.keyDrop (i + 1)
  let s := (s.regions.filter (fun r => r.inst == i)).foldl (fun (s : State) r => s.freeRegion r) s
  let s := s.invApply { op := 1, inst := i, addr := 0, size := 0 }
  let s := s.setFld (XLT_CTX i 0) 0 1 0
  let s := (s.setReg (PRT_INST i) 0).setTdi i 0
  let s := (s.setWreg i 0x0118 0).setMsix i {}
  ((s.forgetInst i).countRun p).teardownEnd p

/-- R408, step 7: a reset of an instance ends once nothing of the old generation is left. -/
def execInstanceResetEnd (inst : Fin 512) (s : State) : Host.Outcome State Fault Refusal :=
  let i := inst.val
  .next (if s.instState i ≠ 2 ∨ s.instBusy i then s
  else if s.dying.contains i then s.instFree i
  else ((s.setFld (PRT_INST i) 0 2 1).countRun (s.fld (PRT_INST i) 2 4)).notify i 0x23 (s.instGen i))

/-! ### Partition commands (R400, R403) -/

/-- A command ends with a status. -/
def State.prtDone (s : State) (st : Nat) (cause : Nat := 0) : State :=
  ((s.setFld PRT_CMD_STATUS 1 8 st).event PRT_EVENT 17).answer st cause

/-- A command refused with STATE. -/
def State.prtRefuse (s : State) : State :=
  ((s.bump PRT_REFUSE_CNT).refuseReg PRT_CMD).prtDone stState

/-- The checks every command passes (R403); f is the command. -/
def State.prtCommand (s : State) (p : Nat) (chk : Option Nat) (from_ : List Nat) (f : State → State) : State :=
  if s.fld PRT_CMD_STATUS 0 1 = 1 then s.prtRefuse
  else if chk.any (fun g => g != s.pgen p) then (s.bump PRT_STALE_CNT).prtDone stAbortedGen
  else if from_.contains (s.partState p) = false then s.prtRefuse
  else f s

/-- Partitions that are not ABSENT, other than p. -/
def State.others (s : State) (p : Nat) : List Nat := (List.range 16).filter (fun q => q != p && s.partState q != 0)

def overlap (a n b m : Nat) : Bool := decide (a < b + m) && decide (b < a + n)

/-- Row 2 of Table 15.2. -/
def State.partBad (s : State) (p : Nat) : Bool :=
  let f := s.partFld p
  let first := f 8 9
  let n := f 17 9
  f 2 6 != 0 || f 58 6 != 0 || f 112 16 != 0 || f 156 36 != 0
    || n == 0 || f 35 10 == 0 || f 45 4 == 0 || decide (s.grade.lcs < first + n) || decide (512 < f 26 9 + f 35 10)
    || decide (f 49 9 < first) || decide (first + n ≤ f 49 9) || decide (8 < f 128 4) || (f 0 1 == 0 && f 140 16 != 0)

/-- Row 3. -/
def State.partClash (s : State) (p : Nat) : Bool :=
  (s.others p).any (fun q =>
    (s.partTimed q == s.partTimed p && overlap (s.partFld p 8 9) (s.partFld p 17 9) (s.partFld q 8 9) (s.partFld q 17 9))
      || overlap (s.partFld p 26 9) (s.partFld p 35 10) (s.partFld q 26 9) (s.partFld q 35 10))

/-- Row 4. -/
def State.partShort (s : State) (p : Nat) : Bool :=
  let all := p :: s.others p
  let sum (lo w : Nat) : Nat := all.foldl (fun n q => n + s.partFld q lo w) 0
  let c := s.localGib
  decide (8 * (48 - c) - 20 < sum 64 10)
    || (List.range 4).any (fun d => decide (2 * c < sum (74 + 7 * d) 7))
    || decide (960 < sum 102 10)
    || (List.range 64).any (fun u => decide (s.clusterLimit < all.foldl (fun n q => n + s.share q 2 false u) 0))
    || (s.partTimed p && decide (s.fld PWR_TIMED_BUDGET 0 12 <
          (all.filter s.partTimed).foldl (fun n q => n + s.partFld q 140 16) 0))

/-- A key is needed: STATE when the generator fails its health test (R450). -/
def State.withKey (s : State) (rng : Bool) (k : Nat) (f : State → State) : State :=
  if rng then f (s.keyMake k) else (s.event SEC_EVENT 8).prtRefuse

/-- CREATE (Table 15.2). -/
def State.partCreate (s : State) (p : Nat) (rng : Bool) : State :=
  if s.partBad p ∨ s.partClash p then s.prtRefuse
  else if s.partShort p then s.prtDone stRefusedCapacity
  else s.withKey rng (513 + p) (fun s =>
    ((((s.bumpPgen p).setPartState p (if s.partTimed p then 2 else 3)).startMeas5 p).setPartSt p {}).prtDone stOk)

/-- RESET: every instance in RUN is reset; those that are RESETTING go on (R409). -/
def State.partReset (s : State) (p : Nat) : State :=
  let run := (s.partInsts p).filter (fun i => s.instState i == 1)
  ((run.foldl (fun (s : State) i => s.instReset i false) s).bumpPgen p).prtDone stOk

/-- Barista groups of a partition in one of the states given move to another. -/
def State.partGroups (s : State) (p : Nat) (old : List Nat) (new : Nat) : State :=
  ((List.range 64).filter (fun g => s.grpPart g == p && old.contains (s.grpState g))).foldl
    (fun (s : State) g => s.setGrpState g new) s

/-- RECLAIM (R412). -/
def State.partReclaim (s : State) (p : Nat) : State :=
  if s.partTimed p then s.prtRefuse
  else
    let t := (s.nowNs + s.fld PRT_RECLAIM_CFG 0 12 * 1000000000) % 2 ^ 64
    let s := (s.setPartState p 4).setReg (PRT_RECLAIM_AT p) t
    let s := s.setPartSt p { s.partSt p with acks := [], tearing := false }
    let s := (s.partInsts p).foldl (fun (s : State) i => (s.setWreg i 0x0118 t).notify i 0x20 t) s
    (s.partGroups p [1, 2, 3] 4).prtDone stOk

/-- CANCEL. -/
def State.partCancel (s : State) (p : Nat) : State :=
  let s := ((s.setPartState p 2).setReg (PRT_RECLAIM_AT p) 0).partGroups p [4] 1
  ((s.partInsts p).foldl (fun (s : State) i => (s.setWreg i 0x0118 0).notify i 0x22 0) s).prtDone stOk

/-- ASSIGN. -/
def State.partAssign (s : State) (p : Nat) (rng : Bool) : State :=
  s.withKey rng (513 + p) (fun s => ((s.setPartState p 2).startMeas5 p).prtDone stOk)

/-- Does an enabled configuration of another block name p (Table 15.4, RECOVER)? -/
def State.partNamed (s : State) (p : Nat) : Bool :=
  let on (n : Nat) (reg : Nat → Nat) (lo : Nat) : Bool :=
    (List.range n).any (fun k => s.fld (reg k) 0 1 == 1 && s.fld (reg k) lo 4 == p)
  (List.range 256).any (fun c => s.cellState c != 0 && s.cellPart c == p)
    || on 16 CGL_LIST_CFG 1 || on 64 FEC_QCFG 10 || on 64 TM_ENQ_CFG 10 || on 64 FAB_XR_CFG 10 || on 64 FAB_XI_CFG 1
    || on 64 MEM_POOL_CFG 24
    || s.regs.any (fun r => decide (TM_QCFG 0 ≤ r.1) && decide (r.1 < TM_QCFG 16384) && (r.1 - TM_QCFG 0) % 0x20 == 0
          && bit r.2 0 && bits r.2 37 4 == p)

/-- RECOVER. -/
def State.partRecover (s : State) (p : Nat) : State :=
  if (s.partInsts p).isEmpty = false ∨ s.partNamed p then s.prtRefuse else (s.setPartState p 1).prtDone stOk

/-- DESTROY: the shares are cleared, then the partition is ABSENT. -/
def State.partDestroy (s : State) (p : Nat) : State :=
  if s.partNamed p ∨ (List.range 64).any (fun g => s.grpState g != 0 && s.grpPart g == p) then s.prtRefuse
  else
    let s := s.setPartSt p { s.partSt p with destroying := true }
    (((s.setPartState p 6).bumpPgen p).setMeas5 p 0).prtDone stOk

/-! ### Instance commands (R404 to R409) -/

/-- Does the function of an instance exist on its port with the link up (R416, R501)? -/
def State.fnPresent (s : State) (port fn : Nat) : Bool :=
  s.fld (PRT_HPORT_STAT port) 0 1 == 1 && s.fld (PRT_HPORT_STAT port) 19 1 == 1
    && decide (1 ≤ fn) && decide (fn ≤ s.fld (PRT_HPORT_STAT port) 9 10)

/-- log2 of the page of a code (Table 6.3). -/
def pageLg (code : Nat) : Nat := if code = 0 then 16 else if code = 1 then 21 else 30

/-- May the firmware map a grant for partition p: scratch of its class on its cores, a cluster of its, HBM or Silo that no region
holds (R184)? -/
def State.grantOk (s : State) (p i : Nat) (m : Grant) : Bool :=
  let b := m.base.toNat
  let lg := pageLg m.page.toNat
  let n := m.pages * 2 ^ lg
  let v := m.va.toNat
  let free := s.regions.all (fun r => decide (3 ≤ r.tier) || !(overlap b n r.base r.size))
  m.page.toNat != 3 && m.pages != 0 && b % 2 ^ lg == 0 && v % 2 ^ lg == 0 && decide (0x400000 ≤ v) && decide (v + n ≤ 2 ^ 48)
    && s.regions.all (fun r => r.inst != i || !(overlap v n r.va r.size))
    && (match s.tierOf b, s.tierOf (b + n - 1) with
      | .scratch l o, .scratch l' o' => l == l' && s.partHasLc p l && ctxAt o == s.partCtx p && ctxAt o' == s.partCtx p
      | .cluster u, .cluster u' => u == u' && s.share p 2 false u != 0 && free
      | .hbm, .hbm => free && decide (4 * gib ≤ b)
      | .silo, .silo => free
      | _, _ => false)

/-- Map a grant at an instance's creation. -/
def State.mapGrant (s : State) (p i : Nat) (m : Grant) : State :=
  let b := m.base.toNat
  let lg := pageLg m.page.toNat
  let n := m.pages * 2 ^ lg
  if s.grantOk p i m = false then s
  else
    let t : Nat × Bool × Nat := match s.tierOf b with
      | .scratch _ _ => (5, false, 0)
      | .cluster u => (2, false, u)
      | .silo => (1, false, 0)
      | _ => if b < 0x008000000000 then (0, false, 0) else (0, true, b % 0x008000000000 / 0x002000000000)
    match s.bindKey p i t.1 b n with
    | none => s
    | some s =>
      let s := s.mapPages i m.va.toNat lg (fun k => localLeaf (b + k * 2 ^ lg) (s.partFld p 1 1 == 1)) m.pages
      { s with regions := s.regions ++ [({ inst := i, va := m.va.toNat, size := n, tier := t.1, local_ := t.2.1, unit := t.2.2,
                                           base := b, lg := lg } : Region)] }

/-- May instance i of partition p be created with argument arg (R404, Table 15.4)? -/
def State.instCreatable (s : State) (p i arg : Nat) : Bool :=
  let port := bits arg 0 2
  let fn := bits arg 2 10
  !(decide (i < s.partFld p 26 9) || decide (s.partFld p 26 9 + s.partFld p 35 10 ≤ i) || s.instState i != 0 || !(bit (s.partFld p 45 4) port)
    || fn == 0 || decide (512 < fn) || bits arg 13 51 != 0
    || (List.range 512).any (fun j => s.instState j != 0 && s.fld (PRT_INST j) 6 2 == port && s.fld (PRT_INST j) 8 10 == fn)
    || (bit arg 12 && s.fld PRT_MODE 0 2 != 0))

/-- Instance i comes into being: an empty root table, its context and instance registers, its grants mapped. -/
def State.instMake (s : State) (p i arg : Nat) (grants : List Grant) : State :=
  let port := bits arg 0 2
  let fn := bits arg 2 10
  let t := s.newTable 4096
  let s := t.2
  let s := s.setReg (XLT_CTX i 0) (1 + 2 * p + 32 * b2n (s.partTimed p) + s.instGen i <<< 16 + (bits t.1 8 32) <<< 32)
  let s := s.setReg (XLT_CTX i 1) (bits t.1 40 8)
  let s := s.setReg (PRT_INST i) (1 + p <<< 2 + port <<< 6 + fn <<< 8 + (b2n (bit arg 12)) <<< 18 + (b2n (!(s.fnPresent port fn))) <<< 19)
  grants.foldl (fun (s : State) m => s.mapGrant p i m) s

/-- INST_CREATE (R404); arg is PRT_CMD_ARG. -/
def State.instCreate (s : State) (p i arg : Nat) (rng : Bool) (grants : List Grant) : State :=
  if s.instCreatable p i arg = false then s.prtRefuse
  else s.withKey rng (i + 1) (fun s => ((s.instMake p i arg grants).countRun p).prtDone stOk)

/-- INST_RESET and INST_DESTROY: the instance belongs to p and is in RUN. -/
def State.instCommand (s : State) (p i : Nat) (destroy : Bool) : State :=
  if s.instState i ≠ 1 ∨ s.fld (PRT_INST i) 2 4 ≠ p then s.prtRefuse else (s.instReset i destroy).prtDone stOk

/-- A partition command by its op (Table 15.4). -/
def State.partCommand (s : State) (op p i : Nat) (chk : Option Nat) (arg : Nat) (rng : Bool) (grants : List Grant) : State :=
  match op with
  | 1 => s.prtCommand p chk [0, 1] (fun s => s.partCreate p rng)
  | 2 => s.prtCommand p chk [2, 4] (fun s => s.partReset p)
  | 3 => s.prtCommand p chk [2] (fun s => s.partReclaim p)
  | 4 => s.prtCommand p chk [4] (fun s => s.partCancel p)
  | 5 => s.prtCommand p chk [3] (fun s => s.partAssign p rng)
  | 6 => s.prtCommand p chk [0, 2, 3] (fun s => s.partRecover p)
  | 7 => s.prtCommand p chk [1] (fun s => s.partDestroy p)
  | 8 => s.prtCommand p chk [2] (fun s => s.instCreate p i arg rng grants)
  | 9 => s.prtCommand p chk [2, 4, 5] (fun s => s.instCommand p i false)
  | 10 => s.prtCommand p chk [1, 2, 4, 5] (fun s => s.instCommand p i true)
  | _ => s.prtRefuse

/-- A write of PRT_CMD: only the management cores may (R426). -/
def State.prtWrite (s : State) (c : PrtCmd) (op i : Nat) (rng : Bool := true) (grants : List Grant := []) : State :=
  s.mcOnly c.wr PRT_CMD (fun s =>
    s.partCommand op c.part.val i (c.pgen.map (·.toNat)) (s.reg PRT_CMD_ARG) rng grants)

def execCreate (c : PrtCmd) (rng : Bool) (s : State) : Host.Outcome State Fault Refusal := .next (s.prtWrite c 1 0 rng)
def execReset (c : PrtCmd) (s : State) : Host.Outcome State Fault Refusal := .next (s.prtWrite c 2 0)
def execReclaim (c : PrtCmd) (s : State) : Host.Outcome State Fault Refusal := .next (s.prtWrite c 3 0)
def execPartCancel (c : PrtCmd) (s : State) : Host.Outcome State Fault Refusal := .next (s.prtWrite c 4 0)
def execAssign (c : PrtCmd) (rng : Bool) (s : State) : Host.Outcome State Fault Refusal := .next (s.prtWrite c 5 0 rng)
def execRecover (c : PrtCmd) (s : State) : Host.Outcome State Fault Refusal := .next (s.prtWrite c 6 0)
def execDestroy (c : PrtCmd) (s : State) : Host.Outcome State Fault Refusal := .next (s.prtWrite c 7 0)
def execInstCreate (c : PrtCmd) (inst : Fin 512) (rng : Bool) (grants : List Grant) (s : State) :
    Host.Outcome State Fault Refusal := .next (s.prtWrite c 8 inst.val rng grants)
def execInstReset (c : PrtCmd) (inst : Fin 512) (s : State) : Host.Outcome State Fault Refusal := .next (s.prtWrite c 9 inst.val)
def execInstDestroy (c : PrtCmd) (inst : Fin 512) (s : State) : Host.Outcome State Fault Refusal := .next (s.prtWrite c 10 inst.val)

/-- R403: a write of PRT_MODE. -/
def execPrtModeWrite (wr : Writer) (mode : BitVec 2) (s : State) : Host.Outcome State Fault Refusal :=
  let m := mode.toNat
  .next (s.mcOnly wr PRT_MODE (fun s =>
    let now := s.fld PRT_MODE 0 2
    let no := (s.bump PRT_REFUSE_CNT).refuseReg PRT_MODE
    if m = 3 then no
    else if m = now then s.answer stNop
    else if s.locked = false then (if m = 1 then no else (s.setFld PRT_MODE 0 2 m).answer stOk)
    else if m = 0 then no
    else if m = 2 ∧ (List.range 16).any (fun p => !([0, 1, 3].contains (s.partState p))) then no
    else (s.setFld PRT_MODE 0 2 m).answer stOk))

/-- May context x of LCn be tagged with instance i (R410)? -/
def State.tagAllowed (s : State) (n : Nat) (x : Ctx) (i : Nat) : Bool :=
  (i == 0x1FF || (s.instValid i && s.lcPart n x == some (s.instPart i)))
    && (s.physCtx n x == noCore || !(s.ctx (s.physCtx n x) x).busy)

/-- R410: a write of PRT_LC_INST. -/
def execPrtLcInstWrite (wr : Writer) (lc : Fin 480) (t e : BitVec 9) (s : State) : Host.Outcome State Fault Refusal :=
  let n := lc.val
  .next (s.mcOnly wr (PRT_LC_INST n) (fun s =>
    if (t.toNat ≠ s.fld (PRT_LC_INST n) 0 9 ∧ s.tagAllowed n .timed t.toNat = false)
        ∨ (e.toNat ≠ s.fld (PRT_LC_INST n) 9 9 ∧ s.tagAllowed n .elastic e.toNat = false) then
      (s.bump PRT_REFUSE_CNT).refuseReg (PRT_LC_INST n)
    else (s.setFld (PRT_LC_INST n) 0 18 (t.toNat + e.toNat <<< 9)).answer stOk))

/-! ### Reclaim (R412 to R414) -/

/-- R413: at t_r the partition is DRAINING, and its groups end at their next boundaries. -/
def execReclaimInstant (part : Fin 16) (ticks : BitVec 64) (s : State) : Host.Outcome State Fault Refusal :=
  let s := s.elapse ticks.toNat
  let p := part.val
  .next (if s.partState p ≠ 4 ∨ s.reached (s.reg (PRT_RECLAIM_AT p)) = false then s
  else
    let s := s.setPartState p 5
    ((List.range 64).filter (fun g => s.grpState g != 0 && s.grpPart g == p)).foldl
      (fun (s : State) g => s.setBrsGrp g { s.brsGrp g with reclaim := true }) s)

/-- May the teardown of p start: its grace has passed, or every group is gone and every instance in RUN has acknowledged? -/
def State.tearReady (s : State) (p : Nat) : Bool :=
  s.reached (s.reg (PRT_RECLAIM_AT p) + s.fld PRT_RECLAIM_CFG 12 16 * 1000000)
    || ((List.range 64).all (fun g => s.grpState g == 0 || s.grpPart g != p)
      && (s.partInsts p).all (fun i => s.instState i != 1 || (s.partSt p).acks.contains i))

/-- Teardown starts: every instance of p is reset, to be destroyed. -/
def State.tearStart (s : State) (p : Nat) : State :=
  let s := s.setPartSt p { s.partSt p with tearing := true }
  ((s.partInsts p).foldl (fun (s : State) i =>
    if s.instState i = 1 then s.instReset i true
    else if s.dying.contains i then s else { s with dying := s.dying ++ [i] }) s).teardownEnd p

/-- R413: teardown starts when its grace has passed, or every group is gone and every instance in RUN has acknowledged. -/
def execTeardown (part : Fin 16) (ticks : BitVec 64) (s : State) : Host.Outcome State Fault Refusal :=
  let s := s.elapse ticks.toNat
  let p := part.val
  .next (if s.partState p ≠ 5 ∨ (s.partSt p).tearing ∨ s.tearReady p = false then s else s.tearStart p)

/-- The bytes of p's shares: what its freed regions held, its pools, and its class's scratch on its cores (R414). -/
def State.zeroShares (s : State) (p : Nat) : State :=
  let s := (s.partSt p).freed.foldl (fun (s : State) r =>
    if s.regions.any (fun q => decide (q.tier < 3) && overlap r.1 r.2 q.base q.size) then s else s.devZero r.1 r.2) s
  let s := ((List.range 64).filter (fun k => s.fld (MEM_POOL_CFG k) 0 1 == 1 && s.fld (MEM_POOL_CFG k) 24 4 == p)).foldl
    (fun (s : State) k => s.devZero (s.poolCfg k).2.2.2.1 ((s.poolCfg k).2.1 * (s.poolCfg k).2.2.1)) s
  let x := s.partCtx p
  (s.allLcs.filter (fun n => s.partHasLc p n && s.physCtx n x != noCore)).foldl (fun (s : State) n =>
    let c := s.physCtx n x
    s.setCore c { s.core c with scr := (s.core c).scr.zero (scrLo x) (scrHi x - scrLo x) }) s

/-- R414: ZEROING ends. -/
def execZeroingDone (part : Fin 16) (s : State) : Host.Outcome State Fault Refusal :=
  let p := part.val
  .next (if s.partState p ≠ 6 then s
  else
    let d := (s.partSt p).destroying
    let s := (s.zeroShares p).setPartSt p {}
    (s.setPartState p (if d then 0 else 3)).event PRT_EVENT 16)

/-! ### Host ports (R415, R416, R501, R512) -/

/-- Instances bound to a port. -/
def State.portInsts (s : State) (h : Nat) : List Nat :=
  (List.range 512).filter (fun i => s.instState i != 0 && s.fld (PRT_INST i) 6 2 == h)

/-- detached of the instances of a port follows the link and the functions; an instance that detaches sends its TDI to ERROR, one
that attaches sends the vectors that are pending. -/
def State.attach (s : State) (h : Nat) : State :=
  (s.portInsts h).foldl (fun (s : State) i =>
    let off := !(s.fnPresent h (s.fld (PRT_INST i) 8 10))
    let was := s.detached i
    let s := s.setFld (PRT_INST i) 19 1 (b2n off)
    if off ∧ was = false then s.tdiError i
    else if was ∧ off = false then ((s.msixOf i).pend).foldl (fun (s : State) v => s.msixSend i v) s
    else s) s

/-- An IDE stream of a port is lost: the TDIs bound to it fall to ERROR (Table 16.10). -/
def State.streamLost (s : State) (h k : Nat) : State :=
  let s := { s with ide := Tbl.put 0 s.ide (256 * h + k) 0 }
  ((s.tdiStream.filter (fun p => p.2 == k && s.fld (PRT_INST p.1) 6 2 == h)).map (·.1)).foldl (fun (s : State) i => s.tdiError i) s

/-- The link of a port goes down (R416), and its IDE streams with it. -/
def State.portDown (s : State) (h : Nat) : State :=
  let s := ((s.ide.filter (fun p => p.1 / 256 == h)).map (·.1)).foldl (fun (s : State) k => s.streamLost h (k % 256)) s
  let s := s.setReg (PRT_HPORT_STAT h) (bits (s.reg (PRT_HPORT_STAT h)) 9 11 <<< 9)
  (s.bump (PRT_HPORT_DOWN_CNT h)).attach h

/-- R416: link-down, or a conventional or hot reset, of a host port. -/
def execHostLinkDown (port : Fin 4) (s : State) : Host.Outcome State Fault Refusal := .next (s.portDown port.val)

/-- R416: the link of a host port is up: rate, width, flit mode. A port whose strap HP_EN is 0 stays idle (R522). -/
def execHostLinkUp (port : Fin 4) (rate : Fin 7) (width : BitVec 5) (flit : Bool) (s : State) : Host.Outcome State Fault Refusal :=
  let h := port.val
  .next (if s.fld CLK_EN_HUB (11 + h) 1 = 0 ∨ rate.val = 0 ∨ bit s.boot.hpEn h = false then s
  else
    let old := bits (s.reg (PRT_HPORT_STAT h)) 9 11 <<< 9
    (s.setReg (PRT_HPORT_STAT h) (old + 1 + rate.val <<< 1 + width.toNat <<< 4 + (b2n flit) <<< 20)).attach h)

/-- R408, R409, R501: a function-level reset of a VF. -/
def execFunctionLevelReset (port : Fin 4) (fn : BitVec 10) (s : State) : Host.Outcome State Fault Refusal :=
  let h := port.val
  .next (if fn.toNat = 0 ∨ 512 < fn.toNat then s
  else
    let s := s.bump (PRT_HPORT_FLR_CNT h)
    match (s.portInsts h).find? (fun i => s.fld (PRT_INST i) 8 10 == fn.toNat) with
    | none => s
    | some i =>
      let s := if s.instState i = 1 then s.instReset i false else s
      (s.setMsix i {}).setTdi i 0)

/-! ### Management-core codes of an instance (Table 15.11) -/

/-- A STATE answer to a message code. -/
def State.codeState (s : State) (code i : Nat) : State := (s.refuseLog 9 code i 0x1FF).answer stState

/-- A violation by a message (R206). -/
def State.codeViolation (s : State) (i cause addr : Nat) : State :=
  (s.charge { addr := addr, status := stFaultAccess, cause := cause, unit := uReg, inst := i, gen := s.instGen i }).answer
    stFaultAccess cause

/-- The instance whose message the management cores carry out is in RUN; the others change nothing. -/
def State.fromInst (s : State) (i : Nat) (f : State → State) : State := if s.instState i = 1 then f s else s

/-- R424, code 0x03: the instance resets itself; RESET_DONE follows. -/
def execMbxInstReset (inst : Fin 512) (s : State) : Host.Outcome State Fault Refusal :=
  .next (s.fromInst inst.val (fun s => s.instReset inst.val false))

/-- R424, code 0x04. -/
def execInstQuery (inst : Fin 512) (s : State) : Host.Outcome State Fault Refusal :=
  let i := inst.val
  let p := s.instPart i
  .next (s.fromInst i (fun s => s.answer stOk 0
    [s.instState i + s.instGen i <<< 2 + s.partState p <<< 18 + (b2n (s.detached i)) <<< 21, s.reg (PRT_RECLAIM_AT p)]))

/-- The device-local address of an instance address, by a walk of the management cores; a fault's status and cause otherwise. -/
def State.mcXlate (s : State) (i va : Nat) (acc : Access) : Except (Nat × Nat) Nat :=
  if 2 ^ 48 ≤ va then .error (stFaultAccess, cOutOfRange)
  else match s.walk i va with
    | .fault st c _ _ _ => .error (st, c)
    | .leaf e lg _ _ => match s.useLeaf i va acc e lg (levelOf lg) with
      | .ok (.local a) _ _ => .ok a
      | .ok (.fabric _ _ _) _ _ => .error (stState, 0)
      | .miss => .error (stFaultXlat, cUnmapped)
      | .fault st c _ => .error (st, c)

/-- Every 64 KiB page of [va, va + n) translated: pieces with their bytes, or the first fault. -/
def State.mcSpan (s : State) (i : Nat) (acc : Access) : Nat → Nat → Nat → Except (Nat × Nat) (List (Nat × Nat))
  | 0, _, _ => .ok []
  | fuel + 1, va, n =>
    if n = 0 then .ok []
    else
      let m := min n (65536 - va % 65536)
      match s.mcXlate i va acc with
      | .error e => .error e
      | .ok a => match s.mcSpan i acc fuel (va + m) (n - m) with
        | .error e => .error e
        | .ok l => .ok ((a, m) :: l)

/-- The bytes of pieces, low first, and whether any is poisoned. -/
def State.spanBytes (s : State) (l : List (Nat × Nat)) : List Nat × Bool :=
  l.foldl (fun a p =>
    let r := s.devLoad p.1 p.2
    (a.1 ++ natBytes p.2 r.1, a.2 || r.2)) ([], false)

/-- The counts of reading pieces. -/
def State.spanChecked (s : State) (l : List (Nat × Nat)) : State := l.foldl (fun (s : State) p => s.devChecked p.1 p.2) s

/-- A message code meets a fault on the sender's addresses (R197). -/
def State.codeFault (s : State) (i va : Nat) (e : Nat × Nat) : State :=
  if e.1 = stState then s.codeState 0 i
  else (s.charge { addr := va, status := e.1, cause := e.2, unit := uReg, inst := i, gen := s.instGen i }).answer e.1 e.2

/-- The image of len bytes at base is a context's program image, and partition p's measurement takes it in (R448). -/
def State.progNote (s : State) (p lc : Nat) (elastic : Bool) (base len : Nat) (bytes : List Nat) : State :=
  let h := Config.sha384 bytes
  let m := Config.sha384 (natBytes 48 (s.meas5 p) ++ natBytes 48 h ++ natBytes 2 lc ++ natBytes 1 (b2n elastic))
  ({ s with progImages := Tbl.put (0, 0) s.progImages (2 * lc + b2n elastic) (base, len) }.setMeas5 p m).answer stOk

/-- R424, R448, code 0x05: register a program image. -/
def execProgReg (inst : Fin 512) (d : BitVec 384) (s : State) : Host.Outcome State Fault Refusal :=
  let i := inst.val
  let v := d.toNat
  let lc := bits v 0 9
  let x : Ctx := if bit v 9 then .elastic else .timed
  let va := bits v 64 48
  let len := bits v 128 18
  let cap := (pmBytes x).2 - (pmBytes x).1
  .next (s.fromInst i (fun s =>
    if bits v 10 54 ≠ 0 ∨ bits v 112 16 ≠ 0 ∨ v >>> 146 ≠ 0 then s.codeState 0x05 i
    else if len = 0 then s.answer stNop
    else if len % 64 ≠ 0 ∨ cap < len ∨ s.grade.lcs ≤ lc then s.codeState 0x05 i
    else if s.lcPart lc x ≠ some (s.instPart i) then s.codeViolation i cWrongOwner va
    else match s.mcSpan i .read 5 va len with
      | .error e => s.codeFault i va e
      | .ok l =>
        let r := s.spanBytes l
        let p := s.instPart i
        let s := s.spanChecked l
        if r.2 then s.answer stPoison
        else s.progNote p lc (bit v 9) ((l.head?.map (·.1)).getD 0) len r.1))

/-- R184, code 0x06: map remote pages with fabric leaves. -/
def execMapRemote (inst : Fin 512) (d : BitVec 384) (s : State) : Host.Outcome State Fault Refusal :=
  let i := inst.val
  let v := d.toNat
  let lg := pageLg (bits v 48 2)
  let n := bits v 64 32
  let frame := bits v 112 48
  .next (s.fromInst i (fun s =>
    if bits v 0 48 ≠ 0 ∨ bits v 50 14 ≠ 0 ∨ v >>> 163 ≠ 0 ∨ bits v 48 2 = 3 then s.codeState 0x06 i
    else if n = 0 then s.answer stNop
    else if frame % 2 ^ lg ≠ 0 then s.codeState 0x06 i
    else
      let va := s.freeVa i (n * 2 ^ lg) lg
      if 2 ^ 48 < va + n * 2 ^ lg then s.answer stRefusedCapacity
      else
        let s := s.mapPages i va lg (fun k => fabricLeaf (frame + k * 2 ^ lg) (bits v 96 12) (bits v 108 4) (bit v 160) (bit v 161) (bit v 162)) n
        ({ s with regions := s.regions ++ [({ inst := i, va := va, size := n * 2 ^ lg, tier := 4, local_ := false, unit := 0,
                                              base := frame, lg := lg } : Region)] }).answer stOk 0 [va]))

/-- R288, code 0x07: add a peer entry. -/
def execGrantPeer (inst : Fin 512) (d : BitVec 384) (s : State) : Host.Outcome State Fault Refusal :=
  let i := inst.val
  let p := s.instPart i
  let v := d.toNat
  .next (s.fromInst i (fun s =>
    if v >>> 32 ≠ 0 then s.codeState 0x07 i
    else match (List.range 64).find? (fun j => s.fld (FAB_PEER p j) 32 1 == 0) with
      | none => s.answer stRefusedCapacity
      | some j => (s.setReg (FAB_PEER p j) (v + 1 <<< 32)).answer stOk 0 [j]))

/-- R288, code 0x08: remove a peer entry. -/
def execRevokePeer (inst : Fin 512) (d : BitVec 384) (s : State) : Host.Outcome State Fault Refusal :=
  let i := inst.val
  let v := d.toNat
  .next (s.fromInst i (fun s =>
    if 64 ≤ v then s.codeState 0x08 i else (s.setReg (FAB_PEER (s.instPart i) v) 0).answer stOk))

/-- R413, code 0x09. -/
def execReclaimAck (inst : Fin 512) (s : State) : Host.Outcome State Fault Refusal :=
  let i := inst.val
  let p := s.instPart i
  .next (s.fromInst i (fun s =>
    if s.partState p ≠ 4 ∧ s.partState p ≠ 5 then s.codeState 0x09 i
    else
      let x := s.partSt p
      (s.setPartSt p { x with acks := if x.acks.contains i then x.acks else x.acks ++ [i] }).answer stOk))

/-- R403, code 0x30: a partition command of an operator instance. -/
def execPartCmd (inst : Fin 512) (d : BitVec 384) (rng : Bool) (grants : List Grant) (s : State) :
    Host.Outcome State Fault Refusal :=
  let i := inst.val
  let v := d.toNat
  .next (s.fromInst i (fun s =>
    if s.fld (PRT_INST i) 18 1 = 0 then s.codeViolation i cPrivilege (0x030000000000 + PRT_CMD)
    else if bits v 18 14 ≠ 0 ∨ bits v 48 16 ≠ 0 ∨ v >>> 128 ≠ 0 then s.codeState 0x30 i
    else s.partCommand (bits v 0 4) (bits v 4 4) (bits v 8 9) (if bit v 17 then some (bits v 32 16) else none) (bits v 64 64) rng grants))

end Sys2Proof.Machine
end

