-- ==== Sys2Proof/Machine/Dma.lean ====
section
/-!
DEFINITION. Machine/Dma.lean: host DMA (R195, R196, R199), and the completion of gateway descriptors (R302).
-/
namespace Sys2Proof.Machine

/-! ### Descriptors (Table 7.6) -/

def dmaHost (d : Nat) : Nat := bits d 64 64
def dmaDev (d : Nat) : Nat := bits d 128 64
def dmaLen (d : Nat) : Nat := bits d 192 32
def dmaCmpl (d : Nat) : Nat := bits d 224 64

def dmaReserved (d : Nat) : Bool :=
  bits d 10 6 != 0 || bits d 48 16 != 0 || bits d 288 224 != 0 || (bits d 0 8 != 1 && bits d 0 8 != 2)

/-- The completion record of 16 bytes (R196, R302). -/
def dmaRecord (d status cause attn done : Nat) : Nat :=
  bits d 16 16 + (bits d 32 16) <<< 16 + (statusWord status cause attn) <<< 32 + (bits done 0 32) <<< 64

/-- A STATE completion of a DMA descriptor (R510). -/
def State.dmaState (s : State) (i code : Nat) : State := s.refuseLog 4 code i 0x1FF

/-- Take the head of the queue when it is of an opcode, or reserved: the checks of R195, in order. One descriptor of a queue runs
at a time. bad: bad parity met by the read (R425). -/
def State.dmaAccept (s : State) (i op : Nat) (bad : Bool) : State :=
  let q := s.dmaQ i
  if q.jobs.isEmpty = false then s
  else match q.q.pop with
  | none => s
  | some (it, rest) =>
    let d := it.data
    let code := bits d 0 8
    let s0 := s.setDmaQ i { q with q := rest }
    let job (st : Nat) (ended : Bool) : State :=
      s.setDmaQ i { q with q := rest, jobs := [{ desc := d, status := st, ended := ended }] }
    if code ≠ op ∧ (code = 1 ∨ code = 2) then s
    else if bits d 32 16 ≠ q.gen then s0.bump XLT_STALE_CNT
    else if bad then (job stPoison true).countErr 21 (0x200 + i) 1
    else if dmaReserved d then (job stState true).dmaState i code
    else if dmaLen d = 0 then job stNop true
    else if dmaHost d % 64 ≠ 0 ∨ dmaDev d % 64 ≠ 0 ∨ dmaLen d % 64 ≠ 0 ∨ dmaCmpl d % 16 ≠ 0 then (job stState true).dmaState i code
    else job 0 false

/-- R195: a descriptor from host memory to device memory is accepted. -/
def execToDev (inst : Fin 512) (bad : Bool) (s : State) : Host.Outcome State Fault Refusal := .next (s.dmaAccept inst.val 1 bad)

/-- R195: a descriptor from device memory to host memory is accepted. -/
def execToHost (inst : Fin 512) (bad : Bool) (s : State) : Host.Outcome State Fault Refusal := .next (s.dmaAccept inst.val 2 bad)

/-- The running descriptor ends. -/
def State.dmaEnd (s : State) (i status cause : Nat) : State :=
  let q := s.dmaQ i
  s.setDmaQ i { q with jobs := q.jobs.map (fun j => { j with ended := true, status := status, cause := cause }) }

/-- A fault of the running descriptor, charged to its instance (R197, R207). -/
def State.dmaFault (s : State) (i d status cause level addr : Nat) : State :=
  (s.charge { addr := addr, status := status, cause := cause, level := level, unit := uDma, inst := i,
              gen := s.instGen i, port := s.fld (PRT_INST i) 6 2, tag := bits d 16 16 }).dmaEnd i status cause

/-- The running descriptor has moved n bytes. -/
def State.dmaMoved (s : State) (i n : Nat) : State :=
  let q := s.dmaQ i
  s.setDmaQ i { q with jobs := q.jobs.map (fun j =>
    if dmaLen j.desc ≤ j.done + n then { j with done := j.done + n, ended := true, status := stOk } else { j with done := j.done + n }) }

/-- One piece: the pages are translated first (R199), then the bytes move. host: what the host answers. -/
def State.dmaMove (s : State) (i : Nat) (j : DmaJob) (host : PieceData) : State :=
  let d := j.desc
  let va := dmaDev d + j.done
  let n := min (dmaLen d - j.done) (4096 - va % 4096)
  let get := bits d 0 8 == 1
  let a := s.span .dma i (if get then .dmaWrite else .dmaRead) (s.instTimed i) 2 va n
  match a.1 with
  | .miss => a.2
  | .fault st k l v => a.2.dmaFault i d st k l v
  | .ok segs lv =>
    if a.2.detached i then a.2.dmaFault i d stFaultXlat cHost 0 (dmaHost d + j.done)
    else match host with
    | .abort | .refused => a.2.dmaFault i d stFaultXlat cHost 0 (dmaHost d + j.done)
    | .poisoned => if get then a.2.dmaFault i d stPoison 0 0 (dmaHost d + j.done) else a.2.dmaFault i d stFaultXlat cHost 0 (dmaHost d + j.done)
    | .ok bytes =>
      if get then
        let w := a.2.writeSegs i uDma (s.instTimed i) [] 0 segs (leNat bytes % 2 ^ (8 * n))
        match w.1 with
        | some (st, k) => w.2.dmaFault i d st k lv va
        | none => w.2.dmaMoved i n
      else
        let r := a.2.readSegs i uDma none 0 segs
        match r.1 with
        | .wait => r.2
        | .stop st k => r.2.dmaFault i d st k lv va
        | .ok v bad =>
          if bad.isEmpty then
            ({ r.2 with hostOut := r.2.hostOut ++ [({ inst := i, addr := dmaHost d + j.done, len := n, data := v } : HostWrite)] }).dmaMoved i n
          else r.2.dmaFault i d stPoison 0 lv va

/-- R199: a piece completes at PCIe, or faults. A descriptor of an old generation ends here without a record (R204, Table 15.6). -/
def execDmaPieceDone (inst : Fin 512) (host : PieceData) (s : State) : Host.Outcome State Fault Refusal :=
  let i := inst.val
  let q := s.dmaQ i
  .next (match q.jobs.find? (fun j => !j.ended) with
  | none => s
  | some j =>
    if bits j.desc 32 16 ≠ q.gen then (s.setDmaQ i { q with jobs := [] }).bump XLT_STALE_CNT
    else s.dmaMove i j host)

/-- R196: the completion record is written to cmpl_addr. -/
def execDmaComplete (inst : Fin 512) (s : State) : Host.Outcome State Fault Refusal :=
  let i := inst.val
  let q := s.dmaQ i
  .next (match q.jobs.find? (fun j => j.ended) with
  | none => s
  | some j =>
    let v := dmaRecord j.desc j.status (if j.status = stFaultXlat ∨ j.status = stFaultAccess then j.cause else 0) (s.attn i) j.done
    let s := s.setDmaQ i { q with jobs := [] }
    if s.detached i then s else { s with hostOut := s.hostOut ++ [({ inst := i, addr := dmaCmpl j.desc, len := 16, data := v } : HostWrite)] })

/-- R302: the record of a gateway descriptor is written to cmpl_addr; one of an old generation is discarded (R204). -/
def execGwComplete (inst : Fin 512) (s : State) : Host.Outcome State Fault Refusal :=
  let i := inst.val
  let q := s.gwQueue i
  .next (match q.jobs with
  | [] => s
  | j :: rest =>
    if j.ended = false then s
    else if bits j.desc 32 16 ≠ q.gen then (s.setGwQueue i { q with jobs := rest }).bump XLT_STALE_CNT
    else
      let a := s.span .hub i .write (s.instTimed i) 2 (gwCmpl j.desc) 16
      let v := dmaRecord j.desc j.status (if j.status = stFaultXlat ∨ j.status = stFaultAccess then j.cause else 0) (s.attn i) j.done
      match a.1 with
      | .miss => a.2
      | .fault st k l va => (a.2.charge { addr := va, status := st, cause := k, level := l, unit := uGateway, inst := i,
                                          gen := s.instGen i }).setGwQueue i { q with jobs := rest }
      | .ok segs _ => (a.2.writeSegs i uGateway (s.instTimed i) [] 0 segs v).2.setGwQueue i { q with jobs := rest })

end Sys2Proof.Machine
end

