-- ==== Sys2Proof/Machine/Clock.lean ====
section
/-!
DEFINITION. Machine/Clock.lean: clocks and network time (R210 to R227, R233, R234): the source, glides, clock enables, the
counter and its island copies, the servo, the comparators.
-/
namespace Sys2Proof.Machine

/-! ### Validity of network time (R227) -/

/-- TIME_STATUS.valid follows its conditions. When it falls: the events, the lists' status, the cells (R227, R244, R363). -/
def State.timeCheck (s : State) : State :=
  let now := s.fld TIME_STATUS 2 1 == 1 && s.fld CLK_STATUS 1 1 == 1 && s.fld TIME_STATUS 1 1 == 1
  let was := s.timeValid
  if now = was then s
  else
    let s := s.setFld TIME_STATUS 0 1 (b2n now)
    if now then s.setFld CGL_STATUS 16 1 0
    else ((s.event TIME_EVENT 0).setFld CGL_STATUS 16 1 1 |>.event CGL_EVENT 0).cellsInvalid

/-- A phase step of e units of 2^-16 ns: the events, and the count when a list runs (R219, R243). -/
def State.stepPhase (s : State) (e : Int) : State :=
  let s := (s.phaseStep e).event TIME_EVENT 1
  if s.fld CGL_STATUS 0 16 = 0 then s else (s.bump CGL_PHASE_CNT).event CGL_EVENT 4

/-! ### Islands (R211) -/

/-- The effective target of island n. -/
def State.islTarget (s : State) (n : Nat) : Nat :=
  if s.fld CLK_STATUS 2 1 = 1 then 64 else min (s.fld (CLK_ISL n) 0 9) (s.fld (CLK_ISL n) 16 9)

def State.islMult (s : State) (n : Nat) : Nat := s.fld (CLK_ISL n) 32 9

/-- gliding shows whether the multiplier differs from the effective target. -/
def State.glideFlag (s : State) (n : Nat) : State := s.setFld (CLK_ISL n) 25 1 (b2n (s.islMult n != s.islTarget n))

def State.glideFlags (s : State) : State := (List.range 64).foldl (fun (s : State) n => s.glideFlag n) s

/-- One step of a glide: at most step_max units (R211). -/
def State.glide (s : State) (n : Nat) : State :=
  let cur := s.islMult n
  let t := s.islTarget n
  let d := s.fld CLK_GLIDE_CFG 0 6
  let next := if cur ≤ t then min t (cur + d) else max t (cur - d)
  (s.setFld (CLK_ISL n) 32 9 next).glideFlag n

/-- R211: a 256 ns step of island n. -/
def execGlideStep (isl : Fin 64) (s : State) : Host.Outcome State Fault Refusal := .next (s.glide isl.val)

/-- Write an island's target; false: out of range. -/
def State.setTarget (s : State) (n v : Nat) : State := (s.setFld (CLK_ISL n) 0 9 v).glideFlag n

/-- R211: a write of CLK_ISL[n].target. -/
def execClkIslTargetWrite (wr : Writer) (isl : Fin 64) (target : BitVec 9) (s : State) : Host.Outcome State Fault Refusal :=
  .next (s.mcOnly wr (CLK_ISL isl.val) (fun s =>
    if target.toNat < 64 ∨ 296 < target.toNat then s.refuseReg (CLK_ISL isl.val)
    else (s.setTarget isl.val target.toNat).answer stOk))

/-! ### The source (R215, R216) -/

/-- Every SerDes link goes down (R210). -/
def State.serdesDown (s : State) : State :=
  let s := (List.range 24).foldl (fun (s : State) p => if s.linkAlive p then s.linkDown p else s) s
  let s := s.fhDown
  (List.range 4).foldl (fun (s : State) h => if s.fld (PRT_HPORT_STAT h) 0 1 = 1 then s.portDown h else s) s

/-- R215: XCLK is declared lost. -/
def execXclkLost (s : State) : Host.Outcome State Fault Refusal :=
  let s := (s.setFld CLK_STATUS 0 4 0xC).event CLK_EVENT 0
  let s := (s.setFld CLK_PLL_LOCK_HUB 0 1 0).setFld TIME_STATUS 1 10 0
  let s := (s.setFld TIME_CTRL 0 1 0).glideFlags
  .next (s.timeCheck.serdesDown)

/-- R216: XCLK has qualified: the PLLs move back to it. -/
def execXclkRestored (s : State) : Host.Outcome State Fault Refusal :=
  .next (((s.setFld CLK_STATUS 0 1 1).setFld CLK_STATUS 3 1 0).event CLK_EVENT 1 |>.setFld TIME_STATUS 2 1 1 |>.timeCheck)

/-- R216: the time PLL has locked: coast clears when XCLK is there. -/
def execTimePllLock (s : State) : Host.Outcome State Fault Refusal :=
  let s := s.setFld CLK_STATUS 1 1 1
  let s := if s.fld CLK_STATUS 0 1 = 1 then s.setFld CLK_STATUS 2 1 0 else s
  .next (((s.setReg CLK_PLL_LOCK (2 ^ 64 - 1)).setReg CLK_PLL_LOCK_HUB (2 ^ 52 - 1)).glideFlags.timeCheck)

/-! ### Clock enables (R213, R214) -/

/-- Is an island idle: every core IDLE or FENCED? -/
def State.islIdle (s : State) (n : Nat) : Bool :=
  (tabulate 8 (fun k => 8 * n + k)).all (fun pc => (s.core pc).fenced || (s.core pc).idle)

/-- Does a hub block report no accepted work? The bit of CLK_EN_HUB names it. -/
def State.hubIdle (s : State) (b : Nat) : Bool :=
  if b = 0 then s.tm.jobs.isEmpty && s.tm.bufs.isEmpty
  else if b ≤ 8 then s.tm.queues.all (fun q => q.2.isEmpty || s.fld (TM_QCFG q.1) 0 1 == 0
    || s.fhState (4 * (b - 1)) == 0)
  else if b = 9 then s.fec.jobs.isEmpty
  else if b = 10 then true
  else if b ≤ 14 then (s.portInsts (b - 11)).all (fun i => (s.dmaQ i).jobs.isEmpty)
  else if b ≤ 18 then
    let g := s.gateway (b - 15)
    g.queue.isEmpty && g.openFr.isEmpty && g.flight.isEmpty
  else if b = 19 then (List.range 64).all (fun g => (s.brsGrp g).tasks.isEmpty)
  else (s.port (b - 20)).txq.isEmpty && (s.port (b - 20)).buf.isEmpty

/-- R214: a write of an enable register: busy blocks stay enabled. -/
def State.writeEnables (s : State) (a w v : Nat) (idle : Nat → Bool) : State :=
  let old := s.reg a
  let cleared := (List.range w).filter (fun b => bit old b && !(bit v b))
  let busy := cleared.filter (fun b => !(idle b))
  let new := busy.foldl (fun n b => setBits n b 1 1) (bits v 0 w)
  let s := s.setReg a new
  if busy.isEmpty then s.answer stOk
  else ((s.bumpFld CLK_REFUSE_CNT 0 32 busy.length).event CLK_EVENT 3).refuseReg a

/-- R214: a write of CLK_EN_HUB, or of CLK_EN_ISL. -/
def execClkEnWrite (wr : Writer) (islands : Bool) (value : Word) (s : State) : Host.Outcome State Fault Refusal :=
  .next (if islands then s.mcOnly wr CLK_EN_ISL (fun s => s.writeEnables CLK_EN_ISL 64 value.toNat s.islIdle)
  else s.mcOnly wr CLK_EN_HUB (fun s => s.writeEnables CLK_EN_HUB 44 value.toNat s.hubIdle))

/-! ### Island copies of the counter (R221, R222) -/

/-- One cluster at a marker: a difference of one tick slews; from two on the copy is loaded, and the error counts. -/
def State.markIsland (s : State) (n : Nat) (d : Int) : State :=
  if d.natAbs ≤ 1 then s
  else ((s.event CLK_EVENT 2).setFld (CLK_ISL n) 41 1 1).countErr 10 n 1

/-- Bit errors that have appeared in a memory since the last marker; what they do shows at the next read (R152, R154). -/
def State.upsetAt (s : State) (a : UpsetAt) (e : MemErr) : State :=
  match a with
  | .scratch core off => s.scrUpset core.val off.toNat e
  | .dev addr => s.devUpset addr.toNat e

/-- R222: the next marker. drift: by how many ticks copies have moved since the last one; upsets: the bit errors that memories have
met since then. -/
def execTimeMarker (drift : List (Fin 64 × Int)) (upsets : List (UpsetAt × MemErr)) (s : State) : Host.Outcome State Fault Refusal :=
  let s := upsets.foldl (fun (s : State) u => s.upsetAt u.1 u.2) (s.elapse (1024 - s.cnt % 1024))
  let ds := drift.foldl (fun (t : List (Nat × Int)) p => Tbl.put 0 t p.1.val (Tbl.get 0 t p.1.val + p.2)) s.islCopy
  .next (ds.foldl (fun (s : State) p => s.markIsland p.1 p.2) { s with islCopy := [] })

/-! ### The servo and the rate (R219, R226, R227) -/

def stepMin : Nat := 879169497570
def stepMax : Nat := 880049106872
def stepNom : Int := 879609302221

/-- Set locked_run and locked. -/
def State.setRun (s : State) (run : Nat) : State := s.setFld TIME_STATUS 3 8 run

/-- One sample of the servo (R226). -/
def State.servo (s : State) (e : Int) : State :=
  let thrStep := s.fld TIME_SERVO_THR 0 32 * 65536
  let thrLock := s.fld TIME_SERVO_THR 32 16 * 65536
  let lockN := s.fld TIME_SERVO_THR 48 8
  let kp : Int := s.fld TIME_SERVO_CFG 0 16
  let ki : Int := s.fld TIME_SERVO_CFG 16 16
  let sh := s.fld TIME_SERVO_CFG 32 6
  let s := s.bumpFld TIME_SERVO_CNT 0 32 1
  if thrStep ≤ e.natAbs then ((s.stepPhase (-e)).setRun 0).setFld TIME_STATUS 1 1 0
  else
    let acc := clampInt (-(2 ^ 47)) (2 ^ 47 - 1) (toSigned 48 (s.fld TIME_SERVO_ACC 0 48) + roundHalfUpShift (e * ki) sh)
    let y := roundHalfUpShift (e * kp) sh + acc
    let raw := stepNom - y
    let new := clampInt stepMin stepMax raw
    let s := s.setFld TIME_SERVO_ACC 0 48 (ofSigned 48 acc)
    let s := if new = raw then s else s.event TIME_EVENT 2
    let s := s.setStep new.toNat
    let run := s.fld TIME_STATUS 3 8
    let run := if e.natAbs < thrLock then (if run < lockN then run + 1 else run) else 0
    let s := s.setRun run
    let s := if run = lockN then s.setFld TIME_STATUS 1 1 1 else s
    if 4 * thrLock ≤ e.natAbs then (s.setFld TIME_STATUS 1 1 0).event TIME_EVENT 3 else s

/-- R226: a write of TIME_SERVO_OFS. -/
def execTimeServoOfs (wr : Writer) (e : Word) (s : State) : Host.Outcome State Fault Refusal :=
  .next (s.mcOnly wr TIME_SERVO_OFS (fun s =>
    (if s.fld TIME_SERVO_CFG 40 1 = 0 then s.bumpFld TIME_SERVO_CNT 32 32 1
    else (s.servo (toSigned 64 e.toNat)).timeCheck).answer stOk))

/-- R219, R227: a write of TIME_STEP. -/
def execTimeStepWrite (wr : Writer) (step : BitVec 48) (s : State) : Host.Outcome State Fault Refusal :=
  .next (s.mcOnly wr TIME_STEP (fun s =>
    if s.fld TIME_SERVO_CFG 40 1 = 1 ∨ step.toNat < stepMin ∨ stepMax < step.toNat then s.refuseReg TIME_STEP
    else (s.setStep step.toNat).answer stOk))

/-- R219, R227: a write of TIME_ADJ. -/
def execTimeAdj (wr : Writer) (e : Word) (s : State) : Host.Outcome State Fault Refusal :=
  .next (s.mcOnly wr TIME_ADJ (fun s =>
    if e.toNat = 0 then s.answer stNop
    else if s.fld TIME_SERVO_CFG 40 1 = 1 then s.refuseReg TIME_ADJ
    else (s.stepPhase (toSigned 64 e.toNat)).answer stOk))

/-- TIME_NOW_SUB as a read of TIME_NOW_NS latches it. -/
def State.nowSub (s : State) : Nat := s.timeQ % 65536 + (b2n s.timeValid) <<< 16

/-- R220: a read of TIME_NOW_NS: the latch of that reader. -/
def execTimeNowNsRead (reader : Writer) (s : State) : Host.Outcome State Fault Refusal :=
  .next (match reader with
  | .mc => (s.setReg TIME_NOW_SUB s.nowSub).answer stOk 0 [s.nowNs]
  | .host i => { s.setWreg i.val 0x2008 s.nowSub with
                   reply := { code := stOk, attn := s.attn i.val, data := [s.nowNs] } })

/-- R227: a write of TIME_CTRL.declare_lock; it counts while the servo is disabled. -/
def execDeclareLock (wr : Writer) (lock : Bool) (s : State) : Host.Outcome State Fault Refusal :=
  .next (s.mcOnly wr TIME_CTRL (fun s =>
    let s := s.setFld TIME_CTRL 0 1 (b2n lock)
    (if s.fld TIME_SERVO_CFG 40 1 = 0 then (s.setFld TIME_STATUS 1 1 (b2n lock)).timeCheck else s).answer stOk))

/-- R224: after ticks of the time clock comparator n fires, when network time has reached its target. -/
def execTimeCmpFire (n : Fin 16) (ticks : BitVec 64) (s : State) : Host.Outcome State Fault Refusal :=
  let s := s.elapse ticks.toNat
  let c := TIME_CMP_CFG n.val
  let t := s.reg (TIME_CMP n.val)
  let due := if s.fld c 1 1 = 1 then s.reached32 (t % 2 ^ 32) else s.reached t
  .next (if s.fld c 0 1 = 0 ∨ s.fld c 2 1 = 1 ∨ due = false then s
  else { s.event c 2 with mcIrq := s.mcIrq ||| 2 ^ s.fld c 3 2 })

end Sys2Proof.Machine
end

