-- ==== Sys2Proof/Machine/Power.lean ====
section
/-!
DEFINITION. Machine/Power.lean: power domains (R486 to R490), the cap enforcer (R492 to R496), THERM_TRIP_N (R523).
-/
namespace Sys2Proof.Machine

/-! ### Domains -/

def State.domState (s : State) (d : Nat) : Nat := s.fld (PWR_DOM_STAT d) 0 2

def State.setDomState (s : State) (d st : Nat) : State :=
  let s := s.setFld (PWR_DOM_STAT d) 0 2 st
  if st = 0 ∨ st = 2 then s.event PWR_EVENT 4 else s

/-- The clusters of a quad domain. -/
def quadIslands (d : Nat) : List Nat := tabulate 4 (fun k => 4 * d + k)

/-- The cores of a quad domain. -/
def quadCores (d : Nat) : List Nat := tabulate 32 (fun k => 32 * d + k)

def State.partsAbsent (s : State) : Bool := (List.range 16).all (fun p => s.partState p == 0)

/-- Is an enabled pool of a tier there? -/
def State.poolOf (s : State) (tier : Nat) : Bool :=
  (List.range 64).any (fun n => s.fld (MEM_POOL_CFG n) 0 1 == 1 && s.fld (MEM_POOL_CFG n) 1 2 == tier)

/-- Ports p to p + n - 1 are DISABLED or RETIRED, and their clock enables are 0. -/
def State.portsOff (s : State) (p n : Nat) : Bool :=
  (tabulate n (fun k => p + k)).all (fun q =>
    (s.portState q == 0 || s.portState q == 7) && s.fld CLK_EN_HUB (linkEnBit q) 1 == 0)

/-- May domain d be switched off (Table 19.1)? -/
def State.mayPowerOff (s : State) (d : Nat) : Bool :=
  if d < 16 then
    (quadIslands d).all (fun n => s.fld CLK_EN_ISL n 1 == 0)
      && (quadCores d).all (fun pc => s.lcOf pc == 0x1FF
        || (List.range 16).all (fun p => s.partState p == 0 || !(s.partHasLc p (s.lcOf pc))))
  else if d < 20 then
    s.fld PRT_MODE 0 2 == 2 && s.partsAbsent && (List.range 512).all (fun i => !(s.instValid i)) && !(s.poolOf 0)
      && s.cellsOn.isEmpty
  else if d < 24 then s.portsOff (4 * (d - 20)) 4
  else if d = 24 then s.portsOff 16 8
  else if d = 25 then
    (List.range 16).all (fun p => s.partState p == 0 || s.fld (PRT_PART p 1) 38 10 == 0) && !(s.poolOf 1)
      && s.fld CLK_EN_HUB 10 1 == 0
  else if d = 26 then s.fld FEC_CTRL 0 1 == 0 && s.cellsOn.isEmpty && s.fld CLK_EN_HUB 9 1 == 0
  else (List.range 32).all (fun t => s.fhState t == 0) && s.fld CLK_EN_HUB 1 8 == 0

/-- Registers [a, a + n) return to their reset values. -/
def State.resetRegs (s : State) (a n : Nat) : State :=
  { s with regs := s.regs.filter (fun r => !(decide (a ≤ r.1) && decide (r.1 < a + n))) }

/-- A core whose power is gone: what its always-on strip holds stays, its fence among it (R237, R490). -/
def State.coreLost (s : State) (pc : Nat) : State :=
  let c := s.core pc
  let sw := s.reg (CGL_CORE_SWITCH_CNT pc)
  let fresh : Core := { group := c.group, owner := c.owner, tEntry := c.tEntry }
  let s := (s.resetRegs (RAS_CORE_STATE pc) 0x1000).setReg (CGL_CORE_SWITCH_CNT pc) sw
  s.setCore pc (if c.fenced then { fresh with fenced := true, t := fresh.t.fence, e := fresh.e.fence } else fresh)

/-- A port whose power is gone starts again in DISABLED (R490). -/
def State.linkLost (s : State) (p : Nat) : State :=
  ((s.resetRegs (LNK_CFG p) 0x400).setPort p {}).setFld LNK_STATUS p 1 0

/-- The memory of the stacks of a die. -/
def State.hbmLost (s : State) (d : Nat) : State :=
  let mine (a : Nat) : Bool := (match s.tierOf a with | .hbm => true | _ => false) && (hbmChannel a).1 / 2 == d
  { s with dev := { cells := s.dev.cells.filter (fun c => !(mine c.1)), marks := s.dev.marks.filter (fun c => !(mine c.1)) } }

/-- Everything a domain stores is lost (R489, Table 19.3). -/
def State.domLost (s : State) (d : Nat) : State :=
  if d < 16 then
    let s := (quadIslands d).foldl (fun (s : State) n =>
      (s.devZero (0x020000000000 + n * 0x800000) 0x800000).setFld CLK_PLL_LOCK n 1 0) s
    (quadCores d).foldl (fun (s : State) pc => s.coreLost pc) s
  else if d < 20 then s.hbmLost (d - 16)
  else if d < 24 then ((tabulate 4 (fun k => 4 * (d - 20) + k)).foldl (fun (s : State) p => s.linkLost p) s).portCause
  else if d = 24 then ((tabulate 8 (fun k => 16 + k)).foldl (fun (s : State) p => s.linkLost p) s).portCause
  else if d = 25 then s.devZero 0x010000000000 (960 * gib)
  else if d = 26 then
    let u := s.reg FEC_UNIT_RETIRED
    let s := { s with fec := {}, cells := [] }.resetRegs FEC_CTRL 0x800000
    ((s.setReg FEC_UNIT_RETIRED u).setFld FEC_STATUS 14 1 (b2n (u != 0))).envelopeSync
  else s.resetRegs FH_CTRL 0x80000

/-- A quad is powered: clocks at multiplier 64, time copies loaded, memories zeroed, cores IDLE (R490). -/
def State.quadUp (s : State) (d : Nat) : State :=
  (quadIslands d).foldl (fun (s : State) n =>
    let s := ((s.setFld CLK_EN_ISL n 1 1).setFld CLK_PLL_LOCK n 1 1).setFld (CLK_ISL n) 32 9 64
    { s with islCopy := Tbl.put 0 s.islCopy n 0 }.glideFlag n) s

def State.domRefuse (s : State) : State := (s.bump PWR_REFUSE_CNT).refuseReg PWR_DOM_CMD

/-- Domains in RAMP. -/
def State.ramping (s : State) : Nat := ((List.range 28).filter (fun d => s.domState d == 3)).length

/-- R488: the checks of a write of PWR_DOM_CMD, in their order, and the transition that begins. -/
def State.domCommand (s : State) (v : Nat) : State :=
  let d := bits v 0 5
  let off := bit v 5
  let on := bit v 6
  if 27 < d ∨ v >>> 7 ≠ 0 ∨ off = on then s.domRefuse
  else if s.fld (PWR_DOM_STAT d) 22 1 = 1 then (if on then s.answer stNop else s.domRefuse)
  else if (off ∧ s.domState d = 2) ∨ (on ∧ s.domState d = 0) then s.answer stNop
  else if s.domState d = 1 ∨ s.domState d = 3 then s.domRefuse
  else if off then (if s.mayPowerOff d then (s.setDomState d 1).answer stOk else s.domRefuse)
  else if s.ramping < 2 then (s.setDomState d 3).answer stOk
  else ({ s with rampWait := s.rampWait ++ [d] }.setFld (PWR_DOM_STAT d) 22 1 1).answer stOk

/-- PWR_DOM_CMD with off. rsvd: bits 63 to 7. -/
def execPwrDomOff (wr : Writer) (dom : BitVec 5) (rsvd : BitVec 57) (s : State) : Host.Outcome State Fault Refusal :=
  .next (s.mcOnly wr PWR_DOM_CMD (fun s => s.domCommand (dom.toNat + 32 + rsvd.toNat <<< 7)))

/-- PWR_DOM_CMD with on. -/
def execPwrDomOn (wr : Writer) (dom : BitVec 5) (rsvd : BitVec 57) (s : State) : Host.Outcome State Fault Refusal :=
  .next (s.mcOnly wr PWR_DOM_CMD (fun s => s.domCommand (dom.toNat + 64 + rsvd.toNat <<< 7)))

/-- R489: the drain of a domain ends. -/
def execDomainDrainEnd (dom : Fin 28) (s : State) : Host.Outcome State Fault Refusal :=
  .next (if s.domState dom.val = 1 then (s.domLost dom.val).setDomState dom.val 2 else s)

/-- R490: a power-up ends; the domain that has waited longest enters RAMP (R488). -/
def execDomainRampEnd (dom : Fin 28) (s : State) : Host.Outcome State Fault Refusal :=
  let d := dom.val
  .next (if s.domState d ≠ 3 then s
  else
    let s := s.setDomState d 0
    let s := if d < 16 then s.quadUp d else s
    match s.rampWait with
    | [] => s
    | w :: rest => ({ s with rampWait := rest }.setFld (PWR_DOM_STAT w) 22 1 0).setDomState w 3)

/-! ### The cap enforcer -/

/-- Lists that govern the cores of an island. -/
def State.islandLists (s : State) (n : Nat) : List Nat :=
  (tabulate 8 (fun k => (s.core (8 * n + k)).group)).filterMap (fun g => if g ≠ 0x7F ∧ s.running (g / 8) then some (g / 8) else none)

/-- Is an island timed (R492)? -/
def State.islandTimed (s : State) (n : Nat) : Bool := !(s.islandLists n).isEmpty

/-- The floor of an island: the largest t_floor of the running lists that govern its cores (R255, R492); 64 without one. -/
def State.islandFloor (s : State) (n : Nat) : Nat :=
  (s.islandLists n).foldl (fun m l => max m (s.fld (CGL_LIST_CFG l) 5 9)) 64

def State.ceiling (s : State) (n : Nat) : Nat := s.fld (CLK_ISL n) 16 9

def State.setCeiling (s : State) (n v : Nat) : State := (s.setFld (CLK_ISL n) 16 9 v).glideFlag n

/-- Islands of one kind whose domain is ON (R495). -/
def State.capIslands (s : State) (timed : Bool) : List Nat :=
  (List.range 64).filter (fun n => s.domOn (n / 4) && s.islandTimed n == timed)

def State.lowerIsland (s : State) (n : Nat) : State :=
  s.setCeiling n (max (s.islandFloor n) (min (s.ceiling n) (s.islMult n) - s.fld PWR_CAP_CFG 0 6))

def State.raiseIsland (s : State) (n : Nat) : State := s.setCeiling n (min 296 (s.ceiling n + s.fld PWR_CAP_CFG 6 6))

def State.duty (s : State) : Nat := s.fld PWR_CAP_STAT 0 4

/-- One period over the cap (R492). -/
def State.capLower (s : State) : State :=
  if (s.capIslands false).any (fun n => 64 < s.ceiling n) then (s.capIslands false).foldl (fun (s : State) n => s.lowerIsland n) s
  else
    let high := (s.capIslands true).filter (fun n => s.islandFloor n < s.ceiling n)
    if high.isEmpty = false then high.foldl (fun (s : State) n => s.lowerIsland n) s
    else if 1 < s.duty then s.setFld PWR_CAP_STAT 0 4 (s.duty - 1)
    else ((s.event PWR_EVENT 0).bump PWR_UNMET_CNT).setFld PWR_CAP_STAT 5 1 1

/-- One period well below the cap (R492). -/
def State.capRaise (s : State) : State :=
  if s.duty < 8 then s.setFld PWR_CAP_STAT 0 4 (s.duty + 1)
  else if (s.capIslands true).any (fun n => s.ceiling n < 296) then (s.capIslands true).foldl (fun (s : State) n => s.raiseIsland n) s
  else (s.capIslands false).foldl (fun (s : State) n => s.raiseIsland n) s

/-- Does partition p take its power from island n: for a timed partition a core of it follows one of its groups, for another one
a core of it carries one of its numbers (R494, R496)? -/
def State.partIsland (s : State) (p n : Nat) : Bool :=
  (tabulate 8 (fun k => 8 * n + k)).any (fun pc =>
    if s.partTimed p then
      (s.core pc).group != 0x7F && s.running ((s.core pc).group / 8) && s.fld (CGL_LIST_CFG ((s.core pc).group / 8)) 1 4 == p
    else s.lcOf pc != 0x1FF && s.partHasLc p (s.lcOf pc))

/-- The attributed power of each partition, and the comparison with pwr_w (R494). -/
def State.partPower (s : State) (isls : List (Fin 64 × BitVec 20)) (p : Nat) : State :=
  if s.partState p = 0 then s.setReg (PWR_PART_P p) 0
  else
    let w := (isls.filter (fun i => s.partIsland p i.1.val)).foldl (fun n i => n + i.2.toNat) 0
    let s := s.setFld (PWR_PART_P p) 0 22 (min w (2 ^ 22 - 1))
    if s.partTimed p ∧ s.partFld p 140 16 * 1000 < w then (s.event PWR_EVENT 1).bump (PWR_TIMED_OVER_CNT p) else s

/-- A die's temperature, in 0.25 °C. -/
def State.quarterDeg (s : State) (d : Nat) : Int := toSigned 10 (s.fld (PWR_TEMP d) 0 10)

/-- The sensors' reports reach the registers (R496). -/
def State.telemetry (s : State) (t : Telemetry) : State :=
  let s := t.temps.foldl (fun (s : State) p =>
    let a := PWR_TEMP p.1.val
    let hi := max (toSigned 10 (s.fld a 10 10)) (toSigned 10 p.2.toNat)
    (s.setFld a 0 10 p.2.toNat).setFld a 10 10 (ofSigned 10 hi)) s
  let s := t.doms.foldl (fun (s : State) p =>
    (s.setFld (PWR_DOM_STAT p.1.val) 2 20 p.2.1.toNat).bump64 (PWR_DOM_E p.1.val) p.2.2.toNat) s
  let s := s.bump64 PWR_PKG_E t.pkgUj.toNat
  (s.setFld PWR_CAP_STAT 6 22 t.pkg.toNat).bump64 PWR_DUTY_CNT (if s.duty < 8 then t.withheld.toNat else 0)

/-- R492: one period of 10 µs. -/
def execCapPeriod (t : Telemetry) (s : State) : Host.Outcome State Fault Refusal :=
  let s := s.telemetry t
  let lim : Int := s.fld PWR_TEMP_CFG 0 8
  let trip : Int := s.fld PWR_TEMP_CFG 8 8
  let dies := List.range 5
  let hot := dies.any (fun d => decide (4 * lim < s.quarterDeg d))
  let cool := dies.all (fun d => decide (s.quarterDeg d ≤ 4 * (lim - 5)))
  let cap := s.fld PWR_CAP 0 12
  let above := decide (cap * 1000 < t.pkg.toNat) || hot
  let low := decide (t.pkg.toNat + s.fld PWR_CAP_CFG 12 8 * 1000 < cap * 1000) && cool
  let s := if hot then s.event PWR_EVENT 3 else s
  let s := if dies.any (fun d => decide (4 * trip ≤ s.quarterDeg d)) then { s with trip := true }.event PWR_EVENT 2 else s
  let s := (s.setFld PWR_CAP_STAT 4 1 (b2n above)).setFld PWR_CAP_STAT 5 1 0
  let s := if above then s.capLower else if low then s.capRaise else s
  .next ((List.range 16).foldl (fun (s : State) p => s.partPower t.isls p) s)

def State.pwrRefuse (s : State) (a : Nat) : State := (s.bump PWR_REFUSE_CNT).refuseReg a

/-- R494: a write of PWR_CAP. -/
def execPwrCapWrite (wr : Writer) (capW : BitVec 12) (s : State) : Host.Outcome State Fault Refusal :=
  .next (s.mcOnly wr PWR_CAP (fun s =>
    if capW.toNat < 450 ∨ 2000 < capW.toNat ∨ capW.toNat < s.fld PWR_TIMED_BUDGET 0 12 + s.fld PWR_CAP_CFG 20 12 then s.pwrRefuse PWR_CAP
    else (s.setFld PWR_CAP 0 12 capW.toNat).answer stOk))

/-- The sum of pwr_w over the partitions that are not ABSENT. -/
def State.timedPower (s : State) : Nat :=
  ((List.range 16).filter (fun p => s.partState p != 0)).foldl (fun n p => n + s.partFld p 140 16) 0

/-- R494: a write of PWR_TIMED_BUDGET. -/
def execPwrTimedBudgetWrite (wr : Writer) (budgetW : BitVec 12) (s : State) : Host.Outcome State Fault Refusal :=
  .next (s.mcOnly wr PWR_TIMED_BUDGET (fun s =>
    if budgetW.toNat < s.timedPower ∨ s.fld PWR_CAP 0 12 < budgetW.toNat + s.fld PWR_CAP_CFG 20 12 then s.pwrRefuse PWR_TIMED_BUDGET
    else (s.setFld PWR_TIMED_BUDGET 0 12 budgetW.toNat).answer stOk))

end Sys2Proof.Machine
end

