-- ==== Sys2Proof/Machine/Ras.lean ====
section
/-!
DEFINITION. Machine/Ras.lean: escalations and their actions (R466, R471, R481), RAS_CMD (R473, R477, R485), the witness
(R477 to R479), card swaps (R483), fatal errors (R484).
-/
namespace Sys2Proof.Machine

/-! ### Actions (R466, R471, R473, R481) -/

/-- Fence all eight cores of a cluster (R473, R476). -/
def State.fenceCluster (s : State) (n kind : Nat) : State :=
  (tabulate 8 (fun k => 8 * n + k)).foldl (fun (s : State) pc => s.fenceCore pc kind) (s.degrade 6)

/-- Derate an island by 8 units, or fence its cluster where that would go below its floor (R481). kind: 8, or 0x49. -/
def State.derate (s : State) (n kind count : Nat) : State :=
  let t := s.fld (CLK_ISL n) 0 9
  let ok := decide (s.islandFloor n + 8 ≤ t)
  let s := if kind = 0x49 then
      s.errLog { level := 2, kind := 0x49, action := if ok then 5 else 3, place := .cluster n, res := n, count := count } else s
  if ok then ((s.setTarget n (t - 8)).event RAS_EVENT 5).degrade 7 else s.fenceCluster n kind

/-- A row needs a soft repair; one that was repaired before counts against its channel (R471). row: 12 or 14. -/
def State.softRepair (s : State) (row res : Nat) : State :=
  if s.repaired.contains res then s.countErr (row + 1) (res / 2 ^ 32) 1
  else if s.repairs.any (fun r => r.1 == res) then s
  else { s with repairs := s.repairs ++ [(res, false)] }

/-- An FEC unit is retired: 0 to 31 decode LDPC, 32 to 39 encode it, 40 and 41 decode polar codes, 42 and 43 encode them (R358,
R471). -/
def State.retireFec (s : State) (u : Nat) : State :=
  let s := (s.setFld FEC_UNIT_RETIRED u 1 1).setFld FEC_STATUS 14 1 1
  ((s.event FEC_EVENT 2).degrade 4).envelopeSync

/-- A hub queue is retired until part reset; a mailbox channel is degraded only (Table 18.3, R471). -/
def State.retireQueue (s : State) (res : Nat) : State :=
  let s := s.degrade 8
  if 0x1000 ≤ res ∨ s.retiredQ.contains res then s else { s with retiredQ := s.retiredQ ++ [res] }

/-- Degraded, replace (R471). -/
def State.replaceDue (s : State) (cause : Nat) : State := (s.setFld RAS_STATUS 2 1 1).degrade cause

/-- The level above takes the action of the row. -/
def State.escalAct (s : State) (e : Escal) : State :=
  if e.row ≤ 7 then s.fenceCore e.res e.row
  else if e.row = 8 ∨ e.row = 0x49 then s.derate e.res e.row e.count
  else if e.row ≤ 11 then s.fenceCluster e.res e.row
  else if e.row = 12 ∨ e.row = 14 then s.softRepair e.row e.res
  else if e.row = 13 ∨ e.row = 15 then s.replaceDue 9
  else if e.row = 20 then s.retireFec e.res
  else if e.row = 21 then s.retireQueue e.res
  else if e.row = 22 then s.replaceDue 10
  else s

/-- R466: bridges: transfers that the die bridges (four between dies, four to the hub) have replayed since. Then the oldest error on
its way reaches the level above, which acts. -/
def execEscalation (bridges : List (Fin 8 × BitVec 16)) (s : State) : Host.Outcome State Fault Refusal :=
  let s := bridges.foldl (fun (s : State) b => s.countErr 22 b.1.val b.2.toNat) s
  .next (match s.escal with
  | [] => s
  | e :: rest => { s with escal := rest }.escalAct e)

/-- Ticks of the time clock in a minute, an hour, a millisecond (1.25 GHz). -/
def ticksMs : Nat := 1250000
def ticksMin : Nat := 60000 * ticksMs

/-- R469: after ticks of the time clock the window of a row ends, and its counts return to 0. -/
def execThresholdWindowEnd (row : Fin 23) (ticks : BitVec 64) (s : State) : Host.Outcome State Fault Refusal :=
  let r := row.val
  let w := s.fld (RAS_THR r) 32 16 * ticksMin
  let was := s.cnt / w
  let s := s.elapse ticks.toNat
  let mine (k : Nat) : Bool := k / 0x100000000000000 == r
  .next (if r = 7 ∨ (16 ≤ r ∧ r ≤ 19) ∨ was = s.cnt / w then s
  else { s with rasWin := s.rasWin.filter (fun p => !(mine p.1)), rasBins := s.rasBins.filter (fun p => !(mine p.1)),
                rasCool := if r = 3 ∨ r = 5 ∨ r = 6 then [] else s.rasCool })

/-! ### RAS_CMD (R485) -/

/-- A RAS_CMD ends with a status. -/
def State.rasDone (s : State) (st : Nat) : State :=
  (s.setReg RAS_CMD_STATUS (st <<< 1)).answer st

def State.rasRefuse (s : State) : State := (s.setReg RAS_CMD_STATUS (stState <<< 1)).refuseReg RAS_CMD

/-- Remove the FENCE records of a core; they count again at the next part reset. -/
def State.dropFence (s : State) (pc : Nat) : State :=
  if s.fenceRecs.any (fun r => r.1 == pc) then { s with fenceRecs := s.fenceRecs.filter (fun r => r.1 != pc) }.rasDone stOk
  else s.rasDone stNop

/-- Name the number of a rotation whose timed hand-over waits for it (R477). -/
def State.nameRot (s : State) (lc : Nat) : State :=
  if s.rots.any (fun r => r.lc == lc && !r.timedDone) then
    ({ s with rots := s.rots.map (fun (r : Rot) => if r.lc = lc then { r with named := true } else r) } : State).rasDone stOk
  else s.rasRefuse

/-- Start the soft repair of the row at RAS_CMD_DETAIL. -/
def State.repairCmd (s : State) : State :=
  let a := s.fld RAS_CMD_DETAIL 0 48
  let go (row : Nat) : State := (({ s with repairs := s.repairs ++ [(row, true)] } : State).setReg RAS_CMD_STATUS 1).answer stOk
  match s.tierOf a with
  | .hbm => go (hbmRow a)
  | .silo => go (siloRow a)
  | _ => s.rasRefuse

/-- A write of RAS_CMD. -/
def State.rasCommand (s : State) (v : Nat) : State :=
  let pc := 128 * bits v 12 2 + 8 * bits v 14 4 + bits v 18 3
  if s.fld RAS_CMD_STATUS 0 1 = 1 then s.rasRefuse
  else match bits v 0 3 with
  | 1 => (s.fenceCore pc 0x4A).rasDone stOk
  | 2 => s.dropFence pc
  | 3 => if s.grade.lcs ≤ bits v 3 9 then s.rasRefuse else s.nameRot (bits v 3 9)
  | 4 => s.repairCmd
  | _ => s.rasRefuse

/-- The write of RAS_CMD with an op, a logical number, a physical core. -/
def State.rasWrite (s : State) (wr : Writer) (op lc pc : Nat) : State :=
  s.mcOnly wr RAS_CMD (fun s =>
    s.rasCommand (op + lc <<< 3 + (pc / 128) <<< 12 + (pc / 8 % 16) <<< 14 + (pc % 8) <<< 18))

def execRasFence (wr : Writer) (core : Fin 512) (s : State) : Host.Outcome State Fault Refusal :=
  .next (s.rasWrite wr 1 0 core.val)

def execRasRemoveFenceRecord (wr : Writer) (core : Fin 512) (s : State) : Host.Outcome State Fault Refusal :=
  .next (s.rasWrite wr 2 0 core.val)

def execRasRotate (wr : Writer) (lc : BitVec 9) (s : State) : Host.Outcome State Fault Refusal :=
  .next (s.rasWrite wr 3 lc.toNat 0)

def execRasSoftRowRepair (wr : Writer) (s : State) : Host.Outcome State Fault Refusal :=
  .next (s.rasWrite wr 4 0 0)

/-- R471: the oldest soft repair completes; its lines are written back. -/
def execSoftRowRepairDone (s : State) : Host.Outcome State Fault Refusal :=
  .next (match s.repairs with
  | [] => s
  | r :: rest =>
    let s := { s with repairs := rest, repaired := if s.repaired.contains r.1 then s.repaired else s.repaired ++ [r.1] }
    if r.2 then s.setReg RAS_CMD_STATUS (stOk <<< 1) else s)

/-! ### The witness (R477 to R479) -/

/-- In-service numbers: their cores are not fenced and not in a rotation. -/
def State.inService (s : State) : List Nat :=
  s.allLcs.filter (fun n => s.phys n != noCore && !(s.core (s.phys n)).fenced && !(s.rots.any (fun r => r.lc == n))
    && !(s.handovers.any (fun h => h.lc == n)))

/-- The number whose core's last suite is oldest. -/
def State.oldestWitness (s : State) (l : List Nat) : Option Nat :=
  match l with
  | [] => none
  | h :: t => some (t.foldl (fun m n => if Tbl.get 0 s.witOrder (s.phys n) < Tbl.get 0 s.witOrder (s.phys m) then n else m) h)

/-- R477: after ticks of the time clock: a suspect core is rotated out at once; else, when the period has passed, the core whose
last suite is oldest. -/
def execWitnessRotate (ticks : BitVec 64) (s : State) : Host.Outcome State Fault Refusal :=
  let s := s.elapse ticks.toNat
  let sus := s.inService.filter (fun n => s.fld (RAS_CORE_HIST (s.phys n)) 21 1 == 1)
  let period := s.fld RAS_WIT_CFG 1 8 * 60 * ticksMin / s.grade.lcs
  .next (match sus with
  | n :: _ => s.rotStart n
  | [] =>
    if s.fld RAS_WIT_CFG 0 1 = 0 ∨ s.cnt < s.witAt + period then s
    else
      let s := { s with witAt := s.cnt }
      match s.oldestWitness s.inService with
      | some n => s.rotStart n
      | none => s)

/-- R477: the elastic context of a rotating number in no group is idle: its hand-over, and with it the timed one where the core has
no gate group. -/
def execRotationHandover (lc : Fin 512) (s : State) : Host.Outcome State Fault Refusal :=
  let n := lc.val
  .next (match s.rots.find? (fun r => r.lc == n && !r.elasticDone) with
  | none => s
  | some r => if s.groupHolds n ∨ (s.ctx r.fromCore .elastic).busy then s else s.rotElastic n)

/-- Failed runs of a pattern at a multiplier: row 7 counts the runs of one pattern (R469, R478). -/
def State.patternFails (s : State) (pc pat fails : Nat) : State :=
  if s.fld (RAS_THR 7) 0 32 ≤ fails then
    ((s.event RAS_EVENT 1).errLog { level := 0, kind := 7, action := 3, place := .core pc, res := pc, count := fails, pattern := pat }).escalate
      7 pc fails
  else s

/-- May the suite of a core end now: it is out of service or an unassigned spare; a suspect's run waits for a recorded temperature
bin, for at most 7 days (R478, R479). -/
def State.suiteDue (s : State) (pc : Nat) : Bool :=
  let bins := s.fld (RAS_CORE_HIST pc) 0 8
  let waits := s.fld (RAS_CORE_HIST pc) 20 1 == 1 && bins != 0 && !(bit bins (tempBin (s.dieTemp (pc / 128))))
  !(s.core pc).fenced && !(s.failed.contains pc) && s.lcOf pc == 0x1FF && !(s.handovers.any (fun h => h.spare == some pc))
    && (!waits || s.testing.any (fun t => t.1 == pc && decide (t.2 + 7 * 1440 * ticksMin ≤ s.cnt)))

/-- R478, R479: a suite of a core ends. fails: pattern, multiplier (0 to 3: 64, 160, 256, 296), failed runs, of each pattern that
failed. -/
def execWitnessSuiteEnd (core : Fin 512) (fails : List (Fin 12 × Fin 4 × Fin 9)) (s : State) : Host.Outcome State Fault Refusal :=
  let pc := core.val
  let h := RAS_CORE_HIST pc
  .next (if s.suiteDue pc = false then s
  else
    let bad := fails.filter (fun f => decide (0 < f.2.2.val))
    let s := { s with witRun := s.witRun + 1, witOrder := Tbl.put 0 s.witOrder pc (s.witRun + 1) }
    let s := (s.setFld h 22 30 (s.cnt >>> 34)).bumpFld RAS_WIT_STAT 10 32 1
    if bad.isEmpty then { s.setFld h 20 2 0 with testing := s.testing.filter (fun t => t.1 != pc) }
    else
      let s := (s.bumpFld RAS_WIT_STAT 42 16 1).event RAS_EVENT 4
      let s := bad.foldl (fun (s : State) f => (s.setFld h (8 + f.1.val) 1 1).patternFails pc f.1.val f.2.2.val) s
      let s := if bad.all (fun f => f.2.1.val == 3) then s.setFld h 20 1 1 else s
      if s.testing.any (fun t => t.1 == pc) then s else { s with testing := s.testing ++ [(pc, s.cnt)] })

/-! ### Card swaps (R483) -/

/-- A write of RAS_CARD_SWAP[k]: its fields from 24 down. -/
def State.cardSwapWrite (s : State) (k v : Nat) : State :=
  let a := RAS_CARD_SWAP k
  let src := bits v 0 12
  let dst := bits v 12 12
  let other := (List.range 16).any (fun j => j != k && s.fld (RAS_CARD_SWAP j) 24 2 == 1 && s.fld (RAS_CARD_SWAP j) 0 12 == src)
  if bit v 24 ∧ (s.unreachable dst ∨ other) then s.refuseReg a
  else (s.setReg a (bits v 0 25)).answer stOk

def execRasCardSwapArm (wr : Writer) (k : Fin 16) (fromCard toCard : BitVec 12) (s : State) : Host.Outcome State Fault Refusal :=
  .next (s.mcOnly wr (RAS_CARD_SWAP k.val) (fun s => s.cardSwapWrite k.val (fromCard.toNat + toCard.toNat <<< 12 + 1 <<< 24)))

/-! ### Fatal errors (R484) -/

/-- The kind of a fatal error's record and its resource index. The spec gives no kind for a hub control table or a bridge: a table's
uncorrectable error takes that of the image region, a bridge that of a mismatch of its check. -/
def fatalRow : FatalKind → Nat × Nat
  | .image => (0x43, 0)
  | .table => (0x43, 1)
  | .watchdogs => (0x44, 4)
  | .pll n => (0x45, n.val)
  | .bridge d => (0x42, d.val)

/-- Every waiting host DMA request completes with ABORTED_RESET: the running ones end, the waiting ones write their records. -/
def State.dmaAbort (s : State) (i : Nat) : State :=
  let q := s.dmaQ i
  let recs := q.q.items.map (fun it =>
    ({ inst := i, addr := dmaCmpl it.data, len := 16, data := dmaRecord it.data stAbortedReset 0 (s.attn i) 0 } : HostWrite))
  let s := s.setDmaQ i { q with q := {}, jobs := q.jobs.map (fun j => if j.ended then j else { j with ended := true, status := stAbortedReset }) }
  if s.detached i then s else { s with hostOut := s.hostOut ++ recs }

/-- A fatal error is logged; the first one since reset stays in RAS_FATAL_REC, with its time. -/
def State.fatalNote (s : State) (kind : FatalKind) : State :=
  let r := fatalRow kind
  let lr : LogRec := { level := 4, kind := r.1, action := 7, res := r.2 }
  let first := s.fld RAS_STATUS 1 1 == 0
  let v := s.logBits lr
  let s := s.errLog lr
  let s := if first then
      { ((List.range 4).foldl (fun (s : State) j => s.setReg (RAS_FATAL_REC j) (bits v (64 * j) 64)) s).setFld RAS_STATUS 1 1 1 with
        fatalAt := s.cnt }
    else s
  s.event RAS_EVENT 9

/-- What waits at the hub for another ends: host DMA, and the messages of UP channels. -/
def State.fatalStop (s : State) : State :=
  let s := (s.dma.map (·.1)).foldl (fun (s : State) i => s.dmaAbort i) s
  (s.mbx.map (·.1)).foldl (fun (s : State) m => if m % 8 < 3 then s.abortChan (m / 8) (m % 8) else s) s

/-- R484: a fatal error. -/
def execFatalError (kind : FatalKind) (s : State) : Host.Outcome State Fault Refusal := .next (s.fatalNote kind).fatalStop

/-- R484, R411, R423: the watchdog of one management core expires; it restarts, and the messages to the management cores are
aborted. -/
def execMcWatchdog (mc : Fin 4) (s : State) : Host.Outcome State Fault Refusal :=
  let s := s.errLog { level := 4, kind := 0x44, action := 0, res := mc.val }
  .next ((s.mbx.filter (fun m => m.1 % 8 == 0)).foldl (fun (s : State) m => s.abortChan (m.1 / 8) 0) s)

end Sys2Proof.Machine
end

