-- ==== Sys2Proof/Machine/Sec.lean ====
section
/-!
DEFINITION. Machine/Sec.lean: memory keys (R450, R454), configuration lock (R516), SPDM and TDISP (R452, R453).
-/
namespace Sys2Proof.Machine

/-! ### Keys -/

/-- A write of SEC_KEY_CMD. rng: the generator's health test passes. -/
def State.keyCommand (s : State) (v : Nat) (rng : Bool) : State :=
  let k := bits v 2 10
  if bit v 0 = bit v 1 ∨ k = 0 ∨ 528 < k then s.refuseReg SEC_KEY_CMD
  else if bit v 1 then (s.keyDrop k).answer stOk
  else if rng then (s.keyMake k).answer stOk
  else (s.event SEC_EVENT 8).refuseReg SEC_KEY_CMD

def execKeyGenerate (wr : Writer) (id : BitVec 10) (rng : Bool) (s : State) : Host.Outcome State Fault Refusal :=
  .next (s.mcOnly wr SEC_KEY_CMD (fun s => s.keyCommand (1 + id.toNat <<< 2) rng))

def execKeyDestroy (wr : Writer) (id : BitVec 10) (s : State) : Host.Outcome State Fault Refusal :=
  .next (s.mcOnly wr SEC_KEY_CMD (fun s => s.keyCommand (2 + id.toNat <<< 2) true))

/-! ### Configuration lock (R516, R448) -/

/-- Addresses of an array of registers. -/
def RegDesc.addrs (d : RegDesc) : List Nat := (List.range d.n1).flatMap (fun i => tabulate d.n2 (fun j => d.base + d.s1 * i + d.s2 * j))

def RegDesc.hasRwl (d : RegDesc) : Bool := d.fields.any (fun f => decide (f.2.2 = .rwl))

/-- Every register with an RWL field, in ascending address order. -/
def rwlAddrs : List Nat :=
  (([clkRegs, timeRegs, pwrRegs, memRegs, xltRegs, prtRegs, brsRegs, secRegs, lnkRegs, mbxRegs, cglRegs, fhRegs, rasRegs, tmRegs, fecRegs,
    fabRegs, coreRegs].flatten).filter (fun d => d.hasRwl)).flatMap (fun d => d.addrs) |>.mergeSort (fun a b => decide (a ≤ b))

/-- Measurement m as a number of 48 bytes. -/
def State.meas (s : State) (m : Nat) : Nat := (List.range 6).foldl (fun v w => v + (s.reg (SEC_MEAS m w)) <<< (64 * w)) 0

def State.setMeas (s : State) (m v : Nat) : State :=
  (List.range 6).foldl (fun (s : State) w => s.setReg (SEC_MEAS m w) (bits v (64 * w) 64)) s

/-- A write of SEC_CFG_LOCK, in the order of R516. -/
def State.cfgLock (s : State) (v : Nat) : State :=
  if bit v 0 = false then s.answer stOk
  else if s.locked then s.answer stNop
  else if s.fld SEC_BOOT_STAT 20 1 = 1 ∨ s.fld PRT_MODE 0 2 ≠ 0 then s.refuseReg SEC_CFG_LOCK
  else
    let m := Config.sha384 (rwlAddrs.flatMap (fun a => natBytes 8 (s.reg a)))
    (((s.setFld SEC_CFG_LOCK 0 1 1).setMeas 4 m).setFld PRT_MODE 0 2 1).answer stOk

def execSecCfgLock (wr : Writer) (locked : Bool) (s : State) : Host.Outcome State Fault Refusal :=
  .next (s.mcOnly wr SEC_CFG_LOCK (fun s => s.cfgLock (b2n locked)))

/-! ### SPDM (R452): response codes, order of requests and error codes of DSP0274 -/

def State.spdmOf (s : State) (f : FnAt) : Spdm := Tbl.get ({} : Spdm) s.spdm (1024 * f.port.val + f.fn.val)
def State.setSpdm (s : State) (f : FnAt) (x : Spdm) : State :=
  { s with spdm := Tbl.put ({} : Spdm) s.spdm (1024 * f.port.val + f.fn.val) x }

/-- Does a function answer on its port: PF0 while the link is up, a VF while it exists? -/
def State.fnAnswers (s : State) (f : FnAt) : Bool :=
  if f.fn.val = 0 then s.fld (PRT_HPORT_STAT f.port.val) 0 1 == 1 else s.fnPresent f.port.val f.fn.val

/-- The instance bound to a function. -/
def State.fnInst (s : State) (f : FnAt) : Option Nat :=
  (s.portInsts f.port.val).find? (fun i => s.fld (PRT_INST i) 8 10 == f.fn.val)

/-- An SPDM response: its code and what follows. -/
def State.spdmReply (s : State) (code : Nat) (data : List Nat) : State := s.answer stOk 0 (code :: data)

/-- An SPDM ERROR response. -/
def State.spdmError (s : State) (e : Nat) : State := s.spdmReply 0x7F [e]

/-- Run a request on a function that answers. -/
def State.onFn (s : State) (f : FnAt) (k : State → Spdm → State) : State := if s.fnAnswers f then k s (s.spdmOf f) else s

/-- Run a request that needs the algorithms agreed. -/
def State.onAgreed (s : State) (f : FnAt) (k : State → Spdm → State) : State :=
  s.onFn f (fun s x => if x.algs then k s x else s.spdmError 0x04)

/-- Run a request inside a session; est: it must be established. -/
def State.inSession (s : State) (f : FnAt) (id : Nat) (est : Bool) (k : State → Spdm → State) : State :=
  s.onAgreed f (fun s x => if x.sess.any (fun p => p.1 == id && (p.2 == est)) then k s x else s.spdmError 0x02)

/-- What the certificate chain depends on: the identity block's device and measurement 2 (R447). -/
def State.chainKey (s : State) : List Nat := [s.reg SEC_UID, s.meas 2]

/-- GET_VERSION: versions 1.2 and 1.3; the connection starts anew. -/
def execGetVersion (f : FnAt) (s : State) : Host.Outcome State Fault Refusal :=
  .next (s.onFn f (fun s _ => (s.setSpdm f { ver := true }).spdmReply 0x04 [0x1200, 0x1300]))

def execGetCapabilities (f : FnAt) (ver : BitVec 8) (s : State) : Host.Outcome State Fault Refusal :=
  .next (s.onFn f (fun s x =>
    if x.ver = false then s.spdmError 0x04
    else if ver.toNat ≠ 0x12 ∧ ver.toNat ≠ 0x13 then s.spdmError 0x41
    else (s.setSpdm f { x with caps := true, algs := false }).spdmReply 0x61 [ver.toNat, Config.spdmBody 0x61 [ver.toNat]]))

/-- supported: the request offers ECDSA P-384, SHA-384, secp384r1 and AES-256-GCM. -/
def execNegotiateAlgorithms (f : FnAt) (supported : Bool) (s : State) : Host.Outcome State Fault Refusal :=
  .next (s.onFn f (fun s x =>
    if x.caps = false then s.spdmError 0x04
    else if supported = false then s.spdmError 0x01
    else (s.setSpdm f { x with algs := true }).spdmReply 0x63 [Config.spdmBody 0x63 []]))

def execGetDigests (f : FnAt) (s : State) : Host.Outcome State Fault Refusal :=
  .next (s.onAgreed f (fun s _ => s.spdmReply 0x01 [Config.spdmBody 0x01 s.chainKey]))

def execGetCertificate (f : FnAt) (slot : BitVec 4) (offset len : BitVec 16) (s : State) : Host.Outcome State Fault Refusal :=
  .next (s.onAgreed f (fun s _ =>
    if slot.toNat ≠ 0 then s.spdmError 0x01
    else s.spdmReply 0x02 [Config.spdmBody 0x02 (s.chainKey ++ [offset.toNat, len.toNat])]))

def execChallenge (f : FnAt) (slot : BitVec 4) (nonce : BitVec 256) (s : State) : Host.Outcome State Fault Refusal :=
  .next (s.onAgreed f (fun s _ =>
    if slot.toNat ≠ 0 then s.spdmError 0x01
    else s.spdmReply 0x03 [Config.aliasSign (s.meas 2) (s.reg SEC_UID) (Config.spdmBody 0x03 [nonce.toNat])]))

/-- The measurements a function reports: 1 to 4, and a virtual function 5 of its partition (R452). -/
def State.fnMeas (s : State) (f : FnAt) : List (Nat × Nat) :=
  let base := [1, 2, 3, 4].map (fun m => (m, s.meas m))
  match s.fnInst f with
  | some i => base ++ [(5, s.meas5 (s.instPart i))]
  | none => base

/-- index 0: how many; 0xFF: all; else one. -/
def execGetMeasurements (f : FnAt) (index : BitVec 8) (sign : Bool) (nonce : BitVec 256) (s : State) :
    Host.Outcome State Fault Refusal :=
  let n := index.toNat
  .next (s.onAgreed f (fun s _ =>
    let ms := s.fnMeas f
    let body := if n = 0 then some [ms.length] else if n = 0xFF then some (ms.map (·.2))
      else (ms.find? (fun m => m.1 == n)).map (fun m => [m.2])
    match body with
    | none => s.spdmError 0x01
    | some b =>
      s.spdmReply 0x60 (b ++ (if sign then [Config.aliasSign (s.meas 2) (s.reg SEC_UID) (Config.spdmBody 0x60 (nonce.toNat :: b))] else []))))

/-- KEY_EXCHANGE opens a session; its identifier is the requester's half and the lowest free half of the part's. -/
def execKeyExchange (f : FnAt) (reqId : BitVec 16) (share : Nat) (s : State) : Host.Outcome State Fault Refusal :=
  .next (s.onAgreed f (fun s x =>
    let free (k : Nat) : Bool := !(x.sess.any (fun p => p.1 / 65536 == k))
    let k := ((List.range (x.sess.length + 2)).find? (fun k => k != 0 && free k)).getD 1
    let id := reqId.toNat + 65536 * k
    let r := s.fresh
    (r.2.setSpdm f { x with sess := x.sess ++ [(id, false)] }).spdmReply 0x64
      [id, Config.aliasSign (s.meas 2) (s.reg SEC_UID) (Config.spdmBody 0x64 [share, r.1])]))

/-- macOk: the requester's MAC verifies. -/
def execFinish (f : FnAt) (sess : BitVec 32) (macOk : Bool) (s : State) : Host.Outcome State Fault Refusal :=
  .next (s.inSession f sess.toNat false (fun s x =>
    if macOk = false then ((s.setSpdm f { x with sess := x.sess.filter (fun p => p.1 != sess.toNat) }).spdmError 0x06)
    else (s.setSpdm f { x with sess := x.sess.map (fun p => if p.1 = sess.toNat then (p.1, true) else p) }).spdmReply 0x65 []))

/-- op: 1 update, 2 update all, 3 verify. -/
def execKeyUpdate (f : FnAt) (sess : BitVec 32) (op : BitVec 8) (s : State) : Host.Outcome State Fault Refusal :=
  .next (s.inSession f sess.toNat true (fun s _ =>
    if op.toNat = 0 ∨ 3 < op.toNat then s.spdmError 0x01 else s.spdmReply 0x69 [op.toNat]))

def execHeartbeat (f : FnAt) (sess : BitVec 32) (s : State) : Host.Outcome State Fault Refusal :=
  .next (s.inSession f sess.toNat true (fun s _ => s.spdmReply 0x68 []))

def execEndSession (f : FnAt) (sess : BitVec 32) (s : State) : Host.Outcome State Fault Refusal :=
  .next (s.inSession f sess.toNat true (fun s x =>
    (s.setSpdm f { x with sess := x.sess.filter (fun p => p.1 != sess.toNat) }).spdmReply 0x6C []))

/-- A chunk of a request: in order; after the last one the request it carries stands by itself. -/
def execChunkSend (f : FnAt) (seq : BitVec 16) (last : Bool) (s : State) : Host.Outcome State Fault Refusal :=
  .next (s.onAgreed f (fun s x =>
    if seq.toNat ≠ x.chunkIn.getD 0 then (s.setSpdm f { x with chunkIn := none }).spdmError 0x01
    else (s.setSpdm f { x with chunkIn := if last then none else some (seq.toNat + 1) }).spdmReply 0x85 [seq.toNat]))

/-- A chunk of a response: in order. last: the response ends with it. -/
def execChunkGet (f : FnAt) (seq : BitVec 16) (last : Bool) (s : State) : Host.Outcome State Fault Refusal :=
  .next (s.onAgreed f (fun s x =>
    if seq.toNat ≠ x.chunkOut.getD 0 then (s.setSpdm f { x with chunkOut := none }).spdmError 0x01
    else (s.setSpdm f { x with chunkOut := if last then none else some (seq.toNat + 1) }).spdmReply 0x86
      [seq.toNat, Config.spdmBody 0x86 [seq.toNat]]))

/-! ### IDE and TDISP (R453, Table 16.10) -/

def State.stream (s : State) (h k : Nat) : Nat := Tbl.get 0 s.ide (256 * h + k)
def State.setStream (s : State) (h k v : Nat) : State := { s with ide := Tbl.put 0 s.ide (256 * h + k) v }

/-- Key a stream: at most 8 per port. -/
def State.keyStream (s : State) (h k : Nat) : State :=
  if s.stream h k = 0 ∧ 8 ≤ (s.ide.filter (fun p => p.1 / 256 == h)).length then s.spdmError 0x05
  else (s.setStream h k (max 1 (s.stream h k))).spdmReply 0x7E [k]

/-- The device interface report (R453). -/
def State.tdiReport (s : State) (i : Nat) : State :=
  let p := s.instPart i
  s.spdmReply 0x7E [i, p, s.partFld p 192 64, Config.spdmBody 0x7E [i], s.meas5 p]

def execVendorDefinedRequest (f : FnAt) (sess : BitVec 32) (msg : Vdm) (s : State) : Host.Outcome State Fault Refusal :=
  let h := f.port.val
  .next (s.inSession f sess.toNat true (fun s _ =>
    match msg with
    | .ideKey k => s.keyStream h k.toNat
    | .ideGo k => if s.stream h k.toNat = 0 then s.spdmError 0x04 else (s.setStream h k.toNat 2).spdmReply 0x7E [k.toNat]
    | .ideStop k => (s.streamLost h k.toNat).spdmReply 0x7E [k.toNat]
    | .report => match s.fnInst f with | some i => s.tdiReport i | none => s.spdmError 0x01
    | .state => match s.fnInst f with | some i => s.spdmReply 0x7E [i, s.tdiOf i] | none => s.spdmError 0x01
    | .other => s.spdmError 0x07))

/-- A TDISP request is refused. -/
def State.tdiRefuse (s : State) (i : Nat) : State := ((s.refuseLog 7 0 i 0x1FF).spdmError 0x04)

/-- A TDISP request for the instance bound on the port of the function that carries it. -/
def State.onTdi (s : State) (f : FnAt) (sess i : Nat) (k : State → State) : State :=
  s.inSession f sess true (fun s _ =>
    if s.instState i ≠ 0 ∧ s.fld (PRT_INST i) 6 2 = f.port.val ∧ (f.fn.val = 0 ∨ s.fld (PRT_INST i) 8 10 = f.fn.val) then k s
    else s.spdmError 0x01)

/-- Table 16.10: LOCK_INTERFACE, on an instance in RUN whose TDI is unlocked. -/
def execLockInterface (f : FnAt) (sess : BitVec 32) (inst : Fin 512) (stream : BitVec 8) (s : State) : Host.Outcome State Fault Refusal :=
  let i := inst.val
  .next (s.onTdi f sess.toNat i (fun s =>
    if s.instState i ≠ 1 ∨ s.tdiOf i ≠ 0 then s.tdiRefuse i
    else ({ s.setTdi i 1 with tdiStream := Tbl.put 0x100 s.tdiStream i stream.toNat }).spdmReply 0x7E [i]))

/-- Table 16.10: START_INTERFACE, from CONFIG_LOCKED with the bound stream in use. -/
def execStartInterface (f : FnAt) (sess : BitVec 32) (inst : Fin 512) (s : State) : Host.Outcome State Fault Refusal :=
  let i := inst.val
  .next (s.onTdi f sess.toNat i (fun s =>
    if s.tdiOf i ≠ 1 ∨ s.stream f.port.val (Tbl.get 0x100 s.tdiStream i) ≠ 2 then s.tdiRefuse i
    else (s.setTdi i 2).spdmReply 0x7E [i]))

/-- Table 16.10: STOP_INTERFACE. -/
def execStopInterface (f : FnAt) (sess : BitVec 32) (inst : Fin 512) (s : State) : Host.Outcome State Fault Refusal :=
  let i := inst.val
  .next (s.onTdi f sess.toNat i (fun s =>
    ({ s.setTdi i 0 with tdiStream := Tbl.put 0x100 s.tdiStream i 0x100 }).spdmReply 0x7E [i]))

end Sys2Proof.Machine
end

