-- ==== Sys2Proof/Machine/Crema.lean ====
section
/-!
DEFINITION. Machine/Crema.lean: Crema sessions (R459 to R465).
-/
namespace Sys2Proof.Machine

def State.cremaSlot (s : State) (i k : Nat) : CremaSlot := Tbl.get ({} : CremaSlot) s.crema (4 * i + k)
def State.setCremaSlot (s : State) (i k : Nat) (x : CremaSlot) : State :=
  { s with crema := Tbl.put ({} : CremaSlot) s.crema (4 * i + k) x }

/-- SHA3-256 of bytes, as 256 bits. -/
def hash256 (l : List Nat) : Nat := Config.sha3_256 l % 2 ^ 256

/-- "GNCREMA1" (R460). -/
def cremaMagic : List Nat := [0x47, 0x4E, 0x43, 0x52, 0x45, 0x4D, 0x41, 0x31]

def cremaStart (det : Bool) (mode : Nat) : Nat := hash256 (cremaMagic ++ [b2n det] ++ natBytes 8 mode)

/-- H after an ADD. -/
def cremaNext (h kind len d : Nat) : Nat := hash256 (natBytes 32 h ++ [kind] ++ natBytes 8 len ++ natBytes 32 d)

/-- Read pieces for the engine: the bytes, the first status that is not OK, the state. -/
def State.cremaRead (s : State) (i : Nat) (l : List (Nat × Nat)) : List Nat × Nat × State :=
  l.foldl (fun (a : List Nat × Nat × State) p =>
    let r := a.2.2.accRead p.1 p.2 i
    (a.1 ++ natBytes p.2 r.1.data, if a.2.1 = stOk then r.1.status else a.2.1, r.2)) ([], stOk, s)

/-- Pages a range of n bytes may touch. -/
def pageFuel (n : Nat) : Nat := n / 65536 + 2

/-- Reserved bits of a payload (Table 17.4). -/
def cremaReserved (op v : Nat) : Bool :=
  if op = 0x0A then bits v 2 6 != 0 || bits v 9 55 != 0 || v >>> 128 != 0
  else if op = 0x0B then
    bits v 2 2 != 0 || bits v 9 55 != 0 || (!(bit v 8) && v >>> 176 != 0) || bits v 4 4 == 0 || decide (4 < bits v 4 4)
      || (bit v 8 && bits v 4 4 == 4)
  else if op = 0x0C then bits v 2 6 != 0 || bits v 9 55 != 0 || bits v 176 16 != 0 || v >>> 240 != 0
  else v >>> 2 != 0

/-- Bytes of the record a SEAL writes (R463). -/
def recordLen (v : Nat) : Nat := if bit v 8 then 256 else 128

/-- Is a SEAL illegal beside its reserved bits: record misaligned, or over the output (Table 17.4)? -/
def sealBad (v : Nat) : Bool :=
  bits v 192 48 % 64 != 0 || overlap (bits v 192 48) (recordLen v) (bits v 128 48) (bits v 64 64)

/-- The end of a command at its start: none when the engine has work to do for it (R461, R509). -/
def State.cremaCheck (s : State) (i op v : Nat) : Option State :=
  let k := bits v 0 2
  let x := s.cremaSlot i k
  if cremaReserved op v ∨ s.fld SEC_CREMA_CTRL 0 1 = 0 then some (s.codeState op i)
  else if op = 0x0A then
    if x.opened then some (s.codeState op i)
    else some ((s.setCremaSlot i k { opened := true, det := bit v 8, mode := bits v 64 64, hash := cremaStart (bit v 8) (bits v 64 64) }).answer stOk)
  else if op = 0x0D then
    if x.opened then some (((s.setCremaSlot i k {}).bump SEC_CREMA_ABORT_CNT).answer stOk) else some (s.answer stNop)
  else if bits v 64 64 = 0 then some (s.answer stNop)
  else if op = 0x0B then if 2 ^ 40 < bits v 64 64 ∨ x.opened = false then some (s.codeState op i) else none
  else if sealBad v ∨ x.opened = false ∨ x.nAdd = 0 then some (s.codeState op i)
  else none

/-- Serve the commands of an instance that wait, until one needs the engine (R459); a SEAL takes its taint bits now (R462). -/
def State.cremaServe (s : State) (i : Nat) : Nat → State
  | 0 => s
  | n + 1 =>
    match findIdx? (fun (j : CremaJob) => j.inst == i) s.cremaJobs with
    | none => s
    | some (p, j) =>
      if j.begun then s
      else match s.cremaCheck i j.op j.pay with
      | some t => { t with cremaJobs := eraseAt t.cremaJobs p }.cremaServe i n
      | none =>
        let t := (s.cremaSlot i (bits j.pay 0 2)).taint
        { s with cremaJobs := s.cremaJobs.modify p (fun j => { j with begun := true, taint := t }) }

/-- A Crema command reaches the engine. -/
def State.cremaCommand (s : State) (i op v : Nat) : State :=
  s.fromInst i (fun s =>
    { s with cremaJobs := s.cremaJobs ++ [({ inst := i, op := op, pay := v } : CremaJob)] }.cremaServe i (s.cremaJobs.length + 1))

def execCremaOpen (inst : Fin 512) (d : BitVec 384) (s : State) : Host.Outcome State Fault Refusal :=
  .next (s.cremaCommand inst.val 0x0A d.toNat)
def execCremaAdd (inst : Fin 512) (d : BitVec 384) (s : State) : Host.Outcome State Fault Refusal :=
  .next (s.cremaCommand inst.val 0x0B d.toNat)
def execCremaSeal (inst : Fin 512) (d : BitVec 384) (s : State) : Host.Outcome State Fault Refusal :=
  .next (s.cremaCommand inst.val 0x0C d.toNat)
def execCremaAbort (inst : Fin 512) (d : BitVec 384) (s : State) : Host.Outcome State Fault Refusal :=
  .next (s.cremaCommand inst.val 0x0D d.toNat)

/-- The digest d enters the session. -/
def State.cremaApply (s : State) (i k v d : Nat) : State :=
  let x := s.cremaSlot i k
  (s.setCremaSlot i k { x with hash := cremaNext x.hash (bits v 4 4) (bits v 64 64) d, nAdd := (x.nAdd + 1) % 65536,
                                nPre := if bit v 8 then (x.nPre + 1) % 65536 else x.nPre }).answer stOk 0 [d]

/-- An ADD ends (R460, R461). -/
def State.cremaAddEnd (s : State) (i v : Nat) : State :=
  let k := bits v 0 2
  let len := bits v 64 64
  if bit v 8 then s.cremaApply i k v (bits v 128 256)
  else match s.mcSpan i .read (pageFuel len) (bits v 128 48) len with
  | .error e => s.codeFault i (bits v 128 48) e
  | .ok l =>
    let r := s.cremaRead i l
    if r.2.1 = stOk then (r.2.2.bump64 SEC_CREMA_BYTES len).cremaApply i k v (hash256 r.1) else r.2.2.answer r.2.1

/-- The flags of a record (Table 17.5). -/
def cremaFlags (x : CremaSlot) (taint : Nat) (sign : Bool) : Nat :=
  b2n x.det + taint <<< 1 + (b2n (x.det && taint == 0)) <<< 6 + (b2n sign) <<< 7

/-- The 128 bytes of a record (Table 17.5). -/
def State.cremaRecord (s : State) (i : Nat) (x : CremaSlot) (flags out len : Nat) : Nat :=
  0x414D5243 + 1 <<< 32 + flags <<< 40 + x.mode <<< 64 + x.hash <<< 128 + out <<< 384 + x.nAdd <<< 640 + x.nPre <<< 656
    + len <<< 672 + (s.reg SEC_UID) <<< 736 + s.nowNs <<< 800 + (b2n s.timeValid) <<< 864 + (s.instGen i) <<< 872

/-- Write bytes to pieces, low first. -/
def State.cremaWrite (s : State) (i : Nat) : List (Nat × Nat) → Nat → State
  | [], _ => s
  | p :: rest, v => (s.accWrite p.1 p.2 (v % 2 ^ (8 * p.2)) i).2.cremaWrite i rest (v >>> (8 * p.2))

/-- A SEAL ends: the record is written and the slot closes (R461 to R463). -/
def State.cremaSealEnd (s : State) (i v taint : Nat) : State :=
  let k := bits v 0 2
  let x := s.cremaSlot i k
  let len := bits v 64 64
  let n := recordLen v
  match s.mcSpan i .read (pageFuel len) (bits v 128 48) len, s.mcSpan i .write 2 (bits v 192 48) n with
  | .error e, _ => s.codeFault i (bits v 128 48) e
  | _, .error e => s.codeFault i (bits v 192 48) e
  | .ok l, .ok w =>
    let r := s.cremaRead i l
    if r.2.1 ≠ stOk then r.2.2.answer r.2.1
    else
      let s := r.2.2.bump64 SEC_CREMA_BYTES len
      let flags := cremaFlags x taint (bit v 8)
      let rec1 := s.cremaRecord i x flags (hash256 r.1) len
      let sig := if bit v 8 then Config.aliasSign (s.meas 2) (s.reg SEC_UID) (Config.sha384 (natBytes 128 rec1)) % 2 ^ 768 else 0
      let s := (s.cremaWrite i w (rec1 + sig <<< 1024)).bump SEC_CREMA_SEAL_CNT
      let s := if bit flags 6 then s else s.bump SEC_CREMA_TAINT_CNT
      (s.setCremaSlot i k {}).answer stOk 0 [x.hash, flags]

/-- R459: the engine finishes the command of an instance that it works on, and takes up the next. -/
def execCremaCommandDone (inst : Fin 512) (s : State) : Host.Outcome State Fault Refusal :=
  let i := inst.val
  .next (match findIdx? (fun (j : CremaJob) => j.inst == i && j.begun) s.cremaJobs with
  | none => s
  | some (p, j) =>
    let s := if j.op = 0x0B then s.cremaAddEnd i j.pay else s.cremaSealEnd i j.pay j.taint
    { s with cremaJobs := eraseAt s.cremaJobs p }.cremaServe i (s.cremaJobs.length + 1))

end Sys2Proof.Machine
end

