-- ==== Sys2Proof/Machine/RegWrite.lean ====
section
/-!
DEFINITION. Machine/RegWrite.lean: a write of any register of the control region (R8 to R11, R510, R513 to R515): where it goes,
what refuses it, what follows it. A register with a command of its own takes effect by that command.
-/
namespace Sys2Proof.Machine

/-- The state an outcome goes on in. -/
def State.after (s : State) (o : Host.Outcome State Fault Refusal) : State :=
  match o with
  | .next t => t
  | _ => s

/-- The index of address a in an array of n registers at base, stride bytes apart. -/
def arrIdx (base stride n a : Nat) : Option Nat :=
  if base ≤ a ∧ (a - base) % stride = 0 ∧ (a - base) / stride < n then some ((a - base) / stride) else none

/-! ### Registers with commands of their own -/

/-- Registers of a physical core's page, at offset o. -/
def State.coreOwn (s : State) (wr : Writer) (c : Fin 512) (o v : Nat) : Option State :=
  let t := bit v 0
  let e := bit v 1
  let w := BitVec.ofNat 64 v
  if o = 0x40 then some (s.after (execPrtTqReset c t e s))
  else if o = 0x48 then some (s.after (execPrtTaskCancel ⟨c, .timed⟩ (BitVec.ofNat 16 v) s))
  else if o = 0x50 then some (s.after (execPrtTaskCancel ⟨c, .elastic⟩ (BitVec.ofNat 16 v) s))
  else if o = 0x120 then some (s.after (execMemPmGo c wr t (if e then .elastic else .timed) s))
  else if o = 0x1A0 then some (s.after (execRasCoreFence c wr t s))
  else if o = 0x200 then some (s.after (execMeCtrlWrite c t s))
  else if o = 0x240 then some (s.after (execMeQreset c t e s))
  else if 0x300 ≤ o ∧ o < 0x340 then some (s.after (execMeActDescWrite ⟨c, .timed⟩ (Fin.ofNat 8 (o / 8)) w s))
  else if 0x340 ≤ o ∧ o < 0x380 then some (s.after (execMeActDescWrite ⟨c, .elastic⟩ (Fin.ofNat 8 (o / 8)) w s))
  else if o = 0x400 then some (s.after (execVceCtrlWrite c 0 t s))
  else if o = 0x500 then some (s.after (execVceCtrlWrite c 1 t s))
  else if o = 0x438 then some (s.after (execVceQreset c 0 t e s))
  else if o = 0x538 then some (s.after (execVceQreset c 1 t e s))
  else if o = 0x800 then some (s.after (execTmeCtrlWrite c t s))
  else if o = 0x828 then some (s.after (execTmeQreset c t e s))
  else none

/-- CGL_CMD and TM_GATE_CMD: swap, stop. -/
def State.listCmd (s : State) (v : Nat) (swap : Bool → Host.Outcome State Fault Refusal) (stop : Host.Outcome State Fault Refusal) :
    State :=
  if bit v 0 then s.after (swap (bit v 1)) else if bit v 1 then s.after stop else s.answer stOk

/-- LNK_CMD: one command at a time. -/
def State.lnkCmdWrite (s : State) (wr : Writer) (p : Fin 24) (v : Nat) : State :=
  let n := [0, 1, 2, 3, 8].filter (fun b => bit v b)
  match n with
  | [] => s.answer stOk
  | [0] => s.after (execEnable wr p s)
  | [1] => s.after (execDisable wr p s)
  | [2] => s.after (execRetrain wr p s)
  | [3] => s.after (execSwapCommand wr p (Fin.ofNat 16 (bits v 4 4)) s)
  | [_] => s.after (execUnretire wr p s)
  | _ => s.lnkRefuse p.val

/-- FH_PORT_CMD: sub-ports to enable and to disable; nothing happens when one is not there, or named twice. -/
def State.fhCmdWrite (s : State) (wr : Writer) (p : Fin 8) (v : Nat) : State :=
  let en := (List.range 4).filter (fun b => bit v b)
  let dis := (List.range 4).filter (fun b => bit v (4 + b))
  if (en ++ dis).isEmpty then s.answer stOk
  else if (en ++ dis).any (fun b => !(s.fhExists (4 * p.val + b))) || en.any (fun b => dis.contains b) then s.refuseReg (FH_PORT_CMD p.val)
  else
    let s := en.foldl (fun (s : State) b => s.after (execFhPortCmdEnable wr p (Fin.ofNat 4 b) s)) s
    dis.foldl (fun (s : State) b => s.after (execFhPortCmdDisable wr p (Fin.ofNat 4 b) s)) s

/-- PRT_CMD. -/
def State.prtCmdWrite (s : State) (wr : Writer) (v : Nat) : State :=
  let pg : Option (BitVec 16) := if bit v 17 then some (BitVec.ofNat 16 (v >>> 18)) else none
  s.prtWrite ⟨wr, Fin.ofNat 16 (bits v 4 4), pg⟩ (bits v 0 4) (bits v 8 9)

/-- Registers that the management cores map into an owner (R305, R307, R365, R396, R427), with the owner's own checks. -/
def State.ownerReg (s : State) (wr : Writer) (a v : Nat) : Option State :=
  match arrIdx (FEC_QCTL 0) 0x40 64 a, arrIdx (TM_ENQ_CTL 0) 0x40 64 a, arrIdx (FAB_XR_TAIL 0) 0x10000 64 a,
    arrIdx (FAB_XI_DONE 0) 0x10000 64 a with
  | some q, _, _, _ =>
    let q := Fin.ofNat 64 q
    let s := if bit v 0 then s.after (execFecQctlCancel wr q (BitVec.ofNat 16 (v >>> 16)) s) else s.answer stOk
    some (if bit v 1 then s.after (execFecQctlReset wr q s) else s)
  | _, some e, _, _ => some (if bit v 0 then s.after (execTmEnqCtlReset wr (Fin.ofNat 64 e) s) else s.answer stOk)
  | _, _, some r, _ => some (s.after (execFabXrTailWrite wr (Fin.ofNat 64 r) (BitVec.ofNat 8 v) s))
  | _, _, _, some i => some (s.after (execFabXiDone wr (Fin.ofNat 64 i) (BitVec.ofNat 16 v) s))
  | _, _, _, _ =>
    match arrIdx (FEC_QRPTR 0) 0x40 64 a, arrIdx (TM_ENQ_RPTR 0) 0x40 64 a with
    | some q, _ => some (s.ownerOnly wr a (s.fecOwner q) (fun s => s.ungated 9 a (s.fecOwner q) (fun s =>
        ((s.setReg a (bits v 0 8)).fecServe q).answer stOk)))
    | _, some e => some (s.ownerOnly wr a (s.tmOwner e) (fun s => s.ungated 0 a (s.tmOwner e) (fun s =>
        ((s.setReg a (bits v 0 8)).tmRun e).answer stOk)))
    | _, _ =>
      if FAB_XR_RING 0 0 ≤ a ∧ a < FAB_XI_NEXT 0 then
        some (s.mapped wr (s.fld (FAB_XR_CFG ((a - FAB_XR_RING 0 0) / 0x10000)) 1 9) a (fun s => (s.setReg a v).answer stOk))
      else none

/-- Is it a window that takes 64-byte writes only (R350, R376, R417)? -/
def pushWindow (a : Nat) : Bool :=
  (decide (FEC_QWIN 0 0 ≤ a) && decide (a < FAB_CTRL)) || (decide (TM_ENQ_WIN 0 0 ≤ a) && decide (a < FEC_CTRL))
    || (decide (MBX_MC_SEND 0 0 ≤ a) && decide (a < CGL_STATUS))

/-- Registers of the hub that only the management cores write and that have commands of their own. -/
def State.hubOwn (s : State) (wr : Writer) (a v : Nat) : Option State :=
  let w := BitVec.ofNat 64 v
  if a = CLK_EN_HUB then some (s.after (execClkEnWrite wr false w s))
  else if a = CLK_EN_ISL then some (s.after (execClkEnWrite wr true w s))
  else if a = TIME_STEP then some (s.after (execTimeStepWrite wr (BitVec.ofNat 48 v) s))
  else if a = TIME_ADJ then some (s.after (execTimeAdj wr w s))
  else if a = TIME_SERVO_OFS then some (s.after (execTimeServoOfs wr w s))
  else if a = TIME_CTRL then some (s.after (execDeclareLock wr (bit v 0) s))
  else if a = PWR_CAP then some (s.after (execPwrCapWrite wr (BitVec.ofNat 12 v) s))
  else if a = PWR_TIMED_BUDGET then some (s.after (execPwrTimedBudgetWrite wr (BitVec.ofNat 12 v) s))
  else if a = PWR_DOM_CMD then some (s.domCommand v)
  else if a = XLT_INV_CMD then
    let i := Fin.ofNat 512 (bits v 2 9)
    some (match bits v 0 2 with
      | 1 => s.after (execXltInvInstance wr i s)
      | 2 => s.after (execXltInvRange wr i s)
      | 3 => s.after (execXltInvAll wr s)
      | _ => s.refuseReg a)
  else if a = PRT_MODE then some (s.after (execPrtModeWrite wr (BitVec.ofNat 2 v) s))
  else if a = PRT_CMD then some (s.prtCmdWrite wr v)
  else if a = SEC_KEY_CMD then some (s.keyCommand v true)
  else if a = SEC_CFG_LOCK then some (s.cfgLock v)
  else if a = SEC_RCV_CMD then some (s.refuseReg a)
  else if a = RAS_CMD then some (s.rasCommand v)
  else if a = FH_MASK_UNMUTE then some (s.after (execFhMaskUnmute wr (Fin.ofNat 128 v) (bit v 7) s))
  else if SEC_RCV_DATA 0 ≤ a ∧ a < SEC_CREMA_CTRL then some (s.refuseReg a)
  else if pushWindow a then some (if 0xC00000 ≤ a then (s.bump FEC_REFUSE_CNT).refuseReg a
    else if 0x400000 ≤ a then (s.bump TM_REFUSE_CNT).refuseReg a else s.refuseReg a)
  else
    match arrIdx (CLK_ISL 0) 8 64 a, arrIdx (CGL_CMD 0) 0x80 16 a, arrIdx (CGL_LC_GRP 0) 8 480 a, arrIdx (PRT_LC_INST 0) 8 480 a,
      arrIdx (LNK_CMD 0) 0x400 24 a with
    | some n, _, _, _, _ => some (s.after (execClkIslTargetWrite wr (Fin.ofNat 64 n) (BitVec.ofNat 9 v) s))
    | _, some l, _, _, _ =>
      let l := Fin.ofNat 16 l
      some (s.listCmd v (fun st => execCglSwap wr l st s) (execCglStop wr l s))
    | _, _, some n, _, _ => some (s.after (execCglLcGrpWrite wr (Fin.ofNat 480 n) (BitVec.ofNat 7 v) s))
    | _, _, _, some n, _ => some (s.after (execPrtLcInstWrite wr (Fin.ofNat 480 n) (BitVec.ofNat 9 v) (BitVec.ofNat 9 (v >>> 9)) s))
    | _, _, _, _, some p => some (s.lnkCmdWrite wr (Fin.ofNat 24 p) v)
    | _, _, _, _, _ =>
      match arrIdx (FEC_CELL_CMD 0) 8 256 a, arrIdx (FH_PORT_CMD 0) 0x100 8 a, arrIdx (TM_GATE_CMD 0) 0x40 32 a,
        arrIdx (RAS_CARD_SWAP 0) 8 16 a with
      | some c, _, _, _ =>
        let c := Fin.ofNat 256 c
        some (match bit v 0, bit v 1 with
          | true, true => (s.bump FEC_REFUSE_CNT).refuseReg a
          | true, false => s.after (execActivate wr c s)
          | false, true => s.after (execDeactivate wr c s)
          | false, false => s.answer stOk)
      | _, some p, _, _ => some (s.fhCmdWrite wr (Fin.ofNat 8 p) v)
      | _, _, some t, _ =>
        let t := Fin.ofNat 32 t
        some (s.listCmd v (fun st => execTmGateSwap wr t st s) (execTmGateStop wr t s))
      | _, _, _, some k => some (s.cardSwapWrite k v)
      | _, _, _, _ => none

/-! ### What refuses a write -/

/-- Registers of an array that differ from their reset values: their indices. -/
def State.listed (s : State) (base stride n : Nat) : List Nat := s.regs.filterMap (fun r => arrIdx base stride n r.1)

/-- Enabled queues of the fronthaul and host ranges, and enabled nodes. -/
def State.liveQueues (s : State) : List Nat :=
  (s.listed (TM_QCFG 0) 0x20 16384).filter (fun q => s.qEn q && decide (q < s.fhN + s.hostN))
def State.liveNodes (s : State) : List Nat := (s.listed (TM_NODE 0) 8 1024).filter (fun n => s.fld (TM_NODE n) 0 1 == 1)

/-- The least product of quantum and 64 that node target t allows. -/
def State.targetMtu (s : State) (t : Nat) : Nat := if t < 32 then s.fld (FH_PORT_CFG (t / 4)) 2 14 else 9216

/-- R369: a write of FH_PORT_CFG[p]. -/
def State.portCfgBad (s : State) (p old v : Nat) : Bool :=
  let mtu := bits v 2 14
  bits v 0 2 == 3 || decide (mtu < 64) || decide (9216 < mtu)
    || (bits v 0 2 != bits old 0 2 && ((List.range 4).any (fun k => s.fhState (4 * p + k) != 0)
          || s.liveNodes.any (fun n => s.nodeTarget n / 4 == p)))
    || (decide (mtu < bits old 2 14) && s.liveQueues.any (fun q => s.qTarget q / 4 == p && decide (mtu < 64 * s.qQuantum q)))

/-- R386: a write of TM_QCFG[q]. -/
def State.qcfgBad (s : State) (q old v : Nat) : Bool :=
  let n := bits v 2 10
  let t := s.nodeTarget n
  if s.fhN + s.hostN ≤ q then false
  else
    (!((s.tmQ q).isEmpty) && (bits v 1 11 != bits old 1 11 || bits v 37 4 != bits old 37 4))
      || decide (q < s.fhN) != decide (t < 32) || s.fld (TM_NODE n) 0 1 == 0
      || (bit v 0 && (bits v 25 12 == 0 || bits v 41 8 == 0 || decide (64 * bits v 41 8 < s.targetMtu t)))

/-- Two's-complement magnitude of a 7-bit tap (R315). -/
def tapMag (v k : Nat) : Nat := (toSigned 7 (bits v (7 * k) 7)).natAbs

/-- R315: c0 from 32 to 63, magnitudes of at most 64 in all. -/
def firBad (v : Nat) : Bool :=
  let c0 := toSigned 7 (bits v 14 7)
  decide (c0 < 32) || decide (64 < (List.range 5).foldl (fun n k => n + tapMag v k) 0)

/-- R399: is the descriptor of partition p open to a write of word w? -/
def State.partOpen (s : State) (p w : Nat) : Bool :=
  s.fld PRT_MODE 0 2 != 1 || s.partState p == 0 || s.partState p == 1 || (w == 3 && s.partState p == 3)

/-- Table 9.9: a write of CGL_LIST_CFG[l]. -/
def State.listCfgBad (s : State) (l old v : Nat) : Bool :=
  let live := s.running l || (s.cglList l).swap.isSome
  let p := bits v 1 4
  (bit v 0 && !(s.partTimed p)) || (live && (p != bits old 1 4 || (bit old 0 && !(bit v 0))))
    || decide (bits v 5 9 < 64) || decide (296 < bits v 5 9)

/-- Refusals of blocks 0 to 3, 5 to 7 (clock, time, power, memory, partitions, Barista, security). v is the register after the
write. -/
def State.badLow (s : State) (base a v : Nat) : Bool :=
  if base = CLK_SRC_CFG then bits v 0 16 == 0
  else if base = CLK_GLIDE_CFG then bits v 0 6 == 0 || decide (32 < bits v 0 6)
  else if base = TIME_SERVO_THR then bits v 0 32 == 0 || bits v 32 16 == 0 || bits v 48 8 == 0
  else if base = PWR_CAP_CFG then bits v 0 6 == 0 || bits v 6 6 == 0 || bits v 12 8 == 0 || decide (2000 < bits v 20 12)
  else if base = PWR_TEMP_CFG then bits v 0 8 == 0 || decide (bits v 8 8 ≤ bits v 0 8)
  else if base = MEM_RA_POOL_CFG then decide (512 < bits v 0 10)
  else if base = MEM_POOL_CFG 0 then decide (9 < bits v 3 4) || bits v 1 2 == 3
  else if base = PRT_RECLAIM_CFG then
    decide (bits v 0 12 < 60) || decide (3600 < bits v 0 12) || decide (bits v 12 16 < 1) || decide (60000 < bits v 12 16)
  else if 0x30100 ≤ base ∧ base < 0x30120 then !(s.partOpen ((a % 0x10000 - 0x100) / 0x40) ((base % 0x10000 - 0x100) / 8))
  else if base = BRS_CTRL then bit v 0 == false && (List.range 64).any (fun g => s.grpState g == 1)
  else if base = BRS_PART_QUOTA 0 then
    let p := (a - base) / 8
    decide (32768 < ((List.range 16).filter (fun q => q != p)).foldl (fun n q => n + s.fld (BRS_PART_QUOTA q) 0 16) (bits v 0 16))
      || decide (bits v 0 16 < s.fld (BRS_PART_USED p) 0 16)
  else if base = SEC_KRANGE0 0 then bit v 63 && s.fld (a + 8) 0 32 == 0
  else if base = SEC_KRANGE1 0 then bits v 0 32 == 0 && s.fld (a - 8) 63 1 == 1
  else if base = SEC_CREMA_CTRL then bit v 0 == false && s.crema.any (fun c => c.2.opened)
  else false

/-- Refusals of the link, gate-list, fronthaul and reliability blocks. old is the register before the write, v after it. -/
def State.badMid (s : State) (base a old v : Nat) : Bool :=
  if base = LNK_WIN then bits v 0 16 == 0
  else if base = LNK_CFG 0 ∨ base = LNK_CFG 16 then bits v 4 10 == 0 || bits v 14 10 == 0 || bits v 24 13 == 0
  else if base = LNK_REPLAY_CFG 0 then bits v 0 16 == 0 || bits v 16 8 == 0
  else if base = LNK_FIR 16 0 then
    let st := s.portState (16 + (a - base) / 0x400)
    firBad v || !(st == 0 || st == 5 || st == 7)
  else if base = CGL_STARVE_CFG then bits v 0 20 == 0 || decide (1000000 < bits v 0 20)
  else if base = CGL_LIST_CFG 0 then s.listCfgBad ((a - base) / 0x80) old v
  else if base = FH_MASK_CFG then bits v 0 4 == 0
  else if base = FH_PORT_CFG 0 then s.portCfgBad ((a - base) / 0x100) old v
  else if base = FH_CLS 0 0 then
    let q := s.fld (a + 8) 24 14
    bit v 63 && (decide (q < s.fhN) || decide (s.fhN + s.hostN ≤ q))
  else if base = FH_CLS 0 1 then
    let q := bits v 24 14
    s.fld (a - 8) 63 1 == 1 && (decide (q < s.fhN) || decide (s.fhN + s.hostN ≤ q))
  else if FH_CELLX 0 0 ≤ base ∧ base < FH_CELLX 1 0 then s.cellState ((a - FH_CELLX 0 0) / 0x20) != 0
  else if base = RAS_WIT_CFG then bits v 1 8 == 0
  else if base = RAS_STRAG_CFG then bits v 0 8 == 0 || bits v 8 8 == 0 || bits v 16 16 == 0
  else if RAS_THR 0 ≤ base ∧ base < RAS_THR 23 then bits v 0 32 == 0 || bits v 32 16 == 0
  else false

/-- Refusals of the traffic manager, the FEC array and the fabric. -/
def State.badHigh (s : State) (base a old v : Nat) : Bool :=
  if base = TM_CTRL then bit v 0 == false && s.tm.queues.any (fun q => !q.2.isEmpty)
  else if base = TM_QSPLIT then
    let f := bits v 28 12
    bits v 0 14 + bits v 14 14 + f != 16384 || f % 48 != 0 || decide (f < 48) || decide (3840 < f)
  else if base = TM_BUF_CFG then bits v 18 6 == 0
  else if base = TM_GATE_CFG 0 then
    let t := (a - base) / 0x40
    bit old 0 && !(bit v 0) && (s.gateRunning t || (s.gate t).swap.isSome)
  else if base = TM_NODE 0 then
    let t := bits v 1 6
    (bit v 0 && bits v 10 16 == 0) || decide (35 < t) || (decide (t < 32) && !(s.fhExists t))
  else if base = TM_POL0 0 then
    let y := s.reg (TM_POL1 ((a - base) / 8))
    decide (bits v 21 20 < 64) || (bit v 41 && (bits v 0 21 == 0 || bits y 0 21 == 0 || decide (bits y 0 21 < bits v 0 21)))
  else if base = TM_POL1 0 then
    let y := s.reg (TM_POL0 ((a - base) / 8))
    decide (bits v 21 20 < 64) || decide (bits v 0 21 < bits y 0 21) || (bit y 41 && bits v 0 21 == 0)
  else if base = TM_SHP 0 then
    bit v 48 && (bits v 0 21 == 0 || decide (1310720 < bits v 0 21) || decide (bits v 21 20 < 64))
  else if base = TM_QCFG 0 then s.qcfgBad ((a - base) / 0x20) old v
  else if base = FEC_CTRL then bit v 0 == false && !(s.fec.jobs.isEmpty)
  else if FEC_CELL 0 0 ≤ base ∧ base < FEC_CELL 1 0 then s.cellState ((a - FEC_CELL 0 0) / 0x80) != 0
  else if base = FAB_CTRL then bit v 0 == false && s.fab.tags.any (fun t => t.2.isSome)
  else if base = FAB_TAG_CFG then bits v 17 17 == 0
  else if base = FAB_TIMEOUT then bits v 0 20 == 0 || decide (1000000 < bits v 0 20)
  else if base = FAB_XD_CFG then bits v 16 4 == 0
  else if base = FAB_XI_CFG 0 then bits v 22 3 == 7 || bits v 25 12 == 0
  else if base = FAB_ROUTE 0 then bits v 24 2 == 2 && decide (bits v 26 3 < 2)
  else false

/-- Is a write that would leave the register at a with v refused? -/
def State.regBad (s : State) (base a old v : Nat) : Bool :=
  if base < 0x60000 then s.badLow base a v
  else if base < 0x400000 then s.badMid base a old v
  else s.badHigh base a old v

/-- A refused write, counted where its block counts refused writes (Tables 9.8, 10.11, 14.12, 15.12, 19.7). -/
def State.refuseWrite (s : State) (a : Nat) : State :=
  let s := match blockId a with
    | 2 => s.bump PWR_REFUSE_CNT
    | 5 => s.bump PRT_REFUSE_CNT
    | 6 => s.bump BRS_REFUSE_ST_CNT
    | 10 => s.bump CGL_REFUSE_CNT
    | 13 => s.bump TM_REFUSE_CNT
    | _ => s
  s.refuseReg a

/-! ### Values that do not read back as written -/

/-- Fields that clamp or ignore what is written: local_gib above 48 (R158), run-ahead depths above 4 (Table 6.10), windows of rows
that have none (R470). -/
def regFix (base a v : Nat) : Nat :=
  if base = MEM_HBM_CFG then min 48 (bits v 0 6)
  else if base = TME_RA_CFG 0 then min 4 (bits v 0 3) + 8 * min 4 (bits v 3 3)
  else if RAS_THR 0 ≤ base ∧ base < RAS_THR 23 ∧ [7, 16, 17, 18, 19].contains ((a - RAS_THR 0) / 8) then setBits v 32 16 0xFFFF
  else v

/-! ### What follows a write -/

/-- The range of entry n of SEC_KRANGE, when it is valid. -/
def State.krange (s : State) (n : Nat) : Option (Nat × Nat) :=
  if s.fld (SEC_KRANGE0 n) 63 1 = 1 then some (s.fld (SEC_KRANGE0 n) 16 32 * 65536, s.fld (SEC_KRANGE1 n) 0 32 * 65536) else none

/-- Contents of a range become unreadable (R450). -/
def State.loseRange (s : State) (r : Option (Nat × Nat)) : State :=
  match r with
  | some x => s.lose x.1 x.2
  | none => s

/-- Effects of a write at a that the register's block gives it (a threshold lowered to a count or below it is reached, R470); s is the state before it, t after it. -/
def State.afterWrite (s t : State) (base a : Nat) (v : Nat) : State :=
  if base = CLK_EVENT then
    if bit v 2 then (List.range 64).foldl (fun (t : State) n => t.setFld (CLK_ISL n) 41 1 0) t else t
  else if base = MEM_POOL_CFG 0 then
    let p := (a - base) / 0x20
    if t.fld a 0 1 = 0 then t.setPool p { t.pool p with waiters := [] } else t.poolServe p ((t.pool p).waiters.length + 1)
  else if base = SEC_KRANGE0 0 ∨ base = SEC_KRANGE1 0 then
    let n := (a - SEC_KRANGE0 0) / 0x10
    if s.reg a = t.reg a then t else (t.loseRange (s.krange n)).loseRange (t.krange n)
  else if RAS_THR 0 ≤ base ∧ base < RAS_THR 23 then
    let row := (a - RAS_THR 0) / 8
    let was := s.fld a 0 32
    let now := t.fld a 0 32
    (s.rasWin.filter (fun w => w.1 / 0x100000000000000 == row && decide (w.2 < was) && decide (now ≤ w.2))).foldl
      (fun (t : State) w => t.threshold row (w.1 % 0x100000000000000) w.2) t
  else if base = FEC_CTRL then (List.range 64).foldl (fun (t : State) q => t.fecServe q) t
  else if base = TM_CTRL then (List.range 64).foldl (fun (t : State) e => t.tmRun e) t
  else if base = TM_SHP 0 then
    let i := (a - base) / 0x10
    t.setCredit i (min (s.shpCredit i) ((t.fld a 21 20 * 65536 : Nat) : Int))
  else if base = TM_POL0 0 ∨ base = TM_POL1 0 then
    let i := (a - base) / 8
    t.setPol i (s.polNow i)
  else t

/-! ### The write -/

/-- The register a logical core's page offset reaches (R514): none while the number is withdrawn, or above the grade's. -/
def State.regAddr (s : State) (a : Nat) : Option Nat :=
  if 0x3000000 ≤ a ∧ a < 0x3200000 then
    let p := s.phys (a % 0x200000 / 0x1000)
    if p = noCore then none else some (0x3200000 + 0x1000 * p + a % 0x1000)
  else some a

/-- Is the block behind a register clock-gated or not powered (R213, R489)? -/
def State.regGated (s : State) (a : Nat) : Bool :=
  let off (b : Nat) : Bool := s.fld CLK_EN_HUB b 1 == 0
  match blockId a with
  | 17 => !(s.islandOn (a % 0x200000 / 0x8000))
  | 6 => off 19
  | 8 =>
    if a < LNK_CFG 0 then false
    else
      let p := (a - LNK_CFG 0) / 0x400
      off (20 + p) || !(s.domOn (if p < 16 then 20 + p / 4 else 24))
  | 11 =>
    if FH_MASK_CFG ≤ a then false
    else !(s.domOn 27) || (decide (FH_PORT_CFG 0 ≤ a) && decide (a < FH_CLS 0 0) && off (1 + (a - FH_PORT_CFG 0) / 0x100))
  | 13 => off 0
  | 14 => off 9 || !(s.domOn 26)
  | _ => false

/-- The instance a writer acts for; none for a management core. -/
def writerInst (wr : Writer) : Nat :=
  match wr with
  | .mc => noInst
  | .host i => i.val

/-- An access outside every block's registers (R513). -/
def State.regNone (s : State) (wr : Writer) (a : Nat) : State :=
  let i := writerInst wr
  (s.charge { addr := 0x030000000000 + a, status := stFaultAccess, cause := cOutOfRange, kind := 1, unit := uReg, inst := i,
              gen := s.instGen i }).answer stFaultAccess cOutOfRange

/-- Fields take the write under their own codes (R8, R10, R11). -/
def State.plainWrite (s : State) (d : RegDesc) (a v : Nat) : State :=
  let old := s.reg a
  let v := regFix d.base a v
  let new := d.apply s.locked old v
  if s.regBad d.base a old new then s.refuseWrite a
  else
    let t := s.afterWrite (s.setReg a new) d.base a v
    if d.lockRefuses s.locked old v then t.refuseWrite a else t.answer stOk

/-- A write of v to the register at offset a of the control region. -/
def State.regWrite (s : State) (wr : Writer) (a v : Nat) : State :=
  match s.regAddr a with
  | none => s.regNone wr a
  | some a =>
    match regDesc? a with
    | none => s.regNone wr a
    | some d =>
      let core := a % 0x200000 / 0x1000
      let pmGo := decide (0x3200000 ≤ a) && a % 0x1000 == 0x120
      match s.ownerReg wr a v with
      | some t => t
      | none =>
        if wr ≠ .mc ∧ pmGo = false then s.privilege (writerInst wr) a
        else if s.regGated a then (s.gatedLog (0x030000000000 + a) uReg true 0x1FF).answer stOk
        else
          match (if 0x3200000 ≤ a then s.coreOwn wr (Fin.ofNat 512 core) (a % 0x1000) v else s.hubOwn wr a v) with
          | some t => t
          | none => s.plainWrite d a v

/-- R11: a write to a register without a command of its own; a write to another takes effect by that command. -/
def execRegisterWrite (wr : Writer) (addr : BitVec 26) (value : Word) (s : State) : Host.Outcome State Fault Refusal :=
  .next (s.regWrite wr addr.toNat value.toNat)

end Sys2Proof.Machine
end

