-- ==== Sys2Proof/Machine/Boot.lean ====
section
/-!
DEFINITION. Machine/Boot.lean: part reset (R9, R522), start-up and image verification (R430 to R438), image commands and the
recovery window (R439, R440), the persistent store (R441 to R445), training of the memories (R526), power removal (R521, R523).
-/
namespace Sys2Proof.Machine

/-! ### The flash (Table 16.1) -/

/-- Byte off of image slot k; erased flash reads 0xFF. -/
def State.slotByte (s : State) (k off : Nat) : Nat := (Tbl.get (0xFF : Byte) s.flash (0x1000000 * k + off)).toNat

/-- The n bytes of a slot from off. -/
def State.slotBytes (s : State) (k off n : Nat) : List Nat := tabulate n (fun i => s.slotByte k (off + i))

/-- The n bytes of a slot from off as a number. -/
def State.slotNum (s : State) (k off n : Nat) : Nat := leOf (s.slotBytes k off n)

/-- Erase n 4 KiB units of a slot from unit u and program them with data. -/
def State.programUnits (s : State) (k u n data : Nat) : State :=
  let lo := 0x1000000 * k + 4096 * u
  let hi := lo + 4096 * n
  let new := (List.range (4096 * n)).filterMap (fun i =>
    let b := BitVec.ofNat 8 (data >>> (8 * i))
    if b = (0xFF : Byte) then none else some (lo + i, b))
  { s with flash := s.flash.filter (fun c => decide (c.1 < lo)) ++ new ++ s.flash.filter (fun c => decide (hi ≤ c.1)) }

/-- Units whose programming did not succeed hold anything. -/
def State.anyUnits (s : State) (k u n : Nat) : State :=
  ({ s with free := s.free + 1 } : State).programUnits k u n (leOf (tabulate (4096 * n) (fun i => Config.lostByte s.free i % 256)))

/-! ### The image (R434 to R438) -/

/-- A section of the header: type, body offset, length, load offset. -/
structure Section where
  kind : Nat
  off : Nat
  len : Nat
  load : Nat
  deriving DecidableEq, Repr

def State.sectWord (s : State) (k j : Nat) : Nat := s.slotNum k (80 + 32 * j) 32

def State.sections (s : State) (k : Nat) : List Section :=
  tabulate (s.slotNum k 12 4) (fun j =>
    let w := s.sectWord k j
    { kind := bits w 0 16, off := bits w 32 32, len := bits w 64 32, load := bits w 96 32 })

def State.bodyLen (s : State) (k : Nat) : Nat := s.slotNum k 8 4
def State.imgSvn (s : State) (k : Nat) : Nat := s.slotNum k 6 2

/-- Step 1 (R434). -/
def State.headerBad (s : State) (k : Nat) : Bool :=
  let n := s.bodyLen k
  s.slotNum k 0 4 != 0x4D494E47 || s.slotNum k 4 2 != 1 || n % 4096 != 0 || decide (n < 4096) || decide (16756736 < n)
    || decide (s.slotNum k 12 4 < 1) || decide (32 < s.slotNum k 12 4) || s.slotNum k 25 3 != 0
    || (List.range 32).any (fun j => bits (s.sectWord k j) 16 16 != 0 || s.sectWord k j >>> 128 != 0)
    || (s.slotBytes k 1104 2992).any (fun b => b != 0)
    || !(s.slotNum k 16 8 == 0 || s.slotNum k 16 8 == s.fuses.uid)

/-- An entry position of the signature block (R435): where it lies, and the algorithm that suits it. -/
def sigPositions : List (Nat × Nat) := [(0x1000, 1), (0x1100, 1), (0x1200, 2), (0x2F00, 2)]

/-- State of a key slot: 0 EMPTY, 1 ACTIVE, else REVOKED. -/
def State.keyState (s : State) (j : Nat) : Nat := bits s.fuses.keys (2 * j) 2

/-- The non-empty entries of a slot: position, algorithm that suits it, algorithm, key slot. -/
def State.sigEntries (s : State) (k : Nat) : List (Nat × Nat × Nat × Nat) :=
  (sigPositions.map (fun p => (p.1, p.2, s.slotByte k p.1, s.slotByte k (p.1 + 1)))).filter (fun e => e.2.2.1 != 0)

/-- The first check of an entry that fails (R436): 2 signature, 3 key slot; 0 none. -/
def State.entryBad (s : State) (k : Nat) (e : Nat × Nat × Nat × Nat) : Nat :=
  let pos := e.1
  let alg := e.2.2.1
  let slot := e.2.2.2
  let nKey := if alg = 1 then 97 else 2592
  let nSig := if alg = 1 then 96 else 4627
  let key := s.slotBytes k (pos + 16) nKey
  let sig := s.slotNum k (pos + 16 + nKey) nSig
  if alg ≠ e.2.1 then 2
  else if (alg = 1 ∧ 3 < slot) ∨ (alg = 2 ∧ (slot < 4 ∨ 7 < slot)) ∨ s.keyState slot ≠ 1
      ∨ Config.sha384 key ≠ Tbl.get 0 s.fuses.hashes slot then 3
  else if (if alg = 1 then Config.ecdsaOk (leOf key) sig (s.slotBytes k 0 4096)
      else Config.mldsaOk (leOf key) sig (s.slotBytes k 0 4096)) then 0
  else 2

/-- Steps 2 and 3 (R436): the entries in order; then each algorithm is there, and no slot is named twice. -/
def State.signBad (s : State) (k : Nat) : Nat :=
  let es := s.sigEntries k
  let slots := es.map (fun e => e.2.2.2)
  match (es.map (s.entryBad k)).find? (fun n => n != 0) with
  | some n => n
  | none =>
    if es.any (fun e => e.2.2.1 == 1) && es.any (fun e => e.2.2.1 == 2) && decide slots.Nodup then 0 else 2

/-- Step 6 (R438). -/
def State.sectBad (s : State) (k : Nat) : Bool :=
  let l := s.sections k
  l.any (fun x => x.kind == 0 || decide (4 < x.kind) || decide (s.bodyLen k < x.off + x.len) || decide (0x1000000 < x.load + x.len))
    || !(l.any (fun x => x.kind == 1))
    || l.zipIdx.any (fun x => l.zipIdx.any (fun y =>
        decide (x.2 < y.2) && overlap x.1.load x.1.len y.1.load y.1.len))

/-- The step at which a slot fails verification (R432); 0: it passes. -/
def State.verify (s : State) (k : Nat) : Nat :=
  if s.headerBad k then 1
  else if s.signBad k ≠ 0 then s.signBad k
  else if s.imgSvn k < s.fuses.svn then 4
  else if Config.sha384 (s.slotBytes k 0x5000 (s.bodyLen k)) ≠ s.slotNum k 32 48 then 5
  else if s.sectBad k then 6
  else 0

/-- The key slots that signed an image. -/
def State.signerMask (s : State) (k : Nat) : Nat := (s.sigEntries k).foldl (fun m e => m ||| 2 ^ e.2.2.2) 0

/-- The sections of a slot at their load offsets. -/
def State.imageOf (s : State) (k : Nat) : List (Nat × Byte) :=
  (s.sections k).flatMap (fun x =>
    let lo := 0x1000000 * k + 0x5000 + x.off
    (s.flash.filter (fun c => decide (lo ≤ c.1) && decide (c.1 < lo + x.len))).map (fun c => (x.load + (c.1 - lo), c.2)))

/-! ### The configuration table (R438) -/

/-- Entries of the configuration tables of a slot: offset and value. -/
def State.cfgEntries (s : State) (k : Nat) : List (Nat × Nat) :=
  ((s.sections k).filter (fun x => x.kind == 2)).flatMap (fun x =>
    tabulate (x.len / 16) (fun j =>
      (bits (s.slotNum k (0x5000 + x.off + 16 * j) 4) 0 26, s.slotNum k (0x5000 + x.off + 16 * j + 8) 8)))

/-- MC0 writes the entries in order; one that is refused stops the table. -/
def State.applyTable (s : State) (idx : Nat) : List (Nat × Nat) → State
  | [] => s.answer stOk
  | e :: rest =>
    let t := s.regWrite .mc e.1 e.2
    if t.reply.code = stOk ∨ t.reply.code = stNop then t.applyTable (idx + 1) rest
    else (t.setFld SEC_BOOT_STAT 20 1 1).setFld SEC_BOOT_STAT 32 20 idx

/-! ### Measurements (R448) -/

/-- Measurement 3: key slot states, svn, debug-disable fuse. -/
def State.measure3 (s : State) : State :=
  s.setMeas 3 (Config.sha384 (natBytes 2 s.fuses.keys ++ [s.fuses.svn] ++ [s.fld SEC_FUSE_MISC 0 1]))

/-! ### Part reset -/

/-- The registers that show the fuse block. -/
def State.showFuses (s : State) : State :=
  let f := s.fuses
  let s := ((s.setReg SEC_UID f.uid).setReg LNK_SELF_ID f.uid).setReg SEC_FUSE_KEYS f.keys
  let s := s.setReg SEC_FUSE_MISC (1 + f.svn <<< 1 + (bits f.prefix24 0 24) <<< 8)
  f.repairs.foldl (fun (s : State) r => s.setReg (ME_REPAIR r.1) r.2) s

/-- A flash operation that a reset cuts short (R441, R444): a bank being written is invalid; units being programmed hold anything. -/
def State.cutFlash (s : State) : State :=
  let bad (s : State) (b : Nat) : State := if b = 0 then { s with bank0 := {} } else { s with bank1 := {} }
  let s := match s.boot.storeOp with
    | some (.store b _ _ _ _) => bad s b
    | some (.erase b) => bad s b
    | _ => s
  match s.boot.imgOp with
  | some (.units k u n _ _) => s.anyUnits k u n
  | _ => s

/-- The part resets (R9, R522): the state after reset, with what is outside the volatile state: the fuses, the flash, the store
banks, soft row repairs, the thermal trip, the straps. The contents of HBM and Silo are open again. -/
def State.chipReset (s : State) : State :=
  let s := s.cutFlash
  ({ State.reset with pending := s.pending, free := s.free + 1, lost := memLost s.free, grade := s.grade, failed := s.fuses.failed,
                      repaired := s.repaired, trip := s.trip, fuses := s.fuses, flash := s.flash, bank0 := s.bank0,
                      bank1 := s.bank1, boot := { hpEn := s.boot.hpEn } } : State).showFuses

/-- R522: RST_N goes low. -/
def execRstNAssert (s : State) : Host.Outcome State Fault Refusal := .next s.chipReset

/-! ### The persistent store (R441 to R445) -/

def State.bank (s : State) (b : Nat) : Bank := if b = 0 then s.bank0 else s.bank1
def State.setBank (s : State) (b : Nat) (x : Bank) : State := if b = 0 then { s with bank0 := x } else { s with bank1 := x }

/-- The newest bank (R442). -/
def State.newestBank (s : State) : Option Nat :=
  match s.bank0.valid, s.bank1.valid with
  | true, true => some (if s.bank0.seq < s.bank1.seq then 1 else 0)
  | true, false => some 0
  | false, true => some 1
  | false, false => none

/-- The store contents that the hub keeps. -/
def State.store (s : State) : Store :=
  { conf := s.boot.conf, pend := s.boot.pend, lanes := s.laneRecs, fences := s.fenceRecs, firmware := s.boot.firmware }

def State.setStore (s : State) (x : Store) : State :=
  { s with boot := { s.boot with conf := x.conf, pend := x.pend, firmware := x.firmware }, laneRecs := x.lanes, fenceRecs := x.fences }

/-- Does a change wait to be written? -/
def State.psPending (s : State) : Bool := s.boot.psDirty || decide (s.store ≠ s.boot.psLast)

/-- SEC_PS_STAT follows. -/
def State.psStat (s : State) : State :=
  let b := s.newestBank
  let q := match b with | some k => (s.bank k).seq | none => 0
  let st := (s.setFld SEC_PS_STAT 0 1 (b.getD 0)).setFld SEC_PS_STAT 1 32 q
  let st := st.setFld SEC_PS_STAT 33 1 (b2n (b.isSome && q == 0xFFFFFFFE))
  (st.setFld SEC_PS_STAT 34 1 (b2n s.boot.storeOp.isSome)).setFld SEC_PS_STAT 35 1 (b2n s.psPending)

/-- An image command ends: SEC_IMG_STAT and its reply. -/
def State.imgDone (s : State) (st : Nat) : State :=
  ({ s with boot := { s.boot with cmd := none } }.setFld SEC_IMG_STAT 0 9 (st <<< 1)).answer st

/-- Fuses are blown for a confirmed image: svn, and the key slots it revokes but for those that signed it (R439). -/
def State.confirmFuses (s : State) : State :=
  let sign := s.boot.signers
  let keep := (List.range 8).any (fun j => bit s.boot.revoke j && bit sign j)
  let keys := (List.range 8).foldl (fun v j => if bit s.boot.revoke j && !(bit sign j) then setBits v (2 * j) 2 2 else v) s.fuses.keys
  let s := { s with fuses := { s.fuses with keys := keys, svn := max s.fuses.svn (min 64 s.boot.svn) } }
  let s := if keep then s.event SEC_EVENT 6 else s
  (s.showFuses.setFld SEC_BOOT_STAT 13 7 s.fuses.svn).measure3

/-- The image command that waits for the store writer ends, once what it asked for is written. -/
def State.cmdStored (s : State) : State :=
  match s.boot.cmd with
  | some (_, code) =>
    if s.psPending then s
    else if code = 0x34 then s.confirmFuses.imgDone stOk else s.imgDone stOk
  | none => s

/-- The image command that waits fails, and its change with it. -/
def State.cmdLost (s : State) (last : Store) : State :=
  match s.boot.cmd with
  | some (i, code) =>
    ((({ s with boot := { s.boot with conf := last.conf, pend := last.pend } }.refuseLog 9 code i 0x1FF).imgDone stState))
  | none => s

/-- A write of the store into bank b with sequence number q begins. -/
def State.psStart (s : State) (b q : Nat) : State :=
  ({ s with boot := { s.boot with storeOp := some (.store b q s.store false false), psLast := s.store, psDirty := false,
                                  psAt := some s.cnt } } : State).psStat

/-- R443: after ticks of the time clock the hub writes what has changed, a second after the last write at the earliest. -/
def execPsWrite (ticks : BitVec 64) (s : State) : Host.Outcome State Fault Refusal :=
  let s := s.elapse ticks.toNat
  let late := match s.boot.psAt with | some t => decide (t + 1000 * ticksMs ≤ s.cnt) | none => true
  .next (if s.boot.storeOp.isSome ∨ s.psPending = false ∨ late = false then s
  else match s.newestBank with
    | none => s.psStart 0 1
    | some k =>
      if (s.bank k).seq = 0xFFFFFFFE then
        let s := s.cmdLost (s.bank k).cont
        (({ s with boot := { s.boot with psLast := s.store, psDirty := false } }.bump SEC_PS_ERR_CNT).event SEC_EVENT 5).psStat
      else s.psStart (1 - k) ((s.bank k).seq + 1))

/-- A store write ends. ok: the bank's check matches when it is read back (R443). -/
def State.storeDone (s : State) (b q : Nat) (x : Store) (again restart ok : Bool) : State :=
  let clear : State := { s with boot := { s.boot with storeOp := none } }
  if ok then
    let s := clear.setBank b { valid := true, seq := q, cont := x }
    if restart then
      { s with boot := { s.boot with storeOp := some (.erase (1 - b)), psLast := x, psDirty := false } }.psStat
    else s.psStat.cmdStored
  else if again = false then
    (({ s with boot := { s.boot with storeOp := some (.store b q x true restart) } } : State).setBank b {})
  else
    let s := (clear.setBank b {})
    let last : Store := match s.newestBank with | some k => (s.bank k).cont | none => {}
    let s := (s.event SEC_EVENT 4).bump SEC_PS_ERR_CNT
    let s := { s with boot := { s.boot with psLast := last } }
    (if restart then (match s.boot.cmd with
      | some (i, code) => (s.refuseLog 9 code i 0x1FF).imgDone stState
      | none => s) else s.cmdLost last).psStat

/-- R441: an erase and program of the flash ends: the store writer's, or the image commands' and the recovery window's. ok: what
was written reads back. -/
def execFlashProgramDone (store ok : Bool) (s : State) : Host.Outcome State Fault Refusal :=
  .next (if store then
    match s.boot.storeOp with
    | some (.store b q x again restart) => s.storeDone b q x again restart ok
    | some (.erase b) => (({ s with boot := { s.boot with storeOp := none } } : State).setBank b {}).psStat.imgDone stOk
    | _ => s
  else
    match s.boot.imgOp with
    | some (.units k u n data inst) =>
      let s := { s with boot := { s.boot with imgOp := none } }
      (match inst with
      | some _ => (s.programUnits k u n data).imgDone stOk
      | none =>
        let r := if ok then s.programUnits k u n data else s.anyUnits k u n
        r.setReg SEC_RCV_STAT ((if ok then stOk else stState) <<< 1))
    | _ => s)

/-! ### Start-up (R430 to R433, R442) -/

/-- A start-up ends in RECOVERY (R440). -/
def State.enterRecovery (s : State) : State :=
  (s.setFld SEC_BOOT_STAT 1 2 3) |> fun s => { s with boot := { s.boot with phase := .recovery } }

/-- The map of logical numbers (R14 to R16): the cores of a die that passed and that no FENCE record names, in ascending order;
those past the die's share are spares. Where they are too few, the highest numbers are withdrawn (R15, R18, R475). -/
def State.bootMap (s : State) : State :=
  let n := s.grade.perDie
  let m := (List.range 4).flatMap (fun d =>
    let good := (tabulate 128 (fun i => 128 * d + i)).filter (fun p => !(s.failed.contains p))
    tabulate n (fun i => (d * n + i, listGet noCore good i)))
  let s := { s with map := m.filter (fun (e : Nat × Nat) => e.2 != s.basePhys e.1) }
  if m.any (fun (e : Nat × Nat) => e.2 == noCore) then s.degrade 3 else s

/-- The store is read: its contents, or the defaults (R442). -/
def State.readStore (s : State) : State :=
  match s.newestBank with
  | none => (s.event SEC_EVENT 3).psStat
  | some k =>
    let x := (s.bank k).cont
    let s := s.setStore x
    let named := (x.fences.map (fun (r : Nat × Nat) => r.1)).filter (fun p => !(s.failed.contains p))
    ({ s with boot := { s.boot with psLast := x }, failed := s.failed ++ named } : State).psStat

/-- The lowest 1 bit of an attempt word is programmed to 0 (R433). -/
def attempt (w : Nat) : Nat := w &&& (w - 1)

/-- Zero bits of an attempt word. -/
def attemptsUsed (w : Nat) : Nat := ((List.range 64).filter (fun i => !(bit w i))).length

/-- The slot is chosen (R433). -/
def State.chooseSlot (s : State) : State :=
  let enter (s : State) (k : Nat) (trial : Bool) : State := { s with boot := { s.boot with phase := .rom k trial false } }
  match s.newestBank with
  | none => enter s s.boot.conf false
  | some b =>
    let x := s.bank b
    if 1 < s.boot.pend then enter s s.boot.conf false
    else if attemptsUsed x.attempts < 3 then
      enter (s.setBank b { x with attempts := attempt x.attempts }) s.boot.pend true
    else
      let s := { s with boot := { s.boot with pend := 0xFF } }
      enter ({ s with boot := { s.boot with psLast := s.store } }.event SEC_EVENT 2) s.boot.conf false

/-- The ROM runs: fuses, store, slot. fuseOk: the fuse block has no uncorrectable error; flashOk: the flash answers its SFDP
read (R431). -/
def State.romStart (s : State) (fuseOk flashOk : Bool) : State :=
  if fuseOk = false then { s with boot := { s.boot with phase := .halt } }
  else
    let s := s.showFuses.setMeas 1 Config.romMeas
    if flashOk = false then s.bootMap.enterRecovery
    else s.readStore.bootMap.chooseSlot

/-- R430: RST_N is released: the straps are sampled, and the ROM runs. -/
def execRstNRelease (hpEn : BitVec 4) (fuseOk flashOk : Bool) (s : State) : Host.Outcome State Fault Refusal :=
  .next (if s.boot.phase = .held then { s with boot := { s.boot with hpEn := hpEn.toNat } }.romStart fuseOk flashOk else s)

/-- A slot has passed: the outcome, the measurements, and MC0 applies the configuration table (R431, R438, R448). -/
def State.bootSlot (s : State) (k : Nat) (trial second : Bool) : State :=
  let svn := s.imgSvn k
  let m := s.signerMask k
  let s := { s with boot := { s.boot with phase := .run, signers := m, svn := svn, revoke := s.slotByte k 24, image := s.imageOf k } }
  let s := (s.setFld SEC_BOOT_STAT 0 1 k).setFld SEC_BOOT_STAT 1 2 (if second then 2 else b2n trial)
  let s := (s.setFld SEC_BOOT_STAT 6 7 svn).setFld SEC_BOOT_STAT 13 7 s.fuses.svn
  let s := (s.setMeas 2 (Config.sha384 (s.slotBytes k 0 4096 ++ [m] ++ natBytes 2 svn))).measure3
  s.applyTable 0 (s.cfgEntries k)

/-- R433: the verification of the image copy ends. -/
def execImageVerified (s : State) : Host.Outcome State Fault Refusal :=
  .next (match s.boot.phase with
  | .rom k trial second =>
    let v := s.verify k
    if v = 0 then s.bootSlot k trial second
    else
      let s := (s.setFld SEC_BOOT_STAT 3 3 v).event SEC_EVENT k
      if second then s.enterRecovery
      else { s with boot := { s.boot with phase := .rom (if trial then s.boot.conf else 1 - k) false true } }
  | _ => s)

/-! ### Image commands (R439, R444) -/

/-- A command of Table 16.5 from an instance: an operator's, one at a time. -/
def State.imgCommand (s : State) (i code : Nat) (f : State → State) : State :=
  s.fromInst i (fun s =>
    if s.fld (PRT_INST i) 18 1 = 0 then s.codeViolation i cPrivilege (0x030000000000 + SEC_IMG_STAT)
    else if s.fld SEC_IMG_STAT 0 1 = 1 then s.codeState code i
    else f s)

/-- An image command ends with STATE. -/
def State.imgRefuse (s : State) (i code : Nat) : State := ((s.codeState code i).imgDone stState)

/-- An image command goes on: busy. -/
def State.imgBusy (s : State) (i code : Nat) : State :=
  { s with boot := { s.boot with cmd := some (i, code) } }.setFld SEC_IMG_STAT 0 1 1

def State.bootedSlot (s : State) : Nat := s.fld SEC_BOOT_STAT 0 1

/-- The units of a slot are being written: the slot has passed no check any more, and waits for no start. -/
def State.imgStart (s : State) (i k u n data : Nat) : State :=
  { s with boot := { s.boot with imgOp := some (.units k u n data (some i)), passed := s.boot.passed.filter (fun j => j != k),
                                 pend := if s.boot.pend = k then 0xFF else s.boot.pend } }.setFld SEC_IMG_STAT 0 1 1

/-- R439, code 0x31. -/
def execImgWrite (inst : Fin 512) (d : BitVec 384) (s : State) : Host.Outcome State Fault Refusal :=
  let i := inst.val
  let v := d.toNat
  let k := bits v 0 1
  let u := bits v 12 12
  let n := bits v 128 12
  let va := bits v 64 48
  .next (s.imgCommand i 0x31 (fun s =>
    if bits v 1 11 ≠ 0 ∨ bits v 24 40 ≠ 0 ∨ bits v 112 16 ≠ 0 ∨ v >>> 140 ≠ 0 then s.imgRefuse i 0x31
    else if n = 0 then s.imgDone stNop
    else if k = s.bootedSlot ∨ 4096 < u + n then s.imgRefuse i 0x31
    else match s.mcSpan i .read (n / 16 + 2) va (4096 * n) with
      | .error e => (s.codeFault i va e).imgDone e.1
      | .ok l =>
        let r := s.spanBytes l
        let s := s.spanChecked l
        if r.2 then s.imgDone stPoison
        else s.imgStart i k u n (leOf r.1)))

/-- R439, code 0x32: the reply carries fail_step. -/
def execImgCheck (inst : Fin 512) (d : BitVec 384) (s : State) : Host.Outcome State Fault Refusal :=
  let i := inst.val
  let k := bits d.toNat 0 1
  .next (s.imgCommand i 0x32 (fun s =>
    if d.toNat >>> 1 ≠ 0 then s.imgRefuse i 0x32
    else
      let v := s.verify k
      let others := s.boot.passed.filter (fun j => j != k)
      let s := { s with boot := { s.boot with passed := if v = 0 then others ++ [k] else others } }.setFld SEC_IMG_STAT 9 3 v
      if v = 0 then s.imgDone stOk
      else
        let s := s.imgRefuse i 0x32
        s.answer stState 0 [v]))

/-- R439, code 0x33: the slot is pending once the store holds it, with a fresh attempt word. -/
def execImgActivate (inst : Fin 512) (d : BitVec 384) (s : State) : Host.Outcome State Fault Refusal :=
  let i := inst.val
  let k := bits d.toNat 0 1
  .next (s.imgCommand i 0x33 (fun s =>
    if d.toNat >>> 1 ≠ 0 ∨ k = s.bootedSlot ∨ s.boot.passed.contains k = false then s.imgRefuse i 0x33
    else { s with boot := { s.boot with pend := k, psDirty := true } }.imgBusy i 0x33))

/-- R439, code 0x34. -/
def execImgConfirm (inst : Fin 512) (s : State) : Host.Outcome State Fault Refusal :=
  let i := inst.val
  .next (s.imgCommand i 0x34 (fun s =>
    if s.fld SEC_BOOT_STAT 1 2 ≠ 1 then s.imgRefuse i 0x34
    else { s with boot := { s.boot with conf := s.bootedSlot, pend := 0xFF, psDirty := true } }.imgBusy i 0x34))

/-- R444, code 0x35: the contents go into the other bank with seq 1; the newest bank is then erased. -/
def execPsRestart (inst : Fin 512) (s : State) : Host.Outcome State Fault Refusal :=
  let i := inst.val
  .next (s.imgCommand i 0x35 (fun s =>
    match s.newestBank with
    | some k =>
      if (s.bank k).seq = 0xFFFFFFFE ∧ s.fld PRT_MODE 0 2 ≠ 1 ∧ s.boot.storeOp = none then
        ({ s with boot := { s.boot with storeOp := some (.store (1 - k) 1 s.store false true) } }.imgBusy i 0x35).psStat
      else s.imgRefuse i 0x35
    | none => s.imgRefuse i 0x35))

/-! ### The recovery window (R440) -/

/-- The 4 KiB in SEC_RCV_DATA. -/
def State.rcvData (s : State) : Nat := (List.range 512).foldr (fun j v => s.reg (SEC_RCV_DATA j) + v <<< 64) 0

/-- R440: in RECOVERY a host programs a unit of a slot. -/
def execSecRcvProgram (slot : Fin 2) (unit : BitVec 12) (s : State) : Host.Outcome State Fault Refusal :=
  .next (if s.boot.phase ≠ .recovery then s
  else if s.fld SEC_RCV_STAT 0 1 = 1 then (s.refuseLog 7 0x9000 0x1FF 0x1FF).answer stState
  else ({ s with boot := { s.boot with imgOp := some (.units slot.val unit.toNat 1 s.rcvData none) } }.setFld SEC_RCV_STAT 0 1 1).answer stOk)

/-- R440: in RECOVERY a host resets the part; the ROM starts again. -/
def execSecRcvReset (fuseOk flashOk : Bool) (s : State) : Host.Outcome State Fault Refusal :=
  .next (if s.boot.phase ≠ .recovery then s else s.chipReset.romStart fuseOk flashOk)

/-- R484: after ticks of the time clock the part resets itself, hold_ms after a fatal error, when auto_reset is 1. -/
def execFatalAutoReset (ticks : BitVec 64) (fuseOk flashOk : Bool) (s : State) : Host.Outcome State Fault Refusal :=
  let s := s.elapse ticks.toNat
  .next (if s.fld RAS_STATUS 1 1 = 1 ∧ s.fld RAS_FATAL_CFG 0 1 = 1 ∧ s.fatalAt + s.fld RAS_FATAL_CFG 1 16 * ticksMs ≤ s.cnt then
    s.chipReset.romStart fuseOk flashOk
  else s)

/-! ### Memories and power -/

/-- R526: training of HBM and Silo ends; channels that failed stay out of service and count toward row 15. -/
def execHbmSiloTrainingDone (failed : List (Fin 16)) (s : State) : Host.Outcome State Fault Refusal :=
  let l := (List.range 16).filter (fun c => failed.any (fun f => f.val == c))
  .next (l.foldl (fun (s : State) c => s.countErr 15 c 1) { s with siloOut := l })

/-- R523: the rails are removed, with RST_N low: the trip is released, and soft row repairs are lost. -/
def execPowerRemoval (s : State) : Host.Outcome State Fault Refusal :=
  .next ({ s.chipReset with trip := false, repaired := [] } : State)

end Sys2Proof.Machine
end

