-- ==== Sys2Proof/Machine/Host.lean ====
section
/-!
DEFINITION. Machine/Host.lean: hosts' accesses to the functions of their ports (R500 to R507, R512, R522): the write view, the read
view, configuration space, PERST_N; and a thread's read of a completion queue (R78).
-/
namespace Sys2Proof.Machine

/-! ### The instance window (Table 20.3) -/

/-- How a window offset takes a host's access: a push window of 64 bytes, a register that is written, one that is only read, a
reserved offset. -/
inductive WinKind where
  | push | write | read | reserved
  deriving DecidableEq, Repr

def winKind (o : Nat) : WinKind :=
  let u := o / 8 * 8
  if u < 0x40 ∨ (0x4000 ≤ u ∧ u < 0x4040) ∨ (0x5000 ≤ u ∧ u < 0x5040) then .push
  else if [0x108, 0x1010, 0x3000, 0x3008, 0x3020].contains u then .write
  else if u < 0x100 ∨ [0x100, 0x110, 0x118, 0x120, 0x1000, 0x1008, 0x2000, 0x2008, 0x3010, 0x3018, 0x4040, 0x5040].contains u
      ∨ (0x1100 ≤ u ∧ u < 0x1300) ∨ (0x6000 ≤ u ∧ u < 0x6800 ∧ u % 0x20 ≠ 0x18) then .read
  else .reserved

/-- The block of a window offset (Table 20.8). -/
def winBlock (o : Nat) : Nat :=
  if o < 0x1000 then 9 else if o < 0x2000 then 4 else if o < 0x3000 then 1 else if o < 0x4000 then 13 else if o < 0x5000 then 4
  else if o < 0x6000 then 15 else 6

/-- A violation by an access of an instance's host to its window. -/
def State.winViolation (s : State) (i o cause : Nat) : State :=
  (s.charge { addr := o, status := stFaultAccess, cause := cause, unit := uReg, inst := i, gen := s.instGen i,
              port := s.fld (PRT_INST i) 6 2 }).answer stFaultAccess cause

/-- Is an access accepted: once the TDI is in RUN, only on its bound IDE stream (Table 16.10)? -/
def State.ideOk (s : State) (i : Nat) (ide : Option (BitVec 8)) : Bool :=
  let k := Tbl.get 0x100 s.tdiStream i
  s.tdiOf i != 2 || (ide.any (fun x => x.toNat == k) && s.stream (s.fld (PRT_INST i) 6 2) k == 2)

/-- A push into the host DMA queue of an instance (R195, R505). -/
def State.dmaPush (s : State) (i d : Nat) : State :=
  let q := s.dmaQ i
  s.pushInto (0x200 + i) none (11 + s.fld (PRT_INST i) 6 2) 0x4000 i (fun s =>
    if 32 ≤ q.q.items.length then s.answer stRefusedCapacity
    else (s.setDmaQ i { q with q := q.q.push { data := d, prio := bits d 8 2 } }).answer stOk)

/-- A push into its gateway queue (R302). -/
def State.gwPush (s : State) (i d : Nat) : State :=
  let q := s.gwQueue i
  if s.retiredQ.contains (0x400 + i) then s.answer stRetired
  else if 32 ≤ q.q.items.length then s.answer stRefusedCapacity
  else (s.setGwQueue i { q with q := q.q.push { data := d, prio := bits d 8 2 } }).answer stOk

/-- A write of TM_HR_BASE: 4 KiB aligned (Table 14.8). -/
def State.hrBaseWrite (s : State) (i v : Nat) : State :=
  s.ungated 0 0x3000 i (fun s =>
    if v % 4096 ≠ 0 then s.refuseWin 13 0 i else (s.setWreg i 0x3000 v).answer stOk)

/-- A write of an instance window that has the right size (R505). -/
def State.winWrite (s : State) (i rid o v : Nat) : State :=
  match winKind o with
  | .push => if o < 0x40 then s.mbxHostSend i rid (v % 2 ^ 512) else if o < 0x5000 then s.dmaPush i (v % 2 ^ 512) else s.gwPush i (v % 2 ^ 512)
  | .write =>
    if o = 0x108 then (s.setWreg i 0x108 (bits v 0 3)).answer stOk
    else if o = 0x1010 then s.after (execXltIfDone (Fin.ofNat 512 i) (BitVec.ofNat 64 v) s)
    else if o = 0x3000 then s.hrBaseWrite i (v % 2 ^ 64)
    else if o = 0x3008 then s.after (execTmHrSizeWrite (Fin.ofNat 512 i) (BitVec.ofNat 13 v) s)
    else s.after (execTmHrDone (Fin.ofNat 512 i) (BitVec.ofNat 13 v) s)
  | .read => s.answer stOk
  | .reserved => s.winViolation i o cOutOfRange

/-- PRT_INST_WSTAT records a write whose outcome is not OK (R505), with attn as it stood before the write. -/
def State.winRecord (s : State) (i o attn : Nat) : State :=
  if s.reply.code = stOk then s
  else s.setWreg i 0x120 (statusWord s.reply.code s.reply.cause attn + o <<< 16 + 1 <<< 32)

/-- A write of len bytes at offset o of BAR0 of an instance; one of a wrong size or alignment counts in PRT_HPORT_BADACC (R505, Table 20.10). -/
def State.bar0Inst (s : State) (i rid o len v : Nat) (ide : Option (BitVec 8)) : State :=
  if s.ideOk i ide = false then s.winViolation i o cPrivilege
  else
    let n := if winKind o = .push then 64 else 8
    (if len ≠ n ∨ o % n ≠ 0 then (s.bump (PRT_HPORT_BADACC (s.fld (PRT_INST i) 6 2))).refuseWin (winBlock o) o i else s.winWrite i rid o v).winRecord i o (s.attn i)

/-- A write to BAR0 of PF0: the recovery window, in RECOVERY; else ignored (Table 20.2). -/
def State.bar0Pf (s : State) (o len v : Nat) : State :=
  if s.boot.phase ≠ .recovery ∨ len ≠ 8 ∨ o % 8 ≠ 0 then s
  else if 0xA000 ≤ o ∧ o < 0xB000 then s.setReg (SEC_RCV_DATA ((o - 0xA000) / 8)) v
  else if o ≠ 0x9000 then s
  else if bit v 14 then s.after (execSecRcvReset true true s)
  else if bit v 13 then s.after (execSecRcvProgram (Fin.ofNat 2 (bits v 0 1)) (BitVec.ofNat 12 (v >>> 1)) s)
  else s

/-- R505: a host writes len bytes to BAR0 of a function. rid: its routing ID; ide: the IDE stream the write came on. -/
def execBar0Write (f : FnAt) (off : BitVec 16) (len : BitVec 13) (data : Nat) (rid : BitVec 16) (ide : Option (BitVec 8)) (s : State) :
    Host.Outcome State Fault Refusal :=
  .next (if s.fnAnswers f = false then s
  else if f.fn.val = 0 then s.bar0Pf off.toNat len.toNat (data % 2 ^ 64)
  else match s.fnInst f with
    | some i => s.bar0Inst i rid.toNat off.toNat len.toNat data ide
    | none => s)

/-! ### The read view -/

/-- MBX_STAT (Table 15.14). -/
def State.mbxStat (s : State) (i : Nat) : Nat :=
  let free (c : Nat) : Nat := mbxDepth - (s.chan i c).used
  let pk (c : Nat) : Nat := (s.chan i c).q.packets
  free 0 + free 1 <<< 5 + free 2 <<< 10 + pk 3 <<< 15 + pk 4 <<< 20 + pk 5 <<< 25 + bits (s.wreg i 0x100) 30 1 <<< 30
    + b2n (!(Tbl.get [] s.notices i).isEmpty) <<< 31

/-- PRT_INST_STAT (Table 15.14). -/
def State.instStat (s : State) (i : Nat) : Nat :=
  s.instState i + s.instGen i <<< 2 + s.partState (s.instPart i) <<< 18 + b2n (s.detached i) <<< 21

/-- A queue's occupancy and generation (Table 20.3). -/
def DmaQ.stat (q : DmaQ) : Nat := q.q.items.length + q.gen <<< 6

/-- The Barista mirror (R505): zeros for a group of another owner, or with the block gated. -/
def State.mirrorRead (s : State) (i o : Nat) : Nat × State :=
  let g := (o - 0x6000) / 0x20
  let a := if o % 0x20 = 0 then BRS_GRP_STAT g else if o % 0x20 = 8 then BRS_GRP_STEP g else BRS_GRP_OUT g
  if s.grpState g = 0 ∨ s.fld (BRS_GRP_CFG2 g) 32 9 ≠ i then (0, s.winViolation i o cWrongOwner)
  else if s.fld CLK_EN_HUB 19 1 = 0 then (0, (s.gatedLog (0x030000000000 + a) uReg false i).answer stOk)
  else (s.reg a, s.answer stOk)

/-- One unit of an instance window: its value, and the state after the read, with its status in the reply. -/
def State.winRead (s : State) (i o : Nat) : Nat × State :=
  if winKind o = .reserved then (0, s.winViolation i o cOutOfRange)
  else if o = 0x100 then (s.mbxStat i, (s.setWreg i 0x100 (setBits (s.wreg i 0x100) 30 1 0)).answer stOk)
  else if o = 0x108 then (s.wreg i 0x108, s.answer stOk)
  else if o = 0x110 then (s.instStat i, s.answer stOk)
  else if o = 0x118 then (s.wreg i 0x118, s.answer stOk)
  else if o = 0x120 then (s.wreg i 0x120, (s.setWreg i 0x120 0).answer stOk)
  else if o = 0x1000 then ((Tbl.get [] s.ifr i).length, s.answer stOk)
  else if o = 0x1008 then (s.wreg i 0x1008, (s.setWreg i 0x1008 0).answer stOk)
  else if 0x1100 ≤ o ∧ o < 0x1300 then (bits (listGet 0 (Tbl.get [] s.ifr i) ((o - 0x1100) / 32)) (8 * (o % 32)) 64, s.answer stOk)
  else if o = 0x2000 then (s.nowNs, (s.setWreg i 0x2008 s.nowSub).answer stOk)
  else if o = 0x2008 then (s.wreg i 0x2008, s.answer stOk)
  else if 0x3000 ≤ o ∧ o < 0x3020 then
    if s.fld CLK_EN_HUB 0 1 = 0 then (0, (s.gatedLog o uReg false i).answer stOk) else (s.wreg i o, s.answer stOk)
  else if o = 0x4040 then
    if s.fld CLK_EN_HUB (11 + s.fld (PRT_INST i) 6 2) 1 = 0 then (0, (s.gatedLog o uReg false i).answer stOk)
    else ((s.dmaQ i).stat, s.answer stOk)
  else if o = 0x5040 then ((s.gwQueue i).stat, s.answer stOk)
  else if 0x6000 ≤ o then s.mirrorRead i o
  else (0, s.answer stOk)

/-- A read that is refused: all ones, counted (R503, R504). -/
def State.badBar (s : State) (h : Nat) : State := (s.bump (PRT_HPORT_BADACC h)).answer stOk 0 [2 ^ 64 - 1]

/-- Units of n consecutive slots. -/
def State.winReadMany (s : State) (i : Nat) : Nat → Nat → List Nat × State
  | _, 0 => ([], s)
  | o, n + 1 =>
    let r := s.winRead i o
    let t := r.2.winReadMany i (o + 8) n
    (r.1 :: t.1, t.2)

/-- A read of len bytes at offset b of BAR2 of instance i (R503): the values of the slots, one slot or slots of one fault record;
the status word's attn is that of the cycle before. bad: a word of the message read has bad parity (R425). -/
def State.bar2Inst (s : State) (h i b len : Nat) (ide : Option (BitVec 8)) (bad : Bool) : State :=
  let o := b / 2
  let a := s.attn i
  if s.ideOk i ide = false then s.winViolation i o cPrivilege
  else if len = 0 then s.answer stOk 0 [0]
  else if 0x40 ≤ o ∧ o < 0x100 then
    if len = 128 ∧ b % 128 = 0 then s.mbxHostRead i (o / 0x40 + 2) bad else s.badBar h
  else if b % 16 ≠ 0 ∨ len % 16 ≠ 0 ∨ (len ≠ 16 ∧ !(decide (0x1100 ≤ o) && decide (o < 0x1300) && (o / 32 == (o + len / 2 - 8) / 32))) then s.badBar h
  else
    let r := s.winReadMany i o (len / 16)
    { r.2 with reply := { r.2.reply with attn := a, data := r.1 } }

/-- A read of BAR0 of PF0 (Table 20.2). -/
def State.pfRead (s : State) (h o : Nat) : State :=
  if s.boot.phase = .recovery then s.answer stOk 0 [if o = 0x9008 then s.reg SEC_RCV_STAT else 0]
  else s.answer stOk 0 [if o = 0 then s.reg (PRT_HPORT_STAT h) else 0]

/-- R503: a host reads len bytes of the read view of a virtual function, or of BAR0 of PF0. -/
def execBar2Read (f : FnAt) (off : BitVec 17) (len : BitVec 13) (ide : Option (BitVec 8)) (bad : Bool) (s : State) :
    Host.Outcome State Fault Refusal :=
  .next (if s.fnAnswers f = false then s
  else if f.fn.val = 0 then s.pfRead f.port.val off.toNat
  else match s.fnInst f with
    | some i => s.bar2Inst f.port.val i off.toNat len.toNat ide bad
    | none => s)

/-- R504: a read of BAR0 of a virtual function, or a write of its BAR2. -/
def execBadBarAccess (port : Fin 4) (write : Bool) (s : State) : Host.Outcome State Fault Refusal :=
  let h := port.val
  .next (if s.fld (PRT_HPORT_STAT h) 0 1 = 0 then s else if write then s.bump (PRT_HPORT_BADACC h) else s.badBar h)

/-! ### Configuration space and PERST_N -/

/-- R416, R522: HPh_PERST_N. -/
def execPerst (port : Fin 4) (s : State) : Host.Outcome State Fault Refusal := .next (s.portDown port.val)

/-- R501, R512, Table 16.10: a host writes configuration space: VF Enable and NumVFs of PF0, MSI-X enable of a virtual function,
configuration that LOCK_INTERFACE has locked. -/
def execPcieConfigWrite (f : FnAt) (w : PcieCfg) (s : State) : Host.Outcome State Fault Refusal :=
  let h := f.port.val
  .next (if s.fnAnswers f = false then s
  else match w with
    | .vfs en num =>
      if f.fn.val ≠ 0 ∨ 512 < num.toNat then s
      else ((s.setFld (PRT_HPORT_STAT h) 9 10 num.toNat).setFld (PRT_HPORT_STAT h) 19 1 (b2n en)).attach h
    | .msix on =>
      match s.fnInst f with
      | none => s
      | some i =>
        let s := s.setMsix i { s.msixOf i with on := on }
        ((s.msixOf i).pend).foldl (fun (s : State) v => s.msixSend i v) s
    | .locked =>
      match s.fnInst f with
      | none => s
      | some i => s.tdiError i)

/-! ### Completion queues (R78, R106, R142, R425) -/

def CoreCtx.complQueue (c : CoreCtx) : ComplQ → DescQ
  | .eng e => c.queue (some e)
  | .task => c.tq

def CoreCtx.setComplQueue (c : CoreCtx) (q : ComplQ) (d : DescQ) : CoreCtx :=
  match q with
  | .eng e => c.setQueue (some e) d
  | .task => { c with tq := d }

/-- R78: a thread reads the next record of a completion queue of its context into register rd; the entry is free, and records that
wait in the abort list take free entries first (R425). An empty queue reads 0. bad: a word of the record has bad parity. -/
def execCompletionQueueRead (th : ThreadAt) (q : ComplQ) (rd : Fin 32) (bad : Bool) (s : State) : Host.Outcome State Fault Refusal :=
  .next (s.issue th (fun s =>
    let pc := th.core.val
    let c := s.ctx pc th.ctx
    let d := c.complQueue q
    let put (s : State) (v : Nat) : State := s.setThread pc th.ctx th.t.val ((s.thread pc th.ctx th.t.val).setReg rd.val v)
    match d.compl.pop with
    | none => (put s 0).answer stOk 0 [0]
    | some (it, rest) =>
      let s := s.setCtx pc th.ctx (c.setComplQueue q ({ d with compl := rest }.drainAborts))
      (put s it.data).answer (if bad ∨ it.poison then stPoison else stOk) 0 [it.data]))

end Sys2Proof.Machine
end

