-- ==== Sys2Proof/Machine/Dispatch.lean ====
section
/-!
DEFINITION. Machine/Dispatch.lean: one arm per command, one direct call of its meaning.
-/
namespace Sys2Proof.Machine

def exec (i : Instr) (s : State) : Host.Outcome State Fault Refusal :=
  match i with
  | .registerWrite wr addr value => Sys2Proof.Machine.execRegisterWrite wr addr value s
  | .meMma u err => Sys2Proof.Machine.execMeMma u err s
  | .meDrain u => Sys2Proof.Machine.execMeDrain u s
  | .meLoadacc u => Sys2Proof.Machine.execMeLoadacc u s
  | .meClear u => Sys2Proof.Machine.execMeClear u s
  | .meRowReachesBank u err => Sys2Proof.Machine.execMeRowReachesBank u err s
  | .meComplete u => Sys2Proof.Machine.execMeComplete u s
  | .meQreset core t e => Sys2Proof.Machine.execMeQreset core t e s
  | .meCtrlWrite core en => Sys2Proof.Machine.execMeCtrlWrite core en s
  | .meActDescWrite u w value => Sys2Proof.Machine.execMeActDescWrite u w value s
  | .tampStepEnd core ready => Sys2Proof.Machine.execTampStepEnd core ready s
  | .tampRampStart core => Sys2Proof.Machine.execTampRampStart core s
  | .tampPrewarm core => Sys2Proof.Machine.execTampPrewarm core s
  | .ld th rd addr size err => Sys2Proof.Machine.execLd th rd addr size err s
  | .st th addr size data err => Sys2Proof.Machine.execSt th addr size data err s
  | .atom th op rd addr data cmp => Sys2Proof.Machine.execAtom th op rd addr data cmp s
  | .fenceRem th => Sys2Proof.Machine.execFenceRem th s
  | .issueMe th off prio => Sys2Proof.Machine.execIssueMe th off prio s
  | .issueVce th v off prio => Sys2Proof.Machine.execIssueVce th v off prio s
  | .issueTme th off prio => Sys2Proof.Machine.execIssueTme th off prio s
  | .spawn th off => Sys2Proof.Machine.execSpawn th off s
  | .raise th e => Sys2Proof.Machine.execRaise th e s
  | .waitevt th e => Sys2Proof.Machine.execWaitevt th e s
  | .cancel th tag => Sys2Proof.Machine.execCancel th tag s
  | .done th status => Sys2Proof.Machine.execDone th status s
  | .queuedItemPush u t => Sys2Proof.Machine.execQueuedItemPush u t s
  | .remoteReply u t err => Sys2Proof.Machine.execRemoteReply u t err s
  | .storeAck u t => Sys2Proof.Machine.execStoreAck u t s
  | .taskAccept u hub => Sys2Proof.Machine.execTaskAccept u hub s
  | .taskDispatch u => Sys2Proof.Machine.execTaskDispatch u s
  | .prtTaskCancel u tag => Sys2Proof.Machine.execPrtTaskCancel u tag s
  | .prtTqReset core t e => Sys2Proof.Machine.execPrtTqReset core t e s
  | .memPmGo core wr go ctx => Sys2Proof.Machine.execMemPmGo core wr go ctx s
  | .programLoadEnd core remote => Sys2Proof.Machine.execProgramLoadEnd core remote s
  | .fence core kind => Sys2Proof.Machine.execFence core kind s
  | .rasCoreFence core wr value => Sys2Proof.Machine.execRasCoreFence core wr value s
  | .spareChoice lc => Sys2Proof.Machine.execSpareChoice lc s
  | .spareClearLoadEnd lc => Sys2Proof.Machine.execSpareClearLoadEnd lc s
  | .vceRun u => Sys2Proof.Machine.execVceRun u s
  | .vmov u => Sys2Proof.Machine.execVmov u s
  | .vperm u => Sys2Proof.Machine.execVperm u s
  | .vadd u => Sys2Proof.Machine.execVadd u s
  | .vsub u => Sys2Proof.Machine.execVsub u s
  | .cmul u => Sys2Proof.Machine.execCmul u s
  | .cfma u => Sys2Proof.Machine.execCfma u s
  | .cfms u => Sys2Proof.Machine.execCfms u s
  | .cmac u => Sys2Proof.Machine.execCmac u s
  | .cmaci u => Sys2Proof.Machine.execCmaci u s
  | .accrd u => Sys2Proof.Machine.execAccrd u s
  | .bfly u => Sys2Proof.Machine.execBfly u s
  | .rmul u => Sys2Proof.Machine.execRmul u s
  | .rfma u => Sys2Proof.Machine.execRfma u s
  | .vmax u => Sys2Proof.Machine.execVmax u s
  | .vmin u => Sys2Proof.Machine.execVmin u s
  | .vsum u => Sys2Proof.Machine.execVsum u s
  | .vexp u => Sys2Proof.Machine.execVexp u s
  | .vrcp u => Sys2Proof.Machine.execVrcp u s
  | .vrsq u => Sys2Proof.Machine.execVrsq u s
  | .cvt u => Sys2Proof.Machine.execCvt u s
  | .cvtn u => Sys2Proof.Machine.execCvtn u s
  | .rpt u => Sys2Proof.Machine.execRpt u s
  | .loop u => Sys2Proof.Machine.execLoop u s
  | .seta u => Sys2Proof.Machine.execSeta u s
  | .seto u => Sys2Proof.Machine.execSeto u s
  | .setl u => Sys2Proof.Machine.execSetl u s
  | .setm u => Sys2Proof.Machine.execSetm u s
  | .endKernel u => Sys2Proof.Machine.execEndKernel u s
  | .vceComplete u => Sys2Proof.Machine.execVceComplete u s
  | .vceQreset core v t e => Sys2Proof.Machine.execVceQreset core v t e s
  | .vceCtrlWrite core v en => Sys2Proof.Machine.execVceCtrlWrite core v en s
  | .copy u => Sys2Proof.Machine.execCopy u s
  | .gather u => Sys2Proof.Machine.execGather u s
  | .scatter u => Sys2Proof.Machine.execScatter u s
  | .setconv u => Sys2Proof.Machine.execSetconv u s
  | .tmeTransferDone u remote => Sys2Proof.Machine.execTmeTransferDone u remote s
  | .tmeRunAheadRead u => Sys2Proof.Machine.execTmeRunAheadRead u s
  | .tmeCommit u => Sys2Proof.Machine.execTmeCommit u s
  | .tmeComplete u => Sys2Proof.Machine.execTmeComplete u s
  | .tmeQreset core t e => Sys2Proof.Machine.execTmeQreset core t e s
  | .tmeCtrlWrite core en => Sys2Proof.Machine.execTmeCtrlWrite core en s
  | .poolRequest pool port inst timed wait => Sys2Proof.Machine.execPoolRequest pool port inst timed wait s
  | .poolReturn pool port inst addr => Sys2Proof.Machine.execPoolReturn pool port inst addr s
  | .alloc inst req => Sys2Proof.Machine.execAlloc inst req s
  | .free inst addr => Sys2Proof.Machine.execFree inst addr s
  | .scrub errs => Sys2Proof.Machine.execScrub errs s
  | .tableWalkDone n => Sys2Proof.Machine.execTableWalkDone n s
  | .xltInvInstance wr inst => Sys2Proof.Machine.execXltInvInstance wr inst s
  | .xltInvRange wr inst => Sys2Proof.Machine.execXltInvRange wr inst s
  | .xltInvAll wr => Sys2Proof.Machine.execXltInvAll wr s
  | .xltInvComplete => Sys2Proof.Machine.execXltInvComplete s
  | .toDev inst bad => Sys2Proof.Machine.execToDev inst bad s
  | .toHost inst bad => Sys2Proof.Machine.execToHost inst bad s
  | .dmaPieceDone inst host => Sys2Proof.Machine.execDmaPieceDone inst host s
  | .dmaComplete inst => Sys2Proof.Machine.execDmaComplete inst s
  | .xltIfDone inst value => Sys2Proof.Machine.execXltIfDone inst value s
  | .xclkLost => Sys2Proof.Machine.execXclkLost s
  | .xclkRestored => Sys2Proof.Machine.execXclkRestored s
  | .timePllLock => Sys2Proof.Machine.execTimePllLock s
  | .glideStep isl => Sys2Proof.Machine.execGlideStep isl s
  | .clkIslTargetWrite wr isl target => Sys2Proof.Machine.execClkIslTargetWrite wr isl target s
  | .clkEnWrite wr islands value => Sys2Proof.Machine.execClkEnWrite wr islands value s
  | .timeMarker drift upsets => Sys2Proof.Machine.execTimeMarker drift upsets s
  | .timeServoOfs wr e => Sys2Proof.Machine.execTimeServoOfs wr e s
  | .timeStepWrite wr step => Sys2Proof.Machine.execTimeStepWrite wr step s
  | .timeAdj wr e => Sys2Proof.Machine.execTimeAdj wr e s
  | .timeNowNsRead reader => Sys2Proof.Machine.execTimeNowNsRead reader s
  | .declareLock wr lock => Sys2Proof.Machine.execDeclareLock wr lock s
  | .timeCmpFire n ticks => Sys2Proof.Machine.execTimeCmpFire n ticks s
  | .cglBoundary list ticks exec sel => Sys2Proof.Machine.execCglBoundary list ticks exec sel s
  | .guardStart list ticks => Sys2Proof.Machine.execGuardStart list ticks s
  | .cglSwap wr list stop => Sys2Proof.Machine.execCglSwap wr list stop s
  | .cglStop wr list => Sys2Proof.Machine.execCglStop wr list s
  | .cglSwapApply list ticks => Sys2Proof.Machine.execCglSwapApply list ticks s
  | .cglLcGrpWrite wr lc grp => Sys2Proof.Machine.execCglLcGrpWrite wr lc grp s
  | .groupChangeApply lc => Sys2Proof.Machine.execGroupChangeApply lc s
  | .starve core => Sys2Proof.Machine.execStarve core s
  | .grpCreate inst bad => Sys2Proof.Machine.execGrpCreate inst bad s
  | .grpDestroy inst bad => Sys2Proof.Machine.execGrpDestroy inst bad s
  | .grpHold inst bad => Sys2Proof.Machine.execGrpHold inst bad s
  | .admitSeq inst bad => Sys2Proof.Machine.execAdmitSeq inst bad s
  | .cancelSeq inst bad => Sys2Proof.Machine.execCancelSeq inst bad s
  | .querySeq inst bad => Sys2Proof.Machine.execQuerySeq inst bad s
  | .setClass inst bad => Sys2Proof.Machine.execSetClass inst bad s
  | .migrate inst bad => Sys2Proof.Machine.execMigrate inst bad s
  | .outDone inst bad => Sys2Proof.Machine.execOutDone inst bad s
  | .stepCommit grp late => Sys2Proof.Machine.execStepCommit grp late s
  | .outputRoomWaitEnd grp => Sys2Proof.Machine.execOutputRoomWaitEnd grp s
  | .blockMoveDone n => Sys2Proof.Machine.execBlockMoveDone n s
  | .ldRequest port => Sys2Proof.Machine.execLdRequest port s
  | .stRequest port => Sys2Proof.Machine.execStRequest port s
  | .swap port => Sys2Proof.Machine.execSwap port s
  | .cas port => Sys2Proof.Machine.execCas port s
  | .faddI64 port => Sys2Proof.Machine.execFaddI64 port s
  | .addI64 port => Sys2Proof.Machine.execAddI64 port s
  | .addRec port => Sys2Proof.Machine.execAddRec port s
  | .addF32 port => Sys2Proof.Machine.execAddF32 port s
  | .dispatch port => Sys2Proof.Machine.execDispatch port s
  | .combine port => Sys2Proof.Machine.execCombine port s
  | .epochNote port => Sys2Proof.Machine.execEpochNote port s
  | .bulk port => Sys2Proof.Machine.execBulk port s
  | .fabricReply port => Sys2Proof.Machine.execFabricReply port s
  | .tagGrant => Sys2Proof.Machine.execTagGrant s
  | .fabricTimeout tag => Sys2Proof.Machine.execFabricTimeout tag s
  | .tagQuarantineEnd tag => Sys2Proof.Machine.execTagQuarantineEnd tag s
  | .gwFrameSend gw card => Sys2Proof.Machine.execGwFrameSend gw card s
  | .gwEntryGrant gw => Sys2Proof.Machine.execGwEntryGrant gw s
  | .get inst bad remote => Sys2Proof.Machine.execGet inst bad remote s
  | .put inst bad remote => Sys2Proof.Machine.execPut inst bad remote s
  | .gwComplete inst => Sys2Proof.Machine.execGwComplete inst s
  | .fabXrTailWrite wr ring tail => Sys2Proof.Machine.execFabXrTailWrite wr ring tail s
  | .dispatchRingRead => Sys2Proof.Machine.execDispatchRingRead s
  | .dispatchRetry ring entry => Sys2Proof.Machine.execDispatchRetry ring entry s
  | .dispatchEntryComplete ring entry => Sys2Proof.Machine.execDispatchEntryComplete ring entry s
  | .fabXiNext wr inbox => Sys2Proof.Machine.execFabXiNext wr inbox s
  | .fabXiDone wr inbox slot => Sys2Proof.Machine.execFabXiDone wr inbox slot s
  | .inboxSlotFree inbox slot => Sys2Proof.Machine.execInboxSlotFree inbox slot s
  | .enable wr port => Sys2Proof.Machine.execEnable wr port s
  | .disable wr port => Sys2Proof.Machine.execDisable wr port s
  | .retrain wr port => Sys2Proof.Machine.execRetrain wr port s
  | .swapCommand wr port lane => Sys2Proof.Machine.execSwapCommand wr port lane s
  | .unretire wr port => Sys2Proof.Machine.execUnretire wr port s
  | .announce port key => Sys2Proof.Machine.execAnnounce port key s
  | .collisionRound port => Sys2Proof.Machine.execCollisionRound port s
  | .trainingPhaseEnd port spare tx rx => Sys2Proof.Machine.execTrainingPhaseEnd port spare tx rx s
  | .ready port => Sys2Proof.Machine.execReady port s
  | .trainTimeout port => Sys2Proof.Machine.execTrainTimeout port s
  | .recoveryTimeout port => Sys2Proof.Machine.execRecoveryTimeout port s
  | .fastRetrainDone port spare => Sys2Proof.Machine.execFastRetrainDone port spare s
  | .drainHoldEnd port => Sys2Proof.Machine.execDrainHoldEnd port s
  | .downToArb port => Sys2Proof.Machine.execDownToArb port s
  | .flitRx port ctl flit sym bad => Sys2Proof.Machine.execFlitRx port ctl flit sym bad s
  | .replayTimer port => Sys2Proof.Machine.execReplayTimer port s
  | .swapReq port lane => Sys2Proof.Machine.execSwapReq port lane s
  | .swapAck port => Sys2Proof.Machine.execSwapAck port s
  | .swapRej port => Sys2Proof.Machine.execSwapRej port s
  | .laneDriveOff port => Sys2Proof.Machine.execLaneDriveOff port s
  | .lnkWindowEnd => Sys2Proof.Machine.execLnkWindowEnd s
  | .laneLockLoss port lane => Sys2Proof.Machine.execLaneLockLoss port lane s
  | .ldpcDec wr q job poison => Sys2Proof.Machine.execLdpcDec wr q job poison s
  | .ldpcEnc wr q job poison => Sys2Proof.Machine.execLdpcEnc wr q job poison s
  | .polarDec wr q job poison => Sys2Proof.Machine.execPolarDec wr q job poison s
  | .polarEnc wr q job poison => Sys2Proof.Machine.execPolarEnc wr q job poison s
  | .codeBlockStart => Sys2Proof.Machine.execCodeBlockStart s
  | .codeBlockEnd unit error => Sys2Proof.Machine.execCodeBlockEnd unit error s
  | .fecJobComplete q => Sys2Proof.Machine.execFecJobComplete q s
  | .fecDeadline ticks => Sys2Proof.Machine.execFecDeadline ticks s
  | .fecQctlCancel wr q tag => Sys2Proof.Machine.execFecQctlCancel wr q tag s
  | .fecQctlReset wr q => Sys2Proof.Machine.execFecQctlReset wr q s
  | .activate wr cell => Sys2Proof.Machine.execActivate wr cell s
  | .deactivate wr cell => Sys2Proof.Machine.execDeactivate wr cell s
  | .cellFrameBoundary cell ticks => Sys2Proof.Machine.execCellFrameBoundary cell ticks s
  | .holdoverExpiry cell ticks => Sys2Proof.Machine.execHoldoverExpiry cell ticks s
  | .maskCheck stream cell ant sym pk => Sys2Proof.Machine.execMaskCheck stream cell ant sym pk s
  | .fhMaskUnmute wr stream go => Sys2Proof.Machine.execFhMaskUnmute wr stream go s
  | .frameRx target ticks fcsOk frame => Sys2Proof.Machine.execFrameRx target ticks fcsOk frame s
  | .uplane wr win desc poison => Sys2Proof.Machine.execUplane wr win desc poison s
  | .cplane wr win desc poison => Sys2Proof.Machine.execCplane wr win desc poison s
  | .raw wr win desc poison => Sys2Proof.Machine.execRaw wr win desc poison s
  | .frameTx target ticks crcBad => Sys2Proof.Machine.execFrameTx target ticks crcBad s
  | .headDrop queue ticks => Sys2Proof.Machine.execHeadDrop queue ticks s
  | .egressComplete win => Sys2Proof.Machine.execEgressComplete win s
  | .ulMapClear cell ticks => Sys2Proof.Machine.execUlMapClear cell ticks s
  | .tmGateSwap wr target stop => Sys2Proof.Machine.execTmGateSwap wr target stop s
  | .tmGateStop wr target => Sys2Proof.Machine.execTmGateStop wr target s
  | .gateBoundary target ticks => Sys2Proof.Machine.execGateBoundary target ticks s
  | .tmEnqCtlReset wr win => Sys2Proof.Machine.execTmEnqCtlReset wr win s
  | .tmHrDone inst n => Sys2Proof.Machine.execTmHrDone inst n s
  | .tmHrSizeWrite inst n => Sys2Proof.Machine.execTmHrSizeWrite inst n s
  | .hostRingDeliver port ticks => Sys2Proof.Machine.execHostRingDeliver port ticks s
  | .fhPortCmdEnable wr port sub => Sys2Proof.Machine.execFhPortCmdEnable wr port sub s
  | .fhPortCmdDisable wr port sub => Sys2Proof.Machine.execFhPortCmdDisable wr port sub s
  | .subportLinkChange target up => Sys2Proof.Machine.execSubportLinkChange target up s
  | .create c rng => Sys2Proof.Machine.execCreate c rng s
  | .reset c => Sys2Proof.Machine.execReset c s
  | .reclaim c => Sys2Proof.Machine.execReclaim c s
  | .partCancel c => Sys2Proof.Machine.execPartCancel c s
  | .assign c rng => Sys2Proof.Machine.execAssign c rng s
  | .recover c => Sys2Proof.Machine.execRecover c s
  | .destroy c => Sys2Proof.Machine.execDestroy c s
  | .instCreate c inst rng grants => Sys2Proof.Machine.execInstCreate c inst rng grants s
  | .instReset c inst => Sys2Proof.Machine.execInstReset c inst s
  | .instDestroy c inst => Sys2Proof.Machine.execInstDestroy c inst s
  | .instanceResetEnd inst => Sys2Proof.Machine.execInstanceResetEnd inst s
  | .prtModeWrite wr mode => Sys2Proof.Machine.execPrtModeWrite wr mode s
  | .prtLcInstWrite wr lc t e => Sys2Proof.Machine.execPrtLcInstWrite wr lc t e s
  | .reclaimInstant part ticks => Sys2Proof.Machine.execReclaimInstant part ticks s
  | .teardown part ticks => Sys2Proof.Machine.execTeardown part ticks s
  | .zeroingDone part => Sys2Proof.Machine.execZeroingDone part s
  | .hostLinkDown port => Sys2Proof.Machine.execHostLinkDown port s
  | .hostLinkUp port rate width flit => Sys2Proof.Machine.execHostLinkUp port rate width flit s
  | .functionLevelReset port fn => Sys2Proof.Machine.execFunctionLevelReset port fn s
  | .mbxSend inst rid msg => Sys2Proof.Machine.execMbxSend inst rid msg s
  | .mbxRecv inst ch bad => Sys2Proof.Machine.execMbxRecv inst ch bad s
  | .mbxEpRecv part bad => Sys2Proof.Machine.execMbxEpRecv part bad s
  | .mbxEpSend lc ctx inst msg => Sys2Proof.Machine.execMbxEpSend lc ctx inst msg s
  | .mbxMcSend mc inst msg => Sys2Proof.Machine.execMbxMcSend mc inst msg s
  | .mbxMcRecv bad => Sys2Proof.Machine.execMbxMcRecv bad s
  | .noticeSend inst => Sys2Proof.Machine.execNoticeSend inst s
  | .msixUnmask inst vec => Sys2Proof.Machine.execMsixUnmask inst vec s
  | .mbxInstReset inst => Sys2Proof.Machine.execMbxInstReset inst s
  | .instQuery inst => Sys2Proof.Machine.execInstQuery inst s
  | .progReg inst d => Sys2Proof.Machine.execProgReg inst d s
  | .mapRemote inst d => Sys2Proof.Machine.execMapRemote inst d s
  | .grantPeer inst d => Sys2Proof.Machine.execGrantPeer inst d s
  | .revokePeer inst d => Sys2Proof.Machine.execRevokePeer inst d s
  | .reclaimAck inst => Sys2Proof.Machine.execReclaimAck inst s
  | .partCmd inst d rng grants => Sys2Proof.Machine.execPartCmd inst d rng grants s
  | .rstNAssert => Sys2Proof.Machine.execRstNAssert s
  | .rstNRelease hpEn fuseOk flashOk => Sys2Proof.Machine.execRstNRelease hpEn fuseOk flashOk s
  | .imageVerified => Sys2Proof.Machine.execImageVerified s
  | .imgWrite inst d => Sys2Proof.Machine.execImgWrite inst d s
  | .imgCheck inst d => Sys2Proof.Machine.execImgCheck inst d s
  | .imgActivate inst d => Sys2Proof.Machine.execImgActivate inst d s
  | .imgConfirm inst => Sys2Proof.Machine.execImgConfirm inst s
  | .psRestart inst => Sys2Proof.Machine.execPsRestart inst s
  | .psWrite ticks => Sys2Proof.Machine.execPsWrite ticks s
  | .secRcvProgram slot unit => Sys2Proof.Machine.execSecRcvProgram slot unit s
  | .secRcvReset fuseOk flashOk => Sys2Proof.Machine.execSecRcvReset fuseOk flashOk s
  | .keyGenerate wr id rng => Sys2Proof.Machine.execKeyGenerate wr id rng s
  | .keyDestroy wr id => Sys2Proof.Machine.execKeyDestroy wr id s
  | .secCfgLock wr locked => Sys2Proof.Machine.execSecCfgLock wr locked s
  | .getVersion f => Sys2Proof.Machine.execGetVersion f s
  | .getCapabilities f ver => Sys2Proof.Machine.execGetCapabilities f ver s
  | .negotiateAlgorithms f supported => Sys2Proof.Machine.execNegotiateAlgorithms f supported s
  | .getDigests f => Sys2Proof.Machine.execGetDigests f s
  | .getCertificate f slot offset len => Sys2Proof.Machine.execGetCertificate f slot offset len s
  | .challenge f slot nonce => Sys2Proof.Machine.execChallenge f slot nonce s
  | .getMeasurements f index sign nonce => Sys2Proof.Machine.execGetMeasurements f index sign nonce s
  | .keyExchange f reqId share => Sys2Proof.Machine.execKeyExchange f reqId share s
  | .finish f sess macOk => Sys2Proof.Machine.execFinish f sess macOk s
  | .keyUpdate f sess op => Sys2Proof.Machine.execKeyUpdate f sess op s
  | .heartbeat f sess => Sys2Proof.Machine.execHeartbeat f sess s
  | .endSession f sess => Sys2Proof.Machine.execEndSession f sess s
  | .chunkSend f seq last => Sys2Proof.Machine.execChunkSend f seq last s
  | .chunkGet f seq last => Sys2Proof.Machine.execChunkGet f seq last s
  | .vendorDefinedRequest f sess msg => Sys2Proof.Machine.execVendorDefinedRequest f sess msg s
  | .lockInterface f sess inst stream => Sys2Proof.Machine.execLockInterface f sess inst stream s
  | .startInterface f sess inst => Sys2Proof.Machine.execStartInterface f sess inst s
  | .stopInterface f sess inst => Sys2Proof.Machine.execStopInterface f sess inst s
  | .cremaOpen inst d => Sys2Proof.Machine.execCremaOpen inst d s
  | .cremaAdd inst d => Sys2Proof.Machine.execCremaAdd inst d s
  | .cremaSeal inst d => Sys2Proof.Machine.execCremaSeal inst d s
  | .cremaAbort inst d => Sys2Proof.Machine.execCremaAbort inst d s
  | .escalation bridges => Sys2Proof.Machine.execEscalation bridges s
  | .thresholdWindowEnd row ticks => Sys2Proof.Machine.execThresholdWindowEnd row ticks s
  | .rasFence wr core => Sys2Proof.Machine.execRasFence wr core s
  | .rasRemoveFenceRecord wr core => Sys2Proof.Machine.execRasRemoveFenceRecord wr core s
  | .rasRotate wr lc => Sys2Proof.Machine.execRasRotate wr lc s
  | .rasSoftRowRepair wr => Sys2Proof.Machine.execRasSoftRowRepair wr s
  | .softRowRepairDone => Sys2Proof.Machine.execSoftRowRepairDone s
  | .witnessRotate ticks => Sys2Proof.Machine.execWitnessRotate ticks s
  | .rotationHandover lc => Sys2Proof.Machine.execRotationHandover lc s
  | .witnessSuiteEnd core fails => Sys2Proof.Machine.execWitnessSuiteEnd core fails s
  | .rasCardSwapArm wr k fromCard toCard => Sys2Proof.Machine.execRasCardSwapArm wr k fromCard toCard s
  | .fatalError kind => Sys2Proof.Machine.execFatalError kind s
  | .fatalAutoReset ticks fuseOk flashOk => Sys2Proof.Machine.execFatalAutoReset ticks fuseOk flashOk s
  | .mcWatchdog mc => Sys2Proof.Machine.execMcWatchdog mc s
  | .pwrDomOff wr dom rsvd => Sys2Proof.Machine.execPwrDomOff wr dom rsvd s
  | .pwrDomOn wr dom rsvd => Sys2Proof.Machine.execPwrDomOn wr dom rsvd s
  | .domainDrainEnd dom => Sys2Proof.Machine.execDomainDrainEnd dom s
  | .domainRampEnd dom => Sys2Proof.Machine.execDomainRampEnd dom s
  | .capPeriod t => Sys2Proof.Machine.execCapPeriod t s
  | .pwrCapWrite wr capW => Sys2Proof.Machine.execPwrCapWrite wr capW s
  | .pwrTimedBudgetWrite wr budgetW => Sys2Proof.Machine.execPwrTimedBudgetWrite wr budgetW s
  | .bar0Write f off len data rid ide => Sys2Proof.Machine.execBar0Write f off len data rid ide s
  | .bar2Read f off len ide bad => Sys2Proof.Machine.execBar2Read f off len ide bad s
  | .badBarAccess port write => Sys2Proof.Machine.execBadBarAccess port write s
  | .perst port => Sys2Proof.Machine.execPerst port s
  | .completionQueueRead th q rd bad => Sys2Proof.Machine.execCompletionQueueRead th q rd bad s
  | .codewordLockLoss port => Sys2Proof.Machine.execCodewordLockLoss port s
  | .arbListenEnd port => Sys2Proof.Machine.execArbListenEnd port s
  | .pcieConfigWrite f w => Sys2Proof.Machine.execPcieConfigWrite f w s
  | .hbmSiloTrainingDone failed => Sys2Proof.Machine.execHbmSiloTrainingDone failed s
  | .flashProgramDone store ok => Sys2Proof.Machine.execFlashProgramDone store ok s
  | .cremaCommandDone inst => Sys2Proof.Machine.execCremaCommandDone inst s
  | .symbolSendTime cell frame sub slot sym ticks => Sys2Proof.Machine.execSymbolSendTime cell frame sub slot sym ticks s
  | .powerRemoval => Sys2Proof.Machine.execPowerRemoval s

end Sys2Proof.Machine
end

