-- ==== Sys2Proof/Safety.lean ====
section
/-!
DEFINITION. Safety.lean: what counts as a safe step, and the invariants that claims use.
-/
namespace Sys2Proof.Safety

open Sys2Proof.Machine

/-- A step that goes on: neither a fault nor a refusal. -/
def Goes (o : Host.Outcome State Fault Refusal) : Prop := ∃ t, o = .next t

/-- Every command that waits is well formed. -/
def QueueWf (s : State) : Prop := ∀ c ∈ s.pending, Instr.wf c = true

/-- The register file's canonical form above a bound: offsets strictly rise, no listed register holds its reset value, and every
value is one of 64 bits (R515). -/
def regsWfFrom : Nat → List (Nat × Nat) → Bool
  | _, [] => true
  | lo, (k, v) :: t => decide (lo ≤ k) && decide (v ≠ regReset k) && decide (v < 2 ^ 64) && regsWfFrom (k + 1) t

def regsWf (l : List (Nat × Nat)) : Bool := regsWfFrom 0 l

/-- What every step keeps: the device memory and the register file in their canonical forms, and at most 64 fuses of the svn blown
(R437). -/
structure Inv (s : State) : Prop where
  dev : s.dev.wf = true
  regs : regsWf s.regs = true
  svn : s.fuses.svn ≤ 64

/-- How a later state stands to an earlier one of the same part, whatever commands lie between: the device ID and the grade are the
same, the svn has not fallen, and what Inv says is kept. -/
structure Later (s t : State) : Prop where
  uid : t.fuses.uid = s.fuses.uid
  grade : t.grade = s.grade
  svn : s.fuses.svn ≤ t.fuses.svn
  inv : Inv s → Inv t

/-- The parts of the state, one for each field but the queue. -/
inductive Field where
  | free | reply | regs | win | grade | failed | map | handovers | lateSteps | rots | cores | dev | regions | pools | tlb | wcache
  | walks | walkFaults | inval | dma | vlog | glog | slog | ifr | cnt | crema | cremaJobs | tdi | spdm | ide | tdiStream | rasWin
  | rasBins | rasCool | escal | fab | fenceRecs | progImages | epochs | nextTable | hostOut | islCopy | mcIrq | cgl | brs | lnk |
  laneRecs | guards | grpPend | fec | cells | maskRun | tm | retiredQ | mbx | notices | epPtr | msix | msixOut | lost | parts |
  dying | siloOut | rampWait | repairs | repaired | testing | witOrder | witRun | witAt | fatalAt | trip | fuses | flash | bank0 |
  bank1 | boot
  deriving DecidableEq, Repr

/-- Is a part the same in two states? -/
def Field.same (s t : State) : Field → Prop
  | .free => t.free = s.free
  | .reply => t.reply = s.reply
  | .regs => t.regs = s.regs
  | .win => t.win = s.win
  | .grade => t.grade = s.grade
  | .failed => t.failed = s.failed
  | .map => t.map = s.map
  | .handovers => t.handovers = s.handovers
  | .lateSteps => t.lateSteps = s.lateSteps
  | .rots => t.rots = s.rots
  | .cores => t.cores = s.cores
  | .dev => t.dev = s.dev
  | .regions => t.regions = s.regions
  | .pools => t.pools = s.pools
  | .tlb => t.tlb = s.tlb
  | .wcache => t.wcache = s.wcache
  | .walks => t.walks = s.walks
  | .walkFaults => t.walkFaults = s.walkFaults
  | .inval => t.inval = s.inval
  | .dma => t.dma = s.dma
  | .vlog => t.vlog = s.vlog
  | .glog => t.glog = s.glog
  | .slog => t.slog = s.slog
  | .ifr => t.ifr = s.ifr
  | .cnt => t.cnt = s.cnt
  | .crema => t.crema = s.crema
  | .cremaJobs => t.cremaJobs = s.cremaJobs
  | .tdi => t.tdi = s.tdi
  | .spdm => t.spdm = s.spdm
  | .ide => t.ide = s.ide
  | .tdiStream => t.tdiStream = s.tdiStream
  | .rasWin => t.rasWin = s.rasWin
  | .rasBins => t.rasBins = s.rasBins
  | .rasCool => t.rasCool = s.rasCool
  | .escal => t.escal = s.escal
  | .fab => t.fab = s.fab
  | .fenceRecs => t.fenceRecs = s.fenceRecs
  | .progImages => t.progImages = s.progImages
  | .epochs => t.epochs = s.epochs
  | .nextTable => t.nextTable = s.nextTable
  | .hostOut => t.hostOut = s.hostOut
  | .islCopy => t.islCopy = s.islCopy
  | .mcIrq => t.mcIrq = s.mcIrq
  | .cgl => t.cgl = s.cgl
  | .brs => t.brs = s.brs
  | .lnk => t.lnk = s.lnk
  | .laneRecs => t.laneRecs = s.laneRecs
  | .guards => t.guards = s.guards
  | .grpPend => t.grpPend = s.grpPend
  | .fec => t.fec = s.fec
  | .cells => t.cells = s.cells
  | .maskRun => t.maskRun = s.maskRun
  | .tm => t.tm = s.tm
  | .retiredQ => t.retiredQ = s.retiredQ
  | .mbx => t.mbx = s.mbx
  | .notices => t.notices = s.notices
  | .epPtr => t.epPtr = s.epPtr
  | .msix => t.msix = s.msix
  | .msixOut => t.msixOut = s.msixOut
  | .lost => t.lost = s.lost
  | .parts => t.parts = s.parts
  | .dying => t.dying = s.dying
  | .siloOut => t.siloOut = s.siloOut
  | .rampWait => t.rampWait = s.rampWait
  | .repairs => t.repairs = s.repairs
  | .repaired => t.repaired = s.repaired
  | .testing => t.testing = s.testing
  | .witOrder => t.witOrder = s.witOrder
  | .witRun => t.witRun = s.witRun
  | .witAt => t.witAt = s.witAt
  | .fatalAt => t.fatalAt = s.fatalAt
  | .trip => t.trip = s.trip
  | .fuses => t.fuses = s.fuses
  | .flash => t.flash = s.flash
  | .bank0 => t.bank0 = s.bank0
  | .bank1 => t.bank1 = s.bank1
  | .boot => t.boot = s.boot

/-- A number for each part. -/
def Field.bit : Field → Nat
  | .free => 0 | .reply => 1 | .regs => 2 | .win => 3 | .grade => 4 | .failed => 5 | .map => 6 | .handovers => 7
  | .lateSteps => 8 | .rots => 9 | .cores => 10 | .dev => 11 | .regions => 12 | .pools => 13 | .tlb => 14 | .wcache => 15
  | .walks => 16 | .walkFaults => 17 | .inval => 18 | .dma => 19 | .vlog => 20 | .glog => 21 | .slog => 22 | .ifr => 23
  | .cnt => 24 | .crema => 25 | .cremaJobs => 26 | .tdi => 27 | .spdm => 28 | .ide => 29 | .tdiStream => 30 | .rasWin => 31
  | .rasBins => 32 | .rasCool => 33 | .escal => 34 | .fab => 35 | .fenceRecs => 36 | .progImages => 37 | .epochs => 38
  | .nextTable => 39 | .hostOut => 40 | .islCopy => 41 | .mcIrq => 42 | .cgl => 43 | .brs => 44 | .lnk => 45 | .laneRecs => 46
  | .guards => 47 | .grpPend => 48 | .fec => 49 | .cells => 50 | .maskRun => 51 | .tm => 52 | .retiredQ => 53 | .mbx => 54
  | .notices => 55 | .epPtr => 56 | .msix => 57 | .msixOut => 58 | .lost => 59 | .parts => 60 | .dying => 61 | .siloOut => 62
  | .rampWait => 63 | .repairs => 64 | .repaired => 65 | .testing => 66 | .witOrder => 67 | .witRun => 68 | .witAt => 69
  | .fatalAt => 70 | .trip => 71 | .fuses => 72 | .flash => 73 | .bank0 => 74 | .bank1 => 75 | .boot => 76

/-- Every part of the state but those listed is as it was. -/
def SameBut (l : List Field) (s t : State) : Prop := ∀ f, f ∉ l → f.same s t

/-- Every part. -/
def allFields : List Field :=
  [.free, .reply, .regs, .win, .grade, .failed, .map, .handovers, .lateSteps, .rots, .cores, .dev, .regions, .pools,
   .tlb, .wcache, .walks, .walkFaults, .inval, .dma, .vlog, .glog, .slog, .ifr, .cnt, .crema, .cremaJobs, .tdi,
   .spdm, .ide, .tdiStream, .rasWin, .rasBins, .rasCool, .escal, .fab, .fenceRecs, .progImages, .epochs, .nextTable,
   .hostOut, .islCopy, .mcIrq, .cgl, .brs, .lnk, .laneRecs, .guards, .grpPend, .fec, .cells, .maskRun, .tm,
   .retiredQ, .mbx, .notices, .epPtr, .msix, .msixOut, .lost, .parts, .dying, .siloOut, .rampWait, .repairs,
   .repaired, .testing, .witOrder, .witRun, .witAt, .fatalAt, .trip, .fuses, .flash, .bank0, .bank1, .boot]

/-- The parts of the state that a command may change; every other part is the same after it. -/
def mayChange : Instr → List Field
  | .tampRampStart .. | .tampPrewarm .. | .queuedItemPush .. =>
    [.cores]
  | .glideStep .. | .subportLinkChange .. | .codewordLockLoss .. =>
    [.regs]
  | .tagQuarantineEnd .. =>
    [.fab]
  | .laneDriveOff .. | .arbListenEnd .. =>
    [.lnk]
  | .instQuery .. | .getDigests .. | .getCertificate .. | .challenge .. | .getMeasurements .. | .keyUpdate .. |
  .heartbeat .. =>
    [.reply]
  | .tampStepEnd .. | .taskDispatch .. | .vceComplete .. =>
    [.regs, .cores]
  | .dmaComplete .. =>
    [.dma, .hostOut]
  | .xclkRestored .. | .timePllLock .. =>
    [.regs, .cells]
  | .guardStart .. =>
    [.cnt, .guards]
  | .announce .. | .collisionRound .. | .trainTimeout .. | .downToArb .. | .replayTimer .. | .swapRej .. =>
    [.regs, .lnk]
  | .cellFrameBoundary .. | .holdoverExpiry .. =>
    [.regs, .cnt]
  | .noticeSend .. =>
    [.mbx, .notices]
  | .getVersion .. | .getCapabilities .. | .negotiateAlgorithms .. | .finish .. | .endSession .. | .chunkSend .. |
  .chunkGet .. =>
    [.reply, .spdm]
  | .capPeriod .. =>
    [.regs, .trip]
  | .badBarAccess .. =>
    [.reply, .regs]
  | .meQreset .. | .prtTaskCancel .. | .prtTqReset .. | .vceQreset .. =>
    [.reply, .regs, .cores]
  | .meCtrlWrite .. | .meActDescWrite .. | .vceCtrlWrite .. | .tmeCtrlWrite .. | .grantPeer .. | .revokePeer .. =>
    [.reply, .regs, .slog]
  | .tmeCommit .. | .tmeComplete .. | .starve .. =>
    [.regs, .cores, .pools]
  | .timeNowNsRead .. =>
    [.reply, .regs, .win]
  | .timeCmpFire .. =>
    [.regs, .cnt, .mcIrq]
  | .groupChangeApply .. =>
    [.regs, .cores, .grpPend]
  | .fabricTimeout .. | .dispatchEntryComplete .. =>
    [.regs, .cores, .fab]
  | .ready .. | .swapReq .. =>
    [.regs, .fab, .lnk]
  | .swapAck .. =>
    [.regs, .lnk, .laneRecs]
  | .headDrop .. | .gateBoundary .. | .symbolSendTime .. =>
    [.regs, .cnt, .tm]
  | .reclaimInstant .. =>
    [.regs, .cnt, .brs]
  | .msixUnmask .. =>
    [.tdi, .msix, .msixOut]
  | .keyExchange .. =>
    [.free, .reply, .spdm]
  | .vendorDefinedRequest .. =>
    [.reply, .tdi, .ide]
  | .stopInterface .. =>
    [.reply, .tdi, .tdiStream]
  | .softRowRepairDone .. =>
    [.regs, .repairs, .repaired]
  | .domainRampEnd .. =>
    [.regs, .islCopy, .rampWait]
  | .spareChoice .. =>
    [.regs, .map, .handovers, .cores]
  | .tmeQreset .. =>
    [.reply, .regs, .cores, .pools]
  | .poolRequest .. =>
    [.reply, .regs, .pools, .slog]
  | .xltIfDone .. =>
    [.reply, .regs, .slog, .ifr]
  | .gwFrameSend .. =>
    [.regs, .pools, .fab, .lnk]
  | .trainingPhaseEnd .. | .recoveryTimeout .. | .drainHoldEnd .. | .lnkWindowEnd .. | .laneLockLoss .. =>
    [.regs, .cores, .fab, .lnk]
  | .fastRetrainDone .. =>
    [.regs, .fab, .lnk, .laneRecs]
  | .maskCheck .. =>
    [.free, .reply, .regs, .maskRun]
  | .frameTx .. =>
    [.free, .regs, .cnt, .tm]
  | .hostLinkUp .. | .pcieConfigWrite .. =>
    [.regs, .tdi, .msix, .msixOut]
  | .reclaimAck .. =>
    [.reply, .regs, .slog, .parts]
  | .secRcvProgram .. =>
    [.reply, .regs, .slog, .boot]
  | .startInterface .. =>
    [.reply, .regs, .slog, .tdi]
  | .thresholdWindowEnd .. =>
    [.cnt, .rasWin, .rasBins, .rasCool]
  | .mcWatchdog .. =>
    [.regs, .cores, .mbx, .notices]
  | .xltInvComplete .. =>
    [.regs, .tlb, .wcache, .walks, .inval]
  | .tagGrant .. | .gwEntryGrant .. | .dispatchRetry .. =>
    [.regs, .cores, .pools, .fab, .lnk]
  | .flitRx .. =>
    [.regs, .cores, .fab, .lnk, .laneRecs]
  | .tmHrDone .. | .tmHrSizeWrite .. =>
    [.reply, .regs, .win, .glog, .slog]
  | .hostRingDeliver .. =>
    [.regs, .win, .cnt, .hostOut, .tm]
  | .zeroingDone .. =>
    [.regs, .cores, .dev, .lost, .parts]
  | .hostLinkDown .. | .perst .. =>
    [.regs, .tdi, .ide, .msix, .msixOut]
  | .psWrite .. =>
    [.reply, .regs, .slog, .cnt, .boot]
  | .lockInterface .. =>
    [.reply, .regs, .slog, .tdi, .tdiStream]
  | .cremaOpen .. | .cremaAdd .. | .cremaSeal .. | .cremaAbort .. =>
    [.reply, .regs, .slog, .crema, .cremaJobs]
  | .rotationHandover .. =>
    [.regs, .map, .rots, .cores, .testing]
  | .witnessSuiteEnd .. =>
    [.regs, .escal, .testing, .witOrder, .witRun]
  | .meComplete .. =>
    [.regs, .cores, .rasWin, .rasBins, .rasCool, .escal]
  | .vceRun .. | .copy .. | .gather .. | .scatter .. =>
    [.regs, .win, .cores, .vlog, .slog, .ifr]
  | .clkIslTargetWrite .. | .clkEnWrite .. | .timeStepWrite .. | .timeAdj .. | .fabXrTailWrite .. |
  .prtModeWrite .. | .prtLcInstWrite .. | .secCfgLock .. | .rasCardSwapArm .. | .pwrCapWrite .. |
  .pwrTimedBudgetWrite .. =>
    [.reply, .regs, .win, .vlog, .slog, .ifr]
  | .timeServoOfs .. | .declareLock .. =>
    [.reply, .regs, .win, .vlog, .ifr, .cells]
  | .cglStop .. =>
    [.reply, .regs, .win, .vlog, .ifr, .cgl]
  | .fhMaskUnmute .. =>
    [.reply, .regs, .win, .vlog, .ifr, .maskRun]
  | .mbxSend .. =>
    [.reply, .regs, .win, .cores, .slog, .mbx]
  | .mbxMcSend .. =>
    [.reply, .regs, .win, .slog, .mbx, .notices]
  | .hbmSiloTrainingDone .. =>
    [.regs, .rasWin, .rasBins, .rasCool, .escal, .siloOut]
  | .meClear .. =>
    [.free, .regs, .win, .cores, .vlog, .slog, .ifr]
  | .meRowReachesBank .. =>
    [.free, .regs, .cores, .rasWin, .rasBins, .rasCool, .escal]
  | .memPmGo .. =>
    [.reply, .regs, .win, .cores, .vlog, .slog, .ifr]
  | .fence .. =>
    [.regs, .map, .handovers, .rots, .cores, .crema, .fenceRecs]
  | .poolReturn .. =>
    [.reply, .regs, .win, .pools, .vlog, .slog, .ifr]
  | .alloc .. | .mapRemote .. =>
    [.reply, .regs, .dev, .regions, .slog, .nextTable, .lost]
  | .scrub .. =>
    [.regs, .cores, .dev, .rasWin, .rasBins, .rasCool, .escal]
  | .xltInvInstance .. | .xltInvRange .. | .xltInvAll .. =>
    [.reply, .regs, .win, .inval, .vlog, .slog, .ifr]
  | .toDev .. | .toHost .. =>
    [.regs, .dma, .slog, .rasWin, .rasBins, .rasCool, .escal]
  | .xclkLost .. =>
    [.regs, .tdi, .ide, .lnk, .cells, .msix, .msixOut]
  | .cglSwap .. =>
    [.reply, .regs, .win, .vlog, .slog, .ifr, .cgl]
  | .cglLcGrpWrite .. =>
    [.reply, .regs, .win, .vlog, .slog, .ifr, .grpPend]
  | .fabricReply .. =>
    [.regs, .win, .cores, .vlog, .ifr, .fab, .lnk]
  | .deactivate .. =>
    [.reply, .regs, .win, .vlog, .glog, .ifr, .cells]
  | .tmGateStop .. =>
    [.reply, .regs, .win, .vlog, .glog, .ifr, .tm]
  | .fhPortCmdEnable .. | .fhPortCmdDisable .. =>
    [.reply, .regs, .win, .vlog, .glog, .slog, .ifr]
  | .imgCheck .. | .imgActivate .. | .imgConfirm .. | .psRestart .. =>
    [.reply, .regs, .win, .vlog, .slog, .ifr, .boot]
  | .fatalError .. =>
    [.regs, .cores, .dma, .hostOut, .mbx, .notices, .fatalAt]
  | .pwrDomOff .. | .pwrDomOn .. =>
    [.reply, .regs, .win, .vlog, .slog, .ifr, .rampWait]
  | .domainDrainEnd .. =>
    [.regs, .cores, .dev, .lnk, .fec, .cells, .lost]
  | .taskAccept .. =>
    [.reply, .regs, .win, .cores, .vlog, .glog, .slog, .ifr]
  | .spareClearLoadEnd .. =>
    [.regs, .handovers, .cores, .dev, .rasWin, .rasBins, .rasCool, .escal]
  | .enable .. | .retrain .. | .unretire .. =>
    [.reply, .regs, .win, .vlog, .glog, .slog, .ifr, .lnk]
  | .codeBlockEnd .. =>
    [.regs, .cores, .dev, .rasWin, .rasBins, .rasCool, .escal, .fec]
  | .activate .. =>
    [.reply, .regs, .win, .vlog, .glog, .slog, .ifr, .cells]
  | .tmGateSwap .. =>
    [.reply, .regs, .win, .vlog, .glog, .slog, .ifr, .tm]
  | .mbxEpSend .. =>
    [.reply, .regs, .win, .vlog, .slog, .ifr, .mbx, .notices]
  | .rstNRelease .. =>
    [.regs, .failed, .map, .fenceRecs, .laneRecs, .bank0, .bank1, .boot]
  | .keyGenerate .. | .keyDestroy .. =>
    [.free, .reply, .regs, .win, .vlog, .slog, .ifr, .lost]
  | .timeMarker .. =>
    [.regs, .cores, .dev, .cnt, .rasWin, .rasBins, .rasCool, .escal, .islCopy]
  | .inboxSlotFree .. =>
    [.regs, .cores, .dev, .rasWin, .rasBins, .rasCool, .escal, .fab, .lost]
  | .swapCommand .. =>
    [.reply, .regs, .win, .vlog, .glog, .slog, .ifr, .fab, .lnk]
  | .flashProgramDone .. =>
    [.free, .reply, .regs, .slog, .fuses, .flash, .bank0, .bank1, .boot]
  | .meMma .. | .meDrain .. | .vmov .. | .vperm .. | .vadd .. | .vsub .. | .cmul .. | .cfma .. | .cfms .. |
  .cmac .. | .cmaci .. | .accrd .. | .bfly .. | .rmul .. | .rfma .. | .vmax .. | .vmin .. | .vsum .. | .vexp .. |
  .vrcp .. | .vrsq .. | .cvt .. | .cvtn .. | .rpt .. | .loop .. | .seta .. | .seto .. | .setl .. | .setm .. |
  .endKernel .. | .setconv .. =>
    [.regs, .win, .cores, .vlog, .slog, .ifr, .rasWin, .rasBins, .rasCool, .escal]
  | .fenceRem .. | .issueMe .. | .issueVce .. | .issueTme .. | .spawn .. | .raise .. | .waitevt .. | .cancel .. |
  .done .. =>
    [.regs, .win, .cores, .vlog, .ifr, .crema, .rasWin, .rasBins, .rasCool, .escal]
  | .blockMoveDone .. =>
    [.regs, .cores, .dev, .pools, .rasWin, .rasBins, .rasCool, .escal, .brs, .lost]
  | .disable .. =>
    [.reply, .regs, .win, .cores, .vlog, .glog, .slog, .ifr, .fab, .lnk]
  | .frameRx .. =>
    [.regs, .cores, .dev, .cnt, .rasWin, .rasBins, .rasCool, .escal, .tm, .lost]
  | .ulMapClear .. =>
    [.regs, .cores, .dev, .cnt, .rasWin, .rasBins, .rasCool, .escal, .cells, .lost]
  | .mbxRecv .. =>
    [.reply, .regs, .cores, .rasWin, .rasBins, .rasCool, .escal, .mbx, .msix, .msixOut]
  | .witnessRotate .. =>
    [.regs, .rots, .cores, .dev, .cnt, .rasWin, .rasBins, .rasCool, .escal, .witAt]
  | .meLoadacc .. =>
    [.free, .regs, .win, .cores, .vlog, .slog, .ifr, .rasWin, .rasBins, .rasCool, .escal]
  | .rasCoreFence .. =>
    [.reply, .regs, .win, .map, .handovers, .rots, .cores, .vlog, .ifr, .crema, .fenceRecs]
  | .mbxEpRecv .. | .mbxMcRecv .. =>
    [.reply, .regs, .cores, .rasWin, .rasBins, .rasCool, .escal, .mbx, .epPtr, .msix, .msixOut]
  | .completionQueueRead .. =>
    [.reply, .regs, .win, .cores, .vlog, .ifr, .crema, .rasWin, .rasBins, .rasCool, .escal]
  | .free .. =>
    [.free, .reply, .regs, .dev, .regions, .tlb, .wcache, .walks, .slog, .nextTable, .lost, .parts]
  | .fabXiNext .. =>
    [.reply, .regs, .win, .cores, .dev, .vlog, .ifr, .rasWin, .rasBins, .rasCool, .escal, .fab, .lost]
  | .codeBlockStart .. =>
    [.regs, .win, .cores, .dev, .vlog, .slog, .ifr, .rasWin, .rasBins, .rasCool, .escal, .fec, .lost]
  | .egressComplete .. =>
    [.regs, .win, .cores, .dev, .vlog, .slog, .ifr, .rasWin, .rasBins, .rasCool, .escal, .tm, .lost]
  | .progReg .. =>
    [.reply, .regs, .win, .cores, .dev, .vlog, .slog, .ifr, .rasWin, .rasBins, .rasCool, .escal, .progImages]
  | .imgWrite .. =>
    [.reply, .regs, .win, .cores, .dev, .vlog, .slog, .ifr, .rasWin, .rasBins, .rasCool, .escal, .boot]
  | .escalation .. =>
    [.regs, .map, .handovers, .rots, .cores, .crema, .rasWin, .rasBins, .rasCool, .escal, .fenceRecs, .retiredQ,
    .repairs]
  | .rasFence .. | .rasRemoveFenceRecord .. | .rasRotate .. | .rasSoftRowRepair .. =>
    [.reply, .regs, .win, .map, .handovers, .rots, .cores, .vlog, .slog, .ifr, .crema, .fenceRecs, .repairs]
  | .tableWalkDone .. =>
    [.regs, .cores, .dev, .pools, .tlb, .wcache, .walks, .walkFaults, .rasWin, .rasBins, .rasCool, .escal, .fab,
    .lnk]
  | .querySeq .. | .outDone .. =>
    [.reply, .regs, .win, .cores, .vlog, .slog, .ifr, .rasWin, .rasBins, .rasCool, .escal, .mbx, .msix, .msixOut]
  | .ldRequest .. | .stRequest .. | .swap .. | .cas .. | .faddI64 .. | .addI64 .. | .addRec .. | .addF32 .. |
  .dispatch .. | .combine .. | .epochNote .. =>
    [.regs, .cores, .dev, .vlog, .glog, .slog, .crema, .rasWin, .rasBins, .rasCool, .escal, .fab, .lnk, .lost]
  | .fecJobComplete .. =>
    [.free, .regs, .win, .cores, .dev, .vlog, .slog, .ifr, .rasWin, .rasBins, .rasCool, .escal, .fec, .lost]
  | .fecDeadline .. =>
    [.regs, .win, .cores, .dev, .vlog, .slog, .ifr, .cnt, .rasWin, .rasBins, .rasCool, .escal, .fec, .lost]
  | .bar2Read .. =>
    [.reply, .regs, .win, .cores, .vlog, .glog, .ifr, .rasWin, .rasBins, .rasCool, .escal, .mbx, .msix, .msixOut]
  | .grpDestroy .. | .grpHold .. | .admitSeq .. | .cancelSeq .. | .setClass .. | .migrate .. =>
    [.reply, .regs, .win, .cores, .vlog, .slog, .ifr, .rasWin, .rasBins, .rasCool, .escal, .brs, .mbx, .msix,
    .msixOut]
  | .ldpcDec .. | .ldpcEnc .. | .polarDec .. | .polarEnc .. | .fecQctlCancel .. | .fecQctlReset .. =>
    [.reply, .regs, .win, .cores, .dev, .vlog, .glog, .slog, .ifr, .rasWin, .rasBins, .rasCool, .escal, .fec, .lost]
  | .uplane .. | .cplane .. | .raw .. | .tmEnqCtlReset .. =>
    [.reply, .regs, .win, .cores, .dev, .vlog, .glog, .slog, .ifr, .rasWin, .rasBins, .rasCool, .escal, .tm, .lost]
  | .programLoadEnd .. =>
    [.regs, .win, .cores, .dev, .tlb, .wcache, .walks, .walkFaults, .vlog, .glog, .ifr, .crema, .rasWin, .rasBins,
    .rasCool, .escal]
  | .tmeRunAheadRead .. =>
    [.regs, .cores, .dev, .pools, .tlb, .wcache, .walks, .walkFaults, .glog, .crema, .rasWin, .rasBins, .rasCool,
    .escal, .fab, .lnk]
  | .cglBoundary .. | .cglSwapApply .. =>
    [.regs, .map, .handovers, .rots, .cores, .cnt, .crema, .rasWin, .rasBins, .rasCool, .escal, .fenceRecs, .cgl,
    .guards, .grpPend, .testing]
  | .outputRoomWaitEnd .. =>
    [.regs, .win, .cores, .dev, .pools, .vlog, .glog, .slog, .ifr, .rasWin, .rasBins, .rasCool, .escal, .epochs,
    .brs, .lost]
  | .bulk .. =>
    [.regs, .win, .cores, .dev, .vlog, .glog, .slog, .ifr, .crema, .rasWin, .rasBins, .rasCool, .escal, .fab, .lnk,
    .lost]
  | .cremaCommandDone .. =>
    [.reply, .regs, .win, .cores, .dev, .vlog, .glog, .slog, .ifr, .crema, .cremaJobs, .rasWin, .rasBins, .rasCool,
    .escal, .lost]
  | .fabXiDone .. =>
    [.free, .reply, .regs, .win, .cores, .dev, .pools, .vlog, .slog, .ifr, .rasWin, .rasBins, .rasCool, .escal, .fab,
    .lnk, .lost]
  | .instanceResetEnd .. =>
    [.free, .regs, .win, .dev, .regions, .pools, .tlb, .wcache, .walks, .tdi, .nextTable, .mbx, .notices, .msix,
    .lost, .parts, .dying]
  | .ld .. | .st .. | .atom .. =>
    [.regs, .win, .cores, .dev, .pools, .tlb, .wcache, .walks, .walkFaults, .vlog, .ifr, .crema, .rasWin, .rasBins,
    .rasCool, .escal, .fab, .lnk]
  | .grpCreate .. =>
    [.reply, .regs, .win, .cores, .dev, .regions, .vlog, .slog, .ifr, .rasWin, .rasBins, .rasCool, .escal,
    .nextTable, .brs, .mbx, .msix, .msixOut, .lost]
  | .remoteReply .. | .storeAck .. | .gwComplete .. =>
    [.regs, .win, .cores, .dev, .pools, .tlb, .wcache, .walks, .walkFaults, .vlog, .glog, .ifr, .crema, .rasWin,
    .rasBins, .rasCool, .escal, .fab, .lnk, .lost]
  | .tmeTransferDone .. | .get .. | .put .. =>
    [.regs, .win, .cores, .dev, .pools, .tlb, .wcache, .walks, .walkFaults, .vlog, .glog, .slog, .ifr, .crema,
    .rasWin, .rasBins, .rasCool, .escal, .fab, .lnk, .lost]
  | .dispatchRingRead .. =>
    [.regs, .win, .cores, .dev, .pools, .tlb, .wcache, .walks, .walkFaults, .vlog, .glog, .slog, .ifr, .crema,
    .rasWin, .rasBins, .rasCool, .escal, .fab, .brs, .lnk]
  | .dmaPieceDone .. =>
    [.regs, .win, .cores, .dev, .pools, .tlb, .wcache, .walks, .walkFaults, .dma, .vlog, .glog, .ifr, .crema,
    .rasWin, .rasBins, .rasCool, .escal, .fab, .hostOut, .lnk, .lost]
  | .stepCommit .. =>
    [.free, .reply, .regs, .win, .map, .handovers, .lateSteps, .rots, .cores, .dev, .regions, .pools, .tlb, .wcache,
    .walks, .vlog, .glog, .slog, .ifr, .rasWin, .rasBins, .rasCool, .escal, .fab, .epochs, .nextTable, .brs, .lnk,
    .mbx, .lost, .parts, .testing]
  | .mbxInstReset .. =>
    [.free, .regs, .win, .cores, .dev, .regions, .pools, .tlb, .wcache, .walks, .dma, .vlog, .slog, .ifr, .crema,
    .cremaJobs, .tdi, .rasWin, .rasBins, .rasCool, .escal, .fab, .epochs, .nextTable, .brs, .fec, .tm, .mbx,
    .notices, .lost, .parts, .dying]
  | .create .. | .reset .. | .reclaim .. | .partCancel .. | .assign .. | .recover .. | .destroy .. | .instCreate .. |
  .instReset .. | .instDestroy .. | .partCmd .. =>
    [.free, .reply, .regs, .win, .cores, .dev, .regions, .pools, .tlb, .wcache, .walks, .dma, .vlog, .slog, .ifr,
    .crema, .cremaJobs, .tdi, .rasWin, .rasBins, .rasCool, .escal, .fab, .epochs, .nextTable, .brs, .fec, .tm, .mbx,
    .notices, .lost, .parts, .dying]
  | .teardown .. =>
    [.free, .regs, .win, .cores, .dev, .regions, .pools, .tlb, .wcache, .walks, .dma, .vlog, .slog, .ifr, .cnt,
    .crema, .cremaJobs, .tdi, .rasWin, .rasBins, .rasCool, .escal, .fab, .epochs, .nextTable, .brs, .fec, .tm, .mbx,
    .notices, .lost, .parts, .dying]
  | .functionLevelReset .. =>
    [.free, .regs, .win, .cores, .dev, .regions, .pools, .tlb, .wcache, .walks, .dma, .vlog, .slog, .ifr, .crema,
    .cremaJobs, .tdi, .rasWin, .rasBins, .rasCool, .escal, .fab, .epochs, .nextTable, .brs, .fec, .tm, .mbx,
    .notices, .msix, .lost, .parts, .dying]
  | .registerWrite .. =>
    [.free, .reply, .regs, .win, .map, .handovers, .rots, .cores, .dev, .regions, .pools, .tlb, .wcache, .walks,
    .inval, .dma, .vlog, .glog, .slog, .ifr, .crema, .cremaJobs, .tdi, .rasWin, .rasBins, .rasCool, .escal, .fab,
    .fenceRecs, .epochs, .nextTable, .cgl, .brs, .lnk, .grpPend, .fec, .cells, .maskRun, .tm, .mbx, .notices, .lost,
    .parts, .dying, .rampWait, .repairs]
  | .imageVerified .. =>
    [.free, .reply, .regs, .win, .map, .handovers, .rots, .cores, .dev, .regions, .pools, .tlb, .wcache, .walks,
    .inval, .dma, .vlog, .glog, .slog, .ifr, .crema, .cremaJobs, .tdi, .rasWin, .rasBins, .rasCool, .escal, .fab,
    .fenceRecs, .epochs, .nextTable, .cgl, .brs, .lnk, .grpPend, .fec, .cells, .maskRun, .tm, .mbx, .notices, .lost,
    .parts, .dying, .rampWait, .repairs, .boot]
  | .rstNAssert .. | .secRcvReset .. | .fatalAutoReset .. | .bar0Write .. | .powerRemoval .. =>
    allFields

/-! ### When a command runs -/

/-- The head of a context's ME queue is taken by a command of opcode op: the context owns the core, the engine is enabled, a
completion entry is free, the head is of the queue's generation, every check of Table 3.4 passes, and no accepted descriptor still
writes its rows (R77 to R79). -/
structure MeHead (s : State) (u : CtxAt) (op : Nat) (i : CItem) (q : Carafe) : Prop where
  owns : s.owns u.core.val u.ctx = true
  en : s.fld (ME_CTRL u.core.val) 0 1 ≠ 0
  room : (s.meCtx u.core.val u.ctx).dq.canAccept = true
  head : (s.meCtx u.core.val u.ctx).dq.q.pop = some (i, q)
  opc : (MeDesc.ofNat i.data).op = op
  gen : (MeDesc.ofNat i.data).gen = (s.meCtx u.core.val u.ctx).dq.gen
  pass : (MeDesc.ofNat i.data).check i.data i.poison u.ctx (s.meCtx u.core.val u.ctx) (s.ctx u.core.val u.ctx).tme = none
  free : (s.meCtx u.core.val u.ctx).hazard (MeDesc.ofNat i.data) = false

/-- The record of the descriptor that an ME command takes. -/
def meJob (s : State) (u : CtxAt) (i : CItem) : MeJob :=
  { id := (s.meCtx u.core.val u.ctx).nextId, desc := i.data,
    ramp := decide ((s.core u.core.val).tampLevel < 8) && (MeDesc.ofNat i.data).op == 1 }

/-- The state in which an ME command has taken item i from its queue, of which q is left: a completion entry reserved, the record
among those accepted, the active-descriptor window written. -/
def meTaken (s : State) (u : CtxAt) (i : CItem) (q : Carafe) : State :=
  let c := s.meCtx u.core.val u.ctx
  (s.setMe u.core.val u.ctx { c with dq := { c.dq with q := q, reserved := c.dq.reserved + 1 }, nextId := c.nextId + 1,
                                     jobs := c.jobs ++ [meJob s u i] }).setActDesc u.core.val u.ctx i.data

/-- A thread issues the instruction at its program word: its context owns the core, it is ACTIVE, no program load holds the fetch, no
fault waits for it, the word lies in its context's program region and reads without an error (R102, R113, R114, R117, R120). -/
structure ThreadIssues (s : State) (th : ThreadAt) : Prop where
  owns : s.owns th.core.val th.ctx = true
  active : (s.thread th.core.val th.ctx th.t.val).st = .active
  noLoad : (s.core th.core.val).load = none
  noFault : (s.thread th.core.val th.ctx th.t.val).fault = none
  inProg : inProgram th.ctx th.pc.toNat = true
  fetch : th.fetch = .none
  unmarked : s.pmMarked th.core.val th.pc.toNat = false
  parity : th.parity = false

/-- No word that n bytes of a core's scratch touch holds bit errors or the poison syndrome (R152, R153). -/
def scrClean (s : State) (pc off n : Nat) : Prop :=
  s.scrPoison pc off n = false ∧ (s.core pc).scr.readMarks 8 off n false = []

/-- The state in which a thread has issued the instruction at its program word. -/
def issued (s : State) (th : ThreadAt) : State :=
  s.setThread th.core.val th.ctx th.t.val { s.thread th.core.val th.ctx th.t.val with pc := th.pc.toNat + 1 }

/-- The kernel of a context of a VCE issues word w, of opcode op (R134, R139, R145, R147): it is running and may issue, its word lies in
the program region and reads without an error, and no bit of the word is reserved. -/
structure VceIssues (s : State) (u : VceAt) (op : Nat) (w : VWord) : Prop where
  may : s.vceMayIssue u.core.val u.v.val u.ctx = true
  inProg : inProgram u.ctx (s.vce u.core.val u.v.val u.ctx).pc = true
  word : VWord.ofNat (Tbl.get 0 (s.core u.core.val).pm (s.vce u.core.val u.v.val u.ctx).pc) = w
  opc : w.op = op
  rsvd : w.rsvd = 0
  form : vceFpOnly w.op = false ∨ w.fp = true
  fetch : u.fetch = .none
  unmarked : s.pmMarked u.core.val (s.vce u.core.val u.v.val u.ctx).pc = false

/-- The state in which a kernel's instruction has been issued: it has been counted. -/
def vceIssued (s : State) (u : VceAt) : State := s.bump64 (vceInstrReg u.core.val u.v.val u.ctx) 1

/-- The values of an instruction's source operands. -/
def vceSources (s : State) (u : VceAt) (w : VWord) : List VVal :=
  w.srcs.map (fun o => s.vceRead u.core.val (s.vce u.core.val u.v.val u.ctx) o)

/-- An instruction with vector operands runs: it is issued, its operands pass the checks of Table 5.5, and its result is r. -/
structure VceRuns (s : State) (u : VceAt) (op : Nat) (w : VWord) (r : VRes) : Prop where
  issues : VceIssues s u op w
  operands : (s.vce u.core.val u.v.val u.ctx).checkOperands u.ctx w.operands = none
  result : w.compute (s.vce u.core.val u.v.val u.ctx) (vceSources s u w) = some r

/-- The state after an instruction with vector operands whose result is r: its destinations written, the address registers it names
post-modified, its flags noted on the kernel, the kernel at its next word. -/
def vceRan (s : State) (u : VceAt) (w : VWord) (r : VRes) : State := (vceIssued s u).vceResult u w (vceSources s u w) r

/-- The head of a context's TME queue is taken by a command of opcode op: the context owns the core, the engine is enabled, a
completion entry is free, the context may accept one more (R172), the head is of the queue's generation and passes every check (R165 to
R167). -/
structure TmeHead (s : State) (u : CtxAt) (op : Nat) (i : CItem) (q : Carafe) : Prop where
  owns : s.owns u.core.val u.ctx = true
  en : s.fld (TME_CTRL u.core.val) 0 1 ≠ 0
  room : (s.tme u.core.val u.ctx).dq.canAccept = true
  depth : (s.tme u.core.val u.ctx).jobs.length ≤ s.raDepth u.core.val u.ctx
  head : (s.tme u.core.val u.ctx).dq.q.pop = some (i, q)
  opc : (TmeDesc.ofNat i.data).op = op
  gen : (TmeDesc.ofNat i.data).gen = (s.tme u.core.val u.ctx).dq.gen
  pass : (TmeDesc.ofNat i.data).check i.data i.poison u.ctx = none

/-- The state in which a TME command has taken item i from its queue, of which q is left. -/
def tmeTaken (s : State) (u : CtxAt) (i : CItem) (q : Carafe) : State :=
  let t := s.tme u.core.val u.ctx
  s.setTme u.core.val u.ctx { t with dq := { t.dq with q := q, reserved := t.dq.reserved + 1 }, jobs := t.jobs ++ [{ desc := i.data }] }

/-- Barista takes a packet of command code, with tag and payload d and without poison, from the head of instance i's channel; s1 is the
state it leaves (R263, R417). -/
structure BrsHead (s : State) (i code tag d : Nat) (s1 : State) : Prop where
  first : ∃ k it, (s.chan i 1).q.peek = some (k, it) ∧ bits it.data 0 8 = code
  take : s.brsTake i code false = (some (tag, d, false), s1)

/-- The sequence that handle (q, gen) names is instance i's, and Barista is enabled (R261). -/
structure BrsSeq (s : State) (i q gen : Nat) : Prop where
  en : s.fld BRS_CTRL 0 1 ≠ 0
  used : (s.brsEnt q).state ≠ 0
  same : (s.brsEnt q).gen = gen
  mine : (s.brsEnt q).inst = i

/-- Group g is in use and instance i's, and Barista is enabled. -/
structure BrsOwn (s : State) (i g : Nat) : Prop where
  en : s.fld BRS_CTRL 0 1 ≠ 0
  used : s.grpState g ≠ 0
  mine : s.grpInst g = i


/-- A port delivers a request of opcode op next: v, its header and payload as one number, without poison; it names this card and passes
rows 3 to 7 of Table 11.1 (R288). s2 is the state in which it has been taken and counted. -/
structure FabHead (s : State) (p op v : Nat) (s2 : State) : Prop where
  taken : ∃ n rest, (s.port p).got = (v, n, false) :: rest ∧
    s2 = (s.setPort p { s.port p with got := rest }).bump64 FAB_RX_REQ_CNT 1
  opc : bits v 0 8 = op
  mine : (ReqHdr.ofNat (bits v 0 256)).card = s2.ownCard
  pass : s2.inboundStops (ReqHdr.ofNat (bits v 0 256)) = none

/-- Reply a goes back for request v: to the sender's card, in the request's class. -/
def fabAnswered (s : State) (v : Nat) (a : Served) : State :=
  let h := ReqHdr.ofNat (bits v 0 256)
  s.sendTo h.srcCard (h.addr >>> 12) h.tc (s.replyBits h a) (16 + a.len) a.bad

/-- A partition command runs: the management cores write it, none is under way, the partition generation it names, if any, is the current
one, and its partition is in one of the states that Table 15.4 allows (R403). -/
structure PrtRuns (s : State) (c : PrtCmd) (states : List Nat) : Prop where
  mc : c.wr = .mc
  idle : s.fld PRT_CMD_STATUS 0 1 = 0
  gen : ∀ g, c.pgen = some g → g.toNat = s.pgen c.part.val
  state : s.partState c.part.val ∈ states

/-- An image command runs: its sender is an operator's instance in RUN, and no other is under way (R439). -/
structure ImgRuns (s : State) (i : Nat) : Prop where
  run : s.instState i = 1
  operator : s.fld (PRT_INST i) 18 1 ≠ 0
  idle : s.fld SEC_IMG_STAT 0 1 ≠ 1

/-- A request runs inside an established SPDM session of a function that answers (R452). -/
structure InSpdm (s : State) (f : FnAt) (sess : Nat) (est : Bool) : Prop where
  answers : s.fnAnswers f = true
  algs : (s.spdmOf f).algs = true
  session : (sess, est) ∈ (s.spdmOf f).sess

end Sys2Proof.Safety
end

