-- ==== Sys2Proof/Certificates/Slice0/Obligations.lean ====
section
/-!
DEFINITION. Certificates/Slice0/Obligations.lean: the statements for the provers. Each docstring names the rules its clauses follow; what
is the model's own choice is named as such.
-/
section

open Sys2Proof Sys2Proof.Machine Sys2Proof.Safety

/-- A step takes the command at the front of the queue and is exec of it on the state whose queue is the rest. On an empty queue one tick
of the time clock passes, which changes the counter and nothing else (the model's choice, log entry 2). -/
def Obligations.StepRunsTheFrontCommand : Prop :=
  (∀ (c : Instr) (rest : List Instr) (s : State), step { s with pending := c :: rest } = exec c { s with pending := rest }) ∧
  (∀ s : State, s.pending = [] → ∃ t, step s = .next t ∧ t.cnt = (s.cnt + 1) % 2 ^ 64 ∧ t.pending = [] ∧ SameBut [.cnt] s t)

/-- From every state that meets the invariant every step goes on, to a state that meets it; the device ID and the grade stay, the svn does
not fall, and of the queue the front command is gone and the rest is as it was. -/
def Obligations.EveryStepGoesOnAndKeepsTheInvariant : Prop :=
  ∀ s : State, Inv s → QueueWf s →
    ∃ t, step s = .next t ∧ Inv t ∧ Later s t ∧ t.pending = s.pending.tail ∧ QueueWf t

/-- The state after reset meets the invariant, has no command waiting, and each of its registers reads its reset value; the assertion of
RST_N gives every register its reset value but those that show the fuse block, leaves no work on any core, and keeps the fuses. -/
def Obligations.ResetMeetsTheInvariant : Prop :=
  Inv State.reset ∧ QueueWf State.reset ∧ State.reset.pending = [] ∧ (∀ a, State.reset.reg a = regReset a) ∧
  (∀ s : State, ∃ t, exec .rstNAssert s = .next t ∧ t.cores = [] ∧ t.regions = [] ∧ t.fuses = s.fuses ∧ t.grade = s.grade ∧
    (∀ a, a ∉ [SEC_UID, LNK_SELF_ID, SEC_FUSE_KEYS, SEC_FUSE_MISC] → (∀ r ∈ s.fuses.repairs, a ≠ ME_REPAIR r.1) → t.reg a = regReset a))

/-- Every command goes on, and changes of the state only the parts that mayChange names for it; the queue behind it is as it was. -/
def Obligations.CommandsChangeOnlyTheirParts : Prop :=
  ∀ (c : Instr) (s : State), ∃ t, exec c s = .next t ∧ t.pending = s.pending ∧ SameBut (mayChange c) s t

/-- R7: a store of n bytes to HBM, to the Silo or to cluster SRAM, where no word that it covers in part is poisoned, is read back as it was
written; every other byte of the device reads as before; nothing else of the state changes. A store to a core's scratch is read back
likewise. -/
def Obligations.MemoryReadsBackWhatWasStored : Prop :=
  (∀ (s : State) (a n v : Nat), s.devOk a n = true → (∀ lc off, s.tierOf a ≠ .scratch lc off) → s.devStorePoisoned a n = false →
    ((s.devStore a n v).devLoad a n).1 = v % 256 ^ n ∧
    (∀ b, b < a ∨ a + n ≤ b → ((s.devStore a n v).devLoad b 1).1 = (s.devLoad b 1).1) ∧ SameBut [.dev, .lost] s (s.devStore a n v)) ∧
  (∀ (s : State) (p a n v : Nat), (s.core p).scr.writePoisoned 8 a n = false →
    (s.scrStore p a n v).scrLoad p a n = v % 256 ^ n ∧
    (∀ b, b < a ∨ a + n ≤ b → (s.scrStore p a n v).scrLoad p b 1 = s.scrLoad p b 1) ∧
    (∀ q b, q ≠ p → (s.scrStore p a n v).scrLoad q b 1 = s.scrLoad q b 1) ∧ SameBut [.cores] s (s.scrStore p a n v))

/-- R58, R60: a term of an anchored accumulator becomes the integer floor(t × 2^−A + 0.5), which is added into the 128-bit sum unless it
is an overflow term, which sets its marker; a zero term gives 0; each term counts, and the counts of two records add, with saturation. The record that a list of terms
gives does not depend on the order of the terms. -/
def Obligations.AnchoredSumsAreOnTheGridAndOrderFree : Prop :=
  (∀ (r : Rec) (neg : Bool) (m : Nat) (e : Int) (g : Int),
    g = ⌊(if neg then -1 else 1 : ℚ) * m * 2 ^ (e - r.anchor) + 1 / 2⌋ →
    (m = 0 → g = 0) ∧
    (|g| < 2 ^ 96 → r.sum < 2 ^ 128 → (r.addTerm (.fin neg m e)).sum < 2 ^ 128 ∧
      ((r.addTerm (.fin neg m e)).sum : Int) = ((r.sum : Int) + g) % 2 ^ 128 ∧
      (r.addTerm (.fin neg m e)).posOvf = r.posOvf ∧ (r.addTerm (.fin neg m e)).negOvf = r.negOvf) ∧
    (2 ^ 96 ≤ |g| → (r.addTerm (.fin neg m e)).sum = r.sum ∧ (r.addTerm (.fin neg m e)).posOvf = (r.posOvf || decide (0 < g)) ∧
      (r.addTerm (.fin neg m e)).negOvf = (r.negOvf || decide (g < 0)))) ∧
  (∀ (r : Rec) (t : Machine.Num), (r.addTerm t).count = min (r.count + 1) (2 ^ 32 - 1)) ∧
  (∀ r k : Rec, r.nan = false → k.nan = false → r.anchor = k.anchor → (r.combine k).1.count = min (r.count + k.count) (2 ^ 32 - 1)) ∧
  (∀ (r : Rec) (l k : List Machine.Num), l.Perm k → l.foldl Rec.addTerm r = k.foldl Rec.addTerm r)

/-- R51: compression of the 24 components of a block at width w takes the smallest exponent, from 0 to 15, at which every component rounded
half up fits; where none does, 15, and each component saturates. -/
def Obligations.CompressionTakesTheSmallestExponent : Prop :=
  ∀ (w : Nat) (xs : List Int), 0 < w →
    let fits : Nat → Prop := fun e => ∀ x ∈ xs, -2 ^ (w - 1) ≤ ⌊(x : ℚ) / 2 ^ e + 1 / 2⌋ ∧ ⌊(x : ℚ) / 2 ^ e + 1 / 2⌋ ≤ 2 ^ (w - 1) - 1
    (∀ e < 16, fits e → (∀ d < e, ¬ fits d) → (bfpCompress w xs).1 = e ∧
      (bfpCompress w xs).2.map (toSigned w) = xs.map (fun x => ⌊(x : ℚ) / 2 ^ e + 1 / 2⌋)) ∧
    ((∀ e < 16, ¬ fits e) → (bfpCompress w xs).1 = 15 ∧
      (bfpCompress w xs).2.map (toSigned w) =
        xs.map (fun x => max (-2 ^ (w - 1)) (min (2 ^ (w - 1) - 1) ⌊(x : ℚ) / 2 ^ 15 + 1 / 2⌋)))

/-- R17: the spare the hub chooses is an unassigned spare of the fenced core's own die; one of the core's own cluster where the cluster holds
one; else the lowest-numbered of the die. Where the die holds none, there is no choice. -/
def Obligations.ASpareIsOfTheSameDie : Prop :=
  ∀ (s : State) (p : Nat), p < 512 →
    (∀ q, s.chooseSpare p = some q → q ∈ s.spares (p / 128) ∧ q / 128 = p / 128 ∧ s.lcOf q = 0x1FF ∧
      ((∃ r ∈ s.spares (p / 128), clusterOf r = clusterOf p) → clusterOf q = clusterOf p) ∧
      ((∀ r ∈ s.spares (p / 128), clusterOf r ≠ clusterOf p) → ∀ r ∈ s.spares (p / 128), q ≤ r)) ∧
    (s.chooseSpare p = none ↔ s.spares (p / 128) = [])

/-- R98: clearing ME_CTRL.en while either context is not IDLE is refused with STATE, and the field keeps its value; while en = 0 the commands
that would accept a descriptor change nothing: descriptors stay queued. -/
def Obligations.ADisabledMatrixEngineAcceptsNothing : Prop :=
  (∀ (s : State) (core : Fin 512), (s.meCtx core.val .timed).jobs ≠ [] ∨ (s.meCtx core.val .elastic).jobs ≠ [] →
    ∃ t, exec (.meCtrlWrite core false) s = .next t ∧ t.reply.code = stState ∧
      t.fld (ME_CTRL core.val) 0 1 = s.fld (ME_CTRL core.val) 0 1 ∧ t.cores = s.cores) ∧
  (∀ (s : State) (u : CtxAt) (err : MeErr), s.fld (ME_CTRL u.core.val) 0 1 = 0 →
    exec (.meMma u err) s = .next s ∧ exec (.meDrain u) s = .next s ∧ exec (.meLoadacc u) s = .next s ∧ exec (.meClear u) s = .next s)

/-- R437: an image whose svn is below the fuse svn is not run: its slot fails, at step 4 where its header and its signatures pass, else at
the step of the earlier failure; the fuse svn, from 0 to 64, never falls. -/
def Obligations.AnImageBelowTheFuseSvnFails : Prop :=
  (∀ (s : State) (k : Nat) (trial second : Bool), s.boot.phase = .rom k trial second → s.imgSvn k < s.fuses.svn →
    ∃ t, exec .imageVerified s = .next t ∧ t.boot.phase ≠ .run ∧ (t.fld SEC_BOOT_STAT 3 3 = 1 ∨ t.fld SEC_BOOT_STAT 3 3 = 2 ∨
      t.fld SEC_BOOT_STAT 3 3 = 3 ∨ t.fld SEC_BOOT_STAT 3 3 = 4) ∧
      (s.headerBad k = false → s.signBad k = 0 → t.fld SEC_BOOT_STAT 3 3 = 4)) ∧
  (∀ (c : Instr) (s t : State), exec c s = .next t → s.fuses.svn ≤ t.fuses.svn ∧ (Inv s → t.fuses.svn ≤ 64))

/-- R504: a read of a virtual function's BAR0 returns all ones and is counted; a write of its BAR2 is discarded and counted. Nothing else
changes, and no violation is logged. -/
def Obligations.ReadsOfBar0AndWritesOfBar2AreCounted : Prop :=
  ∀ (s : State) (h : Fin 4), s.fld (PRT_HPORT_STAT h.val) 0 1 ≠ 0 →
    (∃ t, exec (.badBarAccess h false) s = .next t ∧ t.reply.data = [2 ^ 64 - 1] ∧
      t.fld (PRT_HPORT_BADACC h.val) 0 32 = min (s.fld (PRT_HPORT_BADACC h.val) 0 32 + 1) (2 ^ 32 - 1) ∧
      (∀ a, a ≠ PRT_HPORT_BADACC h.val → t.reg a = s.reg a) ∧ SameBut [.regs, .reply] s t) ∧
    (∃ t, exec (.badBarAccess h true) s = .next t ∧
      t.fld (PRT_HPORT_BADACC h.val) 0 32 = min (s.fld (PRT_HPORT_BADACC h.val) 0 32 + 1) (2 ^ 32 - 1) ∧
      (∀ a, a ≠ PRT_HPORT_BADACC h.val → t.reg a = s.reg a) ∧ SameBut [.regs] s t)

/-- R233, R234, R403, R426, R454, R485, R497, R514: a command of a register that only the management cores may write, sent by a host
instance, has no effect but the violation: its answer is FAULT_ACCESS with cause PRIVILEGE. -/
def Obligations.HostsMayNotCommandTheHub : Prop :=
  ∀ (s : State) (i : Fin 512) (c : Instr) (a : Nat),
    (c, a) ∈ [(Instr.pwrDomOff (.host i) 0 0, PWR_DOM_CMD), (.pwrDomOn (.host i) 0 0, PWR_DOM_CMD), (.pwrCapWrite (.host i) 0, PWR_CAP),
              (.pwrTimedBudgetWrite (.host i) 0, PWR_TIMED_BUDGET), (.prtModeWrite (.host i) 0, PRT_MODE),
              (.prtLcInstWrite (.host i) 0 0 0, PRT_LC_INST 0), (.keyGenerate (.host i) 1 true, SEC_KEY_CMD),
              (.keyDestroy (.host i) 1, SEC_KEY_CMD), (.secCfgLock (.host i) true, SEC_CFG_LOCK), (.rasCoreFence 0 (.host i) true, RAS_CORE_FENCE 0),
              (.timeServoOfs (.host i) 0, TIME_SERVO_OFS), (.timeStepWrite (.host i) 0, TIME_STEP), (.timeAdj (.host i) 0, TIME_ADJ),
              (.clkIslTargetWrite (.host i) 0 0, CLK_ISL 0), (.cglStop (.host i) 0, CGL_CMD 0), (.rasCardSwapArm (.host i) 0 0 0, RAS_CARD_SWAP 0)] →
    exec c s = .next (s.privilege i.val a)

/-- R69, R77 to R79, R82: when the head of a context's ME queue passes every check, the command of its opcode takes it, reserves its
completion entry and begins the operation of its opcode on the operands the descriptor names. -/
def Obligations.MatrixOperationsBegin : Prop :=
  ∀ (s : State) (u : CtxAt) (i : CItem) (q : Carafe),
    (∀ err, MeHead s u 1 i q →
      exec (.meMma u err) s = .next ((meTaken s u i q).meMma u.core.val u.ctx err (MeDesc.ofNat i.data) (meJob s u i))) ∧
    (MeHead s u 2 i q →
      exec (.meDrain u) s = .next ((meTaken s u i q).meDrainOp u.core.val u.ctx (MeDesc.ofNat i.data) (meJob s u i))) ∧
    (MeHead s u 3 i q →
      exec (.meLoadacc u) s = .next ((meTaken s u i q).meLoad u.core.val u.ctx (MeDesc.ofNat i.data) (meJob s u i))) ∧
    (MeHead s u 4 i q →
      exec (.meClear u) s = .next ((meTaken s u i q).meClear u.core.val u.ctx (MeDesc.ofNat i.data)))

/-- R71, R84, R94, R95, R97, R98: rows land in order of issue; the oldest accepted descriptor without rows in the array completes;
ME_QRESET resets the contexts it names; ME_CTRL.en changes while both contexts are IDLE; the active-descriptor window takes a word
while its context is IDLE. -/
def Obligations.MatrixRowsLandAndDescriptorsComplete : Prop :=
  ∀ (s : State) (u : CtxAt),
    (∀ err r rest, (s.meCtx u.core.val u.ctx).array = r :: rest →
      exec (.meRowReachesBank u err) s = .next (s.meRowLands u.core.val u.ctx (err == .uncorrectable) r rest)) ∧
    (∀ j rest, (s.meCtx u.core.val u.ctx).jobs = j :: rest → s.owns u.core.val u.ctx = true →
      (∀ r ∈ (s.meCtx u.core.val u.ctx).array, r.job ≠ j.id) →
      exec (.meComplete u) s = .next (s.meRetire u.core.val u.ctx j)) ∧
    (exec (.meQreset u.core true false) s = .next ((s.meReset u.core.val .timed).answer stOk)) ∧
    (exec (.meQreset u.core false true) s = .next ((s.meReset u.core.val .elastic).answer stOk)) ∧
    (exec (.meQreset u.core true true) s = .next (((s.meReset u.core.val .timed).meReset u.core.val .elastic).answer stOk)) ∧
    (∀ en, (s.meCtx u.core.val .timed).jobs = [] → (s.meCtx u.core.val .elastic).jobs = [] →
      exec (.meCtrlWrite u.core en) s = .next ((s.setFld (ME_CTRL u.core.val) 0 1 (b2n en)).answer stOk)) ∧
    (∀ w v, (s.meCtx u.core.val .timed).jobs = [] → u.ctx = .timed →
      exec (.meActDescWrite u w v) s = .next ((s.setReg (ME_ACT_DESC_T u.core.val w.val) v.toNat).answer stOk)) ∧
    (∀ w v, (s.meCtx u.core.val .elastic).jobs = [] → u.ctx = .elastic →
      exec (.meActDescWrite u w v) s = .next ((s.setReg (ME_ACT_DESC_E u.core.val w.val) v.toNat).answer stOk))

/-- R90, R91, R251: Tamp. A gated array whose row is ready starts at level 1; a step of four cycles raises the level of an array with
a row ready by one, up to 8, and lowers that of one without by one; pre-warming sets ballast. -/
def Obligations.TampMovesOneLevelAStep : Prop :=
  ∀ (s : State) (core : Fin 512),
    ((s.core core.val).tampLevel = 0 →
      exec (.tampRampStart core) s = .next (s.setCore core.val { s.core core.val with tampLevel := 1, tampCredit := 0 })) ∧
    ((s.core core.val).tampLevel = 0 → ∃ t, exec (.tampPrewarm core) s = .next t ∧
      (t.core core.val).tampLevel = 1 ∧ (t.core core.val).tampBallast = true) ∧
    ((s.core core.val).tampLevel ≠ 0 → ∃ t, exec (.tampStepEnd core true) s = .next t ∧
      (t.core core.val).tampLevel = min 8 ((s.core core.val).tampLevel + 1)) ∧
    ((s.core core.val).tampLevel ≠ 0 → (s.core core.val).tampBallast = false → ∃ t, exec (.tampStepEnd core false) s = .next t ∧
      (t.core core.val).tampLevel + 1 = (s.core core.val).tampLevel)

/-- R104, R28, R152: an SC load or store at an address below 0x400000 that lies in the context's own scratch partition reads or writes the
core's scratch. A load of words without errors changes its destination register and the thread's pc, and nothing else of the thread's
registers; x0 stays. A load that meets a tagged word ends its task with POISON, any other delivers its value; a store reads only the
words that it covers in part, and errors in them do not end the task. -/
def Obligations.ScratchLoadsAndStores : Prop :=
  ∀ (s : State) (th : ThreadAt) (addr : Word) (size : AccSize), ThreadIssues s th →
    addr.toNat < 0x400000 → inScratch th.ctx addr.toNat (accBytes size) = true →
    (∀ rd : Fin 32, scrClean s th.core.val addr.toNat (accBytes size) → ∃ t, exec (.ld th rd addr size .none) s = .next t ∧
      (rd.val ≠ 0 → (t.thread th.core.val th.ctx th.t.val).reg rd.val = s.scrLoad th.core.val addr.toNat (accBytes size) % 2 ^ 64) ∧
      (∀ r, (r = 0 ∨ r ≠ rd.val) →
        (t.thread th.core.val th.ctx th.t.val).reg r = (s.thread th.core.val th.ctx th.t.val).reg r) ∧
      (t.core th.core.val).scr = (s.core th.core.val).scr ∧ (t.thread th.core.val th.ctx th.t.val).pc = th.pc.toNat + 1 ∧
      SameBut [.cores] s t) ∧
    (∀ (rd : Fin 32) (err : MemErr) (t : State),
      (issued s th).scrRead th.core.val addr.toNat (accBytes size) err = (false, t) →
      exec (.ld th rd addr size err) s = .next (t.setThread th.core.val th.ctx th.t.val
        ((t.thread th.core.val th.ctx th.t.val).setReg rd.val (t.scrLoad th.core.val addr.toNat (accBytes size))))) ∧
    (∀ (rd : Fin 32) (err : MemErr) (t : State),
      (issued s th).scrRead th.core.val addr.toNat (accBytes size) err = (true, t) →
      exec (.ld th rd addr size err) s =
        .next (t.threadFault th.core.val th.ctx th.t.val stPoison 0 addr.toNat 0 th.pc.toNat)) ∧
    (∀ (data : Word) (err : MemErr), exec (.st th addr size data err) s =
      .next ((((issued s th).scrUpset th.core.val addr.toNat err).scrChecked th.core.val addr.toNat (accBytes size) true).scrStore
        th.core.val addr.toNat (accBytes size) data.toNat))

/-- R78, R104, R110, R112: an atomic on the context's scratch answers what stood there and stores what the operation makes of it; accesses
above scratch start as remote ones; FENCE.REM waits while stores are unacknowledged; ISSUE and SPAWN copy the descriptor's bytes
from scratch into a queue; RAISE, WAITEVT, CANCEL and DONE do what Table 4.2 says; a thread that reads a completion queue takes its next
record into a register, and the record's entry is free. -/
def Obligations.ThreadInstructionsComplete : Prop :=
  (∀ (s : State) (th : ThreadAt), ThreadIssues s th →
    (∀ (op : AtomOp) (rd : Fin 32) (addr cmp : Word) (data : BitVec 256),
      addr.toNat < 0x400000 → inScratch th.ctx addr.toNat (atomBytes op) = true →
      scrClean s th.core.val addr.toNat (atomBytes op) →
      exec (.atom th op rd addr data cmp) s =
        .next (let old := s.scrLoad th.core.val addr.toNat (atomBytes op)
          let s1 := (issued s th).scrStore th.core.val addr.toNat (atomBytes op)
            (atomApply op (atomBytes op) old data.toNat cmp.toNat).1;
          s1.setThread th.core.val th.ctx th.t.val
            ((s1.thread th.core.val th.ctx th.t.val).setReg rd.val old))) ∧
    (∀ (rd : Fin 32) (addr : Word) (size : AccSize), 0x400000 ≤ addr.toNat →
      exec (.ld th rd addr size .none) s = .next ((issued s th).startRemote th.core.val th.ctx th.t.val
        { kind := .load, addr := addr.toNat, size := accBytes size, rd := rd.val })) ∧
    (∀ (addr : Word) (size : AccSize) (data : Word), 0x400000 ≤ addr.toNat →
      (s.thread th.core.val th.ctx th.t.val).stores.length < 8 →
      exec (.st th addr size data .none) s = .next ((issued s th).postStore th.core.val th.ctx th.t.val
        { kind := .store, addr := addr.toNat, size := accBytes size, data := data.toNat % 2 ^ (8 * accBytes size) })) ∧
    (∀ (op : AtomOp) (rd : Fin 32) (addr cmp : Word) (data : BitVec 256), 0x400000 ≤ addr.toNat →
      exec (.atom th op rd addr data cmp) s = .next ((issued s th).startRemote th.core.val th.ctx th.t.val
        { kind := .atom op, addr := addr.toNat, size := atomBytes op, rd := rd.val, data := data.toNat, cmp := cmp.toNat })) ∧
    ((s.thread th.core.val th.ctx th.t.val).stores = [] → exec (.fenceRem th) s = .next (issued s th)) ∧
    ((s.thread th.core.val th.ctx th.t.val).stores ≠ [] → ∃ t, exec (.fenceRem th) s = .next t ∧
      (t.thread th.core.val th.ctx th.t.val).st = .waitRem) ∧
    (∀ (off : Word) (prio : Fin 4), inScratch th.ctx off.toNat 64 = true →
      exec (.issueMe th off prio) s = .next (((issued s th).scrChecked th.core.val off.toNat 64).pushOrHold th.core.val th.ctx th.t.val (some .me)
        { data := s.scrLoad th.core.val off.toNat 64, prio := prio.val, poison := s.scrPoison th.core.val off.toNat 64 }) ∧
      exec (.issueVce th 0 off prio) s = .next (((issued s th).scrChecked th.core.val off.toNat 64).pushOrHold th.core.val th.ctx th.t.val (some .vce0)
        { data := s.scrLoad th.core.val off.toNat 64, prio := prio.val, poison := s.scrPoison th.core.val off.toNat 64 }) ∧
      exec (.issueVce th 1 off prio) s = .next (((issued s th).scrChecked th.core.val off.toNat 64).pushOrHold th.core.val th.ctx th.t.val (some .vce1)
        { data := s.scrLoad th.core.val off.toNat 64, prio := prio.val, poison := s.scrPoison th.core.val off.toNat 64 }) ∧
      exec (.issueTme th off prio) s = .next (((issued s th).scrChecked th.core.val off.toNat 64).pushOrHold th.core.val th.ctx th.t.val (some .tme)
        { data := s.scrLoad th.core.val off.toNat 64, prio := prio.val, poison := s.scrPoison th.core.val off.toNat 64 })) ∧
    (∀ (off : Word), inScratch th.ctx off.toNat 32 = true →
      exec (.spawn th off) s = .next (((issued s th).scrChecked th.core.val off.toNat 32).pushOrHold th.core.val th.ctx th.t.val none
        { data := s.scrLoad th.core.val off.toNat 32, prio := bits (s.scrLoad th.core.val off.toNat 32) 8 2,
          poison := s.scrPoison th.core.val off.toNat 32 })) ∧
    (∀ e : BitVec 8, exec (.raise th e) s = .next ((issued s th).raiseEvt th.core.val th.ctx e.toNat)) ∧
    (∀ e : BitVec 8, Tbl.get 0 (s.ctx th.core.val th.ctx).events e.toNat ≠ 0 → ∃ t, exec (.waitevt th e) s = .next t ∧
      (t.thread th.core.val th.ctx th.t.val).st = .active ∧
      Tbl.get 0 (t.ctx th.core.val th.ctx).events e.toNat = Tbl.get 0 (s.ctx th.core.val th.ctx).events e.toNat - 1) ∧
    (∀ e : BitVec 8, Tbl.get 0 (s.ctx th.core.val th.ctx).events e.toNat = 0 → ∃ t, exec (.waitevt th e) s = .next t ∧
      (t.thread th.core.val th.ctx th.t.val).st = .waitEvt ∧ (t.thread th.core.val th.ctx th.t.val).evt = e.toNat) ∧
    (∀ tag : BitVec 16, exec (.cancel th tag) s = .next ((issued s th).cancelTag th.core.val th.ctx tag.toNat)) ∧
    (∀ st : BitVec 8, exec (.done th st) s = .next ((issued s th).endTask th.core.val th.ctx th.t.val st.toNat th.pc.toNat))) ∧
  (∀ (s : State) (th : ThreadAt) (q : ComplQ) (rd : Fin 32) (bad : Bool) it rest, ThreadIssues s th →
    let s1 := issued s th
    let c := s1.ctx th.core.val th.ctx
    (c.complQueue q).compl.pop = some (it, rest) →
    let s2 := s1.setCtx th.core.val th.ctx (c.setComplQueue q ({ c.complQueue q with compl := rest }.drainAborts))
    exec (.completionQueueRead th q rd bad) s = .next ((s2.setThread th.core.val th.ctx th.t.val
      ((s2.thread th.core.val th.ctx th.t.val).setReg rd.val it.data)).answer (if bad ∨ it.poison then stPoison else stOk) 0 [it.data]))

/-- R104, R112: a held item enters its queue when there is room; the reply of a remote access is delivered to its thread; the
acknowledgement of the oldest posted store takes it away. -/
def Obligations.RepliesAndHeldItemsReachTheirThreads : Prop :=
  ∀ (s : State) (u : CtxAt) (t : Fin 8),
    (∀ h, (s.thread u.core.val u.ctx t.val).held = some h → ((s.ctx u.core.val u.ctx).queue h.eng).q.room queueDepth = true →
      exec (.queuedItemPush u t) s = .next (s.setCtx u.core.val u.ctx
        (((s.ctx u.core.val u.ctx).setQueue h.eng
            { (s.ctx u.core.val u.ctx).queue h.eng with q := ((s.ctx u.core.val u.ctx).queue h.eng).q.push h.item }).setThread t.val
          { s.thread u.core.val u.ctx t.val with st := .active, held := none }))) ∧
    (∀ r a err, (s.thread u.core.val u.ctx t.val).rem = some r → r.arrived = some a →
      exec (.remoteReply u t err) s = .next (s.deliver u.core.val u.ctx t.val r a)) ∧
    (∀ r a err, (s.thread u.core.val u.ctx t.val).rem = some r → r.arrived = none → r.target = some (.local a) →
      (s.thread u.core.val u.ctx t.val).stores = [] →
      exec (.remoteReply u t err) s = .next (((s.devUpset a err).perform r a (s.instOf u.core.val u.ctx)).2.deliver u.core.val u.ctx t.val r
        ((s.devUpset a err).perform r a (s.instOf u.core.val u.ctx)).1)) ∧
    (∀ r rest a, (s.thread u.core.val u.ctx t.val).stores = r :: rest → r.arrived = some a →
      exec (.storeAck u t) s = .next (s.ackStore u.core.val u.ctx t.val r a)) ∧
    (∀ r rest a, (s.thread u.core.val u.ctx t.val).stores = r :: rest → r.arrived = none → r.target = some (.local a) →
      exec (.storeAck u t) s = .next ((s.perform r a (s.instOf u.core.val u.ctx)).2.ackStore u.core.val u.ctx t.val r
        (s.perform r a (s.instOf u.core.val u.ctx)).1))

/-- R106 to R109, R124: a valid task descriptor at the head of a context's task queue is accepted with a completion entry reserved; the
oldest READY task of the highest priority goes to the lowest FREE thread, which starts at its entry with its two arguments in x1 and
x2; cancels and queue resets act on the contexts they name. -/
def Obligations.TasksAreAcceptedDispatchedAndEnded : Prop :=
  (∀ (s : State) (u : CtxAt) (i : CItem) (q : Carafe), (s.core u.core.val).fenced = false → s.clocked u.core.val = true →
    (s.ctx u.core.val u.ctx).tq.canAccept = true → (s.ctx u.core.val u.ctx).tq.q.pop = some (i, q) →
    (taskOf i.data).gen = (s.ctx u.core.val u.ctx).tq.gen → i.poison = false → bits i.data 0 8 = 1 → taskReserved i.data = false →
    inProgram u.ctx (taskOf i.data).entry = true →
    ((taskOf i.data).waits = false ∨ Tbl.get 0 (s.ctx u.core.val u.ctx).events (taskOf i.data).waitEvt = 0) →
    exec (.taskAccept u none) s = .next (s.setCtx u.core.val u.ctx
      { s.ctx u.core.val u.ctx with
        tq := { (s.ctx u.core.val u.ctx).tq with q := q, reserved := (s.ctx u.core.val u.ctx).tq.reserved + 1 },
        tasks := (s.ctx u.core.val u.ctx).tasks ++ [taskOf i.data] })) ∧
  (∀ (s : State) (u : CtxAt) (k t : Nat) (task : Task), s.owns u.core.val u.ctx = true → s.held u.core.val u.ctx = false →
    (s.core u.core.val).load = none → readyTask (s.ctx u.core.val u.ctx).tasks = some k →
    (s.ctx u.core.val u.ctx).tasks[k]? = some task →
    (List.range 8).find? (fun j => ((s.ctx u.core.val u.ctx).thread j).st == .free) = some t →
    ∃ s', exec (.taskDispatch u) s = .next s' ∧ (s'.ctx u.core.val u.ctx).tasks = eraseAt (s.ctx u.core.val u.ctx).tasks k ∧
      (s'.thread u.core.val u.ctx t).st = .active ∧ (s'.thread u.core.val u.ctx t).pc = task.entry ∧
      (s'.thread u.core.val u.ctx t).task = some task ∧ (s'.thread u.core.val u.ctx t).reg 1 = task.arg0 % 2 ^ 64 ∧
      (s'.thread u.core.val u.ctx t).reg 2 = task.arg1 % 2 ^ 64) ∧
  (∀ (s : State) (u : CtxAt) (tag : BitVec 16),
    exec (.prtTaskCancel u tag) s = .next ((s.cancelTag u.core.val u.ctx tag.toNat).answer stOk)) ∧
  (∀ (s : State) (core : Fin 512),
    exec (.prtTqReset core true false) s = .next ((s.tqReset core.val .timed stAbortedReset).answer stOk) ∧
    exec (.prtTqReset core false true) s = .next ((s.tqReset core.val .elastic stAbortedReset).answer stOk))

/-- R117, R118: a write of 1 to MEM_PM_GO that passes every check of Table 4.7 begins the load; the load's last word ends it. -/
def Obligations.ProgramLoadsBeginAndEnd : Prop :=
  (∀ (s : State) (core : Fin 512) (wr : Writer) (x : Ctx), s.writerOwns wr core.val x = true →
    s.fld (MEM_PM_LEN core.val) 0 18 ≠ 0 → s.fld (MEM_PM_LEN core.val) 0 18 % 64 = 0 → s.fld (MEM_PM_DST core.val) 0 18 % 64 = 0 →
    (pmBytes x).1 ≤ s.fld (MEM_PM_DST core.val) 0 18 →
    s.fld (MEM_PM_DST core.val) 0 18 + s.fld (MEM_PM_LEN core.val) 0 18 ≤ (pmBytes x).2 → (s.core core.val).idle = true →
    exec (.memPmGo core wr true x) s = .next (((s.setCore core.val { s.core core.val with
      load := some { ctx := x, src := s.fld (MEM_PM_SRC core.val) 0 48, dst := s.fld (MEM_PM_DST core.val) 0 18,
                     len := s.fld (MEM_PM_LEN core.val) 0 18 } }).setPmStatus core.val stOk 0 true).answer stOk)) ∧
  (∀ (s s1 s2 : State) (core : Fin 512) (l : PmLoad) (a v lv : Nat) (e : Bool), (s.core core.val).load = some l →
    l.done < l.len → l.len ≤ l.done + 64 →
    s.xlate (.micro core.val l.ctx) (s.instOf core.val l.ctx) (l.src + l.done) .read (l.ctx == .timed) = (.ok (.local a) e lv, s1) →
    s1.accRead a 64 (s.instOf core.val l.ctx) uProgLoad = ({ status := stOk, data := v }, s2) →
    exec (.programLoadEnd core none) s = .next ((s2.setCore core.val
      { (s2.core core.val).pmWrite (l.dst + l.done) v false with load := some { l with done := l.done + 64 } }).pmEnd core.val stOk l.len))

/-- R17, R121 to R123: a core that is not fenced is fenced by FENCE and by a management core's write of 1 to RAS_CORE_FENCE, and its
threads of both contexts are FENCED; the hub gives its number to a spare of its cluster, else of its die; the spare's scratch is
cleared before it takes the number over. -/
def Obligations.CoresAreFencedAndSparesTakeOver : Prop :=
  (∀ (s : State) (core : Fin 512) (k : FenceKind), (s.core core.val).fenced = false →
    ∃ t, exec (.fence core k) s = .next t ∧ (t.core core.val).fenced = true ∧
      (∀ x, ∀ j < 8, (t.thread core.val x j).st = .fenced) ∧ t.dev = s.dev) ∧
  (∀ (s : State) (core : Fin 512), (s.core core.val).fenced = false →
    ∃ t, exec (.rasCoreFence core .mc true) s = .next t ∧ (t.core core.val).fenced = true ∧ t.reply.code = stOk) ∧
  (∀ (s : State) (lc : Fin 512) (h : Handover) (p : Nat),
    s.handovers.find? (fun h => h.lc == lc.val && h.spare.isNone) = some h → s.chooseSpare h.fromCore = some p → lc.val < s.grade.lcs →
    ∃ t, exec (.spareChoice lc) s = .next t ∧ t.phys lc.val = p ∧ (t.core p).group = (s.core h.fromCore).group) ∧
  (∀ (s : State) (lc : Fin 512) (h : Handover) (p : Nat), s.handovers.find? (fun h => h.lc == lc.val) = some h → h.spare = some p →
    s.groupHolds lc.val = true →
    ∃ t, exec (.spareClearLoadEnd lc) s = .next t ∧ (t.core p).scr = {} ∧
      (∀ g ∈ t.handovers, g.lc = lc.val → g.cleared = true))

/-- R134, R141, Table 5.4: each instruction with vector operands, issued by a running kernel with operands that pass the checks of
Table 5.5, writes the result Table 5.4 gives of its sources. -/
def Obligations.VectorInstructionsComplete : Prop :=
  ∀ (s : State) (u : VceAt) (w : VWord) (r : VRes),
    (VceRuns s u 0x01 w r → exec (.vmov u) s = .next (vceRan s u w r)) ∧
    (VceRuns s u 0x02 w r → exec (.vperm u) s = .next (vceRan s u w r)) ∧
    (VceRuns s u 0x10 w r → exec (.vadd u) s = .next (vceRan s u w r)) ∧
    (VceRuns s u 0x11 w r → exec (.vsub u) s = .next (vceRan s u w r)) ∧
    (VceRuns s u 0x12 w r → exec (.cmul u) s = .next (vceRan s u w r)) ∧
    (VceRuns s u 0x13 w r → exec (.cfma u) s = .next (vceRan s u w r)) ∧
    (VceRuns s u 0x14 w r → exec (.cfms u) s = .next (vceRan s u w r)) ∧
    (VceRuns s u 0x15 w r → exec (.cmac u) s = .next (vceRan s u w r)) ∧
    (VceRuns s u 0x16 w r → exec (.cmaci u) s = .next (vceRan s u w r)) ∧
    (VceRuns s u 0x17 w r → exec (.accrd u) s = .next (vceRan s u w r)) ∧
    (VceRuns s u 0x18 w r → exec (.bfly u) s = .next (vceRan s u w r)) ∧
    (VceRuns s u 0x19 w r → exec (.rmul u) s = .next (vceRan s u w r)) ∧
    (VceRuns s u 0x1A w r → exec (.rfma u) s = .next (vceRan s u w r)) ∧
    (VceRuns s u 0x1B w r → exec (.vmax u) s = .next (vceRan s u w r)) ∧
    (VceRuns s u 0x1C w r → exec (.vmin u) s = .next (vceRan s u w r)) ∧
    (VceRuns s u 0x1D w r → exec (.vsum u) s = .next (vceRan s u w r)) ∧
    (VceRuns s u 0x20 w r → exec (.vexp u) s = .next (vceRan s u w r)) ∧
    (VceRuns s u 0x21 w r → exec (.vrcp u) s = .next (vceRan s u w r)) ∧
    (VceRuns s u 0x22 w r → exec (.vrsq u) s = .next (vceRan s u w r)) ∧
    (VceRuns s u 0x23 w r → exec (.cvt u) s = .next (vceRan s u w r)) ∧
    (VceRuns s u 0x24 w r → exec (.cvtn u) s = .next (vceRan s u w r))

/-- Table 5.4: VADD and VSUB of two CI16 registers into a third give in each of the 64 components the sum or difference of the
sources' components, saturated to 16 bits; the destination's upper half takes zeros; memory and every other core are as they were. -/
def Obligations.IntegerVectorAdditionSaturates : Prop :=
  ∀ (s : State) (u : VceAt) (w : VWord), VceIssues s u w.op w → w.fp = false → w.a < 32 → w.b < 32 → w.d < 32 →
    (w.op = 0x10 → ∃ t, exec (.vadd u) s = .next t ∧ SameBut [.regs, .cores] s t ∧
      (∀ p, p ≠ u.core.val → t.core p = s.core p) ∧
      ∀ i < 64, bits (Tbl.get 0 (t.vce u.core.val u.v.val u.ctx).v w.d) (16 * i) 16 =
        ofSigned 16 (clampInt (-32768) 32767
          (toSigned 16 (bits (Tbl.get 0 (s.vce u.core.val u.v.val u.ctx).v w.a) (16 * i) 16) +
           toSigned 16 (bits (Tbl.get 0 (s.vce u.core.val u.v.val u.ctx).v w.b) (16 * i) 16)))) ∧
    (w.op = 0x11 → ∃ t, exec (.vsub u) s = .next t ∧ SameBut [.regs, .cores] s t ∧
      (∀ p, p ≠ u.core.val → t.core p = s.core p) ∧
      ∀ i < 64, bits (Tbl.get 0 (t.vce u.core.val u.v.val u.ctx).v w.d) (16 * i) 16 =
        ofSigned 16 (clampInt (-32768) 32767
          (toSigned 16 (bits (Tbl.get 0 (s.vce u.core.val u.v.val u.ctx).v w.a) (16 * i) 16) -
           toSigned 16 (bits (Tbl.get 0 (s.vce u.core.val u.v.val u.ctx).v w.b) (16 * i) 16))))

/-- R138, R140, Table 5.4: the control instructions of a kernel. RPT repeats the next word, LOOP the words after it, imm times, and
none for imm 0; SETA, SETO, SETL and SETM write the address registers; END ends the kernel. -/
def Obligations.KernelControlInstructionsComplete : Prop :=
  ∀ (s : State) (u : VceAt) (w : VWord),
    (VceIssues s u 0x30 w → bits (Tbl.get 0 (s.core u.core.val).pm ((s.vce u.core.val u.v.val u.ctx).pc + 1)) 0 8 ≠ 0 →
      bits (Tbl.get 0 (s.core u.core.val).pm ((s.vce u.core.val u.v.val u.ctx).pc + 1)) 0 8 ≤ 0x24 → w.imm ≠ 0 →
      exec (.rpt u) s = .next ((vceIssued s u).vceCtl u (fun c => { c with
        pc := c.pc + 1, rptActive := true, rptShort := List.contains s.guards (s.core u.core.val).group, rptLeft := w.imm, rptPc := c.pc + 1, runLeft := 0 }))) ∧
    (VceIssues s u 0x30 w → bits (Tbl.get 0 (s.core u.core.val).pm ((s.vce u.core.val u.v.val u.ctx).pc + 1)) 0 8 ≠ 0 →
      bits (Tbl.get 0 (s.core u.core.val).pm ((s.vce u.core.val u.v.val u.ctx).pc + 1)) 0 8 ≤ 0x24 → w.imm = 0 →
      exec (.rpt u) s = .next ((vceIssued s u).vceCtl u (fun c => c.goto (c.pc + 2)))) ∧
    (VceIssues s u 0x31 w → w.d ≠ 0 → (s.vce u.core.val u.v.val u.ctx).loopActive = false → w.imm ≠ 0 →
      exec (.loop u) s = .next ((vceIssued s u).vceCtl u (fun c =>
        { c with pc := c.pc + 1, loopActive := true, loopLeft := w.imm, loopPc := c.pc + 1, loopLen := w.d }))) ∧
    (VceIssues s u 0x31 w → w.d ≠ 0 → (s.vce u.core.val u.v.val u.ctx).loopActive = false → w.imm = 0 →
      exec (.loop u) s = .next ((vceIssued s u).vceCtl u (fun c => { c with pc := c.pc + 1 + w.d }))) ∧
    (VceIssues s u 0x32 w → exec (.seta u) s = .next ((vceIssued s u).vceCtl u (fun c =>
      { c with a := Tbl.put 0 c.a w.x (w.imm * 64), b := Tbl.put 0 c.b w.x (w.imm * 64) }.goto (c.pc + 1)))) ∧
    (VceIssues s u 0x33 w → exec (.seto u) s = .next ((vceIssued s u).vceCtl u (fun c =>
      { c with o := Tbl.put (0 : Int) c.o w.x (toSigned 16 w.imm * 4) }.goto (c.pc + 1)))) ∧
    (VceIssues s u 0x34 w → exec (.setl u) s = .next ((vceIssued s u).vceCtl u (fun c =>
      { c with l := Tbl.put 0 c.l w.x (w.imm * 64) }.goto (c.pc + 1)))) ∧
    (VceIssues s u 0x35 w → exec (.setm u) s = .next ((vceIssued s u).vceCtl u (fun c =>
      { c with m := Tbl.put 0 c.m w.x (bits w.imm 0 2 + 4 * bits w.imm 4 4) }.goto (c.pc + 1)))) ∧
    (VceIssues s u 0x3F w →
      exec (.endKernel u) s = .next ((vceIssued s u).vceStop u.core.val u.v.val u.ctx { status := stOk }))

/-- R142 to R144, R146, R148: a valid descriptor at the head of a context's queue starts its kernel at its entry, with the eight
addresses it gives in A and B; a kernel that has ended OK without poison completes with its record and event; resets and the enable
act on the engine they name. -/
def Obligations.KernelsStartAndComplete : Prop :=
  (∀ (s : State) (u : VceAt) (i : CItem) (q : Carafe), s.owns u.core.val u.ctx = true →
    s.runBlocks u.core.val u.v.val u.ctx = false → s.fld (VCE_CTRL u.core.val u.v.val) 0 1 ≠ 0 →
    (s.vce u.core.val u.v.val u.ctx).job = none → (s.vce u.core.val u.v.val u.ctx).dq.canAccept = true →
    (s.vce u.core.val u.v.val u.ctx).dq.q.pop = some (i, q) → bits i.data 32 16 = (s.vce u.core.val u.v.val u.ctx).dq.gen →
    i.poison = false → vceReserved i.data = false → inProgram u.ctx (bits i.data 64 15) = true →
    exec (.vceRun u) s = .next (s.setVce u.core.val u.v.val u.ctx { s.vce u.core.val u.v.val u.ctx with
      dq := { (s.vce u.core.val u.v.val u.ctx).dq with q := q, reserved := (s.vce u.core.val u.v.val u.ctx).dq.reserved + 1 },
      pc := bits i.data 64 15,
      a := (List.range 8).foldl (fun t k => Tbl.put 0 t k (bits i.data (32 * k + 96) 22)) [],
      b := (List.range 8).foldl (fun t k => Tbl.put 0 t k (bits i.data (32 * k + 96) 22)) [],
      o := [], l := [], m := [],
      job := some { tag := bits i.data 16 16, gen := bits i.data 32 16, evt := bits i.data 48 8 },
      rptActive := false, rptLeft := 0, runLeft := 0, loopActive := false, loopLeft := 0 })) ∧
  (∀ (s : State) (u : VceAt) (j : VceJob), s.owns u.core.val u.ctx = true → (s.vce u.core.val u.v.val u.ctx).job = some j →
    j.stop = some stOk → (s.vce u.core.val u.v.val u.ctx).runLeft = 0 → j.flags = {} → j.parked = false →
    exec (.vceComplete u) s = .next
      ((((s.setVce u.core.val u.v.val u.ctx { s.vce u.core.val u.v.val u.ctx with
            dq := (s.vce u.core.val u.v.val u.ctx).dq.complete
              (complRecord j.tag j.gen stOk + (bits (s.vce u.core.val u.v.val u.ctx).pc 0 15) <<< 44),
            job := none, rptActive := false, loopActive := false }).setFld (vceFlagsReg u.core.val u.v.val u.ctx) 0 4
          (s.fld (vceFlagsReg u.core.val u.v.val u.ctx) 0 4)).modCtx u.core.val u.ctx (fun k => k.settleCancels)).raiseEvt
        u.core.val u.ctx j.evt)) ∧
  (∀ (s : State) (core : Fin 512) (v : Fin 2),
    exec (.vceQreset core v true false) s = .next ((s.vceReset core.val v.val .timed).answer stOk) ∧
    exec (.vceQreset core v false true) s = .next ((s.vceReset core.val v.val .elastic).answer stOk) ∧
    (∀ en, (s.vce core.val v.val .timed).job = none → (s.vce core.val v.val .elastic).job = none →
      exec (.vceCtrlWrite core v en) s = .next ((s.setFld (VCE_CTRL core.val v.val) 0 1 (b2n en)).answer stOk)))

/-- R165 to R170, R172 to R175: a valid descriptor at the head of a context's TME queue is accepted; SETCONV, when oldest, copies its
record; a committed descriptor's next transfer moves its bytes; the oldest descriptor commits when its epoch says so and is discarded
when the epoch is cancelled; an ended one completes. The next piece of a descriptor that may run ahead is read into a staging buffer of the
cluster's pool, when its source pages are translated, no earlier destination overlaps them, the context holds fewer than 16 buffers, and the
pool grants one; without a buffer it is left to be read at commit, and counted. -/
def Obligations.TileMoverCommandsComplete : Prop :=
  (∀ (s : State) (u : CtxAt),
    (∀ i q, TmeHead s u 1 i q → exec (.copy u) s = .next (tmeTaken s u i q)) ∧
    (∀ i q, TmeHead s u 2 i q → exec (.gather u) s = .next (tmeTaken s u i q)) ∧
    (∀ i q, TmeHead s u 3 i q → exec (.scatter u) s = .next (tmeTaken s u i q)) ∧
    (∀ i q, TmeHead s u 4 i q → (s.tme u.core.val u.ctx).jobs = [] → (TmeDesc.ofNat i.data).spec = false →
      exec (.setconv u) s = .next ((tmeTaken s u i q).setConv u.core.val u.ctx 0 (TmeDesc.ofNat i.data))) ∧
    (∀ remote k j, (s.tme u.core.val u.ctx).head = some (k, j) → s.tmeMoves u.core.val u.ctx = true → j.committed = true →
      (TmeDesc.ofNat j.desc).op ≠ 4 →
      exec (.tmeTransferDone u remote) s = .next (s.tmeTransfer u.core.val u.ctx k j (TmeDesc.ofNat j.desc) remote)) ∧
    (∀ k j, (s.tme u.core.val u.ctx).head = some (k, j) → s.epochSays u.core.val (TmeDesc.ofNat j.desc) = some true →
      exec (.tmeCommit u) s = .next (s.setTme u.core.val u.ctx
        ((s.tme u.core.val u.ctx).modJob k (fun j => { j with committed := true })))) ∧
    (∀ k j, (s.tme u.core.val u.ctx).head = some (k, j) → s.epochSays u.core.val (TmeDesc.ofNat j.desc) = some false →
      exec (.tmeCommit u) s = .next (s.specDiscard u.core.val u.ctx k j)) ∧
    (∀ j rest, (s.tme u.core.val u.ctx).jobs = j :: rest → j.ended = true → j.staged = [] →
      exec (.tmeComplete u) s = .next
        (((s.setTme u.core.val u.ctx { s.tme u.core.val u.ctx with
            jobs := rest,
            dq := (s.tme u.core.val u.ctx).dq.complete
              (complRecord (TmeDesc.ofNat j.desc).tag (TmeDesc.ofNat j.desc).gen j.status + (b2n j.ra) <<< 40
                + (b2n (TmeDesc.ofNat j.desc).spec) <<< 41 + (bits j.done 0 22) <<< 42) }).modCtx u.core.val u.ctx
          (fun c => c.settleCancels)).raiseEvt u.core.val u.ctx (TmeDesc.ofNat j.desc).evt)) ∧
    (exec (.tmeQreset u.core true false) s = .next ((s.tmeReset u.core.val .timed).answer stOk)) ∧
    (exec (.tmeQreset u.core false true) s = .next ((s.tmeReset u.core.val .elastic).answer stOk)) ∧
    (∀ en, (s.tme u.core.val .timed).jobs = [] → (s.tme u.core.val .elastic).jobs = [] →
      exec (.tmeCtrlWrite u.core en) s = .next ((s.setFld (TME_CTRL u.core.val) 0 1 (b2n en)).answer stOk))) ∧
  (∀ (s s1 : State) (u : CtxAt) (h k : Nat) (j0 j : TmeJob) (segs : List (Target × Nat)) (lv : Nat),
    (s.tme u.core.val u.ctx).head = some (h, j0) → (s.tme u.core.val u.ctx).runAhead h = some (k, j) →
    s.owns u.core.val u.ctx = true →
    ((s.tme u.core.val u.ctx).jobs.take k).any (fun e => !e.ended &&
      overlapsDst ((TmeDesc.ofNat j.desc).source j.raNext).1 ((TmeDesc.ofNat j.desc).source j.raNext).2 (TmeDesc.ofNat e.desc)) = false →
    s.span (.micro u.core.val u.ctx) (s.instOf u.core.val u.ctx) .read (u.ctx == .timed) 3
      ((TmeDesc.ofNat j.desc).source j.raNext).1 ((TmeDesc.ofNat j.desc).source j.raNext).2 = (.ok segs lv, s1) →
    ((TmeDesc.ofNat j.desc).op = 2 ∨ ∀ g ∈ segs, ∀ a lc off, g.1 = .local a → s.tierOf a ≠ .scratch lc off) →
    (∀ v s2, (s.tme u.core.val u.ctx).held < 16 → s1.poolCan (64 + clusterOf u.core.val) (u.ctx == .timed) = true →
      s1.readSegs (s.instOf u.core.val u.ctx) uTme none 0 segs = (.ok v [], s2) →
      exec (.tmeRunAheadRead u) s = .next
        (let g := s2.poolGrant (64 + clusterOf u.core.val)
            { port := u.core.val % 8, inst := s.instOf u.core.val u.ctx, gen := s.instGen (s.instOf u.core.val u.ctx),
              timed := u.ctx == .timed }
         let st : Staged := { piece := j.raNext, buf := g.1,
                              data := tabulate ((TmeDesc.ofNat j.desc).source j.raNext).2 (fun i => bits v (8 * i) 8), poison := [] }
         let s3 := g.2.setTme u.core.val u.ctx ((g.2.tme u.core.val u.ctx).modJob k (fun j => { j with staged := j.staged ++ [st] }))
         s3.setTme u.core.val u.ctx ((s3.tme u.core.val u.ctx).modJob k (fun j => { j with ra := true, raNext := j.raNext + 1 })))) ∧
    (16 ≤ (s.tme u.core.val u.ctx).held → ∃ t, exec (.tmeRunAheadRead u) s = .next t ∧
      t.fld (TME_RA_REFUSE_CNT u.core.val) 0 32 = min (s1.fld (TME_RA_REFUSE_CNT u.core.val) 0 32 + 1) (2 ^ 32 - 1)))

/-- R155 to R157, R176 to R179: a pool grants a buffer of the tier when it may; an owner's return gives it back; ALLOC of a size that the
share and the tier hold maps zeroed memory at a free address and answers the address; FREE removes the region that starts there. -/
def Obligations.BuffersAndRegionsAreGivenAndReturned : Prop :=
  (∀ (s : State) (pool : Fin 128) (port : Fin 71) (inst : Fin 512) (timed wait : Bool),
    (s.poolCfg pool.val).1 = true → (s.poolCfg pool.val).2.1 ≠ 0 → (pool.val < 64 → port.val < 64) → (64 ≤ pool.val → port.val < 8) →
    s.poolCan pool.val timed = true → (∀ w ∈ (s.pool pool.val).waiters, w.timed = false ∧ timed = true) →
    exec (.poolRequest pool port inst timed wait) s = .next
      (let g := s.poolGrant pool.val { port := port.val, inst := inst.val, gen := s.instGen inst.val, timed := timed }
       (g.2.setPool pool.val { g.2.pool pool.val with pointer := (port.val + 1) % (if pool.val < 64 then 71 else 8) }).answer stOk 0
         [s.bufAddr pool.val g.1])) ∧
  (∀ (s : State) (pool : Fin 128) (port : Fin 71) (inst : Fin 512) (addr : BitVec 48) (b : Nat) (o : PoolOwner),
    (s.poolCfg pool.val).2.2.1 ≠ 0 → b < (s.poolCfg pool.val).2.1 →
    addr.toNat = (s.poolCfg pool.val).2.2.2.1 + b * (s.poolCfg pool.val).2.2.1 →
    Tbl.get none (s.pool pool.val).owners b = some o → o.port = port.val → o.inst = inst.val → o.gen = s.instGen inst.val →
    exec (.poolReturn pool port inst addr) s = .next ((s.poolGive pool.val b).answer stOk)) ∧
  (∀ (s : State) (inst : Fin 512) (req : AllocReq) (base lg : Nat), req.size.toNat ≠ 0 → s.allocBad req = false → req.tier.toNat = 1 →
    lg = (if req.page.toNat = 0 then 16 else if req.page.toNat = 1 then 21 else 30) → req.dieLocal = false →
    s.shareUsed (s.instPart inst.val) 1 false 0 + req.size.toNat * 65536 ≤ s.share (s.instPart inst.val) 1 false 0 →
    s.placeRegion 1 false 0 (req.size.toNat * 65536) lg = some base → s.fld (PRT_PART (s.instPart inst.val) 0) 1 1 = 0 →
    ∃ t, exec (.alloc inst req) s = .next t ∧ t.reply.code = stOk ∧ t.reply.data = [s.freeVa inst.val (req.size.toNat * 65536) lg] ∧
      t.regions = s.regions ++
        [{ inst := inst.val, va := s.freeVa inst.val (req.size.toNat * 65536) lg, size := req.size.toNat * 65536, tier := 1,
           local_ := false, unit := 0, base := base, lg := lg }]) ∧
  (∀ (s : State) (inst : Fin 512) (addr : Word) (r : Region),
    s.regions.find? (fun r => r.inst == inst.val && r.va == addr.toNat && !r.brs) = some r →
    exec (.free inst addr) s = .next ((s.freeRegion r).answer stOk))

/-- R154, R184 to R194: a scrub reads the lines of HBM and Silo, those that show errors only now among them: a correctable error is written
back, every other mark and all data stay; a walk ends with its page in the caches, or with a fault that
waits for its requester; an invalidation starts for the management cores alone and while none runs, and completes when nothing that
used a dropped entry is in flight, with every entry it covers gone from every cache. -/
def Obligations.TranslationCommandsComplete : Prop :=
  (∀ (s : State) (a : BitVec 48) (e : MemErr) (l : List (BitVec 48 × MemErr)), ∃ t, exec (.scrub ((a, e) :: l)) s = .next t ∧
    exec (.scrub l) (s.scrubFinds a.toNat e) = .next t) ∧
  (∀ s : State, s.dev.wf = true → ∃ t, exec (.scrub []) s = .next t ∧ t.dev.cells = s.dev.cells ∧
    ∀ a, t.dev.mark a = if s.dev.mark a = 1 ∧ (s.tierOf a = .hbm ∨ s.tierOf a = .silo) then 0 else s.dev.mark a) ∧
  (∀ (s : State) (n : Fin 32) (w : Walk) (e lg : Nat) (seen : List WalkEntry) (reads : List Nat), s.walks[n.val]? = some w → s.inval = none →
    w.gen = s.instGen w.inst → s.instValid w.inst = true → w.place = .dma → s.walk w.inst w.va = .leaf e lg seen reads →
    ∃ t, exec (.tableWalkDone n) s = .next t ∧ t.walks = eraseAt s.walks n.val ∧
      ({ place := .dma, inst := w.inst, base := w.va / 2 ^ lg * 2 ^ lg, lg := lg, entry := e, fresh := true } : TlbEntry) ∈ t.tlb) ∧
  (∀ (s : State) (n : Fin 32) (w : Walk) (st c l : Nat) (seen : List WalkEntry) (reads : List Nat), s.walks[n.val]? = some w → s.inval = none →
    w.gen = s.instGen w.inst → s.instValid w.inst = true → w.place = .dma → s.walk w.inst w.va = .fault st c l seen reads →
    ∃ t, exec (.tableWalkDone n) s = .next t ∧ t.walks = eraseAt s.walks n.val ∧
      t.walkFaults = s.walkFaults ++ [⟨.dma, w.inst, w.va, st, c, l⟩]) ∧
  (∀ (s : State) (i : Fin 512), s.fld XLT_INV_STATUS 0 1 = 0 →
    exec (.xltInvInstance .mc i) s = .next (({ s with inval := some { op := 1, inst := i.val, addr := 0, size := 0 } }.setReg
      XLT_INV_STATUS 1).answer stOk) ∧
    (s.fld XLT_INV_SIZE 0 32 ≠ 0 → exec (.xltInvRange .mc i) s = .next
      (({ s with inval := some { op := 2, inst := i.val, addr := s.fld XLT_INV_ADDR 16 32 <<< 16, size := s.fld XLT_INV_SIZE 0 32 } }.setReg
        XLT_INV_STATUS 1).answer stOk)) ∧
    exec (.xltInvAll .mc) s = .next (({ s with inval := some { op := 3, inst := 0, addr := 0, size := 0 } }.setReg
      XLT_INV_STATUS 1).answer stOk)) ∧
  (∀ (s : State) (v : Inval), s.inval = some v → s.inFlight v = false → ∃ t, exec .xltInvComplete s = .next t ∧ t.inval = none ∧
    t.fld XLT_INV_STATUS 0 1 = 0 ∧ (∀ e ∈ t.tlb, v.covers e.inst e.base e.lg = false) ∧
    (∀ e ∈ s.tlb, v.covers e.inst e.base e.lg = false → e ∈ t.tlb)) ∧
  (∀ (s : State) (i : Fin 512) (v : Word), bits v.toNat 0 5 ≠ 0 → bits v.toNat 0 5 ≤ (Tbl.get [] s.ifr i.val).length →
    exec (.xltIfDone i v) s = .next
      ({ s with ifr := Tbl.put [] s.ifr i.val ((Tbl.get [] s.ifr i.val).drop (bits v.toNat 0 5)) }.answer stOk))

/-- R195, R196, R199, R302: a valid descriptor at the head of a DMA queue that runs none is accepted; its next piece moves; an ended
one's record is written to host memory where it says; so for a gateway queue, through the instance's translations. -/
def Obligations.HostDmaCommandsComplete : Prop :=
  ∀ (s : State) (i : Fin 512),
    (∀ it rest, (s.dmaQ i.val).jobs = [] → (s.dmaQ i.val).q.pop = some (it, rest) → bits it.data 32 16 = (s.dmaQ i.val).gen →
      dmaReserved it.data = false → dmaLen it.data ≠ 0 → dmaHost it.data % 64 = 0 → dmaDev it.data % 64 = 0 →
      dmaLen it.data % 64 = 0 → dmaCmpl it.data % 16 = 0 →
      (bits it.data 0 8 = 1 → exec (.toDev i false) s = .next
        (s.setDmaQ i.val { s.dmaQ i.val with q := rest, jobs := [{ desc := it.data }] })) ∧
      (bits it.data 0 8 = 2 → exec (.toHost i false) s = .next
        (s.setDmaQ i.val { s.dmaQ i.val with q := rest, jobs := [{ desc := it.data }] }))) ∧
    (∀ host j, (s.dmaQ i.val).jobs.find? (fun j => !j.ended) = some j → bits j.desc 32 16 = (s.dmaQ i.val).gen →
      exec (.dmaPieceDone i host) s = .next (s.dmaMove i.val j host)) ∧
    (∀ j, (s.dmaQ i.val).jobs = [j] → j.ended = true → j.status = stOk → s.detached i.val = false →
      ∃ t, exec (.dmaComplete i) s = .next t ∧ (t.dmaQ i.val).jobs = [] ∧ t.hostOut = s.hostOut ++
        [{ inst := i.val, addr := dmaCmpl j.desc, len := 16, data := dmaRecord j.desc stOk 0 (s.attn i.val) j.done }]) ∧
    (∀ j rest segs lv s1, (s.gwQueue i.val).jobs = j :: rest → j.ended = true → j.status = stOk → bits j.desc 32 16 = (s.gwQueue i.val).gen →
      s.span .hub i.val .write (s.instTimed i.val) 2 (gwCmpl j.desc) 16 = (.ok segs lv, s1) →
      exec (.gwComplete i) s = .next ((s1.writeSegs i.val uGateway (s.instTimed i.val) [] 0 segs
        (dmaRecord j.desc stOk 0 (s.attn i.val) j.done)).2.setGwQueue i.val { s.gwQueue i.val with jobs := rest }))

/-- R210, R211, R213 to R216: loss of XCLK sets the status of Table 8.1 and drops every SerDes link; its return and the time PLL's lock
set theirs; an island's multiplier glides toward its effective target by at most step_max a step; a target in range and enables whose
blocks are idle are stored. -/
def Obligations.ClockCommandsComplete : Prop :=
  (∀ s : State, exec .xclkLost s = .next
    ((((((s.setFld CLK_STATUS 0 4 0xC).event CLK_EVENT 0).setFld CLK_PLL_LOCK_HUB 0 1 0).setFld TIME_STATUS 1 10 0).setFld
      TIME_CTRL 0 1 0).glideFlags.timeCheck.serdesDown)) ∧
  (∀ s : State, exec .xclkRestored s = .next
    (((((s.setFld CLK_STATUS 0 1 1).setFld CLK_STATUS 3 1 0).event CLK_EVENT 1).setFld TIME_STATUS 2 1 1).timeCheck)) ∧
  (∀ s : State, s.fld CLK_STATUS 0 1 = 1 → exec .timePllLock s = .next
    (((((s.setFld CLK_STATUS 1 1 1).setFld CLK_STATUS 2 1 0).setReg CLK_PLL_LOCK (2 ^ 64 - 1)).setReg CLK_PLL_LOCK_HUB
      (2 ^ 52 - 1)).glideFlags.timeCheck)) ∧
  (∀ (s : State) (n : Fin 64), ∃ t, exec (.glideStep n) s = .next t ∧
    (s.islMult n.val ≤ s.islTarget n.val →
      t.islMult n.val = min (s.islTarget n.val) (s.islMult n.val + s.fld CLK_GLIDE_CFG 0 6) % 2 ^ 9) ∧
    (s.islTarget n.val < s.islMult n.val →
      t.islMult n.val = max (s.islTarget n.val) (s.islMult n.val - s.fld CLK_GLIDE_CFG 0 6) % 2 ^ 9)) ∧
  (∀ (s : State) (n : Fin 64) (v : BitVec 9), 64 ≤ v.toNat → v.toNat ≤ 296 →
    exec (.clkIslTargetWrite .mc n v) s = .next ((s.setTarget n.val v.toNat).answer stOk)) ∧
  (∀ (s : State) (n : Fin 64) (v : BitVec 9), v.toNat < 64 ∨ 296 < v.toNat →
    exec (.clkIslTargetWrite .mc n v) s = .next (s.refuseReg (CLK_ISL n.val))) ∧
  (∀ (s : State) (v : Word), (∀ n < 64, bit (s.reg CLK_EN_ISL) n = true → bit v.toNat n = false → s.islIdle n = true) →
    exec (.clkEnWrite .mc true v) s = .next ((s.setReg CLK_EN_ISL (bits v.toNat 0 64)).answer stOk)) ∧
  (∀ (s : State) (v : Word), (∀ n < 44, bit (s.reg CLK_EN_HUB) n = true → bit v.toNat n = false → s.hubIdle n = true) →
    exec (.clkEnWrite .mc false v) s = .next ((s.setReg CLK_EN_HUB (bits v.toNat 0 44)).answer stOk))

/-- R217 to R219: a write of TIME_STEP in range while the servo is disabled sets the rate and does not change network time; a write of
TIME_ADJ adds its signed value, in units of 2^-16 ns, to network time and changes neither the rate nor the counter. -/
def Obligations.RateAndPhaseOfNetworkTime : Prop :=
  (∀ (s : State) (v : BitVec 48), s.fld TIME_SERVO_CFG 40 1 = 0 → stepMin ≤ v.toNat → v.toNat ≤ stepMax →
    ∃ t, exec (.timeStepWrite .mc v) s = .next t ∧ t.netTime = s.netTime ∧ t.fld TIME_STEP 0 48 = v.toNat ∧ t.cnt = s.cnt) ∧
  (∀ (s : State) (e : Word), s.fld TIME_SERVO_CFG 40 1 = 0 → e ≠ 0 →
    ∃ t, exec (.timeAdj .mc e) s = .next t ∧ t.fld TIME_STEP 0 48 = s.fld TIME_STEP 0 48 ∧ t.cnt = s.cnt ∧
      (t.netTime : Int) = ((s.netTime : Int) + e.toInt * 2 ^ 24) % 2 ^ 104)

/-- R220 to R227: markers, servo samples, the latched read of network time, the declaration of lock, and the comparators, which fire
once network time has reached their target. -/
def Obligations.TimeCommandsComplete : Prop :=
  (∀ (s : State) d us, ∃ t, exec (.timeMarker d us) s = .next t ∧ t.cnt = (s.cnt + (1024 - s.cnt % 1024)) % 2 ^ 64) ∧
  (∀ (s : State), (∀ p ∈ s.islCopy, p.2.natAbs ≤ 1) → ∃ t, exec (.timeMarker [] []) s = .next t ∧
    t.cnt = (s.cnt + (1024 - s.cnt % 1024)) % 2 ^ 64 ∧ t.islCopy = [] ∧ t.regs = s.regs) ∧
  (∀ (s : State) (e : Word), s.fld TIME_SERVO_CFG 40 1 = 1 →
    exec (.timeServoOfs .mc e) s = .next (((s.servo (toSigned 64 e.toNat)).timeCheck).answer stOk)) ∧
  (∀ (s : State) (e : Word), s.fld TIME_SERVO_CFG 40 1 = 0 →
    exec (.timeServoOfs .mc e) s = .next ((s.bumpFld TIME_SERVO_CNT 32 32 1).answer stOk)) ∧
  (∀ s : State, ∃ t, exec (.timeNowNsRead .mc) s = .next t ∧ t.reply.data = [s.nowNs] ∧ t.reg TIME_NOW_SUB = s.nowSub ∧
    SameBut [.regs, .reply] s t) ∧
  (∀ (s : State) (i : Fin 512), ∃ t, exec (.timeNowNsRead (.host i)) s = .next t ∧ t.reply.data = [s.nowNs] ∧
    t.wreg i.val 0x2008 = s.nowSub ∧ SameBut [.win, .reply] s t) ∧
  (∀ (s : State) (lock : Bool), s.fld TIME_SERVO_CFG 40 1 = 0 →
    exec (.declareLock .mc lock) s = .next
      ((((s.setFld TIME_CTRL 0 1 (b2n lock)).setFld TIME_STATUS 1 1 (b2n lock)).timeCheck).answer stOk)) ∧
  (∀ (s : State) (n : Fin 16) (k : BitVec 64), s.fld (TIME_CMP_CFG n.val) 0 1 = 1 → s.fld (TIME_CMP_CFG n.val) 2 1 = 0 →
    s.fld (TIME_CMP_CFG n.val) 1 1 = 0 → (s.elapse k.toNat).reached (s.reg (TIME_CMP n.val)) = true →
    ∃ t, exec (.timeCmpFire n k) s = .next t ∧ t.fld (TIME_CMP_CFG n.val) 2 1 = 1 ∧
      t.mcIrq = s.mcIrq ||| 2 ^ s.fld (TIME_CMP_CFG n.val) 3 2)

/-- R236 to R247, R249, R254: at a boundary that network time has reached, a running list's next entry comes into force, or its next cycle
starts; the guard interval of an entry begins in it; a swap that passes Table 9.2 waits for its start and is applied there; a stop is
taken at the cycle's end; a group change of a core of the list's partition is stored, and applied when no running list holds it; an
elastic context that has stayed parked with work too long ends: its tasks and descriptors take PREEMPTED, and the event and the count
say so. -/
def Obligations.ComputeGateCommandsComplete : Prop :=
  ((∀ (s : State) (l : Fin 16) (k : BitVec 64), s.running l.val = true → (s.cglList l.val).swap = none →
    (s.elapse k.toNat).reached ((s.cglList l.val).start + s.entEnd l.val (s.fld (CGL_OPER_STAT l.val) 9 8)) = true →
    (s.entEnd l.val (s.fld (CGL_OPER_STAT l.val) 9 8) < s.fld (CGL_OPER_CYCLE l.val) 0 24 →
      exec (.cglBoundary l k none none) s = .next
        ((s.elapse k.toNat).enterEntry l.val (s.fld (CGL_OPER_STAT l.val) 9 8 + 1) none none)) ∧
    (s.entEnd l.val (s.fld (CGL_OPER_STAT l.val) 9 8) = s.fld (CGL_OPER_CYCLE l.val) 0 24 → (s.cglList l.val).stop = false →
      exec (.cglBoundary l k none none) s = .next
        (((s.elapse k.toNat).cycleStart l.val
          ((s.cglList l.val).start + s.entEnd l.val (s.fld (CGL_OPER_STAT l.val) 9 8))).enterEntry l.val 0 none none)) ∧
    (s.entEnd l.val (s.fld (CGL_OPER_STAT l.val) 9 8) = s.fld (CGL_OPER_CYCLE l.val) 0 24 → (s.cglList l.val).stop = true →
      exec (.cglBoundary l k none none) s = .next ((s.elapse k.toNat).stopList l.val))) ∧
  (∀ (s : State) (l : Fin 16) (k : BitVec 64), s.running l.val = true →
    bits (s.reg (CGL_OPER_ENT l.val (s.fld (CGL_OPER_STAT l.val) 9 8))) 48 16 ≠ 0 →
    (s.elapse k.toNat).reached (s.guardAt l.val) = true →
    ∃ t, exec (.guardStart l k) s = .next t ∧ SameBut [.cnt, .guards] s t ∧ ∀ g, g ∈ t.guards ↔ g ∈ s.guards ∨ g ∈ s.guardLosers l.val) ∧
  (∀ (s : State) (l : Fin 16), s.fld (CGL_LIST_CFG l.val) 0 1 = 1 → (s.cglList l.val).swap = none →
    s.fld (CGL_ADMIN_LEN l.val) 0 9 ≠ 0 → s.fld (CGL_ADMIN_LEN l.val) 0 9 ≤ 256 → 2000 ≤ s.fld (CGL_ADMIN_CYCLE l.val) 0 24 →
    s.fld (CGL_ADMIN_CYCLE l.val) 0 24 ≤ 10000000 →
    (∀ e < s.fld (CGL_ADMIN_LEN l.val) 0 9, entBad l.val (s.reg (CGL_ADMIN_ENT l.val e)) = false) →
    20000 + s.nowNs ≤ s.reg (CGL_ADMIN_BASE l.val) →
    exec (.cglSwap .mc l false) s = .next (((s.setCgl l.val { s.cglList l.val with
      swap := some { start := s.reg (CGL_ADMIN_BASE l.val), base := s.reg (CGL_ADMIN_BASE l.val),
                     cycle := s.fld (CGL_ADMIN_CYCLE l.val) 0 24,
                     ents := tabulate (s.fld (CGL_ADMIN_LEN l.val) 0 9) (fun e => s.reg (CGL_ADMIN_ENT l.val e)) } }).setFld
      (CGL_OPER_STAT l.val) 18 1 1).answer stOk)) ∧
  (∀ (s : State) (l : Fin 16), s.running l.val = true →
    exec (.cglStop .mc l) s = .next (((s.setCgl l.val { s.cglList l.val with swap := none, stop := true }).setFld
      (CGL_OPER_STAT l.val) 18 1 0).answer stOk)) ∧
  (∀ (s : State) (l : Fin 16) (k : BitVec 64) (w : CglSwap), (s.cglList l.val).swap = some w →
    (s.elapse k.toNat).reached w.start = true → exec (.cglSwapApply l k) s = .next
      ((((s.elapse k.toNat).putList l.val w).cycleStart l.val w.start).enterEntry l.val 0 none none)) ∧
  (∀ (s : State) (n : Fin 480) (g : BitVec 7), n.val < s.grade.lcs → s.pendingGroup n.val = none →
    g.toNat = 0x7F ∨ s.lcPart n.val .timed = some (s.fld (CGL_LIST_CFG (g.toNat / 8)) 1 4) →
    exec (.cglLcGrpWrite .mc n g) s = .next
      (({ s with grpPend := Tbl.put 0x80 s.grpPend n.val g.toNat }.setReg (CGL_LC_GRP n.val) (g.toNat + 0x80)).answer stOk)) ∧
  (∀ (s : State) (n : Fin 480) (b : Nat), s.pendingGroup n.val = some b → s.changeWaits (s.lcGroup n.val) b = none →
    exec (.groupChangeApply n) s = .next (((s.applyChange n.val b).syncOwners).refreshTEntry))) ∧
  (∀ (s : State) (core : Fin 512), (s.core core.val).owner = .timed → (s.core core.val).fenced = false →
    (s.core core.val).e.holdsWork = true →
    exec (.starve core) s = .next
      ((((((((s.tqReset core.val .elastic stPreempted).meReset core.val .elastic stPreempted).vceReset core.val 0 .elastic
        stPreempted).vceReset core.val 1 .elastic stPreempted).tmeReset core.val .elastic stPreempted).bump CGL_STARVE_CNT).event
        CGL_EVENT 5)))

/-- R263 to R266: Barista takes a command from an instance's channel, gives it its effect when the tables of chapter 10 allow it, and
sends its answer; GRP_DESTROY's waits for the boundary. -/
def Obligations.BaristaCommandsComplete : Prop :=
  ∀ (s s1 : State) (i : Fin 512) (tag d : Nat),
    (∀ s2 g base, BrsHead s i.val 0x40 tag d s1 → d < 2 ^ 192 → s1.fld BRS_CTRL 0 1 ≠ 0 →
      grpReserved (bits d 0 64) (bits d 64 64) (bits d 128 64) = false → s1.grpForeign i.val (bits d 0 64) (bits d 64 64) = false →
      s1.grpBad (bits d 0 64) (bits d 64 64) (bits d 128 64) = false → (List.range 64).find? (fun g => s1.grpState g == 0) = some g →
      bits (bits d 64 64) 33 13 ≤ s1.quotaLeft (s1.instPart i.val) →
      s1.shareUsed (s1.instPart i.val) 0 false 0 + bits (bits d 128 64) 20 12 * 0x200000 ≤ s1.share (s1.instPart i.val) 0 false 0 →
      s1.placeRegion 0 false 0 (bits (bits d 128 64) 20 12 * 0x200000) 21 = some base →
      s1.bindKey (s1.instPart i.val) i.val 0 base (bits (bits d 128 64) 20 12 * 0x200000) = some s2 →
      exec (.grpCreate i false) s = .next ((s2.grpMake i.val g base (bits d 0 64) (bits d 64 64) (bits d 128 64)).brsReply i.val 0x40 tag)) ∧
    (BrsHead s i.val 0x41 tag d s1 → d < 64 → BrsOwn s1 i.val d → s1.grpState d ≠ 5 →
      exec (.grpDestroy i false) s = .next (((s1.setGrpState d 5).answer stOk).setBrsGrp d
        { ((s1.setGrpState d 5).answer stOk).brsGrp d with destroyTag := some tag })) ∧
    (BrsHead s i.val 0x42 tag d s1 → d < 2 ^ 9 → bits d 6 2 = 0 → BrsOwn s1 i.val (bits d 0 6) →
      (bit d 8 = true → s1.grpState (bits d 0 6) = 1 → (s1.brsGrp (bits d 0 6)).hold = false →
        exec (.grpHold i false) s = .next (((s1.setBrsGrp (bits d 0 6) { s1.brsGrp (bits d 0 6) with hold := true }).answer stOk).brsReply
          i.val 0x42 tag)) ∧
      (bit d 8 = false → s1.grpState (bits d 0 6) = 2 ∨ s1.grpState (bits d 0 6) = 3 →
        exec (.grpHold i false) s = .next ((((s1.setGrpState (bits d 0 6) 1).setFld (BRS_GRP_STAT (bits d 0 6)) 23 2 0).answer
          stOk).brsReply i.val 0x42 tag))) ∧
    (BrsHead s i.val 0x43 tag d s1 → d < 2 ^ 160 → BrsOwn s1 i.val (bits d 0 6) → bits d 9 7 = 0 → bits d 16 32 ≠ 0 → bits d 48 32 ≠ 0 →
      bits d 80 32 % 64 = 0 → bits d 128 32 % 8 = 0 →
      bits d 80 32 + 4 * bits d 16 32 ≤ s1.grpXchSize (bits d 0 6) - s1.slabOff (bits d 0 6) →
      bits d 128 32 + 8 * bits d 112 16 ≤ s1.grpXchSize (bits d 0 6) - s1.slabOff (bits d 0 6) →
      bits d 112 16 ≤ bits d 16 32 / s1.grpPageTok (bits d 0 6) → s1.grpState (bits d 0 6) = 1 ∨ s1.grpState (bits d 0 6) = 2 →
      bits d 16 32 + bits d 48 32 ≤ s1.grpMaxCtx (bits d 0 6) →
      s1.grpNb (bits d 0 6) ≤ (s1.poolCfg (s1.grpKvPool (bits d 0 6))).2.1 → s1.grpUsed (bits d 0 6) < s1.grpQuota (bits d 0 6) →
      ∀ q s2, s1.takeEntry (bits d 0 6) { cls := bits d 6 2, promptLen := bits d 16 32, maxNew := bits d 48 32,
                                          promptOff := bits d 80 32, nKeys := bits d 112 16, keyOff := bits d 128 32 } = (q, s2) →
        exec (.admitSeq i false) s = .next (((s2.bump BRS_ADMIT_CNT).answer stOk 0 [q + (s1.brsEnt q).gen <<< 16]).brsReply i.val 0x43 tag)) ∧
    (BrsHead s i.val 0x44 tag d s1 → d < 2 ^ 32 → bit d 15 = false → BrsSeq s1 i.val (bits d 0 15) (bits d 16 16) →
      (s1.brsEnt (bits d 0 15)).state ≠ 6 → (s1.brsEnt (bits d 0 15)).cancel = false →
      exec (.cancelSeq i false) s = .next
        (((s1.setBrsEnt (bits d 0 15) { s1.brsEnt (bits d 0 15) with cancel := true }).answer stOk).brsReply i.val 0x44 tag)) ∧
    (BrsHead s i.val 0x45 tag d s1 → d < 2 ^ 32 → bit d 15 = false → BrsSeq s1 i.val (bits d 0 15) (bits d 16 16) →
      exec (.querySeq i false) s = .next ((s1.answer stOk 0 [(s1.brsEnt (bits d 0 15)).state, (s1.brsEnt (bits d 0 15)).cls,
        (s1.brsEnt (bits d 0 15)).ctxLen, (s1.brsEnt (bits d 0 15)).generated, (s1.brsEnt (bits d 0 15)).delay]).brsReply i.val 0x45 tag)) ∧
    (BrsHead s i.val 0x46 tag d s1 → d < 2 ^ 34 → bit d 15 = false → BrsSeq s1 i.val (bits d 0 15) (bits d 16 16) →
      exec (.setClass i false) s = .next
        (((s1.setBrsEnt (bits d 0 15) { s1.brsEnt (bits d 0 15) with cls := bits d 32 2 }).answer stOk).brsReply i.val 0x46 tag)) ∧
    (BrsHead s i.val 0x47 tag d s1 → d < 2 ^ 38 → bit d 15 = false → BrsSeq s1 i.val (bits d 0 15) (bits d 16 16) →
      BrsOwn s1 i.val (bits d 32 6) → s1.grpPageTok (bits d 32 6) = s1.grpPageTok (s1.brsEnt (bits d 0 15)).grp →
      s1.grpKvPool (bits d 32 6) = s1.grpKvPool (s1.brsEnt (bits d 0 15)).grp → s1.grpUsed (bits d 32 6) < s1.grpQuota (bits d 32 6) →
      (s1.brsEnt (bits d 0 15)).state ≠ 6 →
      exec (.migrate i false) s = .next
        (((s1.setBrsEnt (bits d 0 15) { s1.brsEnt (bits d 0 15) with mig := some (bits d 32 6) }).answer stOk).brsReply i.val 0x47 tag)) ∧
    (BrsHead s i.val 0x48 tag d s1 → d < 2 ^ 29 → bits d 6 10 = 0 → BrsOwn s1 i.val (bits d 0 6) → bits d 16 13 ≠ 0 →
      bits d 16 13 ≤ s1.fld (BRS_GRP_OUT (bits d 0 6)) 32 14 →
      exec (.outDone i false) s = .next ((((s1.setFld (BRS_GRP_OUT (bits d 0 6)) 0 13
        (s1.fld (BRS_GRP_OUT (bits d 0 6)) 0 13 + bits d 16 13)).setFld (BRS_GRP_OUT (bits d 0 6)) 32 14
          (s1.fld (BRS_GRP_OUT (bits d 0 6)) 32 14 - bits d 16 13)).answer stOk).brsReply i.val 0x48 tag))

/-- R267 to R281: a group's step commits once every task of it has ended, and its boundary follows; a group that waited for output room
builds its next step when there is room; a block move copies its block's bytes and frees the buffer it left. -/
def Obligations.BaristaStepsAndMovesComplete : Prop :=
  (∀ (s : State) (g : Fin 64), s.fld CLK_EN_HUB 19 1 = 1 → s.grpState g.val ≠ 0 → (s.brsGrp g.val).stalled = false →
    (((s.brsSend g.val).brsGrp g.val).tasks = [] → exec (.stepCommit g []) s = .next ((s.brsSend g.val).boundary g.val)) ∧
    (((s.brsSend g.val).brsGrp g.val).tasks ≠ [] →
      (∀ t ∈ ((s.brsSend g.val).brsGrp g.val).tasks, ((s.brsSend g.val).taskStatus t).isSome) →
      ∀ late, exec (.stepCommit g late) s = .next ((((s.brsSend g.val).commitStep g.val
        (((s.brsSend g.val).brsGrp g.val).tasks.filterMap (s.brsSend g.val).taskStatus)).stragglers g.val (late.map (·.val))).boundary g.val))) ∧
  (∀ (s : State) (g : Fin 64), s.fld CLK_EN_HUB 19 1 = 1 → s.grpState g.val ≠ 0 → (s.brsGrp g.val).stalled = true →
    s.outRoom g.val = true → exec (.outputRoomWaitEnd g) s = .next ((s.setBrsGrp g.val { s.brsGrp g.val with stalled := false }).buildAndDispatch g.val)) ∧
  (∀ (s : State) (n : Fin 4) (b : Nat), s.brs.moves[n.val]? = some b → (s.brsBlk b).place = 2 →
    (∀ q, (s.brsEnt q).state ≠ 5) → ∃ t, exec (.blockMoveDone n) s = .next t ∧
      t.brs.moves = s.brs.moves.filter (fun m => m != b) ∧ (t.brsBlk b).place = 1 ∧
      t.dev = (s.devChecked (s.bufAddr (s.grpKvPool (s.brsBlk b).grp) (s.brsBlk b).hbm)
        (s.poolCfg (s.grpKvPool (s.brsBlk b).grp)).2.2.1).dev.copy (s.bufAddr (s.grpKvPool (s.brsBlk b).grp) (s.brsBlk b).hbm) (s.bufAddr (s.grpSpillPool (s.brsBlk b).grp) (s.brsBlk b).silo)
        (s.poolCfg (s.grpKvPool (s.brsBlk b).grp)).2.2.1)

/-- R288, R293, R294, R301, R307, R308: a request that a port delivers, and that passes the checks of Table 11.1, is performed and its
reply sent; a COMBINE of a live dispatch is added to the dispatch's bytes and completes the entry with its last piece; an epoch notice is
applied and gets no reply; the requests of a frame are served in order. -/
def Obligations.InboundRequestsAreServed : Prop :=
  ∀ (s s2 : State) (p : Fin 25) (v : Nat), let h := ReqHdr.ofNat (bits v 0 256)
    (∀ c op, (c, op) ∈ [(Instr.ldRequest p, 0x01), (.stRequest p, 0x02), (.swap p, 0x10), (.cas p, 0x11), (.faddI64 p, 0x12),
                        (.addI64 p, 0x13), (.addRec p, 0x14), (.addF32 p, 0x15)] →
      FabHead s p.val op v s2 → ∃ a s3, s2.accessIn h (v >>> 256) = (some a, s3) ∧ exec c s = .next (fabAnswered s3 v a)) ∧
    (FabHead s p.val 0x20 v s2 → ∀ a s3, s2.dispatchIn h (v >>> 256) = (some a, s3) → exec (.dispatch p) s = .next (fabAnswered s3 v a)) ∧
    (FabHead s p.val 0x21 v s2 → ∀ u r e d st s3, Tbl.get none s2.fab.tags (bits (v >>> 256) 0 17) = some u →
      u.req.owner = .dispatch r e → u.quarantined = false → s2.dispAt r e = some d →
      (d.spec = true → Tbl.get 0 s2.epochs (epochKey d.grp d.epoch) % 4 ∉ [0, 3] ∧ bits (v >>> 256) 42 32 = d.step) → d.mode = bits (v >>> 256) 17 2 →
      h.addr = d.outGlobal + bits (v >>> 256) 74 18 → bits (v >>> 256) 74 18 + (h.len - 32) ≤ d.outLen →
      s2.combineRun (if d.mode = 0 then .addF32 else if d.mode = 1 then .addI64 else .addRec) d.inst 32 h.addr (h.len - 32)
        (bits (v >>> 256) 256 (8 * (h.len - 32))) = (st, s3) →
      let ps : List Piece := d.pieces ++ [{ off := bits (v >>> 256) 74 18, len := h.len - 32, status := some st }]
      let s4 := s3.setDisp r e (some { d with pieces := ps })
      exec (.combine p) s = .next (fabAnswered
        (if d.outLen ≤ ps.foldl (fun (k : Nat) (p : Piece) => k + p.len) 0 then s4.dispEnd r e (piecesStatus ps) else s4) v { status := st })) ∧
    (FabHead s p.val 0x22 v s2 → exec (.epochNote p) s = .next (s2.epochNote h (v >>> 256))) ∧
    (FabHead s p.val 0x30 v s2 → ∀ s3 w m, s2.frameRun false 256 (v >>> 256) h.len (0, 0) = ((w, m), s3) → m ≠ 0 →
      exec (.bulk p) s = .next (s3.sendTo h.srcCard 0 h.tc (s3.reqHeader 0
        ({ op := 0x30, card := h.srcCard, part := 0, addr := 0, len := m, owner := .note, inst := noInst, gen := 0, timed := h.tc,
           srcPart := some 0 } : FabReq) + w <<< 256) (32 + m) []))

/-- R297 to R301: the reply that answers a held tag frees it and completes its request; a waiting request is granted a tag, or an entry
of its gateway's queue, in the order of R297; a tag whose reply is late is quarantined and its request completes with RETIRED, and the
quarantine ends by itself; an open frame is sent. -/
def Obligations.RequestersCommandsComplete : Prop :=
  (∀ (s : State) (p : Fin 25) (v n : Nat) rest u, (s.port p.val).got = (v, n, false) :: rest → bits v 0 8 = 0x80 →
    Tbl.get none s.fab.tags (bits v 32 17) = some u → u.quarantined = false → bits v 64 16 = u.req.gen % 65536 →
    (u.req.inst ≠ noInst → u.req.gen = s.instGen u.req.inst) →
    (∀ r e, u.req.owner ≠ .dispatch r e) → let s2 := s.setPort p.val { s.port p.val with got := rest }
    exec (.fabricReply p) s = .next (((s2.holdTag (bits v 32 17) none).hubRefused u.req (bits v 8 8)).fabDone u.req.owner
      { status := bits v 8 8, cause := if bits v 8 8 = stFaultAccess then cRemoteRefused else 0, data := bits (v >>> 128) 0 (8 * bits v 16 15) })) ∧
  (∀ (s : State) k r, nextRequest s.dropStale.fab.rr (·.unit) (fun r => !(s.dropStale.throughGateway r.card) && s.dropStale.tagOk r)
      s.dropStale.fab.waiting = some (k, r) →
    let s2 := { s.dropStale with fab := { s.dropStale.fab with waiting := eraseAt s.dropStale.fab.waiting k, rr := (r.unit + 1) % 70 } }
    s2.unreachable r.card = false →
    exec .tagGrant s = .next ((s2.fabSend s2.fab.freeTag r).noteTag r.owner s2.fab.freeTag)) ∧
  (∀ (s : State) (gw : Fin 4) k r, (s.dropStale.gateway gw.val).queue.length < 512 →
    nextRequest s.dropStale.fab.rr (·.unit) (fun r => s.dropStale.throughGateway r.card && gatewayOf r.card == gw.val)
      s.dropStale.fab.waiting = some (k, r) →
    exec (.gwEntryGrant gw) s = .next ({ s.dropStale with
      fab := { s.dropStale.fab with waiting := eraseAt s.dropStale.fab.waiting k, rr := (r.unit + 1) % 70 } }.gwEnter r)) ∧
  (∀ (s : State) (t : Fin 131072) u, Tbl.get none s.fab.tags t.val = some u →
    (u.quarantined = false → exec (.fabricTimeout t) s = .next ((((s.holdTag t.val (some { u with quarantined := true })).bump
      FAB_TIMEOUT_CNT).event FAB_EVENT 0).fabDone u.req.owner { status := stRetired })) ∧
    (u.quarantined = true → exec (.tagQuarantineEnd t) s = .next (s.holdTag t.val none))) ∧
  (∀ (s : State) (gw : Fin 4) (card : Fin 4096),
    exec (.gwFrameSend gw card) s = .next ((s.gwSend gw.val card.val).gwPack gw.val 1024))

/-- R305 to R307: the tail of a dispatch ring moves forward; the next entry is read, its addresses are translated and its DISPATCH is
sent; a refused one is sent again; an entry whose bytes have all been combined completes; an inbox hands out its oldest READY slot, sends
the result of a TAKEN one, and frees it when every COMBINE of it has completed. -/
def Obligations.DispatchCommandsComplete : Prop :=
  (∀ (s : State) (r : Fin 64) (tail : BitVec 8),
    (s.fld (FAB_XR_TAIL r.val) 0 8 + 256 - s.fld (FAB_XR_HEAD r.val) 0 8) % 256 ≤ (tail.toNat + 256 - s.fld (FAB_XR_HEAD r.val) 0 8) % 256 →
    exec (.fabXrTailWrite .mc r tail) s = .next ((s.setFld (FAB_XR_TAIL r.val) 0 8 tail.toNat).answer stOk)) ∧
  (∀ (s s1 s2 s3 : State) r o n segs l1 outs l2 ats l3, s.nextRing = some r →
    let e := s.fld (FAB_XR_HEAD r) 0 8
    let v := s.ringEnt r e
    let cfg := s.reg (FAB_XR_CFG r)
    let dir := s.reg (FAB_XDIR (bits v 0 16) 0)
    dispBad v (bit cfg 20) = false → bits v 192 16 ≠ 0 → bits v 352 24 ≠ 0 → bit dir 0 = true → bits dir 20 4 = bits cfg 10 4 →
    s.span .hub (bits cfg 1 9) .read (bit cfg 21) 3 (bits v 128 64) (bits v 192 16) = (.ok segs l1, s1) →
    s1.span .hub (bits cfg 1 9) .write (bit cfg 21) 4 (bits v 224 64) (bits v 352 24) = (.ok ((.local o, n) :: outs) l2, s2) →
    s2.span .hub (bits cfg 1 9) .atom (bit cfg 21) 4 (bits v 224 64) (bits v 352 24) = (.ok ats l3, s3) →
    (bit v 48 = true → Tbl.get 0 s3.epochs (epochKey (bits cfg 14 6) (bits v 32 16)) % 4 ∉ [0, 3]) →
    exec .dispatchRingRead s = .next (s3.sendDispatch r e v o segs l1)) ∧
  (∀ (s : State) (r : Fin 64) (e : Fin 256) d t, s.dispAt r.val e.val = some d → s.dispTag r.val e.val = some t → d.waiting = true →
    let s2 := (s.setDisp r.val e.val (some { d with waiting := false, retries := d.retries + 1 })).bump FAB_XD_RETRY_CNT
    s2.unreachable d.req.card = false → s2.throughGateway d.req.card = false →
    exec (.dispatchRetry r e) s = .next (s2.fabSend t d.req)) ∧
  (∀ (s : State) (r : Fin 64) (e : Fin 256) d, s.dispAt r.val e.val = some d → d.outLen ≤ d.pieces.foldl (fun k p => k + p.len) 0 →
    exec (.dispatchEntryComplete r e) s = .next (s.dispEnd r.val e.val (piecesStatus d.pieces))) ∧
  (∀ (s : State) (i : Fin 64) k rest, Tbl.get [] s.fab.arrived i.val = k :: rest →
    exec (.fabXiNext .mc i) s = .next (({ s with fab := { s.fab with arrived := Tbl.put [] s.fab.arrived i.val rest } }.setSlot i.val k 2).answer
      stOk 0 [k])) ∧
  (∀ (s : State) (i : Fin 64) (slot : BitVec 16), slot.toNat < s.fld (FAB_XI_CFG i.val) 25 12 →
    (s.slotState i.val slot.toNat = 4 → exec (.fabXiDone .mc i slot) s = .next ((s.slotFree i.val slot.toNat).answer stOk)) ∧
    (s.slotState i.val slot.toNat = 2 →
      exec (.fabXiDone .mc i slot) s = .next ((s.xiSend i.val slot.toNat).answer stOk))) ∧
  (∀ (s : State) (i : Fin 64) (k : Fin 4096), (s.fab.combining.any (fun c => c.inbox == i.val && c.slot == k.val && c.left == 0)) = true →
    exec (.inboxSlotFree i k) s = .next (s.slotFree i.val k.val))

/-- R302: GET and PUT take the descriptor at the head of an instance's queue and move it piece by piece, local bytes to or from what the
other card answers, each piece after the one before it. -/
def Obligations.GatewayDescriptorsMove : Prop :=
  ∀ (s : State) (i : Fin 512) (it : CItem) (q : Carafe) (a : PieceData) (op : Nat) (c : Instr),
    (c, op) ∈ [(Instr.get i false [a], 1), (.put i false [a], 2)] → (∀ j ∈ (s.gwQueue i.val).jobs, j.ended = true) →
    (s.gwQueue i.val).q.pop = some (it, q) → bits it.data 0 8 = op → bits it.data 32 16 = (s.gwQueue i.val).gen → gwReserved it.data = false →
    gwLen it.data ≠ 0 → gwLen it.data % 64 = 0 → gwLocal it.data % 64 = 0 → gwRemote it.data % 64 = 0 → gwCmpl it.data % 16 = 0 →
    let j : DmaJob := { desc := it.data, status := 0, ended := false }
    exec c s = .next ((s.setGwQueue i.val { s.gwQueue i.val with q := q, jobs := (s.gwQueue i.val).jobs ++ [j] }).gwMove i.val j a)

/-- R417 to R424, R512: a message enters its channel with the header fields that the hub writes and is counted by its sender's room; a
notice that waits is delivered when it finds room; a receiver takes the next message of its channels, or the idle item; a vector that is
unmasked is sent if it is pending. -/
def Obligations.MailboxCommandsComplete : Prop :=
  (∀ (s : State) (i : Fin 512) (rid : BitVec 16) (msg : BitVec 512), let c := mbxRoute (bits msg.toNat 0 8)
    s.instState i.val ≠ 0 → (s.chan i.val c).part < 4 → (s.chan i.val c).used < mbxDepth →
    let m := mbxStamp msg.toNat 0 (s.fld (PRT_INST i.val) 6 2) i.val 0 (s.instGen i.val) rid.toNat
    exec (.mbxSend i rid msg) s = .next ((if c = 2 then s.upEp i.val m
      else s.setChan i.val c ((s.chan i.val c).push (setBits m 12 1 1))).answer stOk)) ∧
  (∀ (s : State) (mc : Fin 4) (i : Fin 512) (msg : BitVec 512), s.instState i.val ≠ 0 → (s.chan i.val 3).part < 4 →
    let m := mbxStamp msg.toNat 1 0 i.val 0 (s.instGen i.val) mc.val
    (bit m 10 = true → (s.chan i.val 3).q.items.length < mbxDepth →
      exec (.mbxMcSend mc i msg) s = .next ((s.setChan i.val 3 ((s.chan i.val 3).push m)).answer stOk)) ∧
    (bit m 10 = false → exec (.mbxMcSend mc i msg) s = .next ((s.mbxNotice i.val 3 m).answer stOk))) ∧
  (∀ (s : State) (lc : Fin 480) (ctx : Ctx) (i : Fin 512) (msg : BitVec 512), s.instState i.val ≠ 0 →
    s.partFld (s.instPart i.val) 49 9 = lc.val → s.partCtx (s.instPart i.val) = ctx → (s.chan i.val 5).part < 4 →
    let own := instTag (if ctx = .timed then s.fld (PRT_LC_INST lc.val) 0 9 else s.fld (PRT_LC_INST lc.val) 9 9)
    let m := mbxStamp msg.toNat 3 0 own (b2n (ctx == .elastic)) (s.instGen own) lc.val
    (if bit m 10 then (s.chan i.val 5).q.items.length < mbxDepth else s.dnRoom i.val 5 = true) →
    exec (.mbxEpSend lc ctx i msg) s = .next ((s.setChan i.val 5 ((s.chan i.val 5).push m)).answer stOk)) ∧
  (∀ (s : State) (i : Fin 512) m rest, Tbl.get [] s.notices i.val = m :: rest → s.dnRoom i.val (m >>> 512) = true →
    exec (.noticeSend i) s = .next (({ s with notices := Tbl.put [] s.notices i.val rest }.setChan i.val (m >>> 512)
      ((s.chan i.val (m >>> 512)).push (m % 2 ^ 512))).noticePump i.val rest.length)) ∧
  (∀ (s : State) (i : Fin 512) (ch : Fin 3) (bad : Bool), s.instState i.val ≠ 0 →
    exec (.mbxRecv i ch bad) s = .next (s.mbxHostRead i.val (ch.val + 3) bad) ∧
    ((s.chan i.val (ch.val + 3)).q.items = [] → ∃ t, exec (.mbxRecv i ch bad) s = .next t ∧ t.mbx = s.mbx ∧
      t.reply = { code := stOk, attn := s.attn i.val, data := mbxWords (mbxIdle (s.attn i.val)) })) ∧
  (∀ (s : State) (bad : Bool) i m s2, s.mbxNext (Tbl.get 511 s.epPtr 16) 0 (fun _ => true) = some i → s.mbxRead i 0 bad = (some m, s2) →
    exec (.mbxMcRecv bad) s = .next ({ s2 with epPtr := Tbl.put 511 s2.epPtr 16 i }.answer stOk 0 (mbxWords m))) ∧
  (∀ (s : State) (p : Fin 16) (bad : Bool) i m s2,
    s.mbxNext (Tbl.get 511 s.epPtr p.val) 2 (fun i => s.instPart i == p.val) = some i → s.mbxRead i 2 bad = (some m, s2) →
    exec (.mbxEpRecv p bad) s = .next ({ s2 with epPtr := Tbl.put 511 s2.epPtr p.val i }.answer stOk 0 (mbxWords m))) ∧
  (∀ (s : State) (i : Fin 512) (v : Fin 3), Tbl.get 0 s.tdi i.val ≠ 1 → Tbl.get 0 s.tdi i.val ≠ 2 → v.val ∉ (s.msixOf i.val).unmasked →
    exec (.msixUnmask i v) s = .next ((s.setMsix i.val { s.msixOf i.val with unmasked := (s.msixOf i.val).unmasked ++ [v.val] }).msixSend
      i.val v.val))

/-- R321, R326, R331, R332: the management cores' commands to a fabric port, in the states in which Table 12.6 has them act. -/
def Obligations.PortCommandsComplete : Prop :=
  ∀ (s : State) (p : Fin 24), s.fld CLK_EN_HUB (linkEnBit p.val) 1 = 1 →
    (s.portState p.val = 0 → exec (.enable .mc p) s = .next ((s.startArb p.val).answer stOk)) ∧
    (s.portState p.val ≠ 0 → s.portState p.val ≠ 7 →
      exec (.disable .mc p) s = .next
        ((if (s.portState p.val = 3 ∨ s.portState p.val = 4) ∧ (s.port p.val).buf ≠ []
          then (s.setPort p.val { s.port p.val with disabling := true, masked := true }).rehashAll p.val else s.linkOff p.val).answer stOk)) ∧
    (s.portState p.val = 3 → exec (.retrain .mc p) s = .next ((s.linkDown p.val).answer stOk)) ∧
    (∀ l : Fin 16, s.portState p.val = 3 → s.swapPending p.val = false → s.smap p.val false = 0xF → s.spareOk p.val = true → l.val < 8 →
      exec (.swapCommand .mc p l) s = .next ((s.requestSwap p.val l.val).answer stOk)) ∧
    (s.portState p.val = 7 → exec (.unretire .mc p) s = .next (((s.linkDown p.val).portCause).answer stOk))

/-- R321 to R323, R326, R328: a port goes from ARB through TRAIN to ACTIVE, falls back to RECOVERY and to DOWN, and leaves DOWN, each step
by the event that Table 12.6 or Table 12.7 names. -/
def Obligations.PortsBringUpAndRecover : Prop :=
  ∀ (s : State) (p : Fin 24), let x := s.port p.val
    (∀ key : BitVec 72, s.portState p.val = 1 → key.toNat ≠ s.lnkKey p.val →
      exec (.announce p key) s = .next (((((s.setPort p.val
        { x with key := some key.toNat, bursts := if isCopper p.val then max 1 x.bursts else x.bursts,
                 phase := if isCopper p.val then 1 else 3 }).setReg (LNK_PARTNER_ID p.val) (key.toNat >>> 8)).setReg
          (LNK_PARTNER_PORT p.val) (key.toNat % 256 + 256)).setFld (LNK_STATE p.val) 3 1 (b2n (decide (key.toNat < s.lnkKey p.val)))).setLink
            p.val 2)) ∧
    (s.portState p.val = 1 → isCopper p.val = true →
      exec (.arbListenEnd p) s = .next (s.setPort p.val { x with bursts := x.bursts + 1 }) ∧
      (1 ≤ x.bursts → x.round < 72 → exec (.collisionRound p) s = .next ((s.setPort p.val
        { x with round := x.round + 1, bursts := x.bursts + 1,
                 backoffUs := if bit (s.lnkKey p.val) (71 - x.round) then 12 else 4 }).bumpFld (LNK_ARB_CNT p.val) 16 16 1))) ∧
    (∀ spare tx rx, s.portState p.val = 2 →
      (x.phase < 4 → exec (.trainingPhaseEnd p spare tx rx) s = .next (s.setPort p.val { x with phase := x.phase + 1 })) ∧
      (x.phase = 4 → exec (.trainingPhaseEnd p spare tx rx) s = .next
        ((s.setFld (LNK_STATE p.val) 16 1 (b2n (spare && !x.spareBad))).setPort p.val { x with phase := 5 })) ∧
      (x.phase = 5 → ∀ a b, agreeLane (Tbl.get none s.laneRecs (2 * p.val)) (tx.map (·.val)) = some a →
        agreeLane (Tbl.get none s.laneRecs (2 * p.val + 1)) (rx.map (·.val)) = some b →
        exec (.trainingPhaseEnd p spare tx rx) s = .next
          ((((s.setFld (LNK_STATE p.val) 4 4 a).setFld (LNK_STATE p.val) 8 4 b).setFld LNK_STATUS (24 + p.val) 1
            (b2n (a != 0xF || b != 0xF))).setPort p.val { x with phase := 6 }))) ∧
    (s.portState p.val = 2 → x.phase = 6 → exec (.ready p) s = .next ((((s.setPort p.val
      { x with phase := 0, buf := [], replays := 0, nakOut := false, ackV := false, cred0 := 224, cred1 := 32, freed0 := 0, freed1 := 0,
               part0 := [], part1 := [], ready := true, masked := false }).setReg (LNK_SEQ p.val) 0).setLink p.val 3).lnkPump p.val 1024)) ∧
    (s.portState p.val = 2 → exec (.trainTimeout p) s = .next (s.linkDown p.val)) ∧
    (s.portState p.val = 4 → x.disabling = false →
      exec (.recoveryTimeout p) s = .next ((s.linkDown p.val).bumpFld (LNK_RECOV_CNT p.val) 32 32 1)) ∧
    (s.portState p.val = 3 → exec (.codewordLockLoss p) s = .next (s.setLink p.val 4)) ∧
    (s.portState p.val = 4 → x.swaps = [] → x.dead = none → ∀ spare, exec (.fastRetrainDone p spare) s = .next
      (((((s.setFld (LNK_STATE p.val) 16 1 (b2n (spare && !x.spareBad))).setPort p.val
        { x with recWin := x.recWin + 1, replays := 0 }).bumpFld (LNK_RECOV_CNT p.val) 0 32 1).bumpFld (LNK_REPLAY_CNT p.val) 0 32
          x.buf.length).setLink p.val 3 |>.lnkPump p.val 1024)) ∧
    (s.portState p.val = 5 → s.fld (LNK_STATE p.val) 18 1 = 1 → exec (.drainHoldEnd p) s = .next
      (((s.setFld (LNK_STATE p.val) 18 1 0).setPort p.val { x with drainDone := true }).rehashAll p.val)) ∧
    (s.portState p.val = 5 → x.drainDone = true → s.fld (LNK_CFG p.val) 3 1 = 1 → s.fld CLK_STATUS 2 1 = 0 →
      exec (.downToArb p) s = .next (s.startArb p.val))

/-- R325, R326, R329 to R331: a codeword that is uncorrectable or fails its CRC is counted and asked for again; a good one gives its
credits, acknowledgement and slots; the replay timer resends; the swap to the spare lane takes its steps; a lane that has lost lock or
passes its threshold is swapped or retires its port. -/
def Obligations.FlitsAndLanesAreServed : Prop :=
  ∀ (s : State) (p : Fin 24), let x := s.port p.val
    (∀ ctl flit sym, s.portState p.val = 3 →
      let s1 := s.bump64 (LNK_CW_CNT p.val) 1
      (exec (.flitRx p ctl flit sym true) s = .next
        (((s1.setPort p.val { s1.port p.val with uncWin := x.uncWin + 1 }).bump (LNK_CW_UNCORR_CNT p.val)).sendNak p.val)) ∧
      let s2 := (if sym.isEmpty then s1 else (s1.bump64 (LNK_CW_CORR_CNT p.val) 1).laneSyms p.val sym).cwControl p.val ctl.toNat
      exec (.flitRx p ctl flit sym false) s = .next (if crc64 flit.toNat 624 ≠ bits flit.toNat 4992 64
        then (s2.bump (LNK_CRC_ERR_CNT p.val)).sendNak p.val else s2.flitIn p.val flit.toNat)) ∧
    (s.portState p.val = 3 → x.buf ≠ [] →
      exec (.replayTimer p) s = .next ((s.bumpFld (LNK_REPLAY_CNT p.val) 32 32 1).replay p.val)) ∧
    (∀ l : Fin 8, s.portState p.val = 3 → isCopper p.val = false → exec (.swapReq p l) s = .next (((s.setPort p.val
      { x with swaps := x.swaps ++ [{ lane := l.val, tx := true, stage := 3 }] }).setFld (LNK_STATE p.val) 12 4 l.val).setFld
        (LNK_STATE p.val) 17 1 1)) ∧
    (∀ w, s.portState p.val = 3 → x.swaps.find? (fun w => w.tx && w.stage == 3) = some w →
      exec (.swapAck p) s = .next (s.switchLane p.val w.lane true)) ∧
    (x.swaps ≠ [] → isCopper p.val = false → exec (.swapRej p) s = .next (((((s.setPort p.val { x with swaps := [], spareBad := true }).setFld
      (LNK_STATE p.val) 16 1 0).setFld (LNK_STATE p.val) 12 4 0xF).setFld (LNK_STATE p.val) 17 1 0).bumpFld (LNK_SWAP_CNT p.val) 16 16 1)) ∧
    (∀ w, x.swaps.find? (fun w => w.tx && w.stage == 8) = some w →
      exec (.laneDriveOff p) s = .next (s.setPort p.val { x with swaps := x.swaps.filter (fun v => v != w), off := x.off ++ [w.lane] })) ∧
    (exec .lnkWindowEnd s = .next ((List.range 24).foldl State.portWindow s)) ∧
    (∀ l : Fin 9, s.portState p.val = 3 ∨ s.portState p.val = 4 →
      let s1 := (s.setFld (LNK_EC_STAT p.val l.val) 16 1 0).setPort p.val { x with lockWin := x.lockWin ++ [l.val] }
      let s2 := (s1.event RAS_EVENT 1).errLog { level := 4, kind := 17, action := 2, res := p.val, detail := l.val, count := 1 }
      exec (.laneLockLoss p l) s = .next
        (if l.val = 8 ∧ s1.smap p.val false = 0xF
         then (s1.setPort p.val { s1.port p.val with spareBad := true }).setFld (LNK_STATE p.val) 16 1 0
         else if s2.smap p.val false ≠ 0xF ∨ s2.spareOk p.val = false then s2.retirePort p.val
         else (s2.setPort p.val { s2.port p.val with dead := some l.val }).toRecovery p.val))

/-- R349 to R353, R356 to R358: a pushed job is taken into its queue, where the checks of Table 13.6 are made as it is accepted; a free unit
takes the next code block of the job that R352 puts first, and gives its result; a job whose blocks have ended completes; one whose
deadline passes before its first block completes with REFUSED_CAPACITY, late; a queue's jobs are cancelled by tag, or all of them by its
reset. -/
def Obligations.FecCommandsComplete : Prop :=
  (∀ (s : State) (q : Fin 64) (job : BitVec 512) (poison : Bool) (c : Instr) (op : Nat),
    (c, op) ∈ [(Instr.ldpcDec .mc q job poison, 1), (.ldpcEnc .mc q job poison, 2), (.polarDec .mc q job poison, 3),
               (.polarEnc .mc q job poison, 4)] → fecOp job.toNat = op →
    s.domOff 26 = false → q.val ∉ s.retiredQ → s.fld CLK_EN_HUB 9 1 = 1 → s.fld (FEC_QCFG q.val) 0 1 = 1 →
    exec c s = .next (({ s with fec := { s.fec with
      held := Tbl.put [] s.fec.held q.val (Tbl.get [] s.fec.held q.val ++ [(setBits job.toNat 0 8 op, poison)]) } }.fecServe q.val).answer
        stOk)) ∧
  (∀ (s : State), (∀ j ∈ s.fec.jobs, s.fecLate j = false) → s.fld FEC_CTRL 0 1 ≠ 0 → ∀ u j,
    (List.range 44).findSome? (fun u => if s.unitFree u then (s.fecBest u).map (fun j => (u, j)) else none) = some (u, j) →
    exec .codeBlockStart s = .next (s.fecTake u j)) ∧
  (∀ (s : State) (u : Fin 44) (error : Bool) id i j, Tbl.get none s.fec.units u.val = some (id, i) →
    s.fec.jobs.find? (fun j => j.id == id) = some j →
    exec (.codeBlockEnd u error) s = .next ({ s with fec := { s.fec with units := Tbl.put none s.fec.units u.val none } }.fecBlockEnd u.val j i
      error)) ∧
  (∀ (s : State) (q : Fin 64) j, s.fec.jobs.find? (fun j => j.q == q.val && j.finished) = some j →
    exec (.fecJobComplete q) s = .next (s.fecComplete j)) ∧
  (∀ (s : State) (ticks : BitVec 64) j, (s.elapse ticks.toNat).fec.jobs.find? (s.elapse ticks.toNat).fecLate = some j →
    exec (.fecDeadline ticks) s = .next ((s.elapse ticks.toNat).fecTooLate j)) ∧
  (∀ (s : State) (q : Fin 64), s.fld CLK_EN_HUB 9 1 = 1 →
    (∀ tag : BitVec 16, exec (.fecQctlCancel .mc q tag) s = .next (((((s.fec.jobs.filter (fun j => j.q == q.val && fecTag j.desc == tag.toNat)).foldl
      (fun s j => s.fecStop j stCancelled) s)).fecServe q.val).answer stOk)) ∧
    exec (.fecQctlReset .mc q) s = .next ((s.fecQueueReset q.val).answer stOk))

/-- R340, R341, R361 to R364, R374: a cell is activated when its descriptor passes every check, and becomes ACTIVE at its frame boundary;
it is deactivated at the next slot boundary; an expired holdover mutes it; the mask monitor judges each symbol; a stream is unmuted; the
map of a slot buffer is cleared at its air start; a symbol that is not queued at its send time is counted. -/
def Obligations.CellCommandsComplete : Prop :=
  (∀ (s : State) (c : Fin 256), s.fld CLK_EN_HUB 9 1 = 1 →
    (s.cellState c.val = 0 → s.cellxBad c.val = false → s.cellZero c.val = false → s.cellBad3 c.val = false → s.cellBad4 c.val = false →
      s.cellOver c.val = false → let s1 := s.setCellX c.val { actAt := s.nextFrame c.val }
      exec (.activate .mc c) s = .next (((s1.setFld (FEC_CELL_STAT c.val) 3 10 (s1.weightOf c.val)).setCell c.val 1).answer stOk)) ∧
    (s.cellState c.val ≠ 0 →
      exec (.deactivate .mc c) s = .next ((s.setCellX c.val { s.cellX c.val with offNext := true }).answer stOk))) ∧
  (∀ (s : State) (c : Fin 256) (ticks : BitVec 64), let s1 := s.elapse ticks.toNat
    (s1.cellState c.val = 1 → s1.reached (s1.cellX c.val).actAt = true → exec (.cellFrameBoundary c ticks) s = .next (s1.setCell c.val 2)) ∧
    (s1.cellState c.val = 3 ∨ s1.cellState c.val = 4 → s1.timeValid = true →
      exec (.cellFrameBoundary c ticks) s = .next (s1.setCell c.val 2)) ∧
    (s1.cellState c.val = 3 → s1.timeValid = false → s1.cellFld c.val 112 16 * 1250000 ≤ (2 ^ 64 + s1.cnt - (s1.cellX c.val).since) % 2 ^ 64 →
      exec (.holdoverExpiry c ticks) s = .next ((s1.setCell c.val 4).event FEC_EVENT 4)) ∧
    (s1.cellState c.val ≠ 0 → (s1.cellX c.val).offNext = true → exec (.ulMapClear c ticks) s = .next (s1.cellGone c.val)) ∧
    (s1.cellState c.val ≠ 0 → s1.cellState c.val ≠ 1 → (s1.cellX c.val).offNext = false →
      let s2 := if s1.cellState c.val = 4 then s1
        else s1.devWrite (s1.ulBase c.val + 256 * (s1.cellNow c.val / slotNs (s1.cellMu c.val) % 4)) 256 0
      exec (.ulMapClear c ticks) s = .next
        (if s1.cellState c.val = 4 ∨ s1.fhState (s1.cellTarget c.val) ≠ 2 then s2.bumpFld (FEC_CELL_MISS c.val) 0 16 1 else s2)) ∧
    (∀ (f : BitVec 8) (sub : Fin 10) (slot : Fin 8) (sym : Fin 14), s1.cellOn c.val = true → slot.val < slotsOf (s1.cellMu c.val) →
      s1.symDue c.val f.toNat sub.val slot.val sym.val = true → let k := symKey c.val f.toNat sub.val slot.val sym.val
      (s1.symOf c.val f.toNat sub.val slot.val sym.val = 0 →
        exec (.symbolSendTime c f sub slot sym ticks) s = .next ((s1.setSym k 3).lateSym c.val)) ∧
      (s1.symOf c.val f.toNat sub.val slot.val sym.val = 1 → exec (.symbolSendTime c f sub slot sym ticks) s = .next (s1.setSym k 2)))) ∧
  (∀ (s : State) (i : Fin 128) (c : Fin 256) (ant : Fin 64) (sym : Fin 14) (pk : List Nat), s.cellMode c.val = 2 →
    s.cellFld c.val 180 2 = 1 ∨ s.cellFld c.val 180 2 = 2 → s.cellState c.val ≠ 0 → let s1 := s.bump64 FH_MASK_CHK_CNT 1
    (worst (s1.maskFound c.val pk) = none → exec (.maskCheck i c ant sym pk) s = .next ({ s1 with maskRun := Tbl.put 0 s1.maskRun i.val 0 }.answer
      stOk 0 [if s.cellFld c.val 180 2 = 2 ∧ s1.muted i.val then 1 else 0])) ∧
    (∀ v, worst (s1.maskFound c.val pk) = some v → exec (.maskCheck i c ant sym pk) s = .next (s1.maskHit i.val c.val ant.val sym.val v))) ∧
  (∀ (s : State) (i : Fin 128), exec (.fhMaskUnmute .mc i true) s = .next
    (({ s with maskRun := Tbl.put 0 s.maskRun i.val 0 }.setFld (mutedReg i.val) (i.val % 64) 1 0).answer stOk))

/-- R371, R377 to R381, R383 to R385, R390, R393, R394: a descriptor pushed into a window is accepted in its order; a target sends the frame
that its scheduler picks; a head frame that can no longer be sent is dropped; a descriptor whose copies have ended completes; gate lists
are swapped, stopped and stepped; a window is reset; a host port delivers into its instance's ring, whose owner releases slots and sets
its size. -/
def Obligations.TrafficManagerCommandsComplete : Prop :=
  (∀ (s : State) (e : Fin 64) (desc : BitVec 512) (poison : Bool) (c : Instr) (op : Nat),
    (c, op) ∈ [(Instr.uplane .mc e desc poison, 1), (.cplane .mc e desc poison, 2), (.raw .mc e desc poison, 3)] → egOp desc.toNat = op →
    0x100 + e.val ∉ s.retiredQ → s.fld CLK_EN_HUB 0 1 = 1 → s.fld (TM_ENQ_CFG e.val) 0 1 = 1 →
    let d := setBits desc.toNat 0 8 op
    exec c s = .next (({ s with tm := { s.tm with
      heldIn := Tbl.put [] s.tm.heldIn e.val (Tbl.get [] s.tm.heldIn e.val ++ [({ data := d, prio := bits d 10 2, poison := poison } : CItem)]) } }.tmRun
        e.val).answer stOk)) ∧
  (∀ (s : State) (t : Fin 32) (ticks : BitVec 64) (crcBad : Bool) q f rest, let s1 := s.elapse ticks.toNat
    s1.fhState t.val = 2 → s1.fld RAS_STATUS 1 1 = 0 → (s1.tmPick t.val 8).1 = some q → (s1.tmPick t.val 8).2.tmQ q = f :: rest →
    exec (.frameTx t ticks crcBad) s = .next (((s1.tmPick t.val 8).2.tmSend t.val q f crcBad).countHeld t.val)) ∧
  (∀ (s : State) (q : Fin 16384) (ticks : BitVec 64) f rest, let s1 := s.elapse ticks.toNat
    s1.tmQ q.val = f :: rest → s1.qTarget q.val < 32 →
    (s1.tooLate q.val f = true → let s2 := (s1.bump TM_DROP_LATE).event TM_EVENT 0
      exec (.headDrop q ticks) s = .next
        ((match s1.tmUplaneCell f with | some c => s2.lateSym c | none => s2).tmDropHead q.val f true false)) ∧
    (s1.tooLate q.val f = false → s1.fhState (s1.qTarget q.val) ≠ 2 →
      exec (.headDrop q ticks) s = .next (((s1.bump TM_DROP_DOWN).event TM_EVENT 4).tmDropHead q.val f false true)) ∧
    (s1.tooLate q.val f = false → s1.fhState (s1.qTarget q.val) = 2 →
      s1.gateNever (s1.qTarget q.val) (s1.nodeClass (s1.qNode q.val)) (f.len + 4) = true →
      exec (.headDrop q ticks) s = .next ((s1.bump TM_DROP_GATE).tmDropHead q.val f false false))) ∧
  (∀ (s : State) (e : Fin 64) j, s.tm.jobs.find? (fun j => j.win == e.val && j.copies.all (fun c => c.left == 0)) = some j →
    let s1 := { s with tm := { s.tm with jobs := s.tm.jobs.filter (fun k => k.id != j.id) } }
    let s2 := if j.outcome.1 = stPartial then s1.bump TM_MC_PARTIAL_CNT else s1
    exec (.egressComplete e) s = .next ((s2.tmRecord j.win j.inst j.gen j.desc j.outcome.1 j.outcome.2.1 j.outcome.2.2.1 j.outcome.2.2.2
      (j.tSent.getD 0)).tmRun j.win)) ∧
  (∀ (s : State) (t : Fin 32), s.fld CLK_EN_HUB 0 1 = 1 →
    (s.fld (TM_GATE_CFG t.val) 0 1 ≠ 0 → (s.gate t.val).swap = none → s.fhExists t.val = true → s.fld (TM_GATE_ADMIN_LEN t.val) 0 11 ≠ 0 →
      s.fld (TM_GATE_ADMIN_LEN t.val) 0 11 ≤ s.gateShare t.val → 1000 ≤ s.fld (TM_GATE_ADMIN_CYCLE t.val) 0 24 →
      s.fld (TM_GATE_ADMIN_CYCLE t.val) 0 24 ≤ 10000000 →
      (∀ e ∈ s.gateAdmin t.val, 20 ≤ gateDur e ∧ gateDur e ≤ 10000000 ∧ bits e 32 32 = 0) →
      exec (.tmGateSwap .mc t false) s = .next ((s.gateSwapSet t.val (s.reg (TM_GATE_ADMIN_BASE t.val)) (s.fld (TM_GATE_ADMIN_CYCLE t.val) 0 24)
        (s.gateAdmin t.val)).answer stOk)) ∧
    (s.gateRunning t.val = true ∨ (s.gate t.val).swap ≠ none →
      exec (.tmGateStop .mc t) s = .next (((s.setGate t.val { s.gate t.val with swap := none, stop := s.gateRunning t.val }).setFld
        (TM_GATE_OPER_STAT t.val) 22 1 0).answer stOk))) ∧
  (∀ (s : State) (t : Fin 32) (ticks : BitVec 64), let s1 := s.elapse ticks.toNat
    let e := s1.fld (TM_GATE_OPER_STAT t.val) 11 10
    (∀ w, (s1.gate t.val).swap = some w → s1.reached w.start = true → s1.gateRunning t.val = false →
      exec (.gateBoundary t ticks) s = .next (s1.gateApply t.val w)) ∧
    ((s1.gate t.val).swap = none → s1.gateRunning t.val = true → s1.reached ((s1.gate t.val).start + s1.gateEnd t.val e) = true →
      exec (.gateBoundary t ticks) s = .next
        (if s1.gateEnd t.val e < s1.fld (TM_GATE_OPER_CYCLE t.val) 0 24 then s1.gateEnter t.val (e + 1)
         else if (s1.gate t.val).stop then s1.gateHalt t.val
         else (s1.setGate t.val { s1.gate t.val with start := (s1.gate t.val).start + s1.gateEnd t.val e }).gateEnter t.val 0))) ∧
  (∀ (s : State) (e : Fin 64), s.fld CLK_EN_HUB 0 1 = 1 → exec (.tmEnqCtlReset .mc e) s = .next ((s.tmWinReset e.val).answer stOk)) ∧
  (∀ (s : State) (i : Fin 512) (n : BitVec 13), s.fld CLK_EN_HUB 0 1 = 1 →
    (n.toNat ≠ 0 → n.toNat ≤ s.hrStat i.val →
      exec (.tmHrDone i n) s = .next ((s.setWreg i.val 0x3018 (s.hrStat i.val - n.toNat)).answer stOk)) ∧
    (hrSizeOk n.toNat = true → n.toNat ≠ s.hrSize i.val → s.hrStat i.val = 0 →
      exec (.tmHrSizeWrite i n) s = .next (((s.setWreg i.val 0x3008 n.toNat).setWreg i.val 0x3010 0).answer stOk))) ∧
  (∀ (s : State) (p : Fin 4) (ticks : BitVec 64) q f rest, let s1 := s.elapse ticks.toNat
    (s1.tmPick (32 + p.val) 1).1 = some q → (s1.tmPick (32 + p.val) 1).2.tmQ q = f :: rest →
    exec (.hostRingDeliver p ticks) s = .next (((s1.tmPick (32 + p.val) 1).2.hrSend q f).countHeld (32 + p.val)))

/-- R368, R371: a frame received on a sub-port that is UP is handled under the rows of Table 14.2, each drop counted; a sub-port is enabled
to DOWN, disabled to DISABLED, and is UP while its PCS has block lock. -/
def Obligations.FronthaulPortCommandsComplete : Prop :=
  (∀ (s : State) (t : Fin 32) (ticks : BitVec 64) (fcsOk : Bool) (frame : List Byte), let s1 := s.elapse ticks.toNat
    s1.fhState t.val = 2 → s1.fld FH_CTRL 0 1 ≠ 0 →
    exec (.frameRx t ticks fcsOk frame) s = .next (s1.frameIn t.val fcsOk (frame.map BitVec.toNat)) ∧
    (fcsOk = false → exec (.frameRx t ticks fcsOk frame) s = .next ((s1.bump64 (FH_RX_FRAMES (t.val / 4)) 1).bump (FH_RX_FCS (t.val / 4))))) ∧
  (∀ (s : State) (p : Fin 8) (sub : Fin 4), s.fld CLK_EN_HUB (1 + p.val) 1 = 1 → s.fhExists (4 * p.val + sub.val) = true →
    (s.fhState (4 * p.val + sub.val) = 0 → exec (.fhPortCmdEnable .mc p sub) s = .next ((s.setFh (4 * p.val + sub.val) 1).answer stOk)) ∧
    (s.fhState (4 * p.val + sub.val) ≠ 0 → exec (.fhPortCmdDisable .mc p sub) s = .next ((s.setFh (4 * p.val + sub.val) 0).answer stOk))) ∧
  (∀ (s : State) (t : Fin 32) (up : Bool), s.fhState t.val ≠ 0 →
    exec (.subportLinkChange t up) s = .next (s.setFh t.val (if up then 2 else 1)))

/-- R400 to R404, R408, R409, R412: a partition command, in the states in which Table 15.4 allows it and with the checks of Table 15.2
passed, changes the partition's state and ends with OK. -/
def Obligations.PartitionCommandsComplete : Prop :=
  ∀ (s : State) (c : PrtCmd), let p := c.part.val
    (PrtRuns s c [0, 1] → s.partBad p = false → s.partClash p = false → s.partShort p = false → let s1 := s.keyMake (513 + p)
      exec (.create c true) s = .next (((((s1.bumpPgen p).setPartState p (if s1.partTimed p then 2 else 3)).startMeas5
        p).setPartSt p {}).prtDone stOk)) ∧
    (PrtRuns s c [2, 4] → exec (.reset c) s = .next (((((s.partInsts p).filter (fun i => s.instState i == 1)).foldl
      (fun s i => s.instReset i false) s).bumpPgen p).prtDone stOk)) ∧
    (PrtRuns s c [2] → s.partTimed p = false → exec (.reclaim c) s = .next (s.partReclaim p)) ∧
    (PrtRuns s c [4] → exec (.partCancel c) s = .next (s.partCancel p)) ∧
    (PrtRuns s c [3] → exec (.assign c true) s = .next ((((s.keyMake (513 + p)).setPartState p 2).startMeas5 p).prtDone stOk)) ∧
    (PrtRuns s c [0, 2, 3] → s.partInsts p = [] → s.partNamed p = false →
      exec (.recover c) s = .next ((s.setPartState p 1).prtDone stOk)) ∧
    (PrtRuns s c [1] → s.partNamed p = false → (∀ g, g < 64 → s.grpState g = 0 ∨ s.grpPart g ≠ p) →
      exec (.destroy c) s = .next (((((s.setPartSt p { s.partSt p with destroying := true }).setPartState p 6).bumpPgen p).setMeas5 p 0).prtDone
        stOk)) ∧
    (∀ (i : Fin 512) grants, PrtRuns s c [2] → s.instCreatable p i.val (s.reg PRT_CMD_ARG) = true →
      exec (.instCreate c i true grants) s = .next
        ((((s.keyMake (i.val + 1)).instMake p i.val (s.reg PRT_CMD_ARG) grants).countRun p).prtDone stOk)) ∧
    (∀ i : Fin 512, s.instState i.val = 1 → s.fld (PRT_INST i.val) 2 4 = p →
      (PrtRuns s c [2, 4, 5] → exec (.instReset c i) s = .next ((s.instReset i.val false).prtDone stOk)) ∧
      (PrtRuns s c [1, 2, 4, 5] → exec (.instDestroy c i) s = .next ((s.instReset i.val true).prtDone stOk)))

/-- R403, R408, R410, R413, R414: a reset of an instance ends when nothing of its old generation is left; the mode and the tags of a
logical core's contexts are written; a partition is DRAINING from its reclaim instant, is torn down when its grace has passed, and is VACANT
or ABSENT once its shares are zeroed. -/
def Obligations.InstancesAndReclaimComplete : Prop :=
  (∀ (s : State) (i : Fin 512), s.instState i.val = 2 → s.instBusy i.val = false →
    (i.val ∈ s.dying → exec (.instanceResetEnd i) s = .next (s.instFree i.val)) ∧
    (i.val ∉ s.dying → exec (.instanceResetEnd i) s = .next
      (((s.setFld (PRT_INST i.val) 0 2 1).countRun (s.fld (PRT_INST i.val) 2 4)).notify i.val 0x23 (s.instGen i.val)))) ∧
  (∀ (s : State) (m : BitVec 2), m.toNat ≠ s.fld PRT_MODE 0 2 →
    (s.locked = false → m.toNat = 0 ∨ m.toNat = 2 → exec (.prtModeWrite .mc m) s = .next ((s.setFld PRT_MODE 0 2 m.toNat).answer stOk)) ∧
    (s.locked = true → m.toNat = 2 → (∀ p, p < 16 → s.partState p ∈ [0, 1, 3]) →
      exec (.prtModeWrite .mc m) s = .next ((s.setFld PRT_MODE 0 2 2).answer stOk))) ∧
  (∀ (s : State) (n : Fin 480) (t e : BitVec 9), s.tagAllowed n.val .timed t.toNat = true → s.tagAllowed n.val .elastic e.toNat = true →
    exec (.prtLcInstWrite .mc n t e) s = .next ((s.setFld (PRT_LC_INST n.val) 0 18 (t.toNat + e.toNat <<< 9)).answer stOk)) ∧
  (∀ (s : State) (p : Fin 16) (ticks : BitVec 64), let s1 := s.elapse ticks.toNat
    (s1.partState p.val = 4 → s1.reached (s1.reg (PRT_RECLAIM_AT p.val)) = true →
      let s2 := s1.setPartState p.val 5
      exec (.reclaimInstant p ticks) s = .next (((List.range 64).filter (fun g => s2.grpState g != 0 && s2.grpPart g == p.val)).foldl
        (fun s g => s.setBrsGrp g { s.brsGrp g with reclaim := true }) s2)) ∧
    (s1.partState p.val = 5 → (s1.partSt p.val).tearing = false →
      s1.tearReady p.val = true → exec (.teardown p ticks) s = .next (s1.tearStart p.val))) ∧
  (∀ (s : State) (p : Fin 16), s.partState p.val = 6 →
    exec (.zeroingDone p) s = .next
      ((((s.zeroShares p.val).setPartSt p.val {}).setPartState p.val (if (s.partSt p.val).destroying then 0 else 3)).event PRT_EVENT 16))

/-- R424: what the management cores do for a message of an instance in RUN. -/
def Obligations.MessageCodesComplete : Prop :=
  ∀ (s : State) (i : Fin 512), s.instState i.val = 1 → let p := s.instPart i.val
    exec (.mbxInstReset i) s = .next (s.instReset i.val false) ∧
    exec (.instQuery i) s = .next (s.answer stOk 0
      [s.instState i.val + s.instGen i.val <<< 2 + s.partState p <<< 18 + (b2n (s.detached i.val)) <<< 21, s.reg (PRT_RECLAIM_AT p)]) ∧
    (∀ (d : BitVec 384) l, let v := d.toNat
      let x : Ctx := if bit v 9 then .elastic else .timed
      bits v 10 54 = 0 → bits v 112 16 = 0 → v < 2 ^ 146 → bits v 128 18 ≠ 0 → bits v 128 18 % 64 = 0 →
      bits v 128 18 ≤ (pmBytes x).2 - (pmBytes x).1 → bits v 0 9 < s.grade.lcs → s.lcPart (bits v 0 9) x = some p →
      s.mcSpan i.val .read 5 (bits v 64 48) (bits v 128 18) = .ok l → (s.spanBytes l).2 = false →
      exec (.progReg i d) s = .next ((s.spanChecked l).progNote p (bits v 0 9) (bit v 9) ((l.head?.map (·.1)).getD 0) (bits v 128 18) (s.spanBytes l).1)) ∧
    (∀ d : BitVec 384, let v := d.toNat
      let lg := pageLg (bits v 48 2)
      let va := s.freeVa i.val (bits v 64 32 * 2 ^ lg) lg
      bits v 0 48 = 0 → bits v 50 14 = 0 → v < 2 ^ 163 → bits v 48 2 ≠ 3 → bits v 64 32 ≠ 0 → bits v 112 48 % 2 ^ lg = 0 →
      va + bits v 64 32 * 2 ^ lg ≤ 2 ^ 48 → ∀ s1, s1 = s.mapPages i.val va lg
        (fun k => fabricLeaf (bits v 112 48 + k * 2 ^ lg) (bits v 96 12) (bits v 108 4) (bit v 160) (bit v 161) (bit v 162)) (bits v 64 32) →
      exec (.mapRemote i d) s = .next
        (({ s1 with
              regions := s1.regions ++ [({ inst := i.val, va := va, size := bits v 64 32 * 2 ^ lg, tier := 4, local_ := false, unit := 0,
                                           base := bits v 112 48, lg := lg } : Region)] } : State).answer stOk 0 [va])) ∧
    (∀ (d : BitVec 384) j, d.toNat < 2 ^ 32 → (List.range 64).find? (fun j => s.fld (FAB_PEER p j) 32 1 == 0) = some j →
      exec (.grantPeer i d) s = .next ((s.setReg (FAB_PEER p j) (d.toNat + 1 <<< 32)).answer stOk 0 [j])) ∧
    (∀ d : BitVec 384, d.toNat < 64 → exec (.revokePeer i d) s = .next ((s.setReg (FAB_PEER p d.toNat) 0).answer stOk)) ∧
    (s.partState p = 4 ∨ s.partState p = 5 → i.val ∉ (s.partSt p).acks →
      exec (.reclaimAck i) s = .next ((s.setPartSt p { s.partSt p with acks := (s.partSt p).acks ++ [i.val] }).answer stOk)) ∧
    (∀ (d : BitVec 384) rng grants, let v := d.toNat
      s.fld (PRT_INST i.val) 18 1 ≠ 0 → bits v 18 14 = 0 → bits v 48 16 = 0 → v < 2 ^ 128 →
      exec (.partCmd i d rng grants) s = .next (s.partCommand (bits v 0 4) (bits v 4 4) (bits v 8 9)
        (if bit v 17 then some (bits v 32 16) else none) (bits v 64 64) rng grants))

/-- R408, R416, R501, R503 to R505, R512: what a host does to its port and to the functions of it. -/
def Obligations.HostCommandsComplete : Prop :=
  (∀ (s : State) (h : Fin 4), exec (.hostLinkDown h) s = .next (s.portDown h.val) ∧ exec (.perst h) s = .next (s.portDown h.val)) ∧
  (∀ (s : State) (h : Fin 4) (rate : Fin 7) (width : BitVec 5) (flit : Bool), s.fld CLK_EN_HUB (11 + h.val) 1 ≠ 0 → rate.val ≠ 0 →
    bit s.boot.hpEn h.val = true → exec (.hostLinkUp h rate width flit) s = .next ((s.setReg (PRT_HPORT_STAT h.val)
      (bits (s.reg (PRT_HPORT_STAT h.val)) 9 11 <<< 9 + 1 + rate.val <<< 1 + width.toNat <<< 4 + (b2n flit) <<< 20)).attach h.val)) ∧
  (∀ (s : State) (h : Fin 4) (fn : BitVec 10) i, fn.toNat ≠ 0 → fn.toNat ≤ 512 → let s1 := s.bump (PRT_HPORT_FLR_CNT h.val)
    (s1.portInsts h.val).find? (fun i => s1.fld (PRT_INST i) 8 10 == fn.toNat) = some i →
    let s2 := if s1.instState i = 1 then s1.instReset i false else s1
    exec (.functionLevelReset h fn) s = .next ((s2.setMsix i {}).setTdi i 0)) ∧
  (∀ (s : State) (f : FnAt) (off : BitVec 16) (len : BitVec 13) (data : Nat) (rid : BitVec 16) (ide : Option (BitVec 8)) i,
    s.fnAnswers f = true → f.fn.val ≠ 0 → s.fnInst f = some i → s.ideOk i ide = true →
    len.toNat = (if winKind off.toNat = .push then 64 else 8) → off.toNat % len.toNat = 0 →
    exec (.bar0Write f off len data rid ide) s = .next ((s.winWrite i rid.toNat off.toNat data).winRecord i off.toNat (s.attn i))) ∧
  (∀ (s : State) (f : FnAt) (off : BitVec 17) (ide : Option (BitVec 8)) (bad : Bool) i, s.fnAnswers f = true → f.fn.val ≠ 0 →
    s.fnInst f = some i → s.ideOk i ide = true →
    (off.toNat % 128 = 0 → 0x40 ≤ off.toNat / 2 → off.toNat / 2 < 0x100 →
      exec (.bar2Read f off 128#13 ide bad) s = .next (s.mbxHostRead i (off.toNat / 2 / 0x40 + 2) bad)) ∧
    (off.toNat % 16 = 0 → off.toNat / 2 < 0x40 ∨ 0x100 ≤ off.toNat / 2 → let r := s.winRead i (off.toNat / 2)
      exec (.bar2Read f off 16#13 ide bad) s = .next { r.2 with reply := { r.2.reply with attn := s.attn i, data := [r.1] } })) ∧
  (∀ (s : State) (h : Fin 4) (write : Bool), s.fld (PRT_HPORT_STAT h.val) 0 1 ≠ 0 →
    exec (.badBarAccess h write) s = .next (if write then s.bump (PRT_HPORT_BADACC h.val) else s.badBar h.val)) ∧
  (∀ (s : State) (f : FnAt), s.fnAnswers f = true →
    (∀ en (num : BitVec 10), f.fn.val = 0 → num.toNat ≤ 512 → exec (.pcieConfigWrite f (.vfs en num)) s = .next
      (((s.setFld (PRT_HPORT_STAT f.port.val) 9 10 num.toNat).setFld (PRT_HPORT_STAT f.port.val) 19 1 (b2n en)).attach f.port.val)) ∧
    (∀ i on, s.fnInst f = some i → let s1 := s.setMsix i { s.msixOf i with on := on }
      exec (.pcieConfigWrite f (.msix on)) s = .next ((s1.msixOf i).pend.foldl (fun s v => s.msixSend i v) s1)) ∧
    (∀ i, s.fnInst f = some i → exec (.pcieConfigWrite f .locked) s = .next (s.tdiError i)))

/-- R430 to R433, R440, R484, R521 to R523, R526: the part is reset, starts, verifies its image, and runs or enters recovery; training of
the memories leaves the channels that failed out of service. -/
def Obligations.ResetAndStartUpComplete : Prop :=
  (∀ s : State, exec .rstNAssert s = .next s.chipReset ∧
    exec .powerRemoval s = .next { s.chipReset with trip := false, repaired := [] }) ∧
  (∀ (s : State) (hpEn : BitVec 4) (fuseOk flashOk : Bool), s.boot.phase = .held →
    exec (.rstNRelease hpEn fuseOk flashOk) s = .next ({ s with boot := { s.boot with hpEn := hpEn.toNat } }.romStart fuseOk flashOk)) ∧
  (∀ (s : State) k trial second, s.boot.phase = .rom k trial second →
    (s.verify k = 0 → exec .imageVerified s = .next (s.bootSlot k trial second)) ∧
    (s.verify k ≠ 0 → let s1 := (s.setFld SEC_BOOT_STAT 3 3 (s.verify k)).event SEC_EVENT k
      exec .imageVerified s = .next (if second then s1.enterRecovery
        else { s1 with boot := { s1.boot with phase := .rom (if trial then s1.boot.conf else 1 - k) false true } }))) ∧
  (∀ (s : State) (ticks : BitVec 64) (fuseOk flashOk : Bool), let s1 := s.elapse ticks.toNat
    s1.fld RAS_STATUS 1 1 = 1 → s1.fld RAS_FATAL_CFG 0 1 = 1 → s1.fatalAt + s1.fld RAS_FATAL_CFG 1 16 * ticksMs ≤ s1.cnt →
    exec (.fatalAutoReset ticks fuseOk flashOk) s = .next (s1.chipReset.romStart fuseOk flashOk)) ∧
  (∀ (s : State) (slot : Fin 2) (unit : BitVec 12), s.boot.phase = .recovery → s.fld SEC_RCV_STAT 0 1 ≠ 1 →
    exec (.secRcvProgram slot unit) s = .next (({ s with boot := { s.boot with
      imgOp := some (.units slot.val unit.toNat 1 s.rcvData none) } }.setFld SEC_RCV_STAT 0 1 1).answer stOk)) ∧
  (∀ (s : State) (fuseOk flashOk : Bool), s.boot.phase = .recovery →
    exec (.secRcvReset fuseOk flashOk) s = .next (s.chipReset.romStart fuseOk flashOk)) ∧
  (∀ (s : State) (failed : List (Fin 16)), let l := (List.range 16).filter (fun c => failed.any (fun f => f.val == c))
    exec (.hbmSiloTrainingDone failed) s = .next (l.foldl (fun s c => s.countErr 15 c 1) { s with siloOut := l }))

/-- R439, R441 to R445: image commands write, check, activate and confirm a slot; the store is written when it has changed, and restarted;
the flash reports the end of what it wrote. -/
def Obligations.ImageAndStoreCommandsComplete : Prop :=
  (∀ (s : State) (i : Fin 512), ImgRuns s i.val →
    (∀ (d : BitVec 384) l, let v := d.toNat
      bits v 1 11 = 0 → bits v 24 40 = 0 → bits v 112 16 = 0 → v < 2 ^ 140 → bits v 128 12 ≠ 0 → bits v 0 1 ≠ s.bootedSlot →
      bits v 12 12 + bits v 128 12 ≤ 4096 →
      s.mcSpan i.val .read (bits v 128 12 / 16 + 2) (bits v 64 48) (4096 * bits v 128 12) = .ok l → (s.spanBytes l).2 = false →
      exec (.imgWrite i d) s = .next ((s.spanChecked l).imgStart i.val (bits v 0 1) (bits v 12 12) (bits v 128 12) (leOf (s.spanBytes l).1))) ∧
    (∀ d : BitVec 384, d.toNat < 2 → let k := bits d.toNat 0 1
      let n := s.verify k
      let others := s.boot.passed.filter (fun j => j != k)
      let s1 := { s with boot := { s.boot with passed := if n = 0 then others ++ [k] else others } }.setFld SEC_IMG_STAT 9 3 n
      exec (.imgCheck i d) s = .next (if n = 0 then s1.imgDone stOk else (s1.imgRefuse i.val 0x32).answer stState 0 [n])) ∧
    (∀ d : BitVec 384, d.toNat < 2 → bits d.toNat 0 1 ≠ s.bootedSlot → bits d.toNat 0 1 ∈ s.boot.passed →
      exec (.imgActivate i d) s = .next ({ s with boot := { s.boot with pend := bits d.toNat 0 1, psDirty := true } }.imgBusy i.val 0x33)) ∧
    (s.fld SEC_BOOT_STAT 1 2 = 1 → exec (.imgConfirm i) s = .next
      ({ s with boot := { s.boot with conf := s.bootedSlot, pend := 0xFF, psDirty := true } }.imgBusy i.val 0x34)) ∧
    (∀ k, s.newestBank = some k → (s.bank k).seq = 0xFFFFFFFE → s.fld PRT_MODE 0 2 ≠ 1 → s.boot.storeOp = none →
      exec (.psRestart i) s = .next (({ s with boot := { s.boot with
        storeOp := some (.store (1 - k) 1 s.store false true) } }.imgBusy i.val 0x35).psStat))) ∧
  (∀ (s : State) (ticks : BitVec 64), let s1 := s.elapse ticks.toNat
    s1.boot.storeOp = none → s1.psPending = true → (∀ t, s1.boot.psAt = some t → t + 1000 * ticksMs ≤ s1.cnt) →
    (s1.newestBank = none → exec (.psWrite ticks) s = .next (s1.psStart 0 1)) ∧
    (∀ k, s1.newestBank = some k → (s1.bank k).seq ≠ 0xFFFFFFFE →
      exec (.psWrite ticks) s = .next (s1.psStart (1 - k) ((s1.bank k).seq + 1)))) ∧
  (∀ (s : State) (ok : Bool),
    (∀ b q x again restart, s.boot.storeOp = some (.store b q x again restart) →
      exec (.flashProgramDone true ok) s = .next (s.storeDone b q x again restart ok)) ∧
    (∀ b, s.boot.storeOp = some (.erase b) → exec (.flashProgramDone true ok) s = .next
      (({ s with boot := { s.boot with storeOp := none } }.setBank b {}).psStat.imgDone stOk)) ∧
    (∀ k u n data i, s.boot.imgOp = some (.units k u n data (some i)) → exec (.flashProgramDone false ok) s = .next
      (({ s with boot := { s.boot with imgOp := none } }.programUnits k u n data).imgDone stOk)) ∧
    (∀ k u n data, s.boot.imgOp = some (.units k u n data none) → exec (.flashProgramDone false true) s = .next
      (({ s with boot := { s.boot with imgOp := none } }.programUnits k u n data).setReg SEC_RCV_STAT (stOk <<< 1))))

/-- R448, R450, R516: a key is made while the generator passes its health test, and destroyed; the lock of the configuration measures every
register with a locked field, sets the mode, and stays. -/
def Obligations.KeysAndLockComplete : Prop :=
  (∀ (s : State) (id : BitVec 10), id.toNat ≠ 0 → id.toNat ≤ 528 →
    exec (.keyGenerate .mc id true) s = .next ((s.keyMake id.toNat).answer stOk) ∧
    exec (.keyDestroy .mc id) s = .next ((s.keyDrop id.toNat).answer stOk)) ∧
  (∀ s : State, s.locked = false → s.fld SEC_BOOT_STAT 20 1 ≠ 1 → s.fld PRT_MODE 0 2 = 0 →
    exec (.secCfgLock .mc true) s = .next ((((s.setFld SEC_CFG_LOCK 0 1 1).setMeas 4
      (Config.sha384 (rwlAddrs.flatMap (fun a => natBytes 8 (s.reg a))))).setFld PRT_MODE 0 2 1).answer stOk)) ∧
  (∀ s : State, s.locked = true → exec (.secCfgLock .mc true) s = .next (s.answer stNop))

/-- R452: an SPDM request that comes in its order on a function that answers gets its response, and moves the connection on. Bodies that
DSP0274 gives, and signatures, are open values of Config. -/
def Obligations.SpdmRequestsComplete : Prop :=
  ∀ (s : State) (f : FnAt), s.fnAnswers f = true → let x := s.spdmOf f
    exec (.getVersion f) s = .next ((s.setSpdm f { ver := true }).spdmReply 0x04 [0x1200, 0x1300]) ∧
    (∀ ver : BitVec 8, x.ver = true → ver.toNat = 0x12 ∨ ver.toNat = 0x13 → exec (.getCapabilities f ver) s = .next
      ((s.setSpdm f { x with caps := true, algs := false }).spdmReply 0x61 [ver.toNat, Config.spdmBody 0x61 [ver.toNat]])) ∧
    (x.caps = true → exec (.negotiateAlgorithms f true) s = .next
      ((s.setSpdm f { x with algs := true }).spdmReply 0x63 [Config.spdmBody 0x63 []])) ∧
    (x.algs = true →
      exec (.getDigests f) s = .next (s.spdmReply 0x01 [Config.spdmBody 0x01 s.chainKey]) ∧
      (∀ offset len, exec (.getCertificate f 0 offset len) s = .next
        (s.spdmReply 0x02 [Config.spdmBody 0x02 (s.chainKey ++ [offset.toNat, len.toNat])])) ∧
      (∀ nonce, exec (.challenge f 0 nonce) s = .next
        (s.spdmReply 0x03 [Config.aliasSign (s.meas 2) (s.reg SEC_UID) (Config.spdmBody 0x03 [nonce.toNat])])) ∧
      (∀ nonce, exec (.getMeasurements f 0xFF#8 false nonce) s = .next (s.spdmReply 0x60 ((s.fnMeas f).map (·.2)))) ∧
      (∀ reqId share, ∃ t id, exec (.keyExchange f reqId share) s = .next t ∧ id % 65536 = reqId.toNat ∧
        (t.spdmOf f).sess = x.sess ++ [(id, false)]) ∧
      (∀ (seq : BitVec 16) (last : Bool), seq.toNat = x.chunkIn.getD 0 → exec (.chunkSend f seq last) s = .next
        ((s.setSpdm f { x with chunkIn := if last then none else some (seq.toNat + 1) }).spdmReply 0x85 [seq.toNat])) ∧
      (∀ (seq : BitVec 16) (last : Bool), seq.toNat = x.chunkOut.getD 0 → exec (.chunkGet f seq last) s = .next
        ((s.setSpdm f { x with chunkOut := if last then none else some (seq.toNat + 1) }).spdmReply 0x86
          [seq.toNat, Config.spdmBody 0x86 [seq.toNat]])))

/-- R452, R453, Table 16.10: inside a session: it is finished, kept alive, given new keys and ended; IDE streams are keyed and used; an
interface goes from CONFIG_UNLOCKED to CONFIG_LOCKED, to RUN, and back. -/
def Obligations.SessionsAndInterfacesComplete : Prop :=
  ∀ (s : State) (f : FnAt) (sess : BitVec 32), let x := s.spdmOf f
    (InSpdm s f sess.toNat false → exec (.finish f sess true) s = .next
      ((s.setSpdm f { x with sess := x.sess.map (fun p => if p.1 = sess.toNat then (p.1, true) else p) }).spdmReply 0x65 [])) ∧
    (InSpdm s f sess.toNat true → exec (.heartbeat f sess) s = .next (s.spdmReply 0x68 [])) ∧
    (InSpdm s f sess.toNat true → exec (.endSession f sess) s = .next
      ((s.setSpdm f { x with sess := x.sess.filter (fun p => p.1 != sess.toNat) }).spdmReply 0x6C [])) ∧
    (∀ op : BitVec 8, InSpdm s f sess.toNat true → op.toNat ≠ 0 → op.toNat ≤ 3 →
      exec (.keyUpdate f sess op) s = .next (s.spdmReply 0x69 [op.toNat])) ∧
    (∀ k : BitVec 8, InSpdm s f sess.toNat true →
      (s.stream f.port.val k.toNat ≠ 0 → exec (.vendorDefinedRequest f sess (.ideGo k)) s = .next
        ((s.setStream f.port.val k.toNat 2).spdmReply 0x7E [k.toNat])) ∧
      exec (.vendorDefinedRequest f sess (.ideKey k)) s = .next (s.keyStream f.port.val k.toNat) ∧
      exec (.vendorDefinedRequest f sess (.ideStop k)) s = .next ((s.streamLost f.port.val k.toNat).spdmReply 0x7E [k.toNat])) ∧
    (∀ i, InSpdm s f sess.toNat true → s.fnInst f = some i →
      exec (.vendorDefinedRequest f sess .report) s = .next (s.tdiReport i) ∧
      exec (.vendorDefinedRequest f sess .state) s = .next (s.spdmReply 0x7E [i, s.tdiOf i])) ∧
    (∀ i : Fin 512, InSpdm s f sess.toNat true → s.instState i.val = 1 → s.fld (PRT_INST i.val) 6 2 = f.port.val →
      f.fn.val = 0 ∨ s.fld (PRT_INST i.val) 8 10 = f.fn.val →
      (∀ stream, s.tdiOf i.val = 0 → exec (.lockInterface f sess i stream) s = .next
        ({ s.setTdi i.val 1 with tdiStream := Tbl.put 0x100 s.tdiStream i.val stream.toNat }.spdmReply 0x7E [i.val])) ∧
      (s.tdiOf i.val = 1 → s.stream f.port.val (Tbl.get 0x100 s.tdiStream i.val) = 2 →
        exec (.startInterface f sess i) s = .next ((s.setTdi i.val 2).spdmReply 0x7E [i.val])) ∧
      exec (.stopInterface f sess i) s = .next
        ({ s.setTdi i.val 0 with tdiStream := Tbl.put 0x100 s.tdiStream i.val 0x100 }.spdmReply 0x7E [i.val]))

/-- R459 to R464: a Crema session is opened with the start value of its chain, takes an ADD and a SEAL up when the engine is free of the
instance's commands, and is aborted; the engine finishes what it works on. -/
def Obligations.CremaCommandsComplete : Prop :=
  ∀ (s : State) (i : Fin 512), s.instState i.val = 1 →
    (∀ d : BitVec 384, (∀ j ∈ s.cremaJobs, j.inst ≠ i.val) → s.fld SEC_CREMA_CTRL 0 1 ≠ 0 → let v := d.toNat
      let k := bits v 0 2
      (cremaReserved 0x0A v = false → (s.cremaSlot i.val k).opened = false → exec (.cremaOpen i d) s = .next
        ((s.setCremaSlot i.val k { opened := true, det := bit v 8, mode := bits v 64 64, hash := cremaStart (bit v 8) (bits v 64 64) }).answer
          stOk)) ∧
      (cremaReserved 0x0B v = false → (s.cremaSlot i.val k).opened = true → bits v 64 64 ≠ 0 → bits v 64 64 ≤ 2 ^ 40 →
        exec (.cremaAdd i d) s = .next { s with
          cremaJobs := s.cremaJobs ++ [{ inst := i.val, op := 0x0B, pay := v, begun := true, taint := (s.cremaSlot i.val k).taint }] }) ∧
      (cremaReserved 0x0C v = false → (s.cremaSlot i.val k).opened = true → (s.cremaSlot i.val k).nAdd ≠ 0 → sealBad v = false →
        bits v 64 64 ≠ 0 → exec (.cremaSeal i d) s = .next { s with
          cremaJobs := s.cremaJobs ++ [{ inst := i.val, op := 0x0C, pay := v, begun := true, taint := (s.cremaSlot i.val k).taint }] }) ∧
      (cremaReserved 0x0D v = false → (s.cremaSlot i.val k).opened = true → exec (.cremaAbort i d) s = .next
        (((s.setCremaSlot i.val k {}).bump SEC_CREMA_ABORT_CNT).answer stOk))) ∧
    (∀ p j, findIdx? (fun (j : CremaJob) => j.inst == i.val && j.begun) s.cremaJobs = some (p, j) →
      let s1 := if j.op = 0x0B then s.cremaAddEnd i.val j.pay else s.cremaSealEnd i.val j.pay j.taint
      exec (.cremaCommandDone i) s = .next ({ s1 with cremaJobs := eraseAt s1.cremaJobs p }.cremaServe i.val (s1.cremaJobs.length + 1)))

/-- R466, R469, R471, R473, R477 to R479, R483 to R485: the oldest error on its way reaches the level above, which acts; a row's window ends
and its counts return to 0; the management cores fence, name, repair and arm; the witness rotates cores out and judges their suites; a
fatal error is recorded, and an expired watchdog aborts the messages to the management cores. -/
def Obligations.RasCommandsComplete : Prop :=
  (∀ (s : State) bridges e rest,
    (bridges.foldl (fun (s : State) (b : Fin 8 × BitVec 16) => s.countErr 22 b.1.val b.2.toNat) s).escal = e :: rest →
    exec (.escalation bridges) s = .next ({ bridges.foldl (fun (s : State) (b : Fin 8 × BitVec 16) => s.countErr 22 b.1.val b.2.toNat) s with
      escal := rest }.escalAct e)) ∧
  (∀ (s : State) (r : Fin 23) (ticks : BitVec 64), r.val ≠ 7 → r.val < 16 ∨ 19 < r.val → let s1 := s.elapse ticks.toNat
    let w := s.fld (RAS_THR r.val) 32 16 * ticksMin
    s.cnt / w ≠ s1.cnt / w → ∃ t, exec (.thresholdWindowEnd r ticks) s = .next t ∧
      t.rasWin = s.rasWin.filter (fun p => p.1 / 0x100000000000000 != r.val) ∧
      t.rasBins = s.rasBins.filter (fun p => p.1 / 0x100000000000000 != r.val) ∧ t.cnt = s1.cnt ∧ t.regs = s.regs) ∧
  (∀ (s : State) (pc : Fin 512), s.fld RAS_CMD_STATUS 0 1 ≠ 1 →
    exec (.rasFence .mc pc) s = .next ((s.fenceCore pc.val 0x4A).rasDone stOk) ∧
    ((∃ r ∈ s.fenceRecs, r.1 = pc.val) → exec (.rasRemoveFenceRecord .mc pc) s = .next
      ({ s with fenceRecs := s.fenceRecs.filter (fun r => r.1 != pc.val) }.rasDone stOk))) ∧
  (∀ (s : State) (lc : BitVec 9), s.fld RAS_CMD_STATUS 0 1 ≠ 1 → lc.toNat < s.grade.lcs →
    (∃ r ∈ s.rots, r.lc = lc.toNat ∧ r.timedDone = false) → exec (.rasRotate .mc lc) s = .next
      ({ s with rots := s.rots.map (fun (r : Rot) => if r.lc = lc.toNat then { r with named := true } else r) }.rasDone stOk)) ∧
  (∀ s : State, s.fld RAS_CMD_STATUS 0 1 ≠ 1 → s.tierOf (s.fld RAS_CMD_DETAIL 0 48) = .hbm → exec (.rasSoftRowRepair .mc) s = .next
    (({ s with repairs := s.repairs ++ [(hbmRow (s.fld RAS_CMD_DETAIL 0 48), true)] }.setReg RAS_CMD_STATUS 1).answer stOk)) ∧
  (∀ (s : State) r rest, s.repairs = r :: rest → ∃ t, exec .softRowRepairDone s = .next t ∧ t.repairs = rest ∧ r.1 ∈ t.repaired) ∧
  (∀ (s : State) (ticks : BitVec 64), let s1 := s.elapse ticks.toNat
    (∀ n rest, s1.inService.filter (fun n => s1.fld (RAS_CORE_HIST (s1.phys n)) 21 1 == 1) = n :: rest →
      exec (.witnessRotate ticks) s = .next (s1.rotStart n)) ∧
    (∀ n, s1.inService.filter (fun n => s1.fld (RAS_CORE_HIST (s1.phys n)) 21 1 == 1) = [] → s1.fld RAS_WIT_CFG 0 1 ≠ 0 →
      s1.witAt + s1.fld RAS_WIT_CFG 1 8 * 60 * ticksMin / s1.grade.lcs ≤ s1.cnt →
      let s2 := { s1 with witAt := s1.cnt }
      s2.oldestWitness s2.inService = some n → exec (.witnessRotate ticks) s = .next (s2.rotStart n))) ∧
  (∀ (s : State) (lc : Fin 512) r, s.rots.find? (fun r => r.lc == lc.val && !r.elasticDone) = some r → s.groupHolds lc.val = false →
    (s.ctx r.fromCore .elastic).busy = false → exec (.rotationHandover lc) s = .next (s.rotElastic lc.val)) ∧
  (∀ (s : State) (pc : Fin 512), s.suiteDue pc.val = true →
    let s1 := { s with witRun := s.witRun + 1, witOrder := Tbl.put 0 s.witOrder pc.val (s.witRun + 1) }
    let s2 := (s1.setFld (RAS_CORE_HIST pc.val) 22 30 (s1.cnt >>> 34)).bumpFld RAS_WIT_STAT 10 32 1
    exec (.witnessSuiteEnd pc []) s = .next
      { s2.setFld (RAS_CORE_HIST pc.val) 20 2 0 with testing := s2.testing.filter (fun t => t.1 != pc.val) }) ∧
  (∀ (s : State) (k : Fin 16) (a b : BitVec 12), s.unreachable b.toNat = false →
    (∀ j, j < 16 → j ≠ k.val → s.fld (RAS_CARD_SWAP j) 24 2 = 1 → s.fld (RAS_CARD_SWAP j) 0 12 ≠ a.toNat) →
    exec (.rasCardSwapArm .mc k a b) s = .next ((s.setReg (RAS_CARD_SWAP k.val) (a.toNat + b.toNat <<< 12 + 1 <<< 24)).answer stOk)) ∧
  (∀ (s : State) (kind : FatalKind), exec (.fatalError kind) s = .next (s.fatalNote kind).fatalStop ∧
    (s.fld RAS_STATUS 1 1 = 0 → (s.fatalNote kind).fatalAt = s.cnt ∧ (s.fatalNote kind).fld RAS_STATUS 1 1 = 1)) ∧
  (∀ (s : State) (mc : Fin 4), exec (.mcWatchdog mc) s = .next ((s.mbx.filter (fun m => m.1 % 8 == 0)).foldl
    (fun s m => s.abortChan (m.1 / 8) 0) (s.errLog { level := 4, kind := 0x44, action := 0, res := mc.val })))

/-- R10, R11, R213, R514: a write by the management cores to a register without a command of its own, whose block is on, gives each field its
new value under its access code, with what follows from the register's block. -/
def Obligations.RegisterWritesTakeEffect : Prop :=
  ∀ (s : State) (addr : BitVec 26) (v : Word) (a : Nat) (d : RegDesc), s.regAddr addr.toNat = some a → regDesc? a = some d →
    s.ownerReg .mc a v.toNat = none → s.regGated a = false →
    (if 0x3200000 ≤ a then s.coreOwn .mc (Fin.ofNat 512 (a % 0x200000 / 0x1000)) (a % 0x1000) v.toNat else s.hubOwn .mc a v.toNat) = none →
    s.regBad d.base a (s.reg a) (d.apply s.locked (s.reg a) (regFix d.base a v.toNat)) = false →
    d.lockRefuses s.locked (s.reg a) (regFix d.base a v.toNat) = false →
    exec (.registerWrite .mc addr v) s = .next ((s.afterWrite (s.setReg a (d.apply s.locked (s.reg a) (regFix d.base a v.toNat)))
      d.base a (regFix d.base a v.toNat)).answer stOk)

/-- R488 to R490, R492, R494, R496: PWR_DOM_CMD begins the drain of a domain that is ON and whose conditions of Table 19.1 hold, and the
power-up of a domain that is OFF while fewer than two are in RAMP; the drain ends in OFF with everything the domain stores lost; the
power-up ends in ON, for a quad with its clocks at multiplier 64. The register takes the writes of the management cores alone. A cap and
a budget of timed partitions that fit each other are stored; a period of the cap enforcer changes neither memory nor cores, and holds the
trip once a die has reached its trip temperature. -/
def Obligations.PowerDomainsAndBudgets : Prop :=
  ((∀ (s : State) (d : BitVec 5), d.toNat < 28 → s.fld (PWR_DOM_STAT d.toNat) 22 1 = 0 →
    (s.domState d.toNat = 0 → s.mayPowerOff d.toNat = true →
      exec (.pwrDomOff .mc d 0) s = .next ((s.setDomState d.toNat 1).answer stOk)) ∧
    (s.domState d.toNat = 2 → s.ramping < 2 →
      exec (.pwrDomOn .mc d 0) s = .next ((s.setDomState d.toNat 3).answer stOk)) ∧
    (s.domState d.toNat = 2 → 2 ≤ s.ramping → ∃ t,
      exec (.pwrDomOn .mc d 0) s = .next t ∧ t.rampWait = s.rampWait ++ [d.toNat] ∧ t.fld (PWR_DOM_STAT d.toNat) 22 1 = 1)) ∧
  (∀ (s : State) (d : Fin 28), s.domState d.val = 1 →
    exec (.domainDrainEnd d) s = .next ((s.domLost d.val).setDomState d.val 2)) ∧
  (∀ (s : State) (d : Fin 28), s.domState d.val = 3 → s.rampWait = [] →
    exec (.domainRampEnd d) s = .next (if d.val < 16 then (s.setDomState d.val 0).quadUp d.val else s.setDomState d.val 0)) ∧
  (∀ (s : State) (i : Fin 512) (d : BitVec 5), exec (.pwrDomOff (.host i) d 0) s = .next (s.privilege i.val PWR_DOM_CMD))) ∧
  ((∀ (s : State) (w : BitVec 12), 450 ≤ w.toNat → w.toNat ≤ 2000 →
    s.fld PWR_TIMED_BUDGET 0 12 + s.fld PWR_CAP_CFG 20 12 ≤ w.toNat →
      exec (.pwrCapWrite .mc w) s = .next ((s.setFld PWR_CAP 0 12 w.toNat).answer stOk)) ∧
  (∀ (s : State) (w : BitVec 12), w.toNat < 450 ∨ 2000 < w.toNat →
      exec (.pwrCapWrite .mc w) s = .next (s.pwrRefuse PWR_CAP)) ∧
  (∀ (s : State) (w : BitVec 12), s.timedPower ≤ w.toNat → w.toNat + s.fld PWR_CAP_CFG 20 12 ≤ s.fld PWR_CAP 0 12 →
      exec (.pwrTimedBudgetWrite .mc w) s = .next ((s.setFld PWR_TIMED_BUDGET 0 12 w.toNat).answer stOk)) ∧
  (∀ (s : State) (p : BitVec 22), ∃ t, exec (.capPeriod { pkg := p }) s = .next t ∧ t.dev = s.dev ∧ t.cores = s.cores ∧
      (t.trip = true ↔ s.trip = true ∨ ∃ d < 5, 4 * (s.fld PWR_TEMP_CFG 8 8 : Int) ≤ s.quarterDeg d)))

end
end

