-- ==== Sys2Proof/Laws/Bits.lean ====
section
/-!
SUPPORT. Laws/Bits.lean: a bit field reads back what was put into it, and fields that do not overlap leave one another alone.
-/
namespace Sys2Proof.Machine
theorem bits_eq (x l k : Nat) : bits x l k = x / 2 ^ l % 2 ^ k := by
  unfold bits; rw [Nat.shiftRight_eq_div_pow]

theorem setBits_eq (x lo w v : Nat) : setBits x lo w v = 2 ^ lo * (2 ^ w * (x / 2 ^ (lo + w)) + v % 2 ^ w) + x % 2 ^ lo := by
  unfold setBits
  rw [Nat.shiftRight_eq_div_pow, Nat.shiftLeft_eq, Nat.shiftLeft_eq, Nat.mul_add, Nat.pow_add]
  congr 1
  rw [Nat.mul_comm (x / _) _, Nat.mul_assoc, Nat.mul_comm (v % _) _]

/-- A field that was replaced reads as the replacement. -/
theorem bits_setBits (x lo w v : Nat) : bits (setBits x lo w v) lo w = v % 2 ^ w := by
  rw [bits_eq, setBits_eq, Nat.mul_add_div (Nat.pow_pos (by decide)), Nat.div_eq_of_lt (Nat.mod_lt _ (Nat.pow_pos (by decide))), Nat.add_zero,
    Nat.mul_add_mod, Nat.mod_mod]

/-- A field above one that was replaced reads as before. -/
theorem bits_setBits_above (x lo w v l k : Nat) (h : lo + w ≤ l) : bits (setBits x lo w v) l k = bits x l k := by
  rw [bits_eq, bits_eq, setBits_eq]
  obtain ⟨d, rfl⟩ := Nat.exists_eq_add_of_le h
  have e : (2 ^ lo * (2 ^ w * (x / 2 ^ (lo + w)) + v % 2 ^ w) + x % 2 ^ lo) / 2 ^ (lo + w) = x / 2 ^ (lo + w) := by
    rw [Nat.pow_add, ← Nat.div_div_eq_div_mul, Nat.mul_add_div (Nat.pow_pos (by decide)), Nat.div_eq_of_lt (Nat.mod_lt _ (Nat.pow_pos (by decide))),
      Nat.add_zero, Nat.mul_add_div (Nat.pow_pos (by decide)), Nat.div_eq_of_lt (Nat.mod_lt _ (Nat.pow_pos (by decide))), Nat.add_zero]
  rw [Nat.pow_add 2 (lo + w), ← Nat.div_div_eq_div_mul, e, Nat.div_div_eq_div_mul]

/-- A field below one that was replaced reads as before. -/
theorem bits_setBits_below (x lo w v l k : Nat) (h : l + k ≤ lo) : bits (setBits x lo w v) l k = bits x l k := by
  rw [bits_eq, bits_eq, setBits_eq]
  obtain ⟨d, rfl⟩ := Nat.exists_eq_add_of_le h
  have key : ∀ y : Nat, y / 2 ^ l % 2 ^ k = y % 2 ^ (l + k) / 2 ^ l := by
    intro y; rw [Nat.pow_add, Nat.mod_mul_right_div_self]
  rw [key, key x]
  congr 1
  generalize 2 ^ w * (x / 2 ^ (l + k + d + w)) + v % 2 ^ w = z
  rw [Nat.pow_add 2 (l + k) d, Nat.mul_assoc, Nat.mul_add_mod, Nat.mod_mul_right_mod]

/-- Cutting a number to n bits leaves its fields below bit n alone. -/
theorem bits_mod (y n l k : Nat) (h : l + k ≤ n) : bits (y % 2 ^ n) l k = bits y l k := by
  rw [bits_eq, bits_eq]
  obtain ⟨d, rfl⟩ := Nat.exists_eq_add_of_le h
  have key : ∀ y : Nat, y / 2 ^ l % 2 ^ k = y % 2 ^ (l + k) / 2 ^ l := by
    intro y; rw [Nat.pow_add, Nat.mod_mul_right_div_self]
  rw [key, key y, Nat.pow_add 2 (l + k) d, Nat.mod_mul_right_mod]
end Sys2Proof.Machine
end

