-- ==== Sys2Proof/Laws/Tables.lean ====
section
/-!
SUPPORT. Laws/Tables.lean: a sparse table reads back what was put into it, and every operation keeps its canonical form.
-/
namespace Sys2Proof.Machine

variable {α : Type}

theorem Tbl.get_drop (d : α) (k i : Nat) (t : List (Nat × α)) : Tbl.get d (Tbl.drop k t) i = if k = i then d else Tbl.get d t i := by
  induction t with
  | nil => simp [Tbl.drop, Tbl.get]
  | cons p t ih =>
    obtain ⟨k', v'⟩ := p
    simp only [Tbl.drop]
    split
    · rename_i h; subst h
      rw [ih]; simp only [Tbl.get]; split <;> simp_all
    · rename_i h
      simp only [Tbl.get]; rw [ih]
      by_cases h1 : k' = i
      · subst h1; simp [Ne.symm h]
      · simp [h1]

theorem Tbl.get_insert (d : α) (k i : Nat) (v : α) (t : List (Nat × α)) :
    Tbl.get d (Tbl.insert k v (Tbl.drop k t)) i = if k = i then v else Tbl.get d t i := by
  induction t with
  | nil => simp [Tbl.drop, Tbl.insert, Tbl.get]
  | cons p t ih =>
    obtain ⟨k', v'⟩ := p
    simp only [Tbl.drop]
    split
    · rename_i h; subst h
      rw [ih]; simp only [Tbl.get]; split <;> simp_all
    · rename_i h
      simp only [Tbl.insert]
      split
      · simp only [Tbl.get]; split
        · rfl
        · split
          · rfl
          · rw [Tbl.get_drop]; simp_all
      · simp only [Tbl.get]; rw [ih]
        by_cases h1 : k' = i
        · subst h1; simp [Ne.symm h]
        · simp [h1]

/-- A read after a write: the written key reads as the value, every other key as before. -/
theorem Tbl.get_put [DecidableEq α] (d : α) (t : List (Nat × α)) (k : Nat) (v : α) (i : Nat) :
    Tbl.get d (Tbl.put d t k v) i = if k = i then v else Tbl.get d t i := by
  unfold Tbl.put
  split
  · rename_i h; subst h; rw [Tbl.get_drop]
  · rw [Tbl.get_insert]

theorem Tbl.wfFrom_mono [DecidableEq α] (d : α) {a b : Nat} (h : a ≤ b) (t : List (Nat × α)) (w : Tbl.wfFrom d b t = true) :
    Tbl.wfFrom d a t = true := by
  cases t with
  | nil => rfl
  | cons p t =>
    simp only [Tbl.wfFrom, Bool.and_eq_true, decide_eq_true_eq] at w ⊢
    exact ⟨⟨by omega, w.1.2⟩, w.2⟩

theorem Tbl.drop_wf [DecidableEq α] (d : α) (k lo : Nat) (t : List (Nat × α)) (w : Tbl.wfFrom d lo t = true) :
    Tbl.wfFrom d lo (Tbl.drop k t) = true := by
  induction t generalizing lo with
  | nil => rfl
  | cons p t ih =>
    obtain ⟨k', v'⟩ := p
    simp only [Tbl.wfFrom, Bool.and_eq_true, decide_eq_true_eq] at w
    simp only [Tbl.drop]
    split
    · exact Tbl.wfFrom_mono d (by omega) _ (ih _ w.2)
    · simp only [Tbl.wfFrom, Bool.and_eq_true, decide_eq_true_eq]
      exact ⟨w.1, ih _ w.2⟩

theorem Tbl.insert_wf [DecidableEq α] (d : α) (k : Nat) (v : α) (hv : v ≠ d) (lo : Nat) (hk : lo ≤ k) (t : List (Nat × α))
    (w : Tbl.wfFrom d lo t = true) : Tbl.wfFrom d lo (Tbl.insert k v (Tbl.drop k t)) = true := by
  induction t generalizing lo with
  | nil => simp [Tbl.drop, Tbl.insert, Tbl.wfFrom, hk, hv]
  | cons p t ih =>
    obtain ⟨k', v'⟩ := p
    simp only [Tbl.wfFrom, Bool.and_eq_true, decide_eq_true_eq] at w
    simp only [Tbl.drop]
    split
    · rename_i h; subst h
      exact ih lo hk (Tbl.wfFrom_mono d (by omega) _ w.2)
    · rename_i h
      simp only [Tbl.insert]
      split
      · simp only [Tbl.wfFrom, Bool.and_eq_true, decide_eq_true_eq]
        exact ⟨⟨hk, hv⟩, ⟨by omega, w.1.2⟩, Tbl.drop_wf d _ _ _ w.2⟩
      · simp only [Tbl.wfFrom, Bool.and_eq_true, decide_eq_true_eq]
        exact ⟨w.1, ih _ (by omega) w.2⟩

/-- A write keeps the canonical form. -/
theorem Tbl.put_wf [DecidableEq α] (d : α) (t : List (Nat × α)) (k : Nat) (v : α) (w : Tbl.wf d t = true) :
    Tbl.wf d (Tbl.put d t k v) = true := by
  unfold Tbl.put
  split
  · exact Tbl.drop_wf d k 0 t w
  · rename_i h; exact Tbl.insert_wf d k v h 0 (Nat.zero_le _) t w

theorem Tbl.filter_wfFrom [DecidableEq α] (d : α) (p : Nat × α → Bool) (lo : Nat) (t : List (Nat × α)) (w : Tbl.wfFrom d lo t = true) :
    Tbl.wfFrom d lo (t.filter p) = true := by
  induction t generalizing lo with
  | nil => rfl
  | cons q t ih =>
    obtain ⟨k, v⟩ := q
    simp only [Tbl.wfFrom, Bool.and_eq_true, decide_eq_true_eq] at w
    simp only [List.filter]
    split
    · simp only [Tbl.wfFrom, Bool.and_eq_true, decide_eq_true_eq]
      exact ⟨w.1, ih _ w.2⟩
    · exact Tbl.wfFrom_mono d (by omega) _ (ih _ w.2)

/-- Taking entries out keeps the canonical form. -/
theorem Tbl.filter_wf [DecidableEq α] (d : α) (p : Nat × α → Bool) (t : List (Nat × α)) (w : Tbl.wf d t = true) :
    Tbl.wf d (t.filter p) = true := Tbl.filter_wfFrom d p 0 t w

/-- Below its least key a table reads as the default. -/
theorem Tbl.get_below [DecidableEq α] (d : α) (lo i : Nat) (h : i < lo) (t : List (Nat × α)) (w : Tbl.wfFrom d lo t = true) :
    Tbl.get d t i = d := by
  induction t generalizing lo with
  | nil => rfl
  | cons p t ih =>
    obtain ⟨k, v⟩ := p
    simp only [Tbl.wfFrom, Bool.and_eq_true, decide_eq_true_eq] at w
    simp only [Tbl.get]
    rw [if_neg (by omega)]
    exact ih (k + 1) (by omega) w.2

end Sys2Proof.Machine
end

