-- ==== Sys2Proof/Laws/Memory.lean ====
section
/-!
SUPPORT. Laws/Memory.lean: read after write of a memory's bytes; every memory operation keeps the canonical form.
-/
namespace Sys2Proof.Machine

/-- A byte reads as written; every other byte as before. -/
theorem Mem.byte_setByte (m : Mem) (a v b : Nat) : (m.setByte a v).byte b = if a = b then v % 256 else m.byte b := by
  unfold Mem.byte Mem.setByte
  rw [Tbl.get_put]
  split <;> simp

theorem Mem.mark_setMark (m : Mem) (a b k : Nat) : (m.setMark a k).mark b = if a = b then k else m.mark b := by
  unfold Mem.mark Mem.setMark
  exact Tbl.get_put ..

theorem Mem.poisoned_setPoison (m : Mem) (a b : Nat) (p : Bool) : (m.setPoison a p).poisoned b = if a = b then p else m.poisoned b := by
  unfold Mem.poisoned Mem.setPoison
  rw [Mem.mark_setMark]
  split <;> cases p <;> simp [b2n]

@[simp] theorem Mem.byte_setPoison (m : Mem) (a b : Nat) (p : Bool) : (m.setPoison a p).byte b = m.byte b := rfl
@[simp] theorem Mem.poisoned_setByte (m : Mem) (a v b : Nat) : (m.setByte a v).poisoned b = m.poisoned b := rfl

@[simp] theorem Mem.poisoned_store (m : Mem) (a n v b : Nat) : (m.store a n v).poisoned b = m.poisoned b := by
  induction n generalizing m a v with
  | zero => rfl
  | succ n ih => simp [Mem.store, ih]

/-- A store of n bytes leaves every byte outside them alone. -/
theorem Mem.byte_store_out (m : Mem) (a n v b : Nat) (h : b < a ∨ a + n ≤ b) : (m.store a n v).byte b = m.byte b := by
  induction n generalizing m a v with
  | zero => rfl
  | succ n ih =>
    rw [Mem.store, ih _ _ _ (by omega), Mem.byte_setByte, if_neg (by omega)]

/-- Inside them it writes the little-endian bytes of v (R7). -/
theorem Mem.byte_store_in (m : Mem) (a n v i : Nat) (h : i < n) : (m.store a n v).byte (a + i) = v / 256 ^ i % 256 := by
  induction n generalizing m a v i with
  | zero => omega
  | succ n ih =>
    rw [Mem.store]
    cases i with
    | zero => rw [Mem.byte_store_out _ _ _ _ _ (by omega), Nat.add_zero, Mem.byte_setByte, if_pos rfl]; simp
    | succ i =>
      have := ih (m.setByte a (v % 256)) (a + 1) (v / 256) i (by omega)
      rw [show a + (i + 1) = a + 1 + i by omega, this, Nat.div_div_eq_div_mul, Nat.pow_succ, Nat.mul_comm]

/-- A load after the store of the same bytes gives them back. -/
theorem Mem.load_store (m : Mem) (a n v : Nat) : (m.store a n v).load a n = v % 256 ^ n := by
  induction n generalizing m a v with
  | zero => simp [Mem.load, Nat.mod_one]
  | succ n ih =>
    rw [Mem.load, Mem.store, ih, Mem.byte_store_out _ _ _ _ _ (by omega), Mem.byte_setByte, if_pos rfl, Nat.pow_succ, Nat.mul_comm (256 ^ n),
      Nat.mod_mul (x := v)]
    omega

/-! ### The canonical form -/

theorem Mem.wf_iff (m : Mem) : m.wf = true ↔ Tbl.wf (0 : Byte) m.cells = true ∧ Tbl.wf 0 m.marks = true := by
  simp [Mem.wf]

theorem Mem.wf_setByte {m : Mem} (h : m.wf = true) (a v : Nat) : (m.setByte a v).wf = true := by
  rw [Mem.wf_iff] at h ⊢; exact ⟨Tbl.put_wf _ _ _ _ h.1, h.2⟩

theorem Mem.wf_setMark {m : Mem} (h : m.wf = true) (a k : Nat) : (m.setMark a k).wf = true := by
  rw [Mem.wf_iff] at h ⊢; exact ⟨h.1, Tbl.put_wf _ _ _ _ h.2⟩

theorem Mem.wf_setPoison {m : Mem} (h : m.wf = true) (a : Nat) (p : Bool) : (m.setPoison a p).wf = true := Mem.wf_setMark h _ _

theorem Mem.wf_upset {m : Mem} (h : m.wf = true) (a : Nat) (e : MemErr) : (m.upset a e).wf = true := by
  cases e
  · exact h
  · exact Mem.wf_setMark h _ _
  · exact Mem.wf_setMark h _ _

theorem Mem.wf_store {m : Mem} (h : m.wf = true) (a n v : Nat) : (m.store a n v).wf = true := by
  induction n generalizing m a v with
  | zero => exact h
  | succ n ih => exact ih (Mem.wf_setByte h _ _) _ _

theorem Mem.wf_storeGranule {m : Mem} (h : m.wf = true) (g a n v w : Nat) : (m.storeGranule g a n v w).wf = true := by
  simp only [Mem.storeGranule]
  split
  · exact Mem.wf_store (Mem.wf_setPoison h _ _) _ _ _
  · split
    · exact Mem.wf_setPoison h _ _
    · exact Mem.wf_store h _ _ _

theorem Mem.wf_foldl {α : Type} {f : Mem → α → Mem} (hf : ∀ m a, m.wf = true → (f m a).wf = true) (l : List α) {m : Mem} (h : m.wf = true) :
    (l.foldl f m).wf = true := by
  induction l generalizing m with
  | nil => exact h
  | cons a l ih => exact ih (hf m a h)

theorem Mem.wf_write {m : Mem} (h : m.wf = true) (g a n v : Nat) : (m.write g a n v).wf = true :=
  Mem.wf_foldl (fun _ _ h => Mem.wf_storeGranule h _ _ _ _ _) _ h

theorem Mem.wf_poisonRange {m : Mem} (h : m.wf = true) (g a n : Nat) : (m.poisonRange g a n).wf = true :=
  Mem.wf_foldl (fun _ _ h => Mem.wf_setPoison h _ _) _ h

theorem Mem.wf_filter {m : Mem} (h : m.wf = true) (p : Nat × Byte → Bool) (q : Nat × Nat → Bool) :
    (Mem.mk (m.cells.filter p) (m.marks.filter q)).wf = true := by
  rw [Mem.wf_iff] at h ⊢; exact ⟨Tbl.filter_wf _ _ _ h.1, Tbl.filter_wf _ _ _ h.2⟩

theorem Mem.wf_zero {m : Mem} (h : m.wf = true) (a n : Nat) : (m.zero a n).wf = true := Mem.wf_filter h _ _

theorem Tbl.wf_foldl_put {α β : Type} [DecidableEq α] (d : α) (k : β → Nat) (v : β → α) (l : List β) (t : List (Nat × α)) (h : Tbl.wf d t = true) :
    Tbl.wf d (l.foldl (fun t c => Tbl.put d t (k c) (v c)) t) = true := by
  induction l generalizing t with
  | nil => exact h
  | cons a l ih => exact ih _ (Tbl.put_wf _ _ _ _ h)

theorem Mem.wf_copy {m : Mem} (h : m.wf = true) (a b n : Nat) : (m.copy a b n).wf = true := by
  have z := (Mem.wf_iff _).1 (Mem.wf_zero h b n)
  rw [Mem.wf_iff]
  exact ⟨Tbl.wf_foldl_put _ _ _ _ _ z.1, Tbl.wf_foldl_put _ _ _ _ _ z.2⟩

/-- The canonical form holds in the memory the part has at reset. -/
theorem Mem.wf_empty : (({} : Mem).wf) = true := rfl

end Sys2Proof.Machine
end

