-- ==== Sys2Proof/Laws/Keeps.lean ====
section
/-!
SUPPORT. Laws/Keeps.lean: what the effect of a command leaves of the state it started from, and the rules by which that is shown of
a term: through record updates, conditions, folds, options and outcomes.
-/
namespace Sys2Proof.Machine

open Sys2Proof.Safety

/-- The parts numbered in a are among those numbered in m. -/
structure Sub (a m : Nat) : Prop where
  eq : a &&& m = a

theorem Sub.refl (a : Nat) : Sub a a := ⟨Nat.and_self a⟩

theorem Sub.of {a b m : Nat} (h : Sub b m) (e : a &&& b = a) : Sub a m := by
  refine ⟨?_⟩
  rw [← e, Nat.and_assoc, h.eq]

theorem Sub.not {a m k : Nat} (h : Sub a m) (e : a.testBit k = true) (hm : m.testBit k = false) : False := by
  rw [← h.eq, Nat.testBit_and, hm, Bool.and_false] at e
  exact Bool.noConfusion e

/-- An effect leaves the queue alone, the state after it is a later one of the same part, and of its parts only those numbered in m
may differ. -/
structure Keeps (m : Nat) (s t : State) : Prop where
  pending : t.pending = s.pending
  later : Later s t
  same : ∀ f : Field, m.testBit f.bit = false → f.same s t

theorem Keeps.refl {m : Nat} (s : State) : Keeps m s s := ⟨rfl, ⟨rfl, rfl, Nat.le_refl _, id⟩, fun f _ => by cases f <;> rfl⟩

theorem Field.same_trans {s t u : State} {f : Field} (h : f.same s t) (k : f.same t u) : f.same s u := by
  cases f <;> exact Eq.trans k h

theorem Keeps.trans {m : Nat} {s t u : State} (h : Keeps m s t) (k : Keeps m t u) : Keeps m s u :=
  ⟨k.1.trans h.1, ⟨k.2.1.trans h.2.1, k.2.2.trans h.2.2, Nat.le_trans h.2.3 k.2.3, fun i => k.2.4 (h.2.4 i)⟩,
    fun f hf => Field.same_trans (h.3 f hf) (k.3 f hf)⟩

theorem Keeps.mono {a m : Nat} {s t : State} (h : Keeps a s t) (hm : Sub a m) : Keeps m s t :=
  ⟨h.1, h.2, fun f hf => h.3 f (Bool.not_eq_true _ ▸ fun e => hm.not e hf)⟩

/-- An option, where there is one, has P. -/
def OptP {α : Type} (P : α → Prop) : Option α → Prop
  | none => True
  | some a => P a

theorem OptP.of_eq {α : Type} {P : α → Prop} {o : Option α} {a : α} (h : OptP P o) (e : o = some a) : P a := by subst e; exact h

theorem OptP.some {α : Type} {P : α → Prop} {a : α} (h : P a) : OptP P (.some a) := h

theorem OptP.map {α β : Type} {P : β → Prop} {f : α → β} {o : Option α} (h : ∀ a, P (f a)) : OptP P (o.map f) := by
  cases o with
  | none => trivial
  | some a => exact h a

/-- An outcome, where it is a next state, keeps what a command keeps. -/
def OutP (m : Nat) (s : State) (o : Host.Outcome State Fault Refusal) : Prop := ∀ t, o = .next t → Keeps m s t

theorem OutP.next {m : Nat} {s t : State} (h : Keeps m s t) : OutP m s (.next t) := by intro u e; cases e; exact h

theorem ite_ind {α : Type} {P : α → Prop} {c : Prop} [Decidable c] {a b : α} (ha : P a) (hb : P b) : P (if c then a else b) := by
  split <;> assumption

theorem Keeps.ite {m : Nat} {s a b : State} {c : Prop} [Decidable c] (ha : Keeps m s a) (hb : Keeps m s b) : Keeps m s (if c then a else b) := by
  split <;> assumption

theorem foldl_ind {α β : Type} {P : β → Prop} {f : β → α → β} {b : β} {l : List α} (h : P b) (hf : ∀ x, P x → ∀ a, P (f x a)) :
    P (l.foldl f b) := by
  induction l generalizing b with
  | nil => exact h
  | cons a l ih => exact ih (hf b h a)

theorem Keeps.foldl {α : Type} {m : Nat} {s x : State} {f : State → α → State} {l : List α} (h : Keeps m s x)
    (hf : ∀ y, Keeps m s y → ∀ a, Keeps m s (f y a)) : Keeps m s (l.foldl f x) := foldl_ind h hf

/-! ### The register file -/

theorem regsWfFrom_mono {a b : Nat} (h : a ≤ b) (t : List (Nat × Nat)) (w : regsWfFrom b t = true) : regsWfFrom a t = true := by
  cases t with
  | nil => rfl
  | cons p t =>
    simp only [regsWfFrom, Bool.and_eq_true, decide_eq_true_eq] at w ⊢
    exact ⟨⟨⟨by omega, w.1.1.2⟩, w.1.2⟩, w.2⟩

theorem regsWf_drop (k lo : Nat) (t : List (Nat × Nat)) (w : regsWfFrom lo t = true) : regsWfFrom lo (Tbl.drop k t) = true := by
  induction t generalizing lo with
  | nil => rfl
  | cons p t ih =>
    obtain ⟨k', v'⟩ := p
    simp only [regsWfFrom, Bool.and_eq_true, decide_eq_true_eq] at w
    simp only [Tbl.drop]
    split
    · exact regsWfFrom_mono (by omega) _ (ih _ w.2)
    · simp only [regsWfFrom, Bool.and_eq_true, decide_eq_true_eq]
      exact ⟨w.1, ih _ w.2⟩

theorem regsWf_insert (k v : Nat) (hv : v ≠ regReset k) (hs : v < 2 ^ 64) (lo : Nat) (hk : lo ≤ k) (t : List (Nat × Nat))
    (w : regsWfFrom lo t = true) : regsWfFrom lo (Tbl.insert k v (Tbl.drop k t)) = true := by
  induction t generalizing lo with
  | nil => simp only [Tbl.drop, Tbl.insert, regsWfFrom, Bool.and_eq_true, decide_eq_true_eq]; exact ⟨⟨⟨hk, hv⟩, hs⟩, trivial⟩
  | cons p t ih =>
    obtain ⟨k', v'⟩ := p
    simp only [regsWfFrom, Bool.and_eq_true, decide_eq_true_eq] at w
    simp only [Tbl.drop]
    split
    · rename_i h; subst h
      exact ih lo hk (regsWfFrom_mono (by omega) _ w.2)
    · rename_i h
      simp only [Tbl.insert]
      split
      · simp only [regsWfFrom, Bool.and_eq_true, decide_eq_true_eq]
        exact ⟨⟨⟨hk, hv⟩, hs⟩, ⟨⟨by omega, w.1.1.2⟩, w.1.2⟩, regsWf_drop _ _ _ w.2⟩
      · simp only [regsWfFrom, Bool.and_eq_true, decide_eq_true_eq]
        exact ⟨w.1, ih _ (by omega) w.2⟩

/-- Setting a register keeps the register file's canonical form. -/
theorem regsWf_put (t : List (Nat × Nat)) (k v : Nat) (w : regsWf t = true) : regsWf (Tbl.put (regReset k) t k (v % 2 ^ 64)) = true := by
  unfold Tbl.put
  split
  · exact regsWf_drop k 0 t w
  · rename_i h; exact regsWf_insert k _ h (Nat.mod_lt _ (by decide)) 0 (Nat.zero_le _) t w

theorem regsWf_filter (p : Nat × Nat → Bool) (lo : Nat) (t : List (Nat × Nat)) (w : regsWfFrom lo t = true) : regsWfFrom lo (t.filter p) = true := by
  induction t generalizing lo with
  | nil => rfl
  | cons q t ih =>
    obtain ⟨k, v⟩ := q
    simp only [regsWfFrom, Bool.and_eq_true, decide_eq_true_eq] at w
    simp only [List.filter]
    split
    · simp only [regsWfFrom, Bool.and_eq_true, decide_eq_true_eq]
      exact ⟨w.1, ih _ w.2⟩
    · exact regsWfFrom_mono (by omega) _ (ih _ w.2)

/-! ### One part of the state changes -/

/-- A state like x but for the parts numbered in a. -/
theorem Keeps.part {a m : Nat} {s x y : State} (h : Keeps m s x) (hm : Sub a m) (p : y.pending = x.pending) (l : Later x y)
    (e : ∀ f : Field, a.testBit f.bit = false → f.same x y) : Keeps m s y :=
  h.trans (Keeps.mono ⟨p, l, e⟩ hm)

/-- A later state that has the same device memory, registers and fuses. -/
theorem later_of {x y : State} (g : y.grade = x.grade) (f : y.fuses = x.fuses) (d : y.dev = x.dev) (r : y.regs = x.regs) : Later x y :=
  ⟨by rw [f], g, Nat.le_of_eq (by rw [f]), fun i => ⟨by rw [d]; exact i.1, by rw [r]; exact i.2, by rw [f]; exact i.3⟩⟩

/-- A later state whose device memory is as well formed. -/
theorem later_of_dev {x y : State} (g : y.grade = x.grade) (f : y.fuses = x.fuses) (r : y.regs = x.regs)
    (d : x.dev.wf = true → y.dev.wf = true) : Later x y :=
  ⟨by rw [f], g, Nat.le_of_eq (by rw [f]), fun i => ⟨d i.1, by rw [r]; exact i.2, by rw [f]; exact i.3⟩⟩

/-- A later state whose registers are as well formed. -/
theorem later_of_regs {x y : State} (g : y.grade = x.grade) (f : y.fuses = x.fuses) (d : y.dev = x.dev)
    (r : regsWf x.regs = true → regsWf y.regs = true) : Later x y :=
  ⟨by rw [f], g, Nat.le_of_eq (by rw [f]), fun i => ⟨by rw [d]; exact i.1, r i.2, by rw [f]; exact i.3⟩⟩

theorem Keeps.set_free {m : Nat} {s x : State} (h : Keeps m s x) {v} (hm : Sub 1 m := by exact .of ‹_› rfl) : Keeps m s { x with free := v } :=
  h.part hm rfl (later_of rfl rfl rfl rfl) fun g hg => by cases g <;> first | rfl | exact nomatch hg
theorem Keeps.set_reply {m : Nat} {s x : State} (h : Keeps m s x) {v} (hm : Sub 2 m := by exact .of ‹_› rfl) : Keeps m s { x with reply := v } :=
  h.part hm rfl (later_of rfl rfl rfl rfl) fun g hg => by cases g <;> first | rfl | exact nomatch hg
theorem Keeps.set_win {m : Nat} {s x : State} (h : Keeps m s x) {v} (hm : Sub 8 m := by exact .of ‹_› rfl) : Keeps m s { x with win := v } :=
  h.part hm rfl (later_of rfl rfl rfl rfl) fun g hg => by cases g <;> first | rfl | exact nomatch hg
theorem Keeps.set_failed {m : Nat} {s x : State} (h : Keeps m s x) {v} (hm : Sub 32 m := by exact .of ‹_› rfl) : Keeps m s { x with failed := v } :=
  h.part hm rfl (later_of rfl rfl rfl rfl) fun g hg => by cases g <;> first | rfl | exact nomatch hg
theorem Keeps.set_map {m : Nat} {s x : State} (h : Keeps m s x) {v} (hm : Sub 64 m := by exact .of ‹_› rfl) : Keeps m s { x with map := v } :=
  h.part hm rfl (later_of rfl rfl rfl rfl) fun g hg => by cases g <;> first | rfl | exact nomatch hg
theorem Keeps.set_handovers {m : Nat} {s x : State} (h : Keeps m s x) {v} (hm : Sub 128 m := by exact .of ‹_› rfl) : Keeps m s { x with handovers := v } :=
  h.part hm rfl (later_of rfl rfl rfl rfl) fun g hg => by cases g <;> first | rfl | exact nomatch hg
theorem Keeps.set_lateSteps {m : Nat} {s x : State} (h : Keeps m s x) {v} (hm : Sub 256 m := by exact .of ‹_› rfl) : Keeps m s { x with lateSteps := v } :=
  h.part hm rfl (later_of rfl rfl rfl rfl) fun g hg => by cases g <;> first | rfl | exact nomatch hg
theorem Keeps.set_rots {m : Nat} {s x : State} (h : Keeps m s x) {v} (hm : Sub 512 m := by exact .of ‹_› rfl) : Keeps m s { x with rots := v } :=
  h.part hm rfl (later_of rfl rfl rfl rfl) fun g hg => by cases g <;> first | rfl | exact nomatch hg
theorem Keeps.set_cores {m : Nat} {s x : State} (h : Keeps m s x) {v} (hm : Sub 1024 m := by exact .of ‹_› rfl) : Keeps m s { x with cores := v } :=
  h.part hm rfl (later_of rfl rfl rfl rfl) fun g hg => by cases g <;> first | rfl | exact nomatch hg
theorem Keeps.set_regions {m : Nat} {s x : State} (h : Keeps m s x) {v} (hm : Sub 4096 m := by exact .of ‹_› rfl) : Keeps m s { x with regions := v } :=
  h.part hm rfl (later_of rfl rfl rfl rfl) fun g hg => by cases g <;> first | rfl | exact nomatch hg
theorem Keeps.set_pools {m : Nat} {s x : State} (h : Keeps m s x) {v} (hm : Sub 8192 m := by exact .of ‹_› rfl) : Keeps m s { x with pools := v } :=
  h.part hm rfl (later_of rfl rfl rfl rfl) fun g hg => by cases g <;> first | rfl | exact nomatch hg
theorem Keeps.set_tlb {m : Nat} {s x : State} (h : Keeps m s x) {v} (hm : Sub 16384 m := by exact .of ‹_› rfl) : Keeps m s { x with tlb := v } :=
  h.part hm rfl (later_of rfl rfl rfl rfl) fun g hg => by cases g <;> first | rfl | exact nomatch hg
theorem Keeps.set_wcache {m : Nat} {s x : State} (h : Keeps m s x) {v} (hm : Sub 32768 m := by exact .of ‹_› rfl) : Keeps m s { x with wcache := v } :=
  h.part hm rfl (later_of rfl rfl rfl rfl) fun g hg => by cases g <;> first | rfl | exact nomatch hg
theorem Keeps.set_walks {m : Nat} {s x : State} (h : Keeps m s x) {v} (hm : Sub 65536 m := by exact .of ‹_› rfl) : Keeps m s { x with walks := v } :=
  h.part hm rfl (later_of rfl rfl rfl rfl) fun g hg => by cases g <;> first | rfl | exact nomatch hg
theorem Keeps.set_walkFaults {m : Nat} {s x : State} (h : Keeps m s x) {v} (hm : Sub 131072 m := by exact .of ‹_› rfl) : Keeps m s { x with walkFaults := v } :=
  h.part hm rfl (later_of rfl rfl rfl rfl) fun g hg => by cases g <;> first | rfl | exact nomatch hg
theorem Keeps.set_inval {m : Nat} {s x : State} (h : Keeps m s x) {v} (hm : Sub 262144 m := by exact .of ‹_› rfl) : Keeps m s { x with inval := v } :=
  h.part hm rfl (later_of rfl rfl rfl rfl) fun g hg => by cases g <;> first | rfl | exact nomatch hg
theorem Keeps.set_dma {m : Nat} {s x : State} (h : Keeps m s x) {v} (hm : Sub 524288 m := by exact .of ‹_› rfl) : Keeps m s { x with dma := v } :=
  h.part hm rfl (later_of rfl rfl rfl rfl) fun g hg => by cases g <;> first | rfl | exact nomatch hg
theorem Keeps.set_vlog {m : Nat} {s x : State} (h : Keeps m s x) {v} (hm : Sub 1048576 m := by exact .of ‹_› rfl) : Keeps m s { x with vlog := v } :=
  h.part hm rfl (later_of rfl rfl rfl rfl) fun g hg => by cases g <;> first | rfl | exact nomatch hg
theorem Keeps.set_glog {m : Nat} {s x : State} (h : Keeps m s x) {v} (hm : Sub 2097152 m := by exact .of ‹_› rfl) : Keeps m s { x with glog := v } :=
  h.part hm rfl (later_of rfl rfl rfl rfl) fun g hg => by cases g <;> first | rfl | exact nomatch hg
theorem Keeps.set_slog {m : Nat} {s x : State} (h : Keeps m s x) {v} (hm : Sub 4194304 m := by exact .of ‹_› rfl) : Keeps m s { x with slog := v } :=
  h.part hm rfl (later_of rfl rfl rfl rfl) fun g hg => by cases g <;> first | rfl | exact nomatch hg
theorem Keeps.set_ifr {m : Nat} {s x : State} (h : Keeps m s x) {v} (hm : Sub 8388608 m := by exact .of ‹_› rfl) : Keeps m s { x with ifr := v } :=
  h.part hm rfl (later_of rfl rfl rfl rfl) fun g hg => by cases g <;> first | rfl | exact nomatch hg
theorem Keeps.set_cnt {m : Nat} {s x : State} (h : Keeps m s x) {v} (hm : Sub 16777216 m := by exact .of ‹_› rfl) : Keeps m s { x with cnt := v } :=
  h.part hm rfl (later_of rfl rfl rfl rfl) fun g hg => by cases g <;> first | rfl | exact nomatch hg
theorem Keeps.set_crema {m : Nat} {s x : State} (h : Keeps m s x) {v} (hm : Sub 33554432 m := by exact .of ‹_› rfl) : Keeps m s { x with crema := v } :=
  h.part hm rfl (later_of rfl rfl rfl rfl) fun g hg => by cases g <;> first | rfl | exact nomatch hg
theorem Keeps.set_cremaJobs {m : Nat} {s x : State} (h : Keeps m s x) {v} (hm : Sub 67108864 m := by exact .of ‹_› rfl) : Keeps m s { x with cremaJobs := v } :=
  h.part hm rfl (later_of rfl rfl rfl rfl) fun g hg => by cases g <;> first | rfl | exact nomatch hg
theorem Keeps.set_tdi {m : Nat} {s x : State} (h : Keeps m s x) {v} (hm : Sub 134217728 m := by exact .of ‹_› rfl) : Keeps m s { x with tdi := v } :=
  h.part hm rfl (later_of rfl rfl rfl rfl) fun g hg => by cases g <;> first | rfl | exact nomatch hg
theorem Keeps.set_spdm {m : Nat} {s x : State} (h : Keeps m s x) {v} (hm : Sub 268435456 m := by exact .of ‹_› rfl) : Keeps m s { x with spdm := v } :=
  h.part hm rfl (later_of rfl rfl rfl rfl) fun g hg => by cases g <;> first | rfl | exact nomatch hg
theorem Keeps.set_ide {m : Nat} {s x : State} (h : Keeps m s x) {v} (hm : Sub 536870912 m := by exact .of ‹_› rfl) : Keeps m s { x with ide := v } :=
  h.part hm rfl (later_of rfl rfl rfl rfl) fun g hg => by cases g <;> first | rfl | exact nomatch hg
theorem Keeps.set_tdiStream {m : Nat} {s x : State} (h : Keeps m s x) {v} (hm : Sub 1073741824 m := by exact .of ‹_› rfl) : Keeps m s { x with tdiStream := v } :=
  h.part hm rfl (later_of rfl rfl rfl rfl) fun g hg => by cases g <;> first | rfl | exact nomatch hg
theorem Keeps.set_rasWin {m : Nat} {s x : State} (h : Keeps m s x) {v} (hm : Sub 2147483648 m := by exact .of ‹_› rfl) : Keeps m s { x with rasWin := v } :=
  h.part hm rfl (later_of rfl rfl rfl rfl) fun g hg => by cases g <;> first | rfl | exact nomatch hg
theorem Keeps.set_rasBins {m : Nat} {s x : State} (h : Keeps m s x) {v} (hm : Sub 4294967296 m := by exact .of ‹_› rfl) : Keeps m s { x with rasBins := v } :=
  h.part hm rfl (later_of rfl rfl rfl rfl) fun g hg => by cases g <;> first | rfl | exact nomatch hg
theorem Keeps.set_rasCool {m : Nat} {s x : State} (h : Keeps m s x) {v} (hm : Sub 8589934592 m := by exact .of ‹_› rfl) : Keeps m s { x with rasCool := v } :=
  h.part hm rfl (later_of rfl rfl rfl rfl) fun g hg => by cases g <;> first | rfl | exact nomatch hg
theorem Keeps.set_escal {m : Nat} {s x : State} (h : Keeps m s x) {v} (hm : Sub 17179869184 m := by exact .of ‹_› rfl) : Keeps m s { x with escal := v } :=
  h.part hm rfl (later_of rfl rfl rfl rfl) fun g hg => by cases g <;> first | rfl | exact nomatch hg
theorem Keeps.set_fab {m : Nat} {s x : State} (h : Keeps m s x) {v} (hm : Sub 34359738368 m := by exact .of ‹_› rfl) : Keeps m s { x with fab := v } :=
  h.part hm rfl (later_of rfl rfl rfl rfl) fun g hg => by cases g <;> first | rfl | exact nomatch hg
theorem Keeps.set_fenceRecs {m : Nat} {s x : State} (h : Keeps m s x) {v} (hm : Sub 68719476736 m := by exact .of ‹_› rfl) : Keeps m s { x with fenceRecs := v } :=
  h.part hm rfl (later_of rfl rfl rfl rfl) fun g hg => by cases g <;> first | rfl | exact nomatch hg
theorem Keeps.set_progImages {m : Nat} {s x : State} (h : Keeps m s x) {v} (hm : Sub 137438953472 m := by exact .of ‹_› rfl) : Keeps m s { x with progImages := v } :=
  h.part hm rfl (later_of rfl rfl rfl rfl) fun g hg => by cases g <;> first | rfl | exact nomatch hg
theorem Keeps.set_epochs {m : Nat} {s x : State} (h : Keeps m s x) {v} (hm : Sub 274877906944 m := by exact .of ‹_› rfl) : Keeps m s { x with epochs := v } :=
  h.part hm rfl (later_of rfl rfl rfl rfl) fun g hg => by cases g <;> first | rfl | exact nomatch hg
theorem Keeps.set_nextTable {m : Nat} {s x : State} (h : Keeps m s x) {v} (hm : Sub 549755813888 m := by exact .of ‹_› rfl) : Keeps m s { x with nextTable := v } :=
  h.part hm rfl (later_of rfl rfl rfl rfl) fun g hg => by cases g <;> first | rfl | exact nomatch hg
theorem Keeps.set_hostOut {m : Nat} {s x : State} (h : Keeps m s x) {v} (hm : Sub 1099511627776 m := by exact .of ‹_› rfl) : Keeps m s { x with hostOut := v } :=
  h.part hm rfl (later_of rfl rfl rfl rfl) fun g hg => by cases g <;> first | rfl | exact nomatch hg
theorem Keeps.set_islCopy {m : Nat} {s x : State} (h : Keeps m s x) {v} (hm : Sub 2199023255552 m := by exact .of ‹_› rfl) : Keeps m s { x with islCopy := v } :=
  h.part hm rfl (later_of rfl rfl rfl rfl) fun g hg => by cases g <;> first | rfl | exact nomatch hg
theorem Keeps.set_mcIrq {m : Nat} {s x : State} (h : Keeps m s x) {v} (hm : Sub 4398046511104 m := by exact .of ‹_› rfl) : Keeps m s { x with mcIrq := v } :=
  h.part hm rfl (later_of rfl rfl rfl rfl) fun g hg => by cases g <;> first | rfl | exact nomatch hg
theorem Keeps.set_cgl {m : Nat} {s x : State} (h : Keeps m s x) {v} (hm : Sub 8796093022208 m := by exact .of ‹_› rfl) : Keeps m s { x with cgl := v } :=
  h.part hm rfl (later_of rfl rfl rfl rfl) fun g hg => by cases g <;> first | rfl | exact nomatch hg
theorem Keeps.set_brs {m : Nat} {s x : State} (h : Keeps m s x) {v} (hm : Sub 17592186044416 m := by exact .of ‹_› rfl) : Keeps m s { x with brs := v } :=
  h.part hm rfl (later_of rfl rfl rfl rfl) fun g hg => by cases g <;> first | rfl | exact nomatch hg
theorem Keeps.set_lnk {m : Nat} {s x : State} (h : Keeps m s x) {v} (hm : Sub 35184372088832 m := by exact .of ‹_› rfl) : Keeps m s { x with lnk := v } :=
  h.part hm rfl (later_of rfl rfl rfl rfl) fun g hg => by cases g <;> first | rfl | exact nomatch hg
theorem Keeps.set_laneRecs {m : Nat} {s x : State} (h : Keeps m s x) {v} (hm : Sub 70368744177664 m := by exact .of ‹_› rfl) : Keeps m s { x with laneRecs := v } :=
  h.part hm rfl (later_of rfl rfl rfl rfl) fun g hg => by cases g <;> first | rfl | exact nomatch hg
theorem Keeps.set_guards {m : Nat} {s x : State} (h : Keeps m s x) {v} (hm : Sub 140737488355328 m := by exact .of ‹_› rfl) : Keeps m s { x with guards := v } :=
  h.part hm rfl (later_of rfl rfl rfl rfl) fun g hg => by cases g <;> first | rfl | exact nomatch hg
theorem Keeps.set_grpPend {m : Nat} {s x : State} (h : Keeps m s x) {v} (hm : Sub 281474976710656 m := by exact .of ‹_› rfl) : Keeps m s { x with grpPend := v } :=
  h.part hm rfl (later_of rfl rfl rfl rfl) fun g hg => by cases g <;> first | rfl | exact nomatch hg
theorem Keeps.set_fec {m : Nat} {s x : State} (h : Keeps m s x) {v} (hm : Sub 562949953421312 m := by exact .of ‹_› rfl) : Keeps m s { x with fec := v } :=
  h.part hm rfl (later_of rfl rfl rfl rfl) fun g hg => by cases g <;> first | rfl | exact nomatch hg
theorem Keeps.set_cells {m : Nat} {s x : State} (h : Keeps m s x) {v} (hm : Sub 1125899906842624 m := by exact .of ‹_› rfl) : Keeps m s { x with cells := v } :=
  h.part hm rfl (later_of rfl rfl rfl rfl) fun g hg => by cases g <;> first | rfl | exact nomatch hg
theorem Keeps.set_maskRun {m : Nat} {s x : State} (h : Keeps m s x) {v} (hm : Sub 2251799813685248 m := by exact .of ‹_› rfl) : Keeps m s { x with maskRun := v } :=
  h.part hm rfl (later_of rfl rfl rfl rfl) fun g hg => by cases g <;> first | rfl | exact nomatch hg
theorem Keeps.set_tm {m : Nat} {s x : State} (h : Keeps m s x) {v} (hm : Sub 4503599627370496 m := by exact .of ‹_› rfl) : Keeps m s { x with tm := v } :=
  h.part hm rfl (later_of rfl rfl rfl rfl) fun g hg => by cases g <;> first | rfl | exact nomatch hg
theorem Keeps.set_retiredQ {m : Nat} {s x : State} (h : Keeps m s x) {v} (hm : Sub 9007199254740992 m := by exact .of ‹_› rfl) : Keeps m s { x with retiredQ := v } :=
  h.part hm rfl (later_of rfl rfl rfl rfl) fun g hg => by cases g <;> first | rfl | exact nomatch hg
theorem Keeps.set_mbx {m : Nat} {s x : State} (h : Keeps m s x) {v} (hm : Sub 18014398509481984 m := by exact .of ‹_› rfl) : Keeps m s { x with mbx := v } :=
  h.part hm rfl (later_of rfl rfl rfl rfl) fun g hg => by cases g <;> first | rfl | exact nomatch hg
theorem Keeps.set_notices {m : Nat} {s x : State} (h : Keeps m s x) {v} (hm : Sub 36028797018963968 m := by exact .of ‹_› rfl) : Keeps m s { x with notices := v } :=
  h.part hm rfl (later_of rfl rfl rfl rfl) fun g hg => by cases g <;> first | rfl | exact nomatch hg
theorem Keeps.set_epPtr {m : Nat} {s x : State} (h : Keeps m s x) {v} (hm : Sub 72057594037927936 m := by exact .of ‹_› rfl) : Keeps m s { x with epPtr := v } :=
  h.part hm rfl (later_of rfl rfl rfl rfl) fun g hg => by cases g <;> first | rfl | exact nomatch hg
theorem Keeps.set_msix {m : Nat} {s x : State} (h : Keeps m s x) {v} (hm : Sub 144115188075855872 m := by exact .of ‹_› rfl) : Keeps m s { x with msix := v } :=
  h.part hm rfl (later_of rfl rfl rfl rfl) fun g hg => by cases g <;> first | rfl | exact nomatch hg
theorem Keeps.set_msixOut {m : Nat} {s x : State} (h : Keeps m s x) {v} (hm : Sub 288230376151711744 m := by exact .of ‹_› rfl) : Keeps m s { x with msixOut := v } :=
  h.part hm rfl (later_of rfl rfl rfl rfl) fun g hg => by cases g <;> first | rfl | exact nomatch hg
theorem Keeps.set_lost {m : Nat} {s x : State} (h : Keeps m s x) {v} (hm : Sub 576460752303423488 m := by exact .of ‹_› rfl) : Keeps m s { x with lost := v } :=
  h.part hm rfl (later_of rfl rfl rfl rfl) fun g hg => by cases g <;> first | rfl | exact nomatch hg
theorem Keeps.set_parts {m : Nat} {s x : State} (h : Keeps m s x) {v} (hm : Sub 1152921504606846976 m := by exact .of ‹_› rfl) : Keeps m s { x with parts := v } :=
  h.part hm rfl (later_of rfl rfl rfl rfl) fun g hg => by cases g <;> first | rfl | exact nomatch hg
theorem Keeps.set_dying {m : Nat} {s x : State} (h : Keeps m s x) {v} (hm : Sub 2305843009213693952 m := by exact .of ‹_› rfl) : Keeps m s { x with dying := v } :=
  h.part hm rfl (later_of rfl rfl rfl rfl) fun g hg => by cases g <;> first | rfl | exact nomatch hg
theorem Keeps.set_siloOut {m : Nat} {s x : State} (h : Keeps m s x) {v} (hm : Sub 4611686018427387904 m := by exact .of ‹_› rfl) : Keeps m s { x with siloOut := v } :=
  h.part hm rfl (later_of rfl rfl rfl rfl) fun g hg => by cases g <;> first | rfl | exact nomatch hg
theorem Keeps.set_rampWait {m : Nat} {s x : State} (h : Keeps m s x) {v} (hm : Sub 9223372036854775808 m := by exact .of ‹_› rfl) : Keeps m s { x with rampWait := v } :=
  h.part hm rfl (later_of rfl rfl rfl rfl) fun g hg => by cases g <;> first | rfl | exact nomatch hg
theorem Keeps.set_repairs {m : Nat} {s x : State} (h : Keeps m s x) {v} (hm : Sub 18446744073709551616 m := by exact .of ‹_› rfl) : Keeps m s { x with repairs := v } :=
  h.part hm rfl (later_of rfl rfl rfl rfl) fun g hg => by cases g <;> first | rfl | exact nomatch hg
theorem Keeps.set_repaired {m : Nat} {s x : State} (h : Keeps m s x) {v} (hm : Sub 36893488147419103232 m := by exact .of ‹_› rfl) : Keeps m s { x with repaired := v } :=
  h.part hm rfl (later_of rfl rfl rfl rfl) fun g hg => by cases g <;> first | rfl | exact nomatch hg
theorem Keeps.set_testing {m : Nat} {s x : State} (h : Keeps m s x) {v} (hm : Sub 73786976294838206464 m := by exact .of ‹_› rfl) : Keeps m s { x with testing := v } :=
  h.part hm rfl (later_of rfl rfl rfl rfl) fun g hg => by cases g <;> first | rfl | exact nomatch hg
theorem Keeps.set_witOrder {m : Nat} {s x : State} (h : Keeps m s x) {v} (hm : Sub 147573952589676412928 m := by exact .of ‹_› rfl) : Keeps m s { x with witOrder := v } :=
  h.part hm rfl (later_of rfl rfl rfl rfl) fun g hg => by cases g <;> first | rfl | exact nomatch hg
theorem Keeps.set_witRun {m : Nat} {s x : State} (h : Keeps m s x) {v} (hm : Sub 295147905179352825856 m := by exact .of ‹_› rfl) : Keeps m s { x with witRun := v } :=
  h.part hm rfl (later_of rfl rfl rfl rfl) fun g hg => by cases g <;> first | rfl | exact nomatch hg
theorem Keeps.set_witAt {m : Nat} {s x : State} (h : Keeps m s x) {v} (hm : Sub 590295810358705651712 m := by exact .of ‹_› rfl) : Keeps m s { x with witAt := v } :=
  h.part hm rfl (later_of rfl rfl rfl rfl) fun g hg => by cases g <;> first | rfl | exact nomatch hg
theorem Keeps.set_fatalAt {m : Nat} {s x : State} (h : Keeps m s x) {v} (hm : Sub 1180591620717411303424 m := by exact .of ‹_› rfl) : Keeps m s { x with fatalAt := v } :=
  h.part hm rfl (later_of rfl rfl rfl rfl) fun g hg => by cases g <;> first | rfl | exact nomatch hg
theorem Keeps.set_trip {m : Nat} {s x : State} (h : Keeps m s x) {v} (hm : Sub 2361183241434822606848 m := by exact .of ‹_› rfl) : Keeps m s { x with trip := v } :=
  h.part hm rfl (later_of rfl rfl rfl rfl) fun g hg => by cases g <;> first | rfl | exact nomatch hg
theorem Keeps.set_flash {m : Nat} {s x : State} (h : Keeps m s x) {v} (hm : Sub 9444732965739290427392 m := by exact .of ‹_› rfl) : Keeps m s { x with flash := v } :=
  h.part hm rfl (later_of rfl rfl rfl rfl) fun g hg => by cases g <;> first | rfl | exact nomatch hg
theorem Keeps.set_bank0 {m : Nat} {s x : State} (h : Keeps m s x) {v} (hm : Sub 18889465931478580854784 m := by exact .of ‹_› rfl) : Keeps m s { x with bank0 := v } :=
  h.part hm rfl (later_of rfl rfl rfl rfl) fun g hg => by cases g <;> first | rfl | exact nomatch hg
theorem Keeps.set_bank1 {m : Nat} {s x : State} (h : Keeps m s x) {v} (hm : Sub 37778931862957161709568 m := by exact .of ‹_› rfl) : Keeps m s { x with bank1 := v } :=
  h.part hm rfl (later_of rfl rfl rfl rfl) fun g hg => by cases g <;> first | rfl | exact nomatch hg
theorem Keeps.set_boot {m : Nat} {s x : State} (h : Keeps m s x) {v} (hm : Sub 75557863725914323419136 m := by exact .of ‹_› rfl) : Keeps m s { x with boot := v } :=
  h.part hm rfl (later_of rfl rfl rfl rfl) fun g hg => by cases g <;> first | rfl | exact nomatch hg
theorem Keeps.set_dev {m : Nat} {s x : State} (h : Keeps m s x) {v : Mem} (w : x.dev.wf = true → v.wf = true)
    (hm : Sub 2048 m := by exact .of ‹_› rfl) : Keeps m s { x with dev := v } :=
  h.part hm rfl (later_of_dev rfl rfl rfl w) fun g hg => by cases g <;> first | rfl | exact nomatch hg

end Sys2Proof.Machine
end

