-- ==== Sys2Proof/Machine/View.lean ====
section
/-!
DEFINITION. Machine/View.lean: what a management core reads at a register whose value the state holds elsewhere: engine and core
states, queue occupancy, counts, logs. Every other register reads as it is held.
-/
namespace Sys2Proof.Machine

/-! ### Cores and engines -/

def ThrState.code : ThrState → Nat
  | .free => 0 | .active => 1 | .waitRem => 2 | .waitEvt => 3 | .waitEng => 4 | .fenced => 7

/-- PRT_THR_STATE. -/
def CoreCtx.threadStates (c : CoreCtx) : Nat := (List.range 8).foldl (fun v t => v + (c.thread t).st.code <<< (4 * t)) 0

/-- Queue occupancy (Table 3.13). -/
def DescQ.stat (d : DescQ) : Nat := d.q.items.length + d.compl.items.length <<< 6

/-- PRT_TQ_STAT (Table 4.13). -/
def CoreCtx.taskStat (c : CoreCtx) : Nat :=
  c.tq.stat + ((List.range 8).filter (fun t => (c.thread t).st != .free)).length <<< 12

/-- The state of an engine context: 7 FENCED, 0 IDLE, 3 STALL while a full completion queue keeps its head waiting (R78), 5 PARKED,
else what it does. -/
def unitState (fenced owns : Bool) (d : DescQ) (job : Option Nat) : Nat :=
  if fenced then 7
  else match job with
    | none => if d.q.items.isEmpty || d.canAccept then 0 else 3
    | some k => if owns then k else 5

/-- Table 3.8: LOAD is shown as RUN. -/
def meState (c : Core) (x : Ctx) : Nat :=
  let m := (c.ctx x).me
  unitState c.fenced (c.owner == x) m.dq (if m.jobs.isEmpty && m.array.isEmpty then none else some (if m.jobs.any (fun j => j.drain) then 4 else 2))

def vceState (c : Core) (v : Nat) (x : Ctx) : Nat :=
  let e := (c.ctx x).vce v
  unitState c.fenced (c.owner == x) e.dq (if e.job.isSome then some 2 else none)

def tmeState (c : Core) (x : Ctx) : Nat :=
  let e := (c.ctx x).tme
  unitState c.fenced (c.owner == x) e.dq (if e.jobs.isEmpty then none else some 2)

/-- Core states (Table 4.6). -/
def coreState (c : Core) : Nat :=
  if c.fenced then 7
  else if c.load.isSome then 3
  else if c.idle then 0
  else if (List.range 8).any (fun t => ((c.ctx c.owner).thread t).st == .active) then 1
  else 2

/-- VCE_RPT (Table 5.14). -/
def VceCtx.rpt (e : VceCtx) : Nat :=
  e.rptLeft + e.rptPc <<< 16 + b2n e.rptActive <<< 31 + e.loopLeft <<< 32 + e.loopPc <<< 48 + b2n e.loopActive <<< 63

/-- Staging buffers that a context holds (Table 6.10). -/
def TmeCtx.staging (e : TmeCtx) : Nat := e.jobs.foldl (fun n j => n + j.staged.length) 0

/-- Word w of the convolution slots (Table 6.7): the valid bit is bit 31 of a slot's first word. -/
def TmeCtx.convWord (e : TmeCtx) (w : Nat) : Nat :=
  let r := Tbl.get (false, 0) e.conv (w / 4)
  let v := bits r.2 (64 * (w % 4)) 64
  if w % 4 = 0 then setBits v 31 1 (b2n r.1) else v

/-- RAS_CORE_MAP (Table 4.17). -/
def State.coreMap (s : State) (pc : Nat) : Nat :=
  let spare := (s.spares (pc / 128)).contains pc
  s.lcOf pc + (pc / 128) <<< 9 + (pc / 8 % 16) <<< 11 + (pc % 8) <<< 15 + b2n spare <<< 18 + b2n (s.core pc).fenced <<< 19

/-- Offset o of a physical core's page, when its value is held elsewhere. -/
def State.coreView (s : State) (pc o : Nat) : Option Nat :=
  let c := s.core pc
  let eng (v : Nat) (o : Nat) : Option Nat :=
    if o = 0x08 then some (vceState c v .timed + vceState c v .elastic <<< 3 + b2n (c.owner == .elastic) <<< 6
      + b2n (((c.ctx c.owner).vce v).runLeft != 0) <<< 7)
    else if o = 0x20 then some (c.t.vce v).dq.stat
    else if o = 0x28 then some (c.e.vce v).dq.stat
    else if o = 0x60 then some (c.t.vce v).rpt
    else if o = 0x68 then some (c.e.vce v).rpt
    else none
  if o = 0x00 then some (coreState c + b2n c.t.busy <<< 3 + b2n c.e.busy <<< 4)
  else if o = 0x08 then some (b2n (c.owner == .elastic) + c.group <<< 1 + b2n c.tEntry <<< 8)
  else if o = 0x18 then some c.t.threadStates
  else if o = 0x20 then some c.e.threadStates
  else if o = 0x28 then some c.t.taskStat
  else if o = 0x30 then some c.e.taskStat
  else if o = 0x100 then some (setBits (s.reg (MEM_PM_HOLD pc)) 2 1 (b2n (s.fld (MEM_PM_HOLD pc) 1 1 == 1 && !c.tEntry)))
  else if o = 0x1A8 then some (s.coreMap pc)
  else if o = 0x208 then some (meState c .timed + meState c .elastic <<< 3 + b2n (c.owner == .elastic) <<< 6 + c.tampLevel <<< 7)
  else if o = 0x228 then some c.t.me.dq.stat
  else if o = 0x230 then some c.e.me.dq.stat
  else if 0x400 ≤ o ∧ o < 0x500 then eng 0 (o - 0x400)
  else if 0x500 ≤ o ∧ o < 0x600 then eng 1 (o - 0x500)
  else if o = 0x808 then some (tmeState c .timed + tmeState c .elastic <<< 3 + b2n (c.owner == .elastic) <<< 6)
  else if o = 0x810 then some c.t.tme.dq.stat
  else if o = 0x818 then some c.e.tme.dq.stat
  else if o = 0x838 then some (c.t.tme.staging + c.e.tme.staging <<< 5)
  else if 0x900 ≤ o ∧ o < 0xA00 then some (c.t.tme.convWord ((o - 0x900) / 8))
  else if 0xA00 ≤ o ∧ o < 0xB00 then some (c.e.tme.convWord ((o - 0xA00) / 8))
  else none

/-! ### Hub blocks -/

/-- RAS_DIE_STAT: spares left, logical cores available, numbers withdrawn, cores fenced. -/
def State.dieStat (s : State) (d : Nat) : Nat :=
  let gone := ((s.dieLcs d).filter (fun n => s.phys n == noCore)).length
  let fenced := ((tabulate 128 (fun i => 128 * d + i)).filter (fun p => (s.core p).fenced)).length
  (s.spares d).length + (s.grade.perDie - gone) <<< 4 + gone <<< 11 + (bits fenced 0 5) <<< 18

/-- MEM_POOL_STAT. -/
def State.poolStat (s : State) (p : Nat) : Nat := s.poolFree p + (s.pool p).waiters.length <<< 17 + (s.pool p).pointer <<< 23

/-- FAB_STATUS: tags in use and in quarantine. -/
def State.fabStat (s : State) : Nat :=
  let u := s.fab.tags.filter (fun t => t.2.isSome)
  u.length + (u.filter (fun t => t.2.any (fun x => x.quarantined))).length <<< 18

/-- FAB_XI_STAT: READY, TAKEN, DONE and FREE slots of an inbox. -/
def State.inboxStat (s : State) (i : Nat) : Nat :=
  let l := (s.fab.slots.filter (fun p => p.1 / 4096 == i)).map (·.2)
  let n (st : Nat) : Nat := (l.filter (fun v => v == st)).length
  n 1 + n 2 <<< 12 + n 3 <<< 24 + (s.fld (FAB_XI_CFG i) 25 12 - l.length) <<< 36

/-- MBX_CHAN_STAT: entries in use of the six channels. -/
def State.chanStat (s : State) (i : Nat) : Nat := (List.range 6).foldl (fun v c => v + (s.chan i c).used <<< (5 * c)) 0

/-- MBX_EP_STAT: packets that wait for a partition's endpoint. -/
def State.epStat (s : State) (p : Nat) : Nat :=
  (s.mbx.filter (fun m => m.1 % 8 == 2 && s.instPart (m.1 / 8) == p)).foldl (fun n m => n + m.2.q.packets) 0

/-- SEC_CREMA_SESS (Table 17.8). -/
def State.cremaSess (s : State) (i : Nat) : Nat :=
  (List.range 4).foldl (fun v k =>
    let x := Tbl.get ({} : CremaSlot) s.crema (4 * i + k)
    v + b2n x.opened <<< k + b2n (x.opened && x.det) <<< (4 + k) + (bits x.taint 0 5) <<< (8 + 5 * k)) 0

/-- SEC_CREMA_STAT. -/
def State.cremaStat (s : State) : Nat := (s.crema.filter (fun c => c.2.opened)).length + b2n (!s.cremaJobs.isEmpty) <<< 12

/-- Word w of a log of records of n words. -/
def logWord (l : List (Nat × Nat)) (n w : Nat) : Nat := bits (Tbl.get 0 l (w / n)) (64 * (w % n)) 64

/-- What a read of the register at offset a of the control region returns. -/
def State.view (s : State) (a : Nat) : Nat :=
  if 0x3200000 ≤ a ∧ a < 0x3400000 then (s.coreView (a % 0x200000 / 0x1000) (a % 0x1000)).getD (s.reg a)
  else if a = TIME_CNT then s.cnt
  else if a = TIME_NOW_NS then s.nowNs
  else if a = FAB_STATUS then s.fabStat
  else if a = SEC_CREMA_STAT then s.cremaStat
  else match arrIdx (MEM_POOL_STAT 0) 0x20 64 a, arrIdx (FAB_XI_STAT 0) 0x20 64 a, arrIdx (MBX_EP_STAT 0) 8 16 a,
      arrIdx (MBX_CHAN_STAT 0) 8 512 a, arrIdx (SEC_CREMA_SESS 0) 8 512 a, arrIdx (RAS_DIE_STAT 0) 8 4 a with
    | some n, _, _, _, _, _ => s.poolStat n
    | _, some n, _, _, _, _ => s.inboxStat n
    | _, _, some n, _, _, _ => s.epStat n
    | _, _, _, some n, _, _ => s.chanStat n
    | _, _, _, _, some n, _ => s.cremaSess n
    | _, _, _, _, _, some n => s.dieStat n
    | _, _, _, _, _, _ =>
      if 0x21000 ≤ a ∧ a < 0x29000 then logWord s.vlog 4 ((a - 0x21000) / 8)
      else if 0x29000 ≤ a ∧ a < 0x29400 then logWord s.glog 2 ((a - 0x29000) / 8)
      else if 0x35000 ≤ a ∧ a < 0x36000 then logWord s.slog 2 ((a - 0x35000) / 8)
      else s.reg a

end Sys2Proof.Machine
end

