-- ==== Sys2Proof/Laws/Effects.lean ====
section
/-!
SUPPORT. Laws/Effects.lean: every operation and every meaning keeps what Keeps names: one lemma for each definition that answers a
state, in the order in which they call one another. The number in a lemma's hypothesis hm says which parts of the state
(Field.bit) the definition may change.
-/
namespace Sys2Proof.Machine

section

set_option linter.unusedVariables false
set_option Elab.async false

open Sys2Proof.Safety

theorem Keeps.setReg {m : Nat} {s x : State} (h : Keeps m s x) {a1 a2} (hm : Sub 4 m := by exact .of ‹_› rfl) : Keeps m s (State.setReg x a1 a2) :=
  h.part hm rfl (later_of_regs rfl rfl rfl (regsWf_put _ _ _)) fun g hg => by cases g <;> first | rfl | exact nomatch hg

theorem Keeps.setFld {m : Nat} {s x : State} (h : Keeps m s x) {a1 a2 a3 a4} (hm : Sub 4 m := by exact .of ‹_› rfl) : Keeps m s (State.setFld x a1 a2 a3 a4) := h.setReg
theorem Keeps.event {m : Nat} {s x : State} (h : Keeps m s x) {a1 a2} (hm : Sub 4 m := by exact .of ‹_› rfl) : Keeps m s (State.event x a1 a2) := h.setFld
theorem Keeps.setDomState {m : Nat} {s x : State} (h : Keeps m s x) {a1 a2} (hm : Sub 4 m := by exact .of ‹_› rfl) : Keeps m s (State.setDomState x a1 a2) := by
  unfold State.setDomState
  extract_lets v1
  have hv1 : Keeps m s v1 := h.setFld
  exact .ite hv1.event hv1
theorem Keeps.glideFlag {m : Nat} {s x : State} (h : Keeps m s x) {a1} (hm : Sub 4 m := by exact .of ‹_› rfl) : Keeps m s (State.glideFlag x a1) := h.setFld
theorem Keeps.quadUp {m : Nat} {s x : State} (h : Keeps m s x) {a1} (hm : Sub 2199023255556 m := by exact .of ‹_› rfl) : Keeps m s (State.quadUp x a1) := by
  unfold State.quadUp
  refine .foldl h fun y1 h1 a2 => ?_
  extract_lets v1
  have hv1 : Keeps m s v1 := h1.setFld.setFld.setFld
  exact hv1.set_islCopy.glideFlag
theorem execDomainRampEnd_keeps {m : Nat} {s : State} {a1} {x : State} (h : Keeps m s x) (hm : Sub 9223374235878031364 m := by exact .of ‹_› rfl) : OutP m s (execDomainRampEnd a1 x) := by
  unfold execDomainRampEnd
  extract_lets v1 v2 v3
  have hv2 : Keeps m s v2 := h.setDomState
  have hv3 : Keeps m s v3 := (.ite hv2.quadUp hv2)
  refine .next (.ite h ?_)
  split
  · exact hv3
  · exact hv3.set_rampWait.setFld.setDomState
theorem Keeps.setGateway {m : Nat} {s x : State} (h : Keeps m s x) {a1 a2} (hm : Sub 34359738368 m := by exact .of ‹_› rfl) : Keeps m s (State.setGateway x a1 a2) := h.set_fab
theorem Keeps.gwReturn {m : Nat} {s x : State} (h : Keeps m s x) {a1} (hm : Sub 8192 m := by exact .of ‹_› rfl) : Keeps m s (State.gwReturn x a1) := by
  unfold State.gwReturn
  split
  · extract_lets v1
    exact h.set_pools
  · exact h
theorem Keeps.bump64 {m : Nat} {s x : State} (h : Keeps m s x) {a1 a2} (hm : Sub 4 m := by exact .of ‹_› rfl) : Keeps m s (State.bump64 x a1 a2) := h.setReg
theorem Keeps.setPort {m : Nat} {s x : State} (h : Keeps m s x) {a1 a2} (hm : Sub 35184372088832 m := by exact .of ‹_› rfl) : Keeps m s (State.setPort x a1 a2) := h.set_lnk
theorem Keeps.holdFlit {m : Nat} {s x : State} (h : Keeps m s x) {a1 a2 a3 a4} (hm : Sub 35184372088836 m := by exact .of ‹_› rfl) : Keeps m s (State.holdFlit x a1 a2 a3 a4) := by
  unfold State.holdFlit
  extract_lets v1 v2 v3
  have hv3 : Keeps m s v3 := h.setPort
  exact hv3.setFld.setFld
theorem Keeps.lnkPump {m : Nat} {s x : State} (h : Keeps m s x) {a1 a2} (hm : Sub 35218731827204 m := by exact .of ‹_› rfl) : Keeps m s (State.lnkPump x a1 a2) := by
  induction a2 generalizing x a1 with
  | zero =>
    unfold State.lnkPump
    exact h
  | succ n ih =>
    unfold State.lnkPump
    extract_lets v1 v2
    refine .ite h ?_
    split
    · apply ih
      exact h.setPort.holdFlit
    · clear_value v2
      split
      · exact h
      · extract_lets v2 v3 v4 v5 v6
        have hv4 : Keeps m s v4 := h.setPort
        have hv6 : Keeps m s v6 := (.ite hv4.set_fab hv4)
        apply ih
        exact hv6.holdFlit
theorem Keeps.toPort {m : Nat} {s x : State} (h : Keeps m s x) {a1 a2} (hm : Sub 35218731827204 m := by exact .of ‹_› rfl) : Keeps m s (State.toPort x a1 a2) := .ite h.setPort h.setPort.lnkPump
theorem Keeps.gwSend {m : Nat} {s x : State} (h : Keeps m s x) {a1 a2} (hm : Sub 35218731835396 m := by exact .of ‹_› rfl) : Keeps m s (State.gwSend x a1 a2) := by
  unfold State.gwSend
  extract_lets v1 v2 v3 v4 v5 v6 v7 v8
  have hv6 : Keeps m s v6 := h.setGateway
  have hv7 : Keeps m s v7 := hv6.gwReturn
  exact .ite h hv7.toPort.bump64
theorem Keeps.gwBuffer {m : Nat} {s x : State} (h : Keeps m s x) {a1 a2} (hm : Sub 8192 m := by exact .of ‹_› rfl) : Keeps m s (State.gwBuffer x a1 a2).2 := by
  unfold State.gwBuffer
  extract_lets v1 v2
  split
  · dsimp -zeta only
    exact h
  · extract_lets v3 v4
    dsimp -zeta only
    exact h.set_pools
theorem Keeps.gwPack {m : Nat} {s x : State} (h : Keeps m s x) {a1 a2} (hm : Sub 35218731835396 m := by exact .of ‹_› rfl) : Keeps m s (State.gwPack x a1 a2) := by
  induction a2 generalizing x a1 with
  | zero =>
    unfold State.gwPack
    exact h
  | succ n ih =>
    unfold State.gwPack
    extract_lets v1
    split
    · extract_lets v2 v3 v4 v5 v6
      have hv4 : Keeps m s v4.2 := by
        unfold v4
        refine ite_ind (P := fun r : Option (Nat × Nat) × State => Keeps m s r.2) ?_ h.gwBuffer
        dsimp -zeta only
        exact h
      have hv5 : Keeps m s v5 := hv4
      refine .ite (by apply ih; exact h.gwSend) ?_
      split
      · exact h
      · extract_lets v7 v8 v9
        have hv8 : Keeps m s v8 := hv5.setGateway
        have hv9 : Keeps m s v9 := (.ite hv8.gwSend hv8)
        apply ih
        exact hv9
    · exact h
theorem execGwFrameSend_keeps {m : Nat} {s : State} {a1 a2} {x : State} (h : Keeps m s x) (hm : Sub 35218731835396 m := by exact .of ‹_› rfl) : OutP m s (execGwFrameSend a1 a2 x) := by
  unfold execGwFrameSend
  refine .next h.gwSend.gwPack
theorem Keeps.setBrsGrp {m : Nat} {s x : State} (h : Keeps m s x) {a1 a2} (hm : Sub 17592186044416 m := by exact .of ‹_› rfl) : Keeps m s (State.setBrsGrp x a1 a2) := h.set_brs
theorem Keeps.answer {m : Nat} {s x : State} (h : Keeps m s x) {a1 a2 a3} (hm : Sub 2 m := by exact .of ‹_› rfl) : Keeps m s (State.answer x a1 a2 a3) := h.set_reply
theorem Keeps.bumpFld {m : Nat} {s x : State} (h : Keeps m s x) {a1 a2 a3 a4} (hm : Sub 4 m := by exact .of ‹_› rfl) : Keeps m s (State.bumpFld x a1 a2 a3 a4) := h.setFld
theorem Keeps.bump {m : Nat} {s x : State} (h : Keeps m s x) {a1} (hm : Sub 4 m := by exact .of ‹_› rfl) : Keeps m s (State.bump x a1) := h.bumpFld
theorem Keeps.refuseLog {m : Nat} {s x : State} (h : Keeps m s x) {a1 a2 a3 a4} (hm : Sub 4194308 m := by exact .of ‹_› rfl) : Keeps m s (State.refuseLog x a1 a2 a3 a4) := by
  unfold State.refuseLog
  extract_lets v1 v2 v3 v4 v5
  have hv4 : Keeps m s v4 := h.set_slog
  have hv5 : Keeps m s v5 := hv4.setFld
  exact .ite hv5.bump hv5
theorem Keeps.brsState {m : Nat} {s x : State} (h : Keeps m s x) {a1 a2} (hm : Sub 4194310 m := by exact .of ‹_› rfl) : Keeps m s (State.brsState x a1 a2) := h.bump.refuseLog.answer
theorem Keeps.violate {m : Nat} {s x : State} (h : Keeps m s x) {a1} (hm : Sub 1048580 m := by exact .of ‹_› rfl) : Keeps m s (State.violate x a1) := by
  unfold State.violate
  extract_lets v1 v2 v3 v4
  have hv3 : Keeps m s v3 := h.set_vlog
  have hv4 : Keeps m s v4 := hv3.setFld
  exact .ite hv4.bump hv4
theorem Keeps.setWreg {m : Nat} {s x : State} (h : Keeps m s x) {a1 a2 a3} (hm : Sub 8 m := by exact .of ‹_› rfl) : Keeps m s (State.setWreg x a1 a2 a3) := h.set_win
theorem Keeps.faultRing {m : Nat} {s x : State} (h : Keeps m s x) {a1} (hm : Sub 8388616 m := by exact .of ‹_› rfl) : Keeps m s (State.faultRing x a1) := by
  unfold State.faultRing
  extract_lets v1 v2 v3
  have hv3 : Keeps m s v3 := h.set_ifr
  exact .ite h (.ite h.set_ifr hv3.setWreg)
theorem Keeps.charge {m : Nat} {s x : State} (h : Keeps m s x) {a1} (hm : Sub 9437196 m := by exact .of ‹_› rfl) : Keeps m s (State.charge x a1) := by
  unfold State.charge
  extract_lets v1 v2 v3
  have hv2 : Keeps m s v2 := (.ite h.violate h)
  have hv3 : Keeps m s v3 := (.ite hv2.bump hv2)
  exact .ite hv3.bump hv3.faultRing
theorem Keeps.brsWrongOwner {m : Nat} {s x : State} (h : Keeps m s x) {a1} (hm : Sub 9437198 m := by exact .of ‹_› rfl) : Keeps m s (State.brsWrongOwner x a1) := h.charge.answer
theorem Keeps.bindKey {m : Nat} {s x : State} (h : Keeps m s x) {a1 a2 a3 a4 a5} (hm : Sub 4 m := by exact .of ‹_› rfl) : OptP (fun z => Keeps m s z) (State.bindKey x a1 a2 a3 a4 a5) := by
  unfold State.bindKey
  split
  · exact h
  · generalize List.find? _ _ = o
    cases o with
    | none => trivial
    | some n => exact h.setReg.setReg

theorem Keeps.devZero {m : Nat} {s x : State} (h : Keeps m s x) {a1 a2} (hm : Sub 576460752303425536 m := by exact .of ‹_› rfl) : Keeps m s (State.devZero x a1 a2) :=
  h.part hm rfl (later_of_dev rfl rfl rfl fun d => Mem.wf_zero d _ _) fun g hg => by cases g <;> first | rfl | exact nomatch hg

theorem Keeps.newTable {m : Nat} {s x : State} (h : Keeps m s x) {a1} (hm : Sub 576461302059239424 m := by exact .of ‹_› rfl) : Keeps m s (State.newTable x a1).2 := by
  unfold State.newTable
  extract_lets v1 v2
  have hv2 : Keeps m s v2 := h.devZero
  dsimp -zeta only
  exact hv2.set_nextTable
theorem Keeps.mapPage {m : Nat} {s x : State} (h : Keeps m s x) {a1 a2 a3 a4 a5} (hm : Sub 576461302059239424 m := by exact .of ‹_› rfl) : Keeps m s (State.mapPage x a1 a2 a3 a4 a5) := by
  induction a4 generalizing x a5 with
  | nil => exact h
  | cons l rest ih =>
    simp only [State.mapPage]
    split
    · exact h.set_dev fun d => Mem.wf_store d _ _ _
    · split
      · exact ih h
      · have ht := h.newTable (a1 := if l = 2 then 256 else 4096)
        refine ih ?_
        exact ht.set_dev fun d => Mem.wf_store d _ _ _

theorem Keeps.mapPages {m : Nat} {s x : State} (h : Keeps m s x) {a1 a2 a3 a4 a5} (hm : Sub 576461302059239424 m := by exact .of ‹_› rfl) : Keeps m s (State.mapPages x a1 a2 a3 a4 a5) := .foldl h fun y1 h1 _ => h1.mapPage
theorem Keeps.brsPartUsed {m : Nat} {s x : State} (h : Keeps m s x) {a1} (hm : Sub 4 m := by exact .of ‹_› rfl) : Keeps m s (State.brsPartUsed x a1) := h.setFld
theorem Keeps.mapWindow {m : Nat} {s x : State} (h : Keeps m s x) {a1 a2 a3} (hm : Sub 576461302059243520 m := by exact .of ‹_› rfl) : Keeps m s (State.mapWindow x a1 a2 a3) := by
  unfold State.mapWindow
  extract_lets v1 v2 v3 v4 v5
  have hv5 : Keeps m s v5 := h.mapPages
  exact hv5.set_regions
theorem Keeps.grpMake {m : Nat} {s x : State} (h : Keeps m s x) {a1 a2 a3 a4 a5 a6} (hm : Sub 576478894245287942 m := by exact .of ‹_› rfl) : Keeps m s (State.grpMake x a1 a2 a3 a4 a5 a6) := by
  unfold State.grpMake
  extract_lets v1 v2 v3 v4 v5 v6 v7 v8 v9 v10
  have hv5 : Keeps m s v5 := h.devZero
  have hv6 : Keeps m s v6 := hv5.mapPages
  have hv7 : Keeps m s v7 := hv6.set_regions
  have hv8 : Keeps m s v8 := hv7.setReg.setReg.setReg
  have hv9 : Keeps m s v9 := hv8.setReg.setReg.setReg.setReg
  have hv10 : Keeps m s v10 := hv9.setReg.setBrsGrp
  exact hv10.mapWindow.brsPartUsed.answer
theorem Keeps.grpCreate {m : Nat} {s x : State} (h : Keeps m s x) {a1 a2 a3 a4} (hm : Sub 576478894258919438 m := by exact .of ‹_› rfl) : Keeps m s (State.grpCreate x a1 a2 a3 a4) := by
  unfold State.grpCreate
  extract_lets v1 v2
  refine .ite h.brsState (.ite h.brsWrongOwner (.ite h.brsState ?_))
  split
  · exact h.answer
  · refine .ite h.answer ?_
    split
    · exact h.answer
    · split
      · exact h.answer
      · rename_i q1 q2 q3 q4 q5 q6 q7 q8 q9
        have hq1 : Keeps m s q8 := OptP.of_eq (P := fun z : State => Keeps m s z) h.bindKey q9
        exact hq1.grpMake
theorem Keeps.setCore {m : Nat} {s x : State} (h : Keeps m s x) {a1 a2} (hm : Sub 1024 m := by exact .of ‹_› rfl) : Keeps m s (State.setCore x a1 a2) := h.set_cores
theorem Keeps.setCtx {m : Nat} {s x : State} (h : Keeps m s x) {a1 a2 a3} (hm : Sub 1024 m := by exact .of ‹_› rfl) : Keeps m s (State.setCtx x a1 a2 a3) := h.setCore
theorem Keeps.modCtx {m : Nat} {s x : State} (h : Keeps m s x) {a1 a2 a3} (hm : Sub 1024 m := by exact .of ‹_› rfl) : Keeps m s (State.modCtx x a1 a2 a3) := h.setCtx
theorem Keeps.setVce {m : Nat} {s x : State} (h : Keeps m s x) {a1 a2 a3 a4} (hm : Sub 1024 m := by exact .of ‹_› rfl) : Keeps m s (State.setVce x a1 a2 a3 a4) := h.modCtx
theorem Keeps.stateAt {m : Nat} {s x : State} (h : Keeps m s x) {a1 a2 a3} (hm : Sub 4194308 m := by exact .of ‹_› rfl) : Keeps m s (State.stateAt x a1 a2 a3) := h.refuseLog
theorem Keeps.noteVceFault {m : Nat} {s x : State} (h : Keeps m s x) {a1 a2 a3 a4 a5 a6} (hm : Sub 4 m := by exact .of ‹_› rfl) : Keeps m s (State.noteVceFault x a1 a2 a3 a4 a5 a6) := .ite h h.setReg
theorem Keeps.vceStop {m : Nat} {s x : State} (h : Keeps m s x) {a1 a2 a3 a4} (hm : Sub 13632524 m := by exact .of ‹_› rfl) : Keeps m s (State.vceStop x a1 a2 a3 a4) := by
  unfold State.vceStop
  extract_lets v1 v2 v3 v4 v5
  have hv3 : Keeps m s v3 := h.setVce
  have hv4 : Keeps m s v4 := (.ite hv3.stateAt hv3)
  have hv5 : Keeps m s v5 := (.ite hv4 hv4.noteVceFault)
  exact .ite hv5.charge hv5
theorem Keeps.setRasCount {m : Nat} {s x : State} (h : Keeps m s x) {a1 a2 a3} (hm : Sub 2147483648 m := by exact .of ‹_› rfl) : Keeps m s (State.setRasCount x a1 a2 a3) := h.set_rasWin
theorem Keeps.errLog {m : Nat} {s x : State} (h : Keeps m s x) {a1} (hm : Sub 4 m := by exact .of ‹_› rfl) : Keeps m s (State.errLog x a1) := by
  unfold State.errLog
  extract_lets v1 v2 v3 v4 v5
  have hv4 : Keeps m s v4 := (.foldl h fun y1 h1 _ => h1.setReg)
  have hv5 : Keeps m s v5 := hv4.setFld.event
  exact .ite hv5.bump hv5
theorem Keeps.coreHist {m : Nat} {s x : State} (h : Keeps m s x) {a1 a2 a3} (hm : Sub 12884901892 m := by exact .of ‹_› rfl) : Keeps m s (State.coreHist x a1 a2 a3) := by
  unfold State.coreHist
  extract_lets v1 v2 v3 v4 v5
  have hv4 : Keeps m s v4 := by
    unfold v4
    exact (Keeps.part h (.of hm (a := 12884901888) rfl) rfl (later_of rfl rfl rfl rfl) fun g hg => by cases g <;> first | rfl | exact nomatch hg)
  have hv5 : Keeps m s v5 := hv4.setFld
  exact .ite hv5.setFld hv5
theorem Keeps.escalate {m : Nat} {s x : State} (h : Keeps m s x) {a1 a2 a3} (hm : Sub 17179869184 m := by exact .of ‹_› rfl) : Keeps m s (State.escalate x a1 a2 a3) := h.set_escal
theorem Keeps.threshold {m : Nat} {s x : State} (h : Keeps m s x) {a1 a2 a3} (hm : Sub 19327352836 m := by exact .of ‹_› rfl) : Keeps m s (State.threshold x a1 a2 a3) := by
  unfold State.threshold
  extract_lets v1 v2 v3
  have hv2 : Keeps m s v2 := h.event
  have hv3 : Keeps m s v3 := hv2.errLog
  exact .ite hv2.setRasCount.escalate (Keeps.escalate (.ite hv3.setRasCount hv3))
theorem Keeps.countErr {m : Nat} {s x : State} (h : Keeps m s x) {a1 a2 a3} (hm : Sub 32212254724 m := by exact .of ‹_› rfl) : Keeps m s (State.countErr x a1 a2 a3) := by
  unfold State.countErr
  extract_lets v1 v2 v3 v4 v5
  have hv4 : Keeps m s v4 := h.setRasCount
  have hv5 : Keeps m s v5 := (.ite hv4.coreHist hv4)
  exact .ite h (.ite hv4.errLog (.ite (Keeps.escalate (.foldl hv5 fun y1 h1 _ => h1.setRasCount)) (.ite hv5.threshold hv5)))
theorem Keeps.markPm {m : Nat} {s x : State} (h : Keeps m s x) {a1 a2} (hm : Sub 1024 m := by exact .of ‹_› rfl) : Keeps m s (State.markPm x a1 a2) := h.setCore
theorem Keeps.fetchPm {m : Nat} {s x : State} (h : Keeps m s x) {a1 a2 a3} (hm : Sub 32212255748 m := by exact .of ‹_› rfl) : Keeps m s (State.fetchPm x a1 a2 a3).2 := by
  unfold State.fetchPm
  split
  · dsimp -zeta only
    exact h
  · dsimp -zeta only
    exact h.bump.countErr
  · dsimp -zeta only
    exact h.markPm.bump.countErr
theorem Keeps.vceIssue {m : Nat} {s x : State} (h : Keeps m s x) {a1 a2} {a3 : State → VWord → State} (k3 : ∀ z1, Keeps m s z1 → ∀ z2, Keeps m s (a3 z1 z2)) (hm : Sub 32225887244 m := by exact .of ‹_› rfl) : Keeps m s (State.vceIssue x a1 a2 a3) := by
  unfold State.vceIssue
  extract_lets v1 v2 v3 v4 v5 v6
  have hv6 : Keeps m s v6.2 := h.fetchPm
  exact .ite h (.ite h.vceStop (.ite h (.ite hv6.vceStop (.ite hv6.vceStop (k3 _ hv6.bump64 _)))))
theorem Keeps.scrErr {m : Nat} {s x : State} (h : Keeps m s x) {a1 a2} (hm : Sub 4 m := by exact .of ‹_› rfl) : Keeps m s (State.scrErr x a1 a2) := .ite h.bumpFld h
theorem Keeps.scrWord {m : Nat} {s x : State} (h : Keeps m s x) {a1 a2 a3} (hm : Sub 32212255748 m := by exact .of ‹_› rfl) : Keeps m s (State.scrWord x a1 a2 a3) := by
  unfold State.scrWord
  split
  · exact h
  · exact h.scrErr.setCore.countErr
  · exact h.scrErr.countErr
  · exact h.bump.scrErr
theorem Keeps.scrSpans {m : Nat} {s x : State} (h : Keeps m s x) {a1 a2} (hm : Sub 32212255748 m := by exact .of ‹_› rfl) : Keeps m s (State.scrSpans x a1 a2) := .foldl h fun y1 h1 _ => h1.scrWord
theorem Keeps.scrPoisonSet {m : Nat} {s x : State} (h : Keeps m s x) {a1 a2 a3} (hm : Sub 1024 m := by exact .of ‹_› rfl) : Keeps m s (State.scrPoisonSet x a1 a2 a3) := h.setCore
theorem Keeps.poisonUnits {m : Nat} {s x : State} (h : Keeps m s x) {a1 a2 a3 a4} (hm : Sub 1024 m := by exact .of ‹_› rfl) : Keeps m s (State.poisonUnits x a1 a2 a3 a4) := .foldl h fun y1 h1 _ => (.ite h1.scrPoisonSet h1)
theorem Keeps.scrStore {m : Nat} {s x : State} (h : Keeps m s x) {a1 a2 a3 a4} (hm : Sub 1024 m := by exact .of ‹_› rfl) : Keeps m s (State.scrStore x a1 a2 a3 a4) := h.setCore
theorem Keeps.scrChecked {m : Nat} {s x : State} (h : Keeps m s x) {a1 a2 a3 a4} (hm : Sub 32212255748 m := by exact .of ‹_› rfl) : Keeps m s (State.scrChecked x a1 a2 a3 a4) := .foldl h fun y1 h1 _ => h1.scrWord
theorem Keeps.scrWrite {m : Nat} {s x : State} (h : Keeps m s x) {a1 a2 a3 a4} (hm : Sub 32212255748 m := by exact .of ‹_› rfl) : Keeps m s (State.scrWrite x a1 a2 a3 a4) := h.scrChecked.scrStore
theorem Keeps.vceWrite {m : Nat} {s x : State} (h : Keeps m s x) {a1 a2 a3 a4} (hm : Sub 32212255748 m := by exact .of ‹_› rfl) : Keeps m s (State.vceWrite x a1 a2 a3 a4).1 := by
  unfold State.vceWrite
  refine ite_ind (P := fun r : State × VceCtx => Keeps m s r.1) ?_ ?_
  · extract_lets v1 v2
    dsimp -zeta only
    exact h
  · extract_lets v1
    dsimp -zeta only
    exact h.scrWrite.poisonUnits
theorem Keeps.vceResult {m : Nat} {s x : State} (h : Keeps m s x) {a1 a2 a3 a4} (hm : Sub 32212255748 m := by exact .of ‹_› rfl) : Keeps m s (State.vceResult x a1 a2 a3 a4) := by
  unfold State.vceResult
  extract_lets v1 v2 v3 v4 v5 v6 v7 v8 v9 v10
  have hv5 : Keeps m s v5 := h.scrSpans
  have hv6 : Keeps m s v6.1 := by
    unfold v6
    refine foldl_ind (P := fun r : State × VceCtx => Keeps m s r.1) ?_ fun y1 h1 _ => h1.vceWrite
    dsimp -zeta only
    exact hv5
  exact hv6.setVce
theorem Keeps.vceOp {m : Nat} {s x : State} (h : Keeps m s x) {a1 a2} (hm : Sub 32225887244 m := by exact .of ‹_› rfl) : Keeps m s (State.vceOp x a1 a2) := by
  unfold State.vceOp
  extract_lets v1 v2 v3
  split
  · exact h.vceStop
  · split
    · exact h.vceStop
    · exact h.vceResult
theorem execCvt_keeps {m : Nat} {s : State} {a1} {x : State} (h : Keeps m s x) (hm : Sub 32225887244 m := by exact .of ‹_› rfl) : OutP m s (execCvt a1 x) := by
  unfold execCvt
  refine .next (h.vceIssue (fun y1 h1 a2 => h1.vceOp))
theorem Keeps.setChan {m : Nat} {s x : State} (h : Keeps m s x) {a1 a2 a3} (hm : Sub 18014398509481984 m := by exact .of ‹_› rfl) : Keeps m s (State.setChan x a1 a2 a3) := h.set_mbx
theorem Keeps.mbxPop {m : Nat} {s x : State} (h : Keeps m s x) {a1 a2 a3 a4} (hm : Sub 18014430721736708 m := by exact .of ‹_› rfl) : Keeps m s (State.mbxPop x a1 a2 a3 a4).2 := by
  induction a4 generalizing x a1 a2 a3 with
  | zero =>
    unfold State.mbxPop
    dsimp -zeta only
    exact h
  | succ n ih =>
    unfold State.mbxPop
    extract_lets v1
    split
    · dsimp -zeta only
      exact h
    · extract_lets v2 v3 v4
      have hv2 : Keeps m s v2 := h.setChan
      have hv3 : Keeps m s v3 := (.ite hv2.setChan hv2)
      have hv4 : Keeps m s v4 := (.ite hv3.setChan hv3)
      refine ite_ind (P := fun r : Option Nat × State => Keeps m s r.2) (by apply ih; exact hv2.bump) (ite_ind (P := fun r : Option Nat × State => Keeps m s r.2) ?_ ?_)
      · dsimp -zeta only
        exact hv4.bump.countErr
      · dsimp -zeta only
        exact hv4
theorem Keeps.setMsix {m : Nat} {s x : State} (h : Keeps m s x) {a1 a2} (hm : Sub 144115188075855872 m := by exact .of ‹_› rfl) : Keeps m s (State.setMsix x a1 a2) := h.set_msix
theorem Keeps.msixDue {m : Nat} {s x : State} (h : Keeps m s x) {a1 a2} (hm : Sub 432345564227567616 m := by exact .of ‹_› rfl) : Keeps m s (State.msixDue x a1 a2) := by
  unfold State.msixDue
  extract_lets v1
  exact .ite h (.ite h.set_msixOut (.ite h h.setMsix))
theorem Keeps.setThread {m : Nat} {s x : State} (h : Keeps m s x) {a1 a2 a3 a4} (hm : Sub 1024 m := by exact .of ‹_› rfl) : Keeps m s (State.setThread x a1 a2 a3 a4) := h.modCtx
theorem Keeps.raiseEvt {m : Nat} {s x : State} (h : Keeps m s x) {a1 a2 a3} (hm : Sub 1028 m := by exact .of ‹_› rfl) : Keeps m s (State.raiseEvt x a1 a2 a3) := by
  unfold State.raiseEvt
  extract_lets v1 v2
  split
  · exact h.setThread
  · split
    · exact h.setCtx
    · exact .ite h.bump h.setCtx
theorem Keeps.epRaise {m : Nat} {s x : State} (h : Keeps m s x) {a1 a2} (hm : Sub 1028 m := by exact .of ‹_› rfl) : Keeps m s (State.epRaise x a1 a2) := by
  unfold State.epRaise
  extract_lets v1
  exact .ite h h.raiseEvt
theorem Keeps.mbxEmptied {m : Nat} {s x : State} (h : Keeps m s x) {a1 a2} (hm : Sub 432345564227568644 m := by exact .of ‹_› rfl) : Keeps m s (State.mbxEmptied x a1 a2) := .ite h (.ite h.msixDue (.ite h.epRaise h))
theorem Keeps.mbxRead {m : Nat} {s x : State} (h : Keeps m s x) {a1 a2 a3} (hm : Sub 450359994949305348 m := by exact .of ‹_› rfl) : Keeps m s (State.mbxRead x a1 a2 a3).2 := by
  unfold State.mbxRead
  extract_lets v1
  have hv1 : Keeps m s v1.2 := h.mbxPop
  split
  · dsimp -zeta only
    exact hv1.mbxEmptied
  · exact hv1
theorem Keeps.brsTake {m : Nat} {s x : State} (h : Keeps m s x) {a1 a2 a3} (hm : Sub 450359994949305348 m := by exact .of ‹_› rfl) : Keeps m s (State.brsTake x a1 a2 a3).2 := by
  unfold State.brsTake
  split
  · dsimp -zeta only
    exact h
  · refine ite_ind (P := fun r : Option (Nat × Nat × Bool) × State => Keeps m s r.2) ?_ ?_
    · dsimp -zeta only
      exact h
    · extract_lets v1
      have hv1 : Keeps m s v1.2 := by
        unfold v1
        refine foldl_ind (P := fun r : List Nat × State => Keeps m s r.2) ?_ fun y1 h1 _ => (ite_ind (P := fun r : List Nat × State => Keeps m s r.2) ?_ h1)
        · dsimp -zeta only
          exact h
        · extract_lets v2
          have hv2 : Keeps m s v2.2 := h1.mbxRead
          split
          · exact hv2
          · exact hv2
      split
      · exact hv1
      · exact hv1
theorem Keeps.brsReply {m : Nat} {s x : State} (h : Keeps m s x) {a1 a2 a3} (hm : Sub 18014398509481984 m := by exact .of ‹_› rfl) : Keeps m s (State.brsReply x a1 a2 a3) := by
  unfold State.brsReply
  extract_lets v1 v2
  exact h.setChan
theorem Keeps.brsCommand {m : Nat} {s x : State} (h : Keeps m s x) {a1 a2 a3} {a4 : State → Nat → State} (k4 : ∀ z1, Keeps m s z1 → ∀ z2, Keeps m s (a4 z1 z2)) (hm : Sub 450359994949305350 m := by exact .of ‹_› rfl) : Keeps m s (State.brsCommand x a1 a2 a3 a4) := by
  unfold State.brsCommand
  extract_lets v1
  have hv1 : Keeps m s v1.2 := h.brsTake
  split
  · exact hv1
  · exact .ite hv1.answer.brsReply (k4 _ hv1 _).brsReply
theorem Keeps.brsUnknown {m : Nat} {s x : State} (h : Keeps m s x) {a1 a2} (hm : Sub 450359994953499654 m := by exact .of ‹_› rfl) : Keeps m s (State.brsUnknown x a1 a2) := by
  unfold State.brsUnknown
  split
  · exact .ite (h.brsCommand (fun y1 h1 a3 => h1.brsState)) h
  · exact h
theorem Keeps.brsRun {m : Nat} {s x : State} (h : Keeps m s x) {a1 a2 a3 a4} {a5 : State → Nat → State} (k5 : ∀ z1, Keeps m s z1 → ∀ z2, Keeps m s (a5 z1 z2)) (hm : Sub 450359994953499654 m := by exact .of ‹_› rfl) : Keeps m s (State.brsRun x a1 a2 a3 a4 a5) := h.brsUnknown.brsCommand (fun y1 h1 a6 => (.ite h1.brsState (k5 _ h1 _)))
theorem Keeps.seqCommand {m : Nat} {s x : State} (h : Keeps m s x) {a1 a2 a3 a4} {a5 : State → Nat → State} (k5 : ∀ z1, Keeps m s z1 → ∀ z2, Keeps m s (a5 z1 z2)) (hm : Sub 450359994953499654 m := by exact .of ‹_› rfl) : Keeps m s (State.seqCommand x a1 a2 a3 a4 a5) := h.brsRun (fun y1 h1 a6 => (.ite h1.brsState (k5 _ h1 _)))
theorem Keeps.onSeq {m : Nat} {s x : State} (h : Keeps m s x) {a1 a2 a3 a4} {a5 : State → BrsEntry → State} (k5 : ∀ z1, Keeps m s z1 → ∀ z2, Keeps m s (a5 z1 z2)) (hm : Sub 13631502 m := by exact .of ‹_› rfl) : Keeps m s (State.onSeq x a1 a2 a3 a4 a5) := by
  unfold State.onSeq
  extract_lets v1
  exact .ite h.brsState (.ite h.bump.answer (.ite h.brsWrongOwner (k5 _ h _)))
theorem Keeps.setBrsEnt {m : Nat} {s x : State} (h : Keeps m s x) {a1 a2} (hm : Sub 17592186044416 m := by exact .of ‹_› rfl) : Keeps m s (State.setBrsEnt x a1 a2) := h.set_brs
theorem Keeps.migrate {m : Nat} {s x : State} (h : Keeps m s x) {a1 a2 a3 a4} (hm : Sub 17592199675918 m := by exact .of ‹_› rfl) : Keeps m s (State.migrate x a1 a2 a3 a4) := h.onSeq (fun y1 h1 a5 => (.ite h1.brsState h1.setBrsEnt.answer))
theorem execMigrate_keeps {m : Nat} {s : State} {a1 a2} {x : State} (h : Keeps m s x) (hm : Sub 450377587148981262 m := by exact .of ‹_› rfl) : OutP m s (execMigrate a1 a2 x) := by
  unfold execMigrate
  refine .next (h.seqCommand (fun y1 h1 a3 => h1.migrate))
theorem Keeps.rxTake {m : Nat} {s x : State} (h : Keeps m s x) {a1} (hm : Sub 35184372088832 m := by exact .of ‹_› rfl) : Keeps m s (State.rxTake x a1).2 := by
  unfold State.rxTake
  split
  · dsimp -zeta only
    exact h
  · dsimp -zeta only
    exact h.setPort
theorem Keeps.fabState {m : Nat} {s x : State} (h : Keeps m s x) {a1} (hm : Sub 4194308 m := by exact .of ‹_› rfl) : Keeps m s (State.fabState x a1) := h.refuseLog
theorem Keeps.refusedIn {m : Nat} {s x : State} (h : Keeps m s x) {a1} (hm : Sub 1048580 m := by exact .of ‹_› rfl) : Keeps m s (State.refusedIn x a1).2 := by
  unfold State.refusedIn
  extract_lets v1
  have hv1 : Keeps m s v1 := h.violate
  dsimp -zeta only
  exact hv1.bump.event
theorem Keeps.noteKeys {m : Nat} {s x : State} (h : Keeps m s x) {a1} (hm : Sub 4 m := by exact .of ‹_› rfl) : Keeps m s (State.noteKeys x a1) := by
  unfold State.noteKeys
  split
  · exact .ite h.event h
  · exact .ite h.event h
  · exact h
theorem Keeps.inboundStops {m : Nat} {s x : State} (h : Keeps m s x) {a1} (hm : Sub 5242884 m := by exact .of ‹_› rfl) : OptP (fun z => Keeps m s z.2) (State.inboundStops x a1) := by
  unfold State.inboundStops
  extract_lets v1 v2
  refine ite_ind (OptP.some ?_) (ite_ind trivial (ite_ind h.refusedIn (ite_ind h.refusedIn (ite_ind (OptP.some ?_) (ite_ind (OptP.some ?_) trivial)))))
  · dsimp -zeta only
    exact h.fabState
  · dsimp -zeta only
    exact h.noteKeys.violate
  · dsimp -zeta only
    exact h.fabState
theorem Keeps.devStore {m : Nat} {s x : State} (h : Keeps m s x) {a1 a2 a3} (hm : Sub 576460752303426560 m := by exact .of ‹_› rfl) : Keeps m s (State.devStore x a1 a2 a3) := by
  unfold State.devStore
  split
  · exact .ite h h.scrStore
  · exact (h.set_dev fun d => Mem.wf_write d _ _ _ _).set_lost

theorem Keeps.devWord {m : Nat} {s x : State} (h : Keeps m s x) {a1 a2} (hm : Sub 32212256772 m := by exact .of ‹_› rfl) : Keeps m s (State.devWord x a1 a2) := by
  unfold State.devWord
  extract_lets fixed
  have hf : ∀ {y : State}, Keeps m s y → Keeps m s (fixed y) := fun hy => hy.set_dev fun d => Mem.wf_setMark d _ _
  split
  · exact h
  · exact hf h.bump.countErr
  · exact h.bump.countErr
  · exact hf h.bump.countErr
  · exact h.bump.countErr
  · exact hf h.bumpFld.countErr
  · exact h.bumpFld.countErr
  · exact h.bump.bumpFld
  · exact h.bump
  · exact h.bump
  · exact h

theorem Keeps.devChecked {m : Nat} {s x : State} (h : Keeps m s x) {a1 a2 a3} (hm : Sub 32212257796 m := by exact .of ‹_› rfl) : Keeps m s (State.devChecked x a1 a2 a3) := by
  unfold State.devChecked
  split
  · extract_lets v1
    exact .ite h h.scrChecked
  · exact .foldl h fun y1 h1 _ => h1.devWord
theorem Keeps.devWrite {m : Nat} {s x : State} (h : Keeps m s x) {a1 a2 a3} (hm : Sub 576460784515681284 m := by exact .of ‹_› rfl) : Keeps m s (State.devWrite x a1 a2 a3) := h.devChecked.devStore
theorem Keeps.setSlot {m : Nat} {s x : State} (h : Keeps m s x) {a1 a2 a3} (hm : Sub 576460818875419652 m := by exact .of ‹_› rfl) : Keeps m s (State.setSlot x a1 a2 a3) := by
  unfold State.setSlot
  extract_lets v1 v2
  have hv2 : Keeps m s v2 := h.set_fab
  exact hv2.devWrite
theorem Keeps.dispatchIn {m : Nat} {s x : State} (h : Keeps m s x) {a1 a2} (hm : Sub 576460818880662532 m := by exact .of ‹_› rfl) : Keeps m s (State.dispatchIn x a1 a2).2 := by
  unfold State.dispatchIn
  extract_lets v1 v2 v3 v4
  refine ite_ind (P := fun r : Option Served × State => Keeps m s r.2) h.refusedIn (ite_ind (P := fun r : Option Served × State => Keeps m s r.2) ?_ (ite_ind (P := fun r : Option Served × State => Keeps m s r.2) ?_ ?_))
  · dsimp -zeta only
    exact h.fabState
  · dsimp -zeta only
    exact h.bump
  · split
    · dsimp -zeta only
      exact h.bumpFld
    · extract_lets v5 v6 v7 v8 v9 v10 v11 v12
      have hv5 : Keeps m s v5 := h.devWrite
      have hv6 : Keeps m s v6 := hv5.setSlot
      have hv8 : Keeps m s v8 := hv6.set_fab
      have hv10 : Keeps m s v10 := hv8.set_fab
      dsimp -zeta only
      exact .ite hv10 hv10.raiseEvt
theorem Keeps.holdTag {m : Nat} {s x : State} (h : Keeps m s x) {a1 a2} (hm : Sub 34359738368 m := by exact .of ‹_› rfl) : Keeps m s (State.holdTag x a1 a2) := h.set_fab
theorem Keeps.cardLat {m : Nat} {s x : State} (h : Keeps m s x) {a1 a2} (hm : Sub 34359738372 m := by exact .of ‹_› rfl) : Keeps m s (State.cardLat x a1 a2) := by
  unfold State.cardLat
  extract_lets v1 v2 v3 v4 v5 v6
  have hv4 : Keeps m s v4 := (.ite h h.setReg)
  exact hv4.set_fab
theorem Keeps.ringDone {m : Nat} {s x : State} (h : Keeps m s x) {a1 a2 a3} (hm : Sub 1028 m := by exact .of ‹_› rfl) : Keeps m s (State.ringDone x a1 a2 a3) := by
  unfold State.ringDone
  extract_lets v1 v2 v3 v4
  have hv2 : Keeps m s v2 := h.setFld.setFld
  exact .ite hv2 hv2.raiseEvt
theorem Keeps.setDisp {m : Nat} {s x : State} (h : Keeps m s x) {a1 a2 a3} (hm : Sub 34359738368 m := by exact .of ‹_› rfl) : Keeps m s (State.setDisp x a1 a2 a3) := h.set_fab
theorem Keeps.dispEnd {m : Nat} {s x : State} (h : Keeps m s x) {a1 a2 a3} (hm : Sub 34359739396 m := by exact .of ‹_› rfl) : Keeps m s (State.dispEnd x a1 a2 a3) := by
  unfold State.dispEnd
  extract_lets v1 v2
  have hv1 : Keeps m s v1 := by
    unfold v1
    split
    · exact h.cardLat
    · exact h
  have hv2 : Keeps m s v2 := by
    unfold v2
    split
    · exact hv1.holdTag
    · exact hv1
  exact hv2.setDisp.ringDone
theorem Keeps.taint {m : Nat} {s x : State} (h : Keeps m s x) {a1 a2} (hm : Sub 33554432 m := by exact .of ‹_› rfl) : Keeps m s (State.taint x a1 a2) := h.set_crema
theorem Keeps.gatedLog {m : Nat} {s x : State} (h : Keeps m s x) {a1 a2 a3 a4} (hm : Sub 2097156 m := by exact .of ‹_› rfl) : Keeps m s (State.gatedLog x a1 a2 a3 a4) := by
  unfold State.gatedLog
  extract_lets v1 v2 v3 v4 v5
  have hv4 : Keeps m s v4 := h.set_glog
  have hv5 : Keeps m s v5 := hv4.setFld
  exact .ite hv5.bump hv5
theorem Keeps.devRead {m : Nat} {s x : State} (h : Keeps m s x) {a1 a2} (hm : Sub 32212257796 m := by exact .of ‹_› rfl) : Keeps m s (State.devRead x a1 a2).2 := by
  unfold State.devRead
  dsimp -zeta only
  exact h.devChecked
theorem Keeps.devPoison {m : Nat} {s x : State} (h : Keeps m s x) {a1 a2} (hm : Sub 3072 m := by exact .of ‹_› rfl) : Keeps m s (State.devPoison x a1 a2) := by
  unfold State.devPoison
  split
  · exact .ite h h.scrPoisonSet
  · exact h.set_dev fun d => Mem.wf_poisonRange d _ _ _

theorem Keeps.accAtom {m : Nat} {s x : State} (h : Keeps m s x) {a1 a2 a3 a4 a5 a6} (hm : Sub 576460784551332868 m := by exact .of ‹_› rfl) : Keeps m s (State.accAtom x a1 a2 a3 a4 a5 a6).2 := by
  unfold State.accAtom
  split
  · dsimp -zeta only
    exact h
  · split
    · dsimp -zeta only
      exact h
    · refine ite_ind (P := fun r : Arrived × State => Keeps m s r.2) ?_ ?_
      · dsimp -zeta only
        exact h.gatedLog.taint
      · extract_lets v1 v2 v3
        have hv1 : Keeps m s v1.2 := h.devRead
        have hv3 : Keeps m s v3 := hv1.devStore
        refine ite_ind (P := fun r : Arrived × State => Keeps m s r.2) ?_ ?_
        · dsimp -zeta only
          exact hv1.devPoison
        · dsimp -zeta only
          exact .ite hv3 hv3.bumpFld
theorem Keeps.combineRun {m : Nat} {s x : State} (h : Keeps m s x) {a1 a2 a3 a4 a5 a6} (hm : Sub 576460784551332868 m := by exact .of ‹_› rfl) : Keeps m s (State.combineRun x a1 a2 a3 a4 a5 a6).2 := by
  induction a3 generalizing x a1 a2 a4 a5 a6 with
  | zero =>
    unfold State.combineRun
    dsimp -zeta only
    exact h
  | succ n ih =>
    unfold State.combineRun
    refine ite_ind (P := fun r : Nat × State => Keeps m s r.2) ?_ ?_
    · dsimp -zeta only
      exact h
    · extract_lets v1 v2 v3
      have hv2 : Keeps m s v2.2 := h.accAtom
      have hv3 : Keeps m s v3.2 := (by apply ih; exact hv2)
      exact hv3
theorem Keeps.combineIn {m : Nat} {s x : State} (h : Keeps m s x) {a1 a2} (hm : Sub 576460818911071236 m := by exact .of ‹_› rfl) : Keeps m s (State.combineIn x a1 a2).2 := by
  unfold State.combineIn
  extract_lets v1 v2 v3 v4 v5 v6
  have hv5 : Keeps m s v5.2 := by
    unfold v5
    dsimp -zeta only
    exact h.bump
  split
  · exact hv5
  · split
    · split
      · dsimp -zeta only
        exact h.bump.holdTag
      · refine ite_ind (P := fun r : Option Served × State => Keeps m s r.2) hv5 ?_
        extract_lets v7 v8 v9 v10 v11
        have hv8 : Keeps m s v8.2 := h.combineRun
        have hv10 : Keeps m s v10 := hv8.setDisp
        refine ite_ind (P := fun r : Option Served × State => Keeps m s r.2) ?_ ?_
        · dsimp -zeta only
          exact h.bump.dispEnd
        · dsimp -zeta only
          exact .ite hv10.dispEnd hv10
    · exact hv5
theorem Keeps.slotFree {m : Nat} {s x : State} (h : Keeps m s x) {a1 a2} (hm : Sub 576460818875419652 m := by exact .of ‹_› rfl) : Keeps m s (State.slotFree x a1 a2) := by
  unfold State.slotFree
  extract_lets v1 v2
  have hv1 : Keeps m s v1 := h.setSlot
  exact hv1.set_fab
theorem Keeps.cancelSlot {m : Nat} {s x : State} (h : Keeps m s x) {a1 a2} (hm : Sub 576460818875419652 m := by exact .of ‹_› rfl) : Keeps m s (State.cancelSlot x a1 a2) := by
  unfold State.cancelSlot
  extract_lets v1 v2
  have hv2 : Keeps m s v2 := h.bumpFld.bump
  exact .ite hv2.setSlot hv2.slotFree
theorem Keeps.epochNote {m : Nat} {s x : State} (h : Keeps m s x) {a1 a2} (hm : Sub 576460818875419652 m := by exact .of ‹_› rfl) : Keeps m s (State.epochNote x a1 a2) := by
  unfold State.epochNote
  extract_lets v1
  refine .foldl h fun y1 h1 _ => (.ite h1 ?_)
  extract_lets v2 v3 v4 v5 v6
  have hv4 : Keeps m s v4 := (.foldl h1 fun y2 h2 _ => h2.cancelSlot)
  exact hv4.set_fab
theorem Keeps.accRead {m : Nat} {s x : State} (h : Keeps m s x) {a1 a2 a3 a4} (hm : Sub 32247909380 m := by exact .of ‹_› rfl) : Keeps m s (State.accRead x a1 a2 a3 a4).2 := by
  unfold State.accRead
  refine ite_ind (P := fun r : Arrived × State => Keeps m s r.2) ?_ ?_
  · dsimp -zeta only
    exact h
  · split
    · dsimp -zeta only
      exact h
    · refine ite_ind (P := fun r : Arrived × State => Keeps m s r.2) ?_ ?_
      · dsimp -zeta only
        exact h.gatedLog.taint
      · extract_lets v1
        have hv1 : Keeps m s v1.2 := h.devRead
        refine ite_ind (P := fun r : Arrived × State => Keeps m s r.2) ?_ hv1
        dsimp -zeta only
        exact hv1.taint
theorem Keeps.pageStore {m : Nat} {s x : State} (h : Keeps m s x) {a1 a2 a3} (hm : Sub 4 m := by exact .of ‹_› rfl) : Keeps m s (State.pageStore x a1 a2 a3) := by
  induction a2 generalizing x a1 a3 with
  | zero =>
    unfold State.pageStore
    exact h
  | succ n ih =>
    unfold State.pageStore
    extract_lets v1
    apply ih
    exact .ite h.setFld h
theorem Keeps.accWrite {m : Nat} {s x : State} (h : Keeps m s x) {a1 a2 a3 a4 a5} (hm : Sub 576460784551332868 m := by exact .of ‹_› rfl) : Keeps m s (State.accWrite x a1 a2 a3 a4 a5).2 := by
  unfold State.accWrite
  refine ite_ind (P := fun r : Arrived × State => Keeps m s r.2) ?_ ?_
  · dsimp -zeta only
    exact h.pageStore
  · split
    · dsimp -zeta only
      exact h
    · refine ite_ind (P := fun r : Arrived × State => Keeps m s r.2) ?_ ?_
      · dsimp -zeta only
        exact h.gatedLog.taint
      · extract_lets v1
        dsimp -zeta only
        exact h.devWrite
theorem Keeps.accessIn {m : Nat} {s x : State} (h : Keeps m s x) {a1 a2} (hm : Sub 576460784551332868 m := by exact .of ‹_› rfl) : Keeps m s (State.accessIn x a1 a2).2 := by
  unfold State.accessIn
  refine ite_ind (P := fun r : Option Served × State => Keeps m s r.2) ?_ (ite_ind (P := fun r : Option Served × State => Keeps m s r.2) ?_ ?_)
  · extract_lets v1 v2
    have hv1 : Keeps m s v1.2 := h.accRead
    exact hv1
  · extract_lets v1
    have hv1 : Keeps m s v1.2 := h.accWrite
    exact hv1
  · split
    · dsimp -zeta only
      exact h
    · extract_lets v1 v2 v3
      have hv2 : Keeps m s v2.2 := h.accAtom
      exact hv2
theorem Keeps.serve {m : Nat} {s x : State} (h : Keeps m s x) {a1 a2} (hm : Sub 576460818916314116 m := by exact .of ‹_› rfl) : Keeps m s (State.serve x a1 a2).2 := by
  unfold State.serve
  extract_lets v1 v2
  refine ite_ind (P := fun r : Option Served × State => Keeps m s r.2) ?_ (ite_ind (P := fun r : Option Served × State => Keeps m s r.2) ?_ ?_)
  · dsimp -zeta only
    exact h.bump.event
  · dsimp -zeta only
    exact h
  · split
    · rename_i q1 q2 q3
      have hq1 : Keeps m s q2.snd := OptP.of_eq (P := fun z : Option Served × State => Keeps m s z.2) h.inboundStops q3
      exact hq1
    · refine ite_ind (P := fun r : Option Served × State => Keeps m s r.2) h.dispatchIn (ite_ind (P := fun r : Option Served × State => Keeps m s r.2) h.combineIn (ite_ind (P := fun r : Option Served × State => Keeps m s r.2) ?_ h.accessIn))
      dsimp -zeta only
      exact h.epochNote
theorem Keeps.sendTo {m : Nat} {s x : State} (h : Keeps m s x) {a1 a2 a3 a4 a5 a6} (hm : Sub 35218731827204 m := by exact .of ‹_› rfl) : Keeps m s (State.sendTo x a1 a2 a3 a4 a5 a6) := .ite h h.toPort
theorem Keeps.serveAndReply {m : Nat} {s x : State} (h : Keeps m s x) {a1 a2} (hm : Sub 576496003288402948 m := by exact .of ‹_› rfl) : Keeps m s (State.serveAndReply x a1 a2) := by
  unfold State.serveAndReply
  extract_lets v1 v2
  have hv2 : Keeps m s v2.2 := h.serve
  split
  · exact hv2
  · exact hv2.sendTo
theorem Keeps.inbound {m : Nat} {s x : State} (h : Keeps m s x) {a1 a2} (hm : Sub 576496003288402948 m := by exact .of ‹_› rfl) : Keeps m s (State.inbound x a1 a2) := by
  unfold State.inbound
  extract_lets v1
  have hv1 : Keeps m s v1.2 := h.rxTake
  split
  · exact h
  · extract_lets v2
    exact .ite hv1.bump64.serveAndReply h
theorem execEpochNote_keeps {m : Nat} {s : State} {a1} {x : State} (h : Keeps m s x) (hm : Sub 576496003288402948 m := by exact .of ‹_› rfl) : OutP m s (execEpochNote a1 x) := by
  unfold execEpochNote
  refine .next h.inbound
theorem Keeps.fecViolate {m : Nat} {s x : State} (h : Keeps m s x) {a1 a2 a3 a4} (hm : Sub 9437196 m := by exact .of ‹_› rfl) : Keeps m s (State.fecViolate x a1 a2 a3 a4) := h.charge
theorem Keeps.envelopeSync {m : Nat} {s x : State} (h : Keeps m s x) (hm : Sub 4 m := by exact .of ‹_› rfl) : Keeps m s (State.envelopeSync x) := h.setFld.setFld
theorem Keeps.setCell {m : Nat} {s x : State} (h : Keeps m s x) {a1 a2} (hm : Sub 4 m := by exact .of ‹_› rfl) : Keeps m s (State.setCell x a1 a2) := h.setFld.envelopeSync
theorem Keeps.setCellX {m : Nat} {s x : State} (h : Keeps m s x) {a1 a2} (hm : Sub 1125899906842624 m := by exact .of ‹_› rfl) : Keeps m s (State.setCellX x a1 a2) := h.set_cells
theorem Keeps.cellInvalid {m : Nat} {s x : State} (h : Keeps m s x) {a1} (hm : Sub 1125899906842628 m := by exact .of ‹_› rfl) : Keeps m s (State.cellInvalid x a1) := .ite h (.ite h.setCell.event h.setCell.event.setCellX)
theorem Keeps.cellsInvalid {m : Nat} {s x : State} (h : Keeps m s x) (hm : Sub 1125899906842628 m := by exact .of ‹_› rfl) : Keeps m s (State.cellsInvalid x) := .foldl h fun y1 h1 _ => h1.cellInvalid
theorem Keeps.timeCheck {m : Nat} {s x : State} (h : Keeps m s x) (hm : Sub 1125899906842628 m := by exact .of ‹_› rfl) : Keeps m s (State.timeCheck x) := by
  unfold State.timeCheck
  extract_lets v1 v2 v3
  have hv3 : Keeps m s v3 := h.setFld
  exact .ite h (.ite hv3.setFld hv3.event.setFld.event.cellsInvalid)
theorem execLaneDriveOff_keeps {m : Nat} {s : State} {a1} {x : State} (h : Keeps m s x) (hm : Sub 35184372088832 m := by exact .of ‹_› rfl) : OutP m s (execLaneDriveOff a1 x) := by
  unfold execLaneDriveOff
  extract_lets v1 v2
  refine .next ?_
  split
  · exact h.setPort
  · exact h
theorem Keeps.fromInst {m : Nat} {s x : State} (h : Keeps m s x) {a1} {a2 : State → State} (k2 : ∀ z1, Keeps m s z1 → Keeps m s (a2 z1)) (hm : Sub 0 m := by exact .of ‹_› rfl) : Keeps m s (State.fromInst x a1 a2) := .ite (k2 _ h) h
theorem Keeps.codeState {m : Nat} {s x : State} (h : Keeps m s x) {a1 a2} (hm : Sub 4194310 m := by exact .of ‹_› rfl) : Keeps m s (State.codeState x a1 a2) := h.refuseLog.answer
theorem Keeps.setCremaSlot {m : Nat} {s x : State} (h : Keeps m s x) {a1 a2 a3} (hm : Sub 33554432 m := by exact .of ‹_› rfl) : Keeps m s (State.setCremaSlot x a1 a2 a3) := h.set_crema
theorem Keeps.cremaCheck {m : Nat} {s x : State} (h : Keeps m s x) {a1 a2 a3} (hm : Sub 37748742 m := by exact .of ‹_› rfl) : OptP (fun z => Keeps m s z) (State.cremaCheck x a1 a2 a3) := by
  unfold State.cremaCheck
  extract_lets v1 v2
  exact ite_ind h.codeState (ite_ind (ite_ind h.codeState h.setCremaSlot.answer) (ite_ind (ite_ind h.setCremaSlot.bump.answer h.answer) (ite_ind h.answer (ite_ind (ite_ind h.codeState trivial) (ite_ind h.codeState trivial)))))
theorem Keeps.cremaServe {m : Nat} {s x : State} (h : Keeps m s x) {a1 a2} (hm : Sub 104857606 m := by exact .of ‹_› rfl) : Keeps m s (State.cremaServe x a1 a2) := by
  induction a2 generalizing x a1 with
  | zero =>
    unfold State.cremaServe
    exact h
  | succ n ih =>
    unfold State.cremaServe
    split
    · exact h
    · refine .ite h ?_
      split
      · rename_i q1 q2 q3 q4 q5 q6 q7
        have hq1 : Keeps m s q6 := OptP.of_eq (P := fun z : State => Keeps m s z) h.cremaCheck q7
        apply ih
        exact hq1.set_cremaJobs
      · extract_lets v1
        exact h.set_cremaJobs
theorem Keeps.cremaCommand {m : Nat} {s x : State} (h : Keeps m s x) {a1 a2 a3} (hm : Sub 104857606 m := by exact .of ‹_› rfl) : Keeps m s (State.cremaCommand x a1 a2 a3) := h.fromInst (fun y1 h1 => h1.set_cremaJobs.cremaServe)
theorem execCremaSeal_keeps {m : Nat} {s : State} {a1 a2} {x : State} (h : Keeps m s x) (hm : Sub 104857606 m := by exact .of ‹_› rfl) : OutP m s (execCremaSeal a1 a2 x) := by
  unfold execCremaSeal
  refine .next h.cremaCommand
theorem Keeps.tmBufSync {m : Nat} {s x : State} (h : Keeps m s x) (hm : Sub 4 m := by exact .of ‹_› rfl) : Keeps m s (State.tmBufSync x) := by
  unfold State.tmBufSync
  extract_lets v1 v2
  exact h.setFld.setFld
theorem Keeps.tmRelease {m : Nat} {s x : State} (h : Keeps m s x) {a1} (hm : Sub 4503599627370500 m := by exact .of ‹_› rfl) : Keeps m s (State.tmRelease x a1) := by
  unfold State.tmRelease
  split
  · exact h
  · extract_lets v1 v2
    exact h.set_tm.tmBufSync
theorem Keeps.clearChan {m : Nat} {s x : State} (h : Keeps m s x) {a1 a2} (hm : Sub 18014398509481984 m := by exact .of ‹_› rfl) : Keeps m s (State.clearChan x a1 a2).2 := by
  unfold State.clearChan
  extract_lets v1
  dsimp -zeta only
  exact h.setChan
theorem Keeps.mbxNotice {m : Nat} {s x : State} (h : Keeps m s x) {a1 a2 a3} (hm : Sub 54043195528445952 m := by exact .of ‹_› rfl) : Keeps m s (State.mbxNotice x a1 a2 a3) := .ite h.setChan h.set_notices
theorem Keeps.upEp {m : Nat} {s x : State} (h : Keeps m s x) {a1 a2} (hm : Sub 18014398509483012 m := by exact .of ‹_› rfl) : Keeps m s (State.upEp x a1 a2) := by
  unfold State.upEp
  extract_lets v1 v2 v3
  have hv3 : Keeps m s v3 := h.setChan
  exact .ite hv3.epRaise hv3
theorem Keeps.abortChan {m : Nat} {s x : State} (h : Keeps m s x) {a1 a2} (hm : Sub 54043195528446980 m := by exact .of ‹_› rfl) : Keeps m s (State.abortChan x a1 a2) := by
  unfold State.abortChan
  extract_lets v1 v2 v3 v4
  have hv1 : Keeps m s v1.2 := h.clearChan
  have hv2 : Keeps m s v2 := hv1
  exact .ite hv2 (.ite hv2.mbxNotice (.ite (.ite hv2.upEp hv2) hv2.bump))
theorem execMcWatchdog_keeps {m : Nat} {s : State} {a1} {x : State} (h : Keeps m s x) (hm : Sub 54043195528446980 m := by exact .of ‹_› rfl) : OutP m s (execMcWatchdog a1 x) := by
  unfold execMcWatchdog
  extract_lets v1
  have hv1 : Keeps m s v1 := h.errLog
  refine .next (.foldl hv1 fun y1 h1 _ => h1.abortChan)
theorem Keeps.programUnits {m : Nat} {s x : State} (h : Keeps m s x) {a1 a2 a3 a4} (hm : Sub 9444732965739290427392 m := by exact .of ‹_› rfl) : Keeps m s (State.programUnits x a1 a2 a3 a4) := by
  unfold State.programUnits
  extract_lets v1 v2 v3
  exact h.set_flash
theorem Keeps.anyUnits {m : Nat} {s x : State} (h : Keeps m s x) {a1 a2 a3} (hm : Sub 9444732965739290427393 m := by exact .of ‹_› rfl) : Keeps m s (State.anyUnits x a1 a2 a3) := h.set_free.programUnits
theorem Keeps.cutFlash {m : Nat} {s x : State} (h : Keeps m s x) (hm : Sub 66113130760175032991745 m := by exact .of ‹_› rfl) : Keeps m s (State.cutFlash x) := by
  unfold State.cutFlash
  extract_lets v1 v2
  have hv1 : ∀ z1, Keeps m s z1 → ∀ z1c, Keeps m s (v1 z1 z1c) := by
    intro z1 hz1 z1c
    unfold v1
    exact .ite hz1.set_bank0 hz1.set_bank1
  have hv2 : Keeps m s v2 := by
    unfold v2
    split
    · exact hv1 _ h _
    · exact hv1 _ h _
    · exact h
  split
  · exact hv2.anyUnits
  · exact hv2
theorem Keeps.refuseReg {m : Nat} {s x : State} (h : Keeps m s x) {a1} (hm : Sub 4194310 m := by exact .of ‹_› rfl) : Keeps m s (State.refuseReg x a1) := by
  unfold State.refuseReg
  extract_lets v1
  exact h.refuseLog.answer
theorem Keeps.invStart {m : Nat} {s x : State} (h : Keeps m s x) {a1 a2} (hm : Sub 13893646 m := by exact .of ‹_› rfl) : Keeps m s (State.invStart x a1 a2) := by
  unfold State.invStart
  split
  · exact h.charge.answer
  · exact .ite h.refuseReg (.ite h.setReg.answer h.set_inval.setReg.answer)
theorem execXltInvInstance_keeps {m : Nat} {s : State} {a1 a2} {x : State} (h : Keeps m s x) (hm : Sub 13893646 m := by exact .of ‹_› rfl) : OutP m s (execXltInvInstance a1 a2 x) := by
  unfold execXltInvInstance
  refine .next h.invStart
theorem Keeps.lose {m : Nat} {s x : State} (h : Keeps m s x) {a1 a2} (hm : Sub 576460752303423489 m := by exact .of ‹_› rfl) : Keeps m s (State.lose x a1 a2) := (Keeps.part h (.of hm (a := 576460752303423489) rfl) rfl (later_of rfl rfl rfl rfl) fun g hg => by cases g <;> first | rfl | exact nomatch hg)
theorem Keeps.loseKey {m : Nat} {s x : State} (h : Keeps m s x) {a1} (hm : Sub 576460752303423489 m := by exact .of ‹_› rfl) : Keeps m s (State.loseKey x a1) := .foldl h fun y1 h1 _ => (.ite h1.lose h1)
theorem Keeps.elapse {m : Nat} {s x : State} (h : Keeps m s x) {a1} (hm : Sub 16777216 m := by exact .of ‹_› rfl) : Keeps m s (State.elapse x a1) := h.set_cnt
theorem Keeps.setGate {m : Nat} {s x : State} (h : Keeps m s x) {a1 a2} (hm : Sub 4503599627370496 m := by exact .of ‹_› rfl) : Keeps m s (State.setGate x a1 a2) := h.set_tm
theorem Keeps.gateEnter {m : Nat} {s x : State} (h : Keeps m s x) {a1 a2} (hm : Sub 4503599627370500 m := by exact .of ‹_› rfl) : Keeps m s (State.gateEnter x a1 a2) := h.setGate.setFld
theorem Keeps.gateApply {m : Nat} {s x : State} (h : Keeps m s x) {a1 a2} (hm : Sub 4503599627370500 m := by exact .of ‹_› rfl) : Keeps m s (State.gateApply x a1 a2) := by
  unfold State.gateApply
  extract_lets v1 v2 v3 v4
  have hv1 : Keeps m s v1 := (.foldl h fun y1 h1 _ => h1.setReg)
  have hv2 : Keeps m s v2 := hv1.setReg.setReg
  have hv3 : Keeps m s v3 := hv2.setReg
  have hv4 : Keeps m s v4 := hv3.setGate
  exact hv4.gateEnter.event
theorem Keeps.gateHalt {m : Nat} {s x : State} (h : Keeps m s x) {a1} (hm : Sub 4503599627370500 m := by exact .of ‹_› rfl) : Keeps m s (State.gateHalt x a1) := h.setGate.setReg
theorem execGateBoundary_keeps {m : Nat} {s : State} {a1 a2} {x : State} (h : Keeps m s x) (hm : Sub 4503599644147716 m := by exact .of ‹_› rfl) : OutP m s (execGateBoundary a1 a2 x) := by
  unfold execGateBoundary
  extract_lets v1 v2 v3 v4 v5 v6 v7 v8
  have hv1 : Keeps m s v1 := h.elapse
  refine .next (.ite ?_ (.ite hv1 (.ite hv1.gateEnter (.ite hv1.gateHalt hv1.setGate.gateEnter))))
  clear_value v7
  split
  · exact hv1.gateApply
  · exact hv1
theorem Keeps.privilege {m : Nat} {s x : State} (h : Keeps m s x) {a1 a2} (hm : Sub 9437198 m := by exact .of ‹_› rfl) : Keeps m s (State.privilege x a1 a2) := h.charge.answer
theorem Keeps.mcOnly {m : Nat} {s x : State} (h : Keeps m s x) {a1 a2} {a3 : State → State} (k3 : ∀ z1, Keeps m s z1 → Keeps m s (a3 z1)) (hm : Sub 9437198 m := by exact .of ‹_› rfl) : Keeps m s (State.mcOnly x a1 a2 a3) := by
  unfold State.mcOnly
  split
  · exact h.privilege
  · exact k3 _ h
theorem Keeps.domRefuse {m : Nat} {s x : State} (h : Keeps m s x) (hm : Sub 4194310 m := by exact .of ‹_› rfl) : Keeps m s (State.domRefuse x) := h.bump.refuseReg
theorem Keeps.domCommand {m : Nat} {s x : State} (h : Keeps m s x) {a1} (hm : Sub 9223372036858970118 m := by exact .of ‹_› rfl) : Keeps m s (State.domCommand x a1) := by
  unfold State.domCommand
  extract_lets v1 v2 v3
  exact .ite h.domRefuse (.ite (.ite h.answer h.domRefuse) (.ite h.answer (.ite h.domRefuse (.ite (.ite h.setDomState.answer h.domRefuse) (.ite h.setDomState.answer h.set_rampWait.setFld.answer)))))
theorem execPwrDomOff_keeps {m : Nat} {s : State} {a1 a2 a3} {x : State} (h : Keeps m s x) (hm : Sub 9223372036868407310 m := by exact .of ‹_› rfl) : OutP m s (execPwrDomOff a1 a2 a3 x) := by
  unfold execPwrDomOff
  refine .next (h.mcOnly (fun y1 h1 => h1.domCommand))
theorem Keeps.setTarget {m : Nat} {s x : State} (h : Keeps m s x) {a1 a2} (hm : Sub 4 m := by exact .of ‹_› rfl) : Keeps m s (State.setTarget x a1 a2) := h.setFld.glideFlag
theorem execClkIslTargetWrite_keeps {m : Nat} {s : State} {a1 a2 a3} {x : State} (h : Keeps m s x) (hm : Sub 13631502 m := by exact .of ‹_› rfl) : OutP m s (execClkIslTargetWrite a1 a2 a3 x) := by
  unfold execClkIslTargetWrite
  refine .next (h.mcOnly (fun y1 h1 => (.ite h1.refuseReg h1.setTarget.answer)))
theorem Keeps.onFn {m : Nat} {s x : State} (h : Keeps m s x) {a1} {a2 : State → Spdm → State} (k2 : ∀ z1, Keeps m s z1 → ∀ z2, Keeps m s (a2 z1 z2)) (hm : Sub 0 m := by exact .of ‹_› rfl) : Keeps m s (State.onFn x a1 a2) := .ite (k2 _ h _) h
theorem Keeps.spdmReply {m : Nat} {s x : State} (h : Keeps m s x) {a1 a2} (hm : Sub 2 m := by exact .of ‹_› rfl) : Keeps m s (State.spdmReply x a1 a2) := h.answer
theorem Keeps.spdmError {m : Nat} {s x : State} (h : Keeps m s x) {a1} (hm : Sub 2 m := by exact .of ‹_› rfl) : Keeps m s (State.spdmError x a1) := h.spdmReply
theorem Keeps.onAgreed {m : Nat} {s x : State} (h : Keeps m s x) {a1} {a2 : State → Spdm → State} (k2 : ∀ z1, Keeps m s z1 → ∀ z2, Keeps m s (a2 z1 z2)) (hm : Sub 2 m := by exact .of ‹_› rfl) : Keeps m s (State.onAgreed x a1 a2) := h.onFn (fun y1 h1 a3 => (.ite (k2 _ h1 _) h1.spdmError))
theorem Keeps.setSpdm {m : Nat} {s x : State} (h : Keeps m s x) {a1 a2} (hm : Sub 268435456 m := by exact .of ‹_› rfl) : Keeps m s (State.setSpdm x a1 a2) := h.set_spdm
theorem execChunkSend_keeps {m : Nat} {s : State} {a1 a2 a3} {x : State} (h : Keeps m s x) (hm : Sub 268435458 m := by exact .of ‹_› rfl) : OutP m s (execChunkSend a1 a2 a3 x) := by
  unfold execChunkSend
  refine .next (h.onAgreed (fun y1 h1 a4 => (.ite h1.setSpdm.spdmError h1.setSpdm.spdmReply)))
theorem Keeps.notify {m : Nat} {s x : State} (h : Keeps m s x) {a1 a2 a3 a4} (hm : Sub 54043195528445952 m := by exact .of ‹_› rfl) : Keeps m s (State.notify x a1 a2 a3 a4) := h.mbxNotice
theorem Keeps.after {m : Nat} {s x : State} (h : Keeps m s x) {a1} (k1 : OutP m s a1) (hm : Sub 0 m := by exact .of ‹_› rfl) : Keeps m s (State.after x a1) := by
  unfold State.after
  split
  · exact k1 _ rfl
  · exact h

theorem Keeps.ungated {m : Nat} {s x : State} (h : Keeps m s x) {a1 a2 a3} {a4 : State → State} (k4 : ∀ z1, Keeps m s z1 → Keeps m s (a4 z1)) (hm : Sub 2097158 m := by exact .of ‹_› rfl) : Keeps m s (State.ungated x a1 a2 a3 a4) := .ite (k4 _ h) h.gatedLog.answer
theorem Keeps.fhCmd {m : Nat} {s x : State} (h : Keeps m s x) {a1 a2 a3} {a4 : State → State} (k4 : ∀ z1, Keeps m s z1 → Keeps m s (a4 z1)) (hm : Sub 15728654 m := by exact .of ‹_› rfl) : Keeps m s (State.fhCmd x a1 a2 a3 a4) := h.mcOnly (fun y1 h1 => (h1.ungated (fun y2 h2 => (.ite (k4 _ h2) h2.refuseReg))))
theorem Keeps.setFh {m : Nat} {s x : State} (h : Keeps m s x) {a1 a2} (hm : Sub 4 m := by exact .of ‹_› rfl) : Keeps m s (State.setFh x a1 a2) := .ite h h.setFld.event
theorem execFhPortCmdEnable_keeps {m : Nat} {s : State} {a1 a2 a3} {x : State} (h : Keeps m s x) (hm : Sub 15728654 m := by exact .of ‹_› rfl) : OutP m s (execFhPortCmdEnable a1 a2 a3 x) := by
  unfold execFhPortCmdEnable
  extract_lets v1
  refine .next (h.fhCmd (fun y1 h1 => (.ite h1.setFh.answer h1.answer)))
theorem execFhPortCmdDisable_keeps {m : Nat} {s : State} {a1 a2 a3} {x : State} (h : Keeps m s x) (hm : Sub 15728654 m := by exact .of ‹_› rfl) : OutP m s (execFhPortCmdDisable a1 a2 a3 x) := by
  unfold execFhPortCmdDisable
  extract_lets v1
  refine .next (h.fhCmd (fun y1 h1 => (.ite h1.answer h1.setFh.answer)))
theorem Keeps.fhCmdWrite {m : Nat} {s x : State} (h : Keeps m s x) {a1 a2 a3} (hm : Sub 15728654 m := by exact .of ‹_› rfl) : Keeps m s (State.fhCmdWrite x a1 a2 a3) := by
  unfold State.fhCmdWrite
  extract_lets v1 v2 v3
  have hv3 : Keeps m s v3 := (.foldl h fun y1 h1 _ => (h1.after (execFhPortCmdEnable_keeps h1)))
  exact .ite h.answer (.ite h.refuseReg (.foldl hv3 fun y1 h1 _ => (h1.after (execFhPortCmdDisable_keeps h1))))
theorem Keeps.prtDone {m : Nat} {s x : State} (h : Keeps m s x) {a1 a2} (hm : Sub 6 m := by exact .of ‹_› rfl) : Keeps m s (State.prtDone x a1 a2) := h.setFld.event.answer
theorem Keeps.prtRefuse {m : Nat} {s x : State} (h : Keeps m s x) (hm : Sub 4194310 m := by exact .of ‹_› rfl) : Keeps m s (State.prtRefuse x) := h.bump.refuseReg.prtDone
theorem Keeps.prtCommand {m : Nat} {s x : State} (h : Keeps m s x) {a1 a2 a3} {a4 : State → State} (k4 : ∀ z1, Keeps m s z1 → Keeps m s (a4 z1)) (hm : Sub 4194310 m := by exact .of ‹_› rfl) : Keeps m s (State.prtCommand x a1 a2 a3 a4) := .ite h.prtRefuse (.ite h.bump.prtDone (.ite h.prtRefuse (k4 _ h)))
theorem Keeps.keyMake {m : Nat} {s x : State} (h : Keeps m s x) {a1} (hm : Sub 576460752303423493 m := by exact .of ‹_› rfl) : Keeps m s (State.keyMake x a1) := h.loseKey.setFld
theorem Keeps.withKey {m : Nat} {s x : State} (h : Keeps m s x) {a1 a2} {a3 : State → State} (k3 : ∀ z1, Keeps m s z1 → Keeps m s (a3 z1)) (hm : Sub 576460752307617799 m := by exact .of ‹_› rfl) : Keeps m s (State.withKey x a1 a2 a3) := .ite (k3 _ h.keyMake) h.event.prtRefuse
theorem Keeps.setPartSt {m : Nat} {s x : State} (h : Keeps m s x) {a1 a2} (hm : Sub 1152921504606846976 m := by exact .of ‹_› rfl) : Keeps m s (State.setPartSt x a1 a2) := h.set_parts
theorem Keeps.setMeas5 {m : Nat} {s x : State} (h : Keeps m s x) {a1 a2} (hm : Sub 4 m := by exact .of ‹_› rfl) : Keeps m s (State.setMeas5 x a1 a2) := .foldl h fun y1 h1 _ => h1.setReg
theorem Keeps.startMeas5 {m : Nat} {s x : State} (h : Keeps m s x) {a1} (hm : Sub 4 m := by exact .of ‹_› rfl) : Keeps m s (State.startMeas5 x a1) := h.setMeas5
theorem Keeps.setPartState {m : Nat} {s x : State} (h : Keeps m s x) {a1 a2} (hm : Sub 4 m := by exact .of ‹_› rfl) : Keeps m s (State.setPartState x a1 a2) := .ite h h.setFld.event
theorem Keeps.bumpPgen {m : Nat} {s x : State} (h : Keeps m s x) {a1} (hm : Sub 4 m := by exact .of ‹_› rfl) : Keeps m s (State.bumpPgen x a1) := by
  unfold State.bumpPgen
  extract_lets v1
  have hv1 : Keeps m s v1 := h.setFld
  exact .foldl hv1.setFld fun y1 h1 _ => h1.setReg
theorem Keeps.partCreate {m : Nat} {s x : State} (h : Keeps m s x) {a1 a2} (hm : Sub 1729382256914464775 m := by exact .of ‹_› rfl) : Keeps m s (State.partCreate x a1 a2) := .ite h.prtRefuse (.ite h.prtDone (h.withKey (fun y1 h1 => h1.bumpPgen.setPartState.startMeas5.setPartSt.prtDone)))
theorem Keeps.mbxInstReset {m : Nat} {s x : State} (h : Keeps m s x) {a1} (hm : Sub 54043195528446980 m := by exact .of ‹_› rfl) : Keeps m s (State.mbxInstReset x a1) := by
  unfold State.mbxInstReset
  extract_lets v1 v2
  have hv1 : Keeps m s v1 := h.set_notices
  have hv2 : Keeps m s v2 := (.foldl hv1 fun y1 h1 _ => h1.clearChan)
  exact .foldl hv2 fun y1 h1 _ => h1.abortChan
theorem Keeps.countRun {m : Nat} {s x : State} (h : Keeps m s x) {a1} (hm : Sub 4 m := by exact .of ‹_› rfl) : Keeps m s (State.countRun x a1) := h.setFld
theorem Keeps.mbxEpReset {m : Nat} {s x : State} (h : Keeps m s x) {a1} (hm : Sub 54043195528446980 m := by exact .of ‹_› rfl) : Keeps m s (State.mbxEpReset x a1) := .foldl h fun y1 h1 _ => h1.abortChan
theorem Keeps.setTdi {m : Nat} {s x : State} (h : Keeps m s x) {a1 a2} (hm : Sub 134217728 m := by exact .of ‹_› rfl) : Keeps m s (State.setTdi x a1 a2) := h.set_tdi
theorem Keeps.tdiError {m : Nat} {s x : State} (h : Keeps m s x) {a1} (hm : Sub 134217728 m := by exact .of ‹_› rfl) : Keeps m s (State.tdiError x a1) := .ite h.setTdi h
theorem Keeps.cremaReset {m : Nat} {s x : State} (h : Keeps m s x) {a1} (hm : Sub 100663300 m := by exact .of ‹_› rfl) : Keeps m s (State.cremaReset x a1) := by
  unfold State.cremaReset
  extract_lets v1 v2
  have hv2 : Keeps m s v2 := h.bumpFld
  exact (Keeps.part hv2 (.of hm (a := 100663296) rfl) rfl (later_of rfl rfl rfl rfl) fun g hg => by cases g <;> first | rfl | exact nomatch hg)
theorem Keeps.setMe {m : Nat} {s x : State} (h : Keeps m s x) {a1 a2 a3} (hm : Sub 1024 m := by exact .of ‹_› rfl) : Keeps m s (State.setMe x a1 a2 a3) := h.modCtx
theorem Keeps.settle {m : Nat} {s x : State} (h : Keeps m s x) {a1 a2} (hm : Sub 1024 m := by exact .of ‹_› rfl) : Keeps m s (State.settle x a1 a2) := h.modCtx
theorem Keeps.meReset {m : Nat} {s x : State} (h : Keeps m s x) {a1 a2 a3} (hm : Sub 1028 m := by exact .of ‹_› rfl) : Keeps m s (State.meReset x a1 a2 a3) := by
  unfold State.meReset
  extract_lets v1 v2 v3 v4
  have hv3 : Keeps m s v3 := h.setMe
  have hv4 : Keeps m s v4 := by
    unfold v4
    split
    · exact hv3.setFld
    · exact hv3.setFld
  exact hv4.settle
theorem Keeps.tqReset {m : Nat} {s x : State} (h : Keeps m s x) {a1 a2 a3} (hm : Sub 1028 m := by exact .of ‹_› rfl) : Keeps m s (State.tqReset x a1 a2 a3) := by
  unfold State.tqReset
  extract_lets v1 v2 v3 v4 v5 v6 v7 v8
  have hv8 : Keeps m s v8 := h.setCtx
  split
  · exact hv8.setFld
  · exact hv8.setFld
theorem Keeps.setPool {m : Nat} {s x : State} (h : Keeps m s x) {a1 a2} (hm : Sub 8192 m := by exact .of ‹_› rfl) : Keeps m s (State.setPool x a1 a2) := h.set_pools
theorem Keeps.poolGrant {m : Nat} {s x : State} (h : Keeps m s x) {a1 a2} (hm : Sub 8192 m := by exact .of ‹_› rfl) : Keeps m s (State.poolGrant x a1 a2).2 := by
  unfold State.poolGrant
  extract_lets v1 v2
  dsimp -zeta only
  exact h.setPool
theorem Keeps.poolServe {m : Nat} {s x : State} (h : Keeps m s x) {a1 a2} (hm : Sub 8196 m := by exact .of ‹_› rfl) : Keeps m s (State.poolServe x a1 a2) := by
  induction a2 generalizing x a1 with
  | zero =>
    unfold State.poolServe
    exact h
  | succ n ih =>
    unfold State.poolServe
    extract_lets v1 v2
    clear_value v2
    split
    · exact h
    · refine .ite ?_ (.ite (by apply ih; exact h.setPool.poolGrant) h)
      extract_lets v2
      have hv2 : Keeps m s v2 := h.setPool
      apply ih
      exact .ite hv2.bumpFld hv2
theorem Keeps.poolGive {m : Nat} {s x : State} (h : Keeps m s x) {a1 a2} (hm : Sub 8196 m := by exact .of ‹_› rfl) : Keeps m s (State.poolGive x a1 a2) := by
  unfold State.poolGive
  extract_lets v1
  exact h.setPool.poolServe
theorem Keeps.freeStaged {m : Nat} {s x : State} (h : Keeps m s x) {a1 a2 a3} (hm : Sub 8196 m := by exact .of ‹_› rfl) : Keeps m s (State.freeStaged x a1 a2 a3) := by
  unfold State.freeStaged
  refine .foldl h fun y1 h1 a4 => ?_
  extract_lets v1
  have hv1 : Keeps m s v1 := h1.poolGive
  exact .ite hv1.bump hv1
theorem Keeps.setTme {m : Nat} {s x : State} (h : Keeps m s x) {a1 a2 a3} (hm : Sub 1024 m := by exact .of ‹_› rfl) : Keeps m s (State.setTme x a1 a2 a3) := h.modCtx
theorem Keeps.tmeReset {m : Nat} {s x : State} (h : Keeps m s x) {a1 a2 a3} (hm : Sub 9220 m := by exact .of ‹_› rfl) : Keeps m s (State.tmeReset x a1 a2 a3) := by
  unfold State.tmeReset
  extract_lets v1 v2 v3 v4 v5 v6
  have hv1 : Keeps m s v1 := (.foldl h fun y1 h1 _ => h1.freeStaged)
  have hv5 : Keeps m s v5 := hv1.setTme
  have hv6 : Keeps m s v6 := by
    unfold v6
    split
    · exact hv5.setFld
    · exact hv5.setFld
  exact hv6.modCtx
theorem Keeps.vceReset {m : Nat} {s x : State} (h : Keeps m s x) {a1 a2 a3 a4} (hm : Sub 1028 m := by exact .of ‹_› rfl) : Keeps m s (State.vceReset x a1 a2 a3 a4) := by
  unfold State.vceReset
  extract_lets v1 v2 v3 v4 v5
  have hv4 : Keeps m s v4 := h.setVce
  have hv5 : Keeps m s v5 := by
    unfold v5
    split
    · exact hv4.setFld
    · exact hv4.setFld
  exact hv5.modCtx
theorem Keeps.ctxReset {m : Nat} {s x : State} (h : Keeps m s x) {a1 a2} (hm : Sub 9220 m := by exact .of ‹_› rfl) : Keeps m s (State.ctxReset x a1 a2) := by
  unfold State.ctxReset
  extract_lets v1
  have hv1 : Keeps m s v1 := h.tqReset.meReset
  exact hv1.vceReset.vceReset.tmeReset
theorem Keeps.raiseLc {m : Nat} {s x : State} (h : Keeps m s x) {a1 a2} (hm : Sub 1028 m := by exact .of ‹_› rfl) : Keeps m s (State.raiseLc x a1 a2) := by
  unfold State.raiseLc
  extract_lets v1
  exact .ite h h.raiseEvt
theorem Keeps.fecPut {m : Nat} {s x : State} (h : Keeps m s x) {a1 a2} (hm : Sub 576460784515681284 m := by exact .of ‹_› rfl) : Keeps m s (State.fecPut x a1 a2) := by
  unfold State.fecPut
  extract_lets v1 v2 v3
  have hv2 : Keeps m s v2 := h.devWrite
  have hv3 : Keeps m s v3 := hv2.setFld
  exact hv3.raiseLc
theorem Keeps.fecDrain {m : Nat} {s x : State} (h : Keeps m s x) {a1 a2} (hm : Sub 577023734469102596 m := by exact .of ‹_› rfl) : Keeps m s (State.fecDrain x a1 a2) := by
  induction a2 generalizing x a1 with
  | zero =>
    unfold State.fecDrain
    exact h
  | succ n ih =>
    unfold State.fecDrain
    split
    · exact h
    · exact .ite h (by apply ih; exact h.set_fec.fecPut)
theorem Keeps.fecSync {m : Nat} {s x : State} (h : Keeps m s x) {a1} (hm : Sub 4 m := by exact .of ‹_› rfl) : Keeps m s (State.fecSync x a1) := h.setFld.setFld
theorem Keeps.fecRecord {m : Nat} {s x : State} (h : Keeps m s x) {a1 a2 a3 a4} (hm : Sub 577023734469102596 m := by exact .of ‹_› rfl) : Keeps m s (State.fecRecord x a1 a2 a3 a4) := by
  unfold State.fecRecord
  refine .ite h.bump ?_
  extract_lets v1 v2
  exact h.set_fec.fecDrain
theorem Keeps.fecEnd {m : Nat} {s x : State} (h : Keeps m s x) {a1 a2 a3 a4 a5 a6} (hm : Sub 577023734469102596 m := by exact .of ‹_› rfl) : Keeps m s (State.fecEnd x a1 a2 a3 a4 a5 a6) := by
  unfold State.fecEnd
  extract_lets v1
  have hv1 : Keeps m s v1 := (.ite h.bump.event h)
  exact hv1.fecRecord
theorem Keeps.fecState {m : Nat} {s x : State} (h : Keeps m s x) {a1 a2 a3 a4} (hm : Sub 577023734473296900 m := by exact .of ‹_› rfl) : Keeps m s (State.fecState x a1 a2 a3 a4) := h.bump.refuseLog.fecEnd
theorem Keeps.fecEnter {m : Nat} {s x : State} (h : Keeps m s x) {a1 a2 a3} (hm : Sub 577023734482734092 m := by exact .of ‹_› rfl) : Keeps m s (State.fecEnter x a1 a2 a3) := by
  unfold State.fecEnter
  extract_lets v1 v2 v3 v4
  refine .ite h.bump (.ite h.countErr.fecEnd (.ite h.fecState (.ite h.fecViolate.fecEnd (.ite h.fecEnd (.ite h.fecState ?_)))))
  split
  · exact h.fecViolate.fecEnd
  · exact h.set_fec
theorem Keeps.fecAccept {m : Nat} {s x : State} (h : Keeps m s x) {a1 a2} (hm : Sub 577023734482734092 m := by exact .of ‹_› rfl) : Keeps m s (State.fecAccept x a1 a2) := by
  induction a2 generalizing x a1 with
  | zero =>
    unfold State.fecAccept
    exact h.fecSync
  | succ n ih =>
    unfold State.fecAccept
    split
    · exact h.fecSync
    · exact .ite h.fecSync (by apply ih; exact h.set_fec.fecEnter)
theorem Keeps.fecServe {m : Nat} {s x : State} (h : Keeps m s x) {a1} (hm : Sub 577023734482734092 m := by exact .of ‹_› rfl) : Keeps m s (State.fecServe x a1) := by
  unfold State.fecServe
  extract_lets v1
  have hv1 : Keeps m s v1 := h.fecDrain
  exact hv1.fecAccept
theorem Keeps.setFecJob {m : Nat} {s x : State} (h : Keeps m s x) {a1} (hm : Sub 562949953421312 m := by exact .of ‹_› rfl) : Keeps m s (State.setFecJob x a1) := h.set_fec
theorem Keeps.dropFecJob {m : Nat} {s x : State} (h : Keeps m s x) {a1} (hm : Sub 562949953421312 m := by exact .of ‹_› rfl) : Keeps m s (State.dropFecJob x a1) := h.set_fec
theorem Keeps.fecStop {m : Nat} {s x : State} (h : Keeps m s x) {a1 a2} (hm : Sub 577023734469102596 m := by exact .of ‹_› rfl) : Keeps m s (State.fecStop x a1 a2) := .ite h.setFecJob h.dropFecJob.fecEnd
theorem Keeps.fecQueueReset {m : Nat} {s x : State} (h : Keeps m s x) {a1} (hm : Sub 577023734482734092 m := by exact .of ‹_› rfl) : Keeps m s (State.fecQueueReset x a1) := by
  unfold State.fecQueueReset
  extract_lets v1 v2
  have hv1 : Keeps m s v1 := h.setFld
  exact Keeps.fecServe (.foldl hv1 fun y1 h1 _ => h1.fecStop)
theorem Keeps.tmPut {m : Nat} {s x : State} (h : Keeps m s x) {a1 a2} (hm : Sub 576460784515681284 m := by exact .of ‹_› rfl) : Keeps m s (State.tmPut x a1 a2) := by
  unfold State.tmPut
  extract_lets v1 v2 v3
  have hv2 : Keeps m s v2 := h.devWrite
  have hv3 : Keeps m s v3 := hv2.setFld
  exact hv3.raiseLc
theorem Keeps.tmDrain {m : Nat} {s x : State} (h : Keeps m s x) {a1 a2} (hm : Sub 580964384143051780 m := by exact .of ‹_› rfl) : Keeps m s (State.tmDrain x a1 a2) := by
  induction a2 generalizing x a1 with
  | zero =>
    unfold State.tmDrain
    exact h
  | succ n ih =>
    unfold State.tmDrain
    split
    · exact h
    · exact .ite h (by apply ih; exact h.set_tm.tmPut)
theorem Keeps.tmWinSync {m : Nat} {s x : State} (h : Keeps m s x) {a1} (hm : Sub 4 m := by exact .of ‹_› rfl) : Keeps m s (State.tmWinSync x a1) := h.setFld.setFld
theorem Keeps.tmLetIn {m : Nat} {s x : State} (h : Keeps m s x) {a1} (hm : Sub 4503599627370496 m := by exact .of ‹_› rfl) : OptP (fun z => Keeps m s z) (State.tmLetIn x a1) := by
  unfold State.tmLetIn
  split
  · exact trivial
  · exact ite_ind h.set_tm trivial
theorem Keeps.tmNext {m : Nat} {s x : State} (h : Keeps m s x) {a1} (hm : Sub 4503599627370496 m := by exact .of ‹_› rfl) : OptP (fun z => Keeps m s z.2) (State.tmNext x a1) := by
  unfold State.tmNext
  refine ite_ind (OptP.map fun _ => ?_) trivial
  dsimp -zeta only
  exact h.set_tm
theorem Keeps.tmRecord {m : Nat} {s x : State} (h : Keeps m s x) {a1 a2 a3 a4 a5 a6 a7 a8 a9} (hm : Sub 580964384143051780 m := by exact .of ‹_› rfl) : Keeps m s (State.tmRecord x a1 a2 a3 a4 a5 a6 a7 a8 a9) := by
  unfold State.tmRecord
  refine .ite h.bump (.ite h ?_)
  extract_lets v1 v2 v3
  exact h.set_tm.tmDrain
theorem Keeps.tmEnd {m : Nat} {s x : State} (h : Keeps m s x) {a1 a2 a3 a4} (hm : Sub 580964384143051780 m := by exact .of ‹_› rfl) : Keeps m s (State.tmEnd x a1 a2 a3 a4) := h.tmRecord
theorem Keeps.tmState {m : Nat} {s x : State} (h : Keeps m s x) {a1 a2} (hm : Sub 580964384147246084 m := by exact .of ‹_› rfl) : Keeps m s (State.tmState x a1 a2) := h.bump.refuseLog.tmEnd
theorem Keeps.nextSeq {m : Nat} {s x : State} (h : Keeps m s x) {a1} (hm : Sub 4503599627370496 m := by exact .of ‹_› rfl) : Keeps m s (State.nextSeq x a1).2 := by
  unfold State.nextSeq
  extract_lets v1 v2
  dsimp -zeta only
  exact h.set_tm
theorem Keeps.uFrames {m : Nat} {s x : State} (h : Keeps m s x) {a1 a2} (hm : Sub 4503599627370496 m := by exact .of ‹_› rfl) : Keeps m s (State.uFrames x a1 a2).2.2 := by
  unfold State.uFrames
  extract_lets v1 v2
  refine foldl_ind (P := fun r : List (List Nat) × Nat × State => Keeps m s r.2.2) ?_ fun y1 h1 a3 => ?_
  · dsimp -zeta only
    exact h
  · extract_lets v3 v4
    have hv3 : Keeps m s v3.2 := h1.nextSeq
    dsimp -zeta only
    exact hv3
theorem Keeps.cFrame {m : Nat} {s x : State} (h : Keeps m s x) {a1 a2} (hm : Sub 4503599627370496 m := by exact .of ‹_› rfl) : Keeps m s (State.cFrame x a1 a2).2.2 := by
  unfold State.cFrame
  extract_lets v1 v2 v3 v4
  have hv3 : Keeps m s v3.2 := h.nextSeq
  dsimp -zeta only
  exact hv3
theorem Keeps.egBuild {m : Nat} {s x : State} (h : Keeps m s x) {a1} (hm : Sub 4503631839628292 m := by exact .of ‹_› rfl) : Keeps m s (State.egBuild x a1).2.2 := by
  unfold State.egBuild
  extract_lets v1 v2 v3 v4 v5
  have hv2 : Keeps m s v2 := h.devChecked
  have hv3 : ∀ z1, ∀ z1c, Keeps m s z1c → Keeps m s (v3 z1 z1c) := by
    intro z1 z1c hz1c
    unfold v3
    exact hz1c.bumpFld
  have hv4 : Keeps m s v4.2.2 := hv2.uFrames
  have hv5 : Keeps m s v5.2.2 := hv2.cFrame
  refine ite_ind (P := fun r : List (List Nat) × Bool × State => Keeps m s r.2.2) ?_ (ite_ind (P := fun r : List (List Nat) × Bool × State => Keeps m s r.2.2) ?_ ?_)
  · dsimp -zeta only
    exact hv3 _ _ hv4
  · dsimp -zeta only
    exact hv3 _ _ hv5
  · dsimp -zeta only
    exact hv2
theorem Keeps.tmCountDrop {m : Nat} {s x : State} (h : Keeps m s x) {a1} (hm : Sub 4 m := by exact .of ‹_› rfl) : Keeps m s (State.tmCountDrop x a1) := h.bumpFld
theorem Keeps.lateSym {m : Nat} {s x : State} (h : Keeps m s x) {a1} (hm : Sub 4 m := by exact .of ‹_› rfl) : Keeps m s (State.lateSym x a1) := h.bumpFld
theorem Keeps.tmTake {m : Nat} {s x : State} (h : Keeps m s x) {a1 a2 a3 a4 a5} (hm : Sub 4503599627370500 m := by exact .of ‹_› rfl) : OptP (fun z => Keeps m s z.2) (State.tmTake x a1 a2 a3 a4 a5) := by
  unfold State.tmTake
  refine OptP.map fun _ => ?_
  extract_lets v1 v2 v3
  dsimp -zeta only
  exact h.set_tm.tmBufSync
theorem Keeps.tmTakeAll {m : Nat} {s x : State} (h : Keeps m s x) {a1 a2 a3 a4} (hm : Sub 4503599627370500 m := by exact .of ‹_› rfl) : OptP (fun z => Keeps m s z.2) (State.tmTakeAll x a1 a2 a3 a4) := by
  induction a4 generalizing x with
  | nil => exact h
  | cons n t ih =>
    unfold State.tmTakeAll
    have ht := h.tmTake (a1 := a1) (a2 := false) (a3 := a2) (a4 := n + 4) (a5 := a3)
    revert ht
    cases x.tmTake a1 false a2 (n + 4) a3 with
    | none => exact fun _ => trivial
    | some r =>
      intro hr
      have hk := ih (x := r.2) hr
      revert hk
      simp only [Option.bind_some]
      cases r.2.tmTakeAll a1 a2 a3 t with
      | none => exact fun _ => trivial
      | some q => exact fun hk => hk

theorem Keeps.setSym {m : Nat} {s x : State} (h : Keeps m s x) {a1 a2} (hm : Sub 4503599627370496 m := by exact .of ‹_› rfl) : Keeps m s (State.setSym x a1 a2) := h.set_tm
theorem Keeps.symQueued {m : Nat} {s x : State} (h : Keeps m s x) {a1} (hm : Sub 4503599627370496 m := by exact .of ‹_› rfl) : Keeps m s (State.symQueued x a1) := .ite h.setSym h
theorem Keeps.setTmNode {m : Nat} {s x : State} (h : Keeps m s x) {a1 a2} (hm : Sub 4503599627370496 m := by exact .of ‹_› rfl) : Keeps m s (State.setTmNode x a1 a2) := h.set_tm
theorem Keeps.tmQSync {m : Nat} {s x : State} (h : Keeps m s x) {a1} (hm : Sub 4 m := by exact .of ‹_› rfl) : Keeps m s (State.tmQSync x a1) := by
  unfold State.tmQSync
  extract_lets v1
  exact h.setFld.setFld
theorem Keeps.setTmQ {m : Nat} {s x : State} (h : Keeps m s x) {a1 a2} (hm : Sub 4503599627370496 m := by exact .of ‹_› rfl) : Keeps m s (State.setTmQ x a1 a2) := h.set_tm
theorem Keeps.tmEnqueue {m : Nat} {s x : State} (h : Keeps m s x) {a1 a2} (hm : Sub 4503599627370500 m := by exact .of ‹_› rfl) : Keeps m s (State.tmEnqueue x a1 a2) := by
  unfold State.tmEnqueue
  extract_lets v1 v2 v3
  have hv3 : Keeps m s v3 := (.ite h h.setTmNode)
  exact hv3.setTmQ.tmQSync
theorem Keeps.tmFill {m : Nat} {s x : State} (h : Keeps m s x) {a1 a2 a3 a4 a5 a6 a7} (hm : Sub 4503599627370500 m := by exact .of ‹_› rfl) : Keeps m s (State.tmFill x a1 a2 a3 a4 a5 a6 a7) := .foldl h fun y1 h1 _ => h1.tmEnqueue
theorem Keeps.tmAdmit {m : Nat} {s x : State} (h : Keeps m s x) {a1 a2 a3 a4} (hm : Sub 580964384143051780 m := by exact .of ‹_› rfl) : Keeps m s (State.tmAdmit x a1 a2 a3 a4) := by
  unfold State.tmAdmit
  extract_lets v1 v2 v3 v4 v5 v6 v7 v8
  have hv4 : Keeps m s v4 := (.foldl h fun y1 h1 _ => h1.bumpFld.tmCountDrop)
  have hv6 : OptP (fun z => Keeps m s z.2) (v6) := hv4.tmTakeAll
  have hv7 : Keeps m s v7 := hv4.bumpFld.event
  refine .ite hv4.tmEnd ?_
  clear_value v6
  split
  · exact Keeps.tmEnd (.foldl hv7 fun y1 h1 _ => h1.tmCountDrop)
  · rename_i q1 q2 q3
    have hq1 : Keeps m s q3 := hv6
    extract_lets v6 v9 v10 v11 v12 v13 v14 v15
    have hv11 : Keeps m s v11 := hq1.set_tm
    have hv14 : Keeps m s v14 := hv11.set_tm
    have hv15 : Keeps m s v15 := (.ite hv14 hv14.symQueued)
    exact .foldl hv15 fun y1 h1 _ => (.ite h1.tmFill h1)
theorem Keeps.tmAccept2 {m : Nat} {s x : State} (h : Keeps m s x) {a1 a2 a3} (k3 : Keeps m s a3.2.2) (hm : Sub 580964384152488972 m := by exact .of ‹_› rfl) : Keeps m s (State.tmAccept2 x a1 a2 a3) := by
  unfold State.tmAccept2
  extract_lets v1 v2 v3 v4 v5
  have hv3 : ∀ z1, ∀ z1c, Keeps m s (v3 z1 z1c) := by
    intro z1 z1c
    unfold v3
    exact h.charge.tmEnd
  have hv4 : Keeps m s v4 := h.bump.event
  have hv5 : Keeps m s v5 := (.foldl hv4 fun y1 h1 _ => h1.tmCountDrop)
  exact .ite (hv3 _ _) (.ite (hv3 _ _) (.ite (Keeps.tmEnd (.ite hv5.lateSym hv5)) (.ite (Keeps.tmEnd (.foldl h.bump.event fun y1 h1 _ => h1.tmCountDrop)) k3.tmAdmit)))
theorem Keeps.tmAccept {m : Nat} {s x : State} (h : Keeps m s x) {a1 a2} (hm : Sub 580964384156683276 m := by exact .of ‹_› rfl) : Keeps m s (State.tmAccept x a1 a2) := by
  unfold State.tmAccept
  extract_lets v1 v2
  have hv2 : Keeps m s v2.2.2 := h.egBuild
  exact .ite h.bump (.ite h.countErr.tmEnd (.ite h.tmState (.ite h.tmEnd (.ite h.tmState (.ite h.tmState (h.tmAccept2 hv2))))))
theorem Keeps.tmServe {m : Nat} {s x : State} (h : Keeps m s x) {a1 a2} (hm : Sub 580964384156683276 m := by exact .of ‹_› rfl) : Keeps m s (State.tmServe x a1 a2) := by
  induction a2 generalizing x a1 with
  | zero =>
    unfold State.tmServe
    exact h.tmWinSync
  | succ n ih =>
    unfold State.tmServe
    split
    · rename_i q1 q2 q3
      have hq1 : Keeps m s q2 := OptP.of_eq (P := fun z : State => Keeps m s z) h.tmLetIn q3
      apply ih
      exact hq1
    · split
      · rename_i q1 q2 q3 q4 q5
        have hq1 : Keeps m s q4.snd := OptP.of_eq (P := fun z : CItem × State => Keeps m s z.2) h.tmNext q5
        apply ih
        exact hq1.tmAccept
      · exact h.tmWinSync
theorem Keeps.tmRun {m : Nat} {s x : State} (h : Keeps m s x) {a1} (hm : Sub 580964384156683276 m := by exact .of ‹_› rfl) : Keeps m s (State.tmRun x a1) := by
  unfold State.tmRun
  extract_lets v1
  have hv1 : Keeps m s v1 := h.tmDrain
  exact hv1.tmServe
theorem Keeps.tmLeave {m : Nat} {s x : State} (h : Keeps m s x) {a1 a2} (hm : Sub 4503599627370500 m := by exact .of ‹_› rfl) : Keeps m s (State.tmLeave x a1 a2) := by
  unfold State.tmLeave
  extract_lets v1 v2 v3 v4 v5
  have hv2 : Keeps m s v2 := h.setTmQ
  have hv3 : Keeps m s v3 := hv2.setTmNode
  have hv5 : Keeps m s v5 := (.ite hv3.set_tm hv2)
  exact hv5.tmQSync
theorem Keeps.setTmJob {m : Nat} {s x : State} (h : Keeps m s x) {a1} (hm : Sub 4503599627370496 m := by exact .of ‹_› rfl) : Keeps m s (State.setTmJob x a1) := h.set_tm
theorem Keeps.tmAbort {m : Nat} {s x : State} (h : Keeps m s x) {a1} (hm : Sub 4503599627370500 m := by exact .of ‹_› rfl) : Keeps m s (State.tmAbort x a1) := by
  unfold State.tmAbort
  extract_lets v1 v2 v3 v4
  have hv3 : Keeps m s v3 := by
    unfold v3
    refine .foldl h fun y1 h1 a2 => ?_
    extract_lets v5
    refine .foldl h1 fun y2 h2 a3 => ?_
    split
    · exact h2.tmLeave.tmRelease
    · exact h2
  exact .foldl hv3 fun y1 h1 _ => (.ite h1.setTmJob h1)
theorem Keeps.tmWinReset {m : Nat} {s x : State} (h : Keeps m s x) {a1} (hm : Sub 580964384156683276 m := by exact .of ‹_› rfl) : Keeps m s (State.tmWinReset x a1) := by
  unfold State.tmWinReset
  extract_lets v1 v2 v3 v4
  have hv1 : Keeps m s v1 := h.setFld
  have hv2 : Keeps m s v2 := hv1.bumpFld
  have hv4 : Keeps m s v4 := hv2.set_tm
  exact hv4.tmAbort.tmRun
theorem Keeps.resolveEpochs {m : Nat} {s x : State} (h : Keeps m s x) {a1 a2 a3 a4} (hm : Sub 274877906948 m := by exact .of ‹_› rfl) : Keeps m s (State.resolveEpochs x a1 a2 a3 a4) := by
  unfold State.resolveEpochs
  extract_lets v1
  have hv1 : Keeps m s v1 := (.foldl h fun y1 h1 _ => h1.set_epochs)
  exact .ite hv1 hv1.bump64
theorem Keeps.setBrsBlk {m : Nat} {s x : State} (h : Keeps m s x) {a1 a2} (hm : Sub 17592186044416 m := by exact .of ‹_› rfl) : Keeps m s (State.setBrsBlk x a1 a2) := h.set_brs
theorem Keeps.dropBlock {m : Nat} {s x : State} (h : Keeps m s x) {a1} (hm : Sub 17592186052612 m := by exact .of ‹_› rfl) : Keeps m s (State.dropBlock x a1) := by
  unfold State.dropBlock
  extract_lets v1 v2 v3 v4 v5
  have hv2 : Keeps m s v2 := (.ite h.poolGive h)
  have hv3 : Keeps m s v3 := (.ite hv2.poolGive hv2)
  have hv5 : Keeps m s v5 := hv3.set_brs
  exact hv5.setBrsBlk.setFld
theorem Keeps.releaseBlock {m : Nat} {s x : State} (h : Keeps m s x) {a1 a2} (hm : Sub 17592186052612 m := by exact .of ‹_› rfl) : Keeps m s (State.releaseBlock x a1 a2) := by
  unfold State.releaseBlock
  extract_lets v1 v2 v3
  have hv2 : Keeps m s v2 := h.setBrsBlk
  exact .ite h.setBrsBlk (.ite hv2.set_brs h.dropBlock)
theorem Keeps.removeEnt {m : Nat} {s x : State} (h : Keeps m s x) {a1} (hm : Sub 17592186044420 m := by exact .of ‹_› rfl) : Keeps m s (State.removeEnt x a1) := by
  unfold State.removeEnt
  extract_lets v1 v2 v3
  have hv2 : Keeps m s v2 := h.setBrsEnt
  have hv3 : Keeps m s v3 := hv2.setFld
  exact hv3.setFld
theorem Keeps.invApply {m : Nat} {s x : State} (h : Keeps m s x) {a1} (hm : Sub 114688 m := by exact .of ‹_› rfl) : Keeps m s (State.invApply x a1) := (Keeps.part h (.of hm (a := 114688) rfl) rfl (later_of rfl rfl rfl rfl) fun g hg => by cases g <;> first | rfl | exact nomatch hg)
theorem Keeps.unmapPages {m : Nat} {s x : State} (h : Keeps m s x) {a1 a2 a3 a4} (hm : Sub 576461302059354112 m := by exact .of ‹_› rfl) : Keeps m s (State.unmapPages x a1 a2 a3 a4) := by
  unfold State.unmapPages
  extract_lets v1
  have hv1 : Keeps m s v1 := h.mapPages
  exact hv1.invApply
theorem Keeps.unbindKey {m : Nat} {s x : State} (h : Keeps m s x) {a1 a2 a3} (hm : Sub 576460752303423493 m := by exact .of ‹_› rfl) : Keeps m s (State.unbindKey x a1 a2 a3) := by
  unfold State.unbindKey
  split
  · exact h.setReg.setReg.lose
  · exact h
theorem Keeps.freeRegion {m : Nat} {s x : State} (h : Keeps m s x) {a1} (hm : Sub 1729382806666205189 m := by exact .of ‹_› rfl) : Keeps m s (State.freeRegion x a1) := by
  unfold State.freeRegion
  extract_lets v1 v2 v3 v4
  have hv1 : Keeps m s v1 := h.unmapPages
  have hv2 : Keeps m s v2 := hv1.set_regions
  exact .ite hv2 hv2.unbindKey.setPartSt
theorem Keeps.destroyGroup {m : Nat} {s x : State} (h : Keeps m s x) {a1 a2} (hm : Sub 1729400673730164741 m := by exact .of ‹_› rfl) : Keeps m s (State.destroyGroup x a1 a2) := by
  unfold State.destroyGroup
  extract_lets v1 v2 v3 v4 v5 v6 v7 v8 v9
  have hv2 : Keeps m s v2 := (.foldl h fun y1 h1 _ => h1.dropBlock)
  have hv6 : Keeps m s v6 := (.foldl hv2 fun y1 h1 _ => h1.freeRegion)
  have hv7 : Keeps m s v7 := hv6.set_epochs
  have hv9 : Keeps m s v9 := hv7.setBrsGrp.setReg
  exact hv9.brsPartUsed
theorem Keeps.brsOwnerReset {m : Nat} {s x : State} (h : Keeps m s x) {a1} (hm : Sub 1729400673730164741 m := by exact .of ‹_› rfl) : Keeps m s (State.brsOwnerReset x a1) := by
  unfold State.brsOwnerReset
  refine .foldl h fun y1 h1 a2 => ?_
  extract_lets v1 v2
  have hv1 : Keeps m s v1 := (.foldl h1 fun y2 h2 _ => h2.resolveEpochs)
  have hv2 : Keeps m s v2 := by
    unfold v2
    refine .foldl hv1 fun y2 h2 a3 => ?_
    extract_lets v3
    have hv3 : Keeps m s v3 := (.foldl h2 fun y3 h3 _ => h3.releaseBlock)
    exact hv3.removeEnt
  exact hv2.destroyGroup
theorem Keeps.dropStale {m : Nat} {s x : State} (h : Keeps m s x) (hm : Sub 34359738372 m := by exact .of ‹_› rfl) : Keeps m s (State.dropStale x) := by
  unfold State.dropStale
  extract_lets v1 v2 v3 v4
  have hv3 : Keeps m s v3 := h.set_fab
  have hv4 : Keeps m s v4 := hv3.bumpFld
  refine .foldl hv4 fun y1 h1 a1 => ?_
  extract_lets v5 v6 v7
  have hv7 : Keeps m s v7 := by
    unfold v7
    refine .foldl h1 fun y2 h2 a2 => ?_
    split
    · exact h2.holdTag
    · exact h2
  exact hv7.setGateway.bumpFld
theorem Keeps.setGwQueue {m : Nat} {s x : State} (h : Keeps m s x) {a1 a2} (hm : Sub 34359738368 m := by exact .of ‹_› rfl) : Keeps m s (State.setGwQueue x a1 a2) := h.set_fab
theorem Keeps.gwReset {m : Nat} {s x : State} (h : Keeps m s x) {a1} (hm : Sub 34359738372 m := by exact .of ‹_› rfl) : Keeps m s (State.gwReset x a1) := by
  unfold State.gwReset
  extract_lets v1 v2 v3
  exact h.setGwQueue.dropStale
theorem Keeps.setDmaQ {m : Nat} {s x : State} (h : Keeps m s x) {a1 a2} (hm : Sub 524288 m := by exact .of ‹_› rfl) : Keeps m s (State.setDmaQ x a1 a2) := h.set_dma
theorem Keeps.ringsReset {m : Nat} {s x : State} (h : Keeps m s x) {a1} (hm : Sub 34359738372 m := by exact .of ‹_› rfl) : Keeps m s (State.ringsReset x a1) := by
  unfold State.ringsReset
  refine .foldl h fun y1 h1 a2 => ?_
  extract_lets v1 v2
  have hv1 : Keeps m s v1 := h1.setReg
  exact hv1.set_fab
theorem Keeps.poolsReset {m : Nat} {s x : State} (h : Keeps m s x) {a1} (hm : Sub 8196 m := by exact .of ‹_› rfl) : Keeps m s (State.poolsReset x a1) := by
  unfold State.poolsReset
  refine .foldl h fun y1 h1 a2 => ?_
  extract_lets v1 v2 v3
  have hv3 : Keeps m s v3 := h1.setPool
  exact .foldl hv3 fun y2 h2 _ => h2.poolGive
theorem Keeps.instReset {m : Nat} {s x : State} (h : Keeps m s x) {a1 a2} (hm : Sub 4094353494874127373 m := by exact .of ‹_› rfl) : Keeps m s (State.instReset x a1 a2) := by
  unfold State.instReset
  extract_lets v1 v2 v3 v4 v5 v6 v7 v8 v9 v10 v11 v12 v13
  have hv2 : Keeps m s v2 := h.setFld.setFld
  have hv3 : Keeps m s v3 := hv2.countRun.mbxInstReset
  have hv5 : Keeps m s v5 := (.foldl hv3 fun y1 h1 _ => h1.mbxEpReset)
  have hv6 : Keeps m s v6 := hv5.cremaReset.tdiError
  have hv7 : Keeps m s v7 := (.foldl hv6 fun y1 h1 _ => h1.ctxReset)
  have hv8 : Keeps m s v8 := (.foldl hv7 fun y1 h1 _ => h1.fecQueueReset)
  have hv9 : Keeps m s v9 := (.foldl hv8 fun y1 h1 _ => h1.tmWinReset)
  have hv10 : Keeps m s v10 := hv9.gwReset.brsOwnerReset
  have hv12 : Keeps m s v12 := hv10.setDmaQ
  have hv13 : Keeps m s v13 := hv12.poolsReset.dropStale.ringsReset
  exact .ite hv13.set_dying hv13
theorem Keeps.partReset {m : Nat} {s x : State} (h : Keeps m s x) {a1} (hm : Sub 4094353494874127375 m := by exact .of ‹_› rfl) : Keeps m s (State.partReset x a1) := by
  unfold State.partReset
  extract_lets v1
  exact (Keeps.bumpPgen (.foldl h fun y1 h1 _ => h1.instReset)).prtDone
theorem Keeps.setGrpState {m : Nat} {s x : State} (h : Keeps m s x) {a1 a2} (hm : Sub 4 m := by exact .of ‹_› rfl) : Keeps m s (State.setGrpState x a1 a2) := h.setFld
theorem Keeps.partGroups {m : Nat} {s x : State} (h : Keeps m s x) {a1 a2 a3} (hm : Sub 4 m := by exact .of ‹_› rfl) : Keeps m s (State.partGroups x a1 a2 a3) := .foldl h fun y1 h1 _ => h1.setGrpState
theorem Keeps.partReclaim {m : Nat} {s x : State} (h : Keeps m s x) {a1} (hm : Sub 1206964700139487246 m := by exact .of ‹_› rfl) : Keeps m s (State.partReclaim x a1) := by
  unfold State.partReclaim
  refine .ite h.prtRefuse ?_
  extract_lets v1 v2 v3 v4 v5
  have hv2 : Keeps m s v2 := h.setPartState.setReg
  have hv4 : Keeps m s v4 := hv2.setPartSt
  have hv5 : Keeps m s v5 := (.foldl hv4 fun y1 h1 _ => h1.setWreg.notify)
  exact hv5.partGroups.prtDone
theorem Keeps.partCancel {m : Nat} {s x : State} (h : Keeps m s x) {a1} (hm : Sub 54043195528445966 m := by exact .of ‹_› rfl) : Keeps m s (State.partCancel x a1) := by
  unfold State.partCancel
  extract_lets v1
  have hv1 : Keeps m s v1 := h.setPartState.setReg.partGroups
  exact Keeps.prtDone (.foldl hv1 fun y1 h1 _ => h1.setWreg.notify)
theorem Keeps.partAssign {m : Nat} {s x : State} (h : Keeps m s x) {a1 a2} (hm : Sub 576460752307617799 m := by exact .of ‹_› rfl) : Keeps m s (State.partAssign x a1 a2) := h.withKey (fun y1 h1 => h1.setPartState.startMeas5.prtDone)
theorem Keeps.partRecover {m : Nat} {s x : State} (h : Keeps m s x) {a1} (hm : Sub 4194310 m := by exact .of ‹_› rfl) : Keeps m s (State.partRecover x a1) := .ite h.prtRefuse h.setPartState.prtDone
theorem Keeps.partDestroy {m : Nat} {s x : State} (h : Keeps m s x) {a1} (hm : Sub 1152921504611041286 m := by exact .of ‹_› rfl) : Keeps m s (State.partDestroy x a1) := by
  unfold State.partDestroy
  refine .ite h.prtRefuse ?_
  extract_lets v1 v2
  have hv2 : Keeps m s v2 := h.setPartSt
  exact hv2.setPartState.bumpPgen.setMeas5.prtDone
theorem Keeps.mapGrant {m : Nat} {s x : State} (h : Keeps m s x) {a1 a2 a3} (hm : Sub 576461302059243524 m := by exact .of ‹_› rfl) : Keeps m s (State.mapGrant x a1 a2 a3) := by
  unfold State.mapGrant
  extract_lets v1 v2 v3 v4
  refine .ite h ?_
  split
  · exact h
  · rename_i q1 q2 q3
    have hq1 : Keeps m s q2 := OptP.of_eq (P := fun z : State => Keeps m s z) h.bindKey q3
    extract_lets v5
    have hv5 : Keeps m s v5 := hq1.mapPages
    exact hv5.set_regions
theorem Keeps.instMake {m : Nat} {s x : State} (h : Keeps m s x) {a1 a2 a3 a4} (hm : Sub 576461302059243524 m := by exact .of ‹_› rfl) : Keeps m s (State.instMake x a1 a2 a3 a4) := by
  unfold State.instMake
  extract_lets v1 v2 v3 v4 v5 v6 v7
  have hv3 : Keeps m s v3.2 := h.newTable
  have hv4 : Keeps m s v4 := hv3
  have hv5 : Keeps m s v5 := hv4.setReg
  have hv6 : Keeps m s v6 := hv5.setReg
  have hv7 : Keeps m s v7 := hv6.setReg
  exact .foldl hv7 fun y1 h1 _ => h1.mapGrant
theorem Keeps.instCreate {m : Nat} {s x : State} (h : Keeps m s x) {a1 a2 a3 a4 a5} (hm : Sub 576461302063437831 m := by exact .of ‹_› rfl) : Keeps m s (State.instCreate x a1 a2 a3 a4 a5) := .ite h.prtRefuse (h.withKey (fun y1 h1 => h1.instMake.countRun.prtDone))
theorem Keeps.instCommand {m : Nat} {s x : State} (h : Keeps m s x) {a1 a2 a3} (hm : Sub 4094353494874127375 m := by exact .of ‹_› rfl) : Keeps m s (State.instCommand x a1 a2 a3) := .ite h.prtRefuse h.instReset.prtDone
theorem Keeps.partCommand {m : Nat} {s x : State} (h : Keeps m s x) {a1 a2 a3 a4 a5 a6 a7} (hm : Sub 4094353494874127375 m := by exact .of ‹_› rfl) : Keeps m s (State.partCommand x a1 a2 a3 a4 a5 a6 a7) := by
  unfold State.partCommand
  split
  · exact h.prtCommand (fun y1 h1 => h1.partCreate)
  · exact h.prtCommand (fun y1 h1 => h1.partReset)
  · exact h.prtCommand (fun y1 h1 => h1.partReclaim)
  · exact h.prtCommand (fun y1 h1 => h1.partCancel)
  · exact h.prtCommand (fun y1 h1 => h1.partAssign)
  · exact h.prtCommand (fun y1 h1 => h1.partRecover)
  · exact h.prtCommand (fun y1 h1 => h1.partDestroy)
  · exact h.prtCommand (fun y1 h1 => h1.instCreate)
  · exact h.prtCommand (fun y1 h1 => h1.instCommand)
  · exact h.prtCommand (fun y1 h1 => h1.instCommand)
  · exact h.prtRefuse
theorem Keeps.prtWrite {m : Nat} {s x : State} (h : Keeps m s x) {a1 a2 a3 a4 a5} (hm : Sub 4094353494874127375 m := by exact .of ‹_› rfl) : Keeps m s (State.prtWrite x a1 a2 a3 a4 a5) := h.mcOnly (fun y1 h1 => h1.partCommand)
theorem execRecover_keeps {m : Nat} {s : State} {a1} {x : State} (h : Keeps m s x) (hm : Sub 4094353494874127375 m := by exact .of ‹_› rfl) : OutP m s (execRecover a1 x) := by
  unfold execRecover
  refine .next h.prtWrite
theorem Keeps.setTimeOff {m : Nat} {s x : State} (h : Keeps m s x) {a1} (hm : Sub 4 m := by exact .of ‹_› rfl) : Keeps m s (State.setTimeOff x a1) := h.setReg.setReg
theorem Keeps.phaseStep {m : Nat} {s x : State} (h : Keeps m s x) {a1} (hm : Sub 4 m := by exact .of ‹_› rfl) : Keeps m s (State.phaseStep x a1) := h.setTimeOff
theorem Keeps.vceCtl {m : Nat} {s x : State} (h : Keeps m s x) {a1 a2} (hm : Sub 1024 m := by exact .of ‹_› rfl) : Keeps m s (State.vceCtl x a1 a2) := h.setVce
theorem execSetl_keeps {m : Nat} {s : State} {a1} {x : State} (h : Keeps m s x) (hm : Sub 32225887244 m := by exact .of ‹_› rfl) : OutP m s (execSetl a1 x) := by
  unfold execSetl
  refine .next (h.vceIssue (fun y1 h1 a2 => h1.vceCtl))
theorem Keeps.setLink {m : Nat} {s x : State} (h : Keeps m s x) {a1 a2} (hm : Sub 4 m := by exact .of ‹_› rfl) : Keeps m s (State.setLink x a1 a2) := h.setFld.event.setFld
theorem Keeps.dropFlits {m : Nat} {s x : State} (h : Keeps m s x) {a1} (hm : Sub 35184372088836 m := by exact .of ‹_› rfl) : Keeps m s (State.dropFlits x a1) := by
  unfold State.dropFlits
  extract_lets v1 v2 v3 v4 v5 v6
  have hv5 : Keeps m s v5 := h.setPort
  have hv6 : Keeps m s v6 := hv5.setFld.setFld
  exact hv6.bumpFld.setFld
theorem Keeps.degrade {m : Nat} {s x : State} (h : Keeps m s x) {a1} (hm : Sub 4 m := by exact .of ‹_› rfl) : Keeps m s (State.degrade x a1) := by
  unfold State.degrade
  extract_lets v1 v2
  have hv2 : Keeps m s v2 := h.setFld.setFld
  exact .ite hv2.event hv2
theorem Keeps.fabArrive {m : Nat} {s x : State} (h : Keeps m s x) {a1 a2} (hm : Sub 1024 m := by exact .of ‹_› rfl) : Keeps m s (State.fabArrive x a1 a2) := by
  unfold State.fabArrive
  split
  · extract_lets v1
    exact h.setThread
  · extract_lets v1
    split
    · exact h.setThread
    · exact h
  · exact h
theorem Keeps.rehash {m : Nat} {s x : State} (h : Keeps m s x) {a1} (hm : Sub 35218731828228 m := by exact .of ‹_› rfl) : Keeps m s (State.rehash x a1) := by
  unfold State.rehash
  split
  · exact .ite h.bump.event.fabArrive.holdTag h.toPort
  · exact .ite h h.toPort
theorem Keeps.rehashAll {m : Nat} {s x : State} (h : Keeps m s x) {a1} (hm : Sub 35218731828228 m := by exact .of ‹_› rfl) : Keeps m s (State.rehashAll x a1) := by
  unfold State.rehashAll
  extract_lets v1 v2
  exact .foldl h.setPort fun y1 h1 _ => h1.rehash
theorem Keeps.retirePort {m : Nat} {s x : State} (h : Keeps m s x) {a1} (hm : Sub 35218731828228 m := by exact .of ‹_› rfl) : Keeps m s (State.retirePort x a1) := by
  unfold State.retirePort
  extract_lets v1 v2
  have hv1 : Keeps m s v1 := h.dropFlits.setLink
  have hv2 : Keeps m s v2 := hv1.rehashAll.event.degrade
  exact hv2.setFld
theorem Keeps.ringAdvance {m : Nat} {s x : State} (h : Keeps m s x) {a1} (hm : Sub 34359738372 m := by exact .of ‹_› rfl) : Keeps m s (State.ringAdvance x a1) := by
  unfold State.ringAdvance
  extract_lets v1 v2
  have hv1 : Keeps m s v1 := h.setFld
  exact hv1.set_fab
theorem Keeps.ringFault {m : Nat} {s x : State} (h : Keeps m s x) {a1 a2 a3 a4 a5 a6} (hm : Sub 34369176588 m := by exact .of ‹_› rfl) : Keeps m s (State.ringFault x a1 a2 a3 a4 a5 a6) := by
  unfold State.ringFault
  extract_lets v1 v2
  have hv2 : Keeps m s v2 := h.charge
  exact hv2.ringAdvance.ringDone
theorem Keeps.dmaMoved {m : Nat} {s x : State} (h : Keeps m s x) {a1 a2} (hm : Sub 524288 m := by exact .of ‹_› rfl) : Keeps m s (State.dmaMoved x a1 a2) := by
  unfold State.dmaMoved
  extract_lets v1
  exact h.setDmaQ
theorem execTmeComplete_keeps {m : Nat} {s : State} {a1} {x : State} (h : Keeps m s x) (hm : Sub 9220 m := by exact .of ‹_› rfl) : OutP m s (execTmeComplete a1 x) := by
  unfold execTmeComplete
  extract_lets v1 v2 v3
  refine .next ?_
  split
  · exact h
  · refine .ite h ?_
    extract_lets v4 v5 v6 v7 v8
    have hv6 : Keeps m s v6 := h.freeStaged
    have hv8 : Keeps m s v8 := hv6.setTme
    exact hv8.modCtx.raiseEvt
theorem Keeps.setActDesc {m : Nat} {s x : State} (h : Keeps m s x) {a1 a2 a3} (hm : Sub 4 m := by exact .of ‹_› rfl) : Keeps m s (State.setActDesc x a1 a2 a3) := .foldl h fun y1 h1 _ => h1.setReg
theorem Keeps.refuseWin {m : Nat} {s x : State} (h : Keeps m s x) {a1 a2 a3} (hm : Sub 4194310 m := by exact .of ‹_› rfl) : Keeps m s (State.refuseWin x a1 a2 a3) := h.refuseLog.answer
theorem execTmHrDone_keeps {m : Nat} {s : State} {a1 a2} {x : State} (h : Keeps m s x) (hm : Sub 6291470 m := by exact .of ‹_› rfl) : OutP m s (execTmHrDone a1 a2 x) := by
  unfold execTmHrDone
  extract_lets v1
  refine .next (h.ungated (fun y1 h1 => (.ite h1.answer (.ite h1.bump.refuseWin h1.setWreg.answer))))
theorem Keeps.pushInto {m : Nat} {s x : State} (h : Keeps m s x) {a1 a2 a3 a4 a5} {a6 : State → State} (k6 : ∀ z1, Keeps m s z1 → Keeps m s (a6 z1)) (hm : Sub 6291462 m := by exact .of ‹_› rfl) : Keeps m s (State.pushInto x a1 a2 a3 a4 a5 a6) := .ite h.refuseReg (.ite h.answer (h.ungated (fun y1 h1 => (k6 _ h1))))
theorem Keeps.dmaPush {m : Nat} {s x : State} (h : Keeps m s x) {a1 a2} (hm : Sub 6815750 m := by exact .of ‹_› rfl) : Keeps m s (State.dmaPush x a1 a2) := by
  unfold State.dmaPush
  extract_lets v1
  exact h.pushInto (fun y1 h1 => (.ite h1.answer h1.setDmaQ.answer))
theorem Keeps.outRecord {m : Nat} {s x : State} (h : Keeps m s x) {a1 a2} (hm : Sub 576460784515681284 m := by exact .of ‹_› rfl) : Keeps m s (State.outRecord x a1 a2) := by
  unfold State.outRecord
  extract_lets v1 v2 v3
  exact .ite h h.devWrite.setFld.setFld
theorem Keeps.pass {m : Nat} {s x : State} (h : Keeps m s x) {a1 a2} (hm : Sub 576478376701725700 m := by exact .of ‹_› rfl) : Keeps m s (State.pass x a1 a2) := by
  unfold State.pass
  extract_lets v1 v2 v3
  have hv2 : Keeps m s v2 := h.bump64
  have hv3 : Keeps m s v3 := (.ite hv2 hv2.outRecord)
  exact hv3.setBrsEnt
theorem Keeps.brsBuffer {m : Nat} {s x : State} (h : Keeps m s x) {a1 a2} (hm : Sub 8196 m := by exact .of ‹_› rfl) : Keeps m s (State.brsBuffer x a1 a2).2 := by
  unfold State.brsBuffer
  refine ite_ind (P := fun r : Option Nat × State => Keeps m s r.2) ?_ ?_
  · extract_lets v1 v2
    have hv1 : Keeps m s v1.2 := h.poolGrant
    dsimp -zeta only
    exact hv1.setPool
  · dsimp -zeta only
    exact h.bumpFld
theorem Keeps.obtain {m : Nat} {s x : State} (h : Keeps m s x) {a1 a2} (hm : Sub 17592186052612 m := by exact .of ‹_› rfl) : Keeps m s (State.obtain x a1 a2).2 := by
  induction a2 generalizing x a1 with
  | zero =>
    unfold State.obtain
    exact h.brsBuffer
  | succ n ih =>
    unfold State.obtain
    extract_lets v1
    have hv1 : Keeps m s v1.2 := h.brsBuffer
    split
    · exact hv1
    · split
      · exact hv1
      · apply ih
        exact hv1.dropBlock.bump
theorem Keeps.tryReload {m : Nat} {s x : State} (h : Keeps m s x) {a1} (hm : Sub 17592186052612 m := by exact .of ‹_› rfl) : Keeps m s (State.tryReload x a1) := by
  unfold State.tryReload
  extract_lets v1 v2 v3 v4 v5
  have hv5 : Keeps m s v5 := by
    unfold v5
    refine .foldl h fun y1 h1 a2 => ?_
    extract_lets v6 v7
    have hv6 : Keeps m s v6.2 := h1.obtain
    split
    · extract_lets v8 v9
      have hv8 : Keeps m s v8 := hv6.setBrsBlk
      exact hv8.set_brs
    · exact hv6
  exact .ite h (.ite hv5.setBrsEnt hv5.setBrsEnt)
theorem Keeps.writeTable {m : Nat} {s x : State} (h : Keeps m s x) {a1 a2} (hm : Sub 576460784515681284 m := by exact .of ‹_› rfl) : Keeps m s (State.writeTable x a1 a2) := by
  unfold State.writeTable
  extract_lets v1
  split
  · exact h
  · exact h.devWrite
theorem Keeps.addBlock {m : Nat} {s x : State} (h : Keeps m s x) {a1 a2} (hm : Sub 576478376701725700 m := by exact .of ‹_› rfl) : Keeps m s (State.addBlock x a1 a2) := by
  unfold State.addBlock
  extract_lets v1 v2 v3 v4 v5
  have hv3 : Keeps m s v3 := h.setBrsBlk
  have hv4 : Keeps m s v4 := hv3.setFld
  have hv5 : Keeps m s v5 := hv4.setBrsEnt
  exact hv5.writeTable
theorem Keeps.startSpill {m : Nat} {s x : State} (h : Keeps m s x) {a1} (hm : Sub 17592186052612 m := by exact .of ‹_› rfl) : Keeps m s (State.startSpill x a1) := by
  unfold State.startSpill
  extract_lets v1 v2
  have hv2 : Keeps m s v2 := by
    unfold v2
    refine .foldl h fun y1 h1 a2 => ?_
    extract_lets v3 v4
    have hv3 : Keeps m s v3.2 := h1.brsBuffer
    split
    · extract_lets v5 v6
      have hv5 : Keeps m s v5 := hv3.setBrsBlk
      exact hv5.set_brs
    · exact hv3
  exact hv2.setBrsEnt
theorem Keeps.spillFor {m : Nat} {s x : State} (h : Keeps m s x) {a1 a2} (hm : Sub 17592186052612 m := by exact .of ‹_› rfl) : Keeps m s (State.spillFor x a1 a2) := by
  induction a2 generalizing x a1 with
  | nil =>
    unfold State.spillFor
    exact h
  | cons hd tl ih =>
    unfold State.spillFor
    exact .ite h (by apply ih; exact h.startSpill)
theorem Keeps.room {m : Nat} {s x : State} (h : Keeps m s x) {a1 a2 a3 a4} (hm : Sub 576478376701733892 m := by exact .of ‹_› rfl) : Keeps m s (State.room x a1 a2 a3 a4).2 := by
  induction a4 generalizing x a1 a2 a3 with
  | zero =>
    unfold State.room
    dsimp -zeta only
    exact h
  | succ n ih =>
    unfold State.room
    extract_lets v1 v2 v3
    have hv3 : Keeps m s v3.2 := h.obtain
    refine ite_ind (P := fun r : Bool × State => Keeps m s r.2) ?_ ?_
    · dsimp -zeta only
      exact h
    · split
      · apply ih
        exact hv3.addBlock
      · dsimp -zeta only
        exact .ite hv3 hv3.spillFor
theorem Build_add_keeps {m : Nat} {s : State} {a1} (k1 : Keeps m s a1.s) {a2 a3 a4 a5} (hm : Sub 17867063951364 m := by exact .of ‹_› rfl) : Keeps m s (Build.add a1 a2 a3 a4 a5).s := by
  unfold Build.add
  extract_lets v1 v2 v3 v4 v5 v6 v7
  have hv1 : Keeps m s v1 := k1
  have hv5 : Keeps m s v5 := (.foldl hv1 fun y1 h1 _ => h1.set_epochs)
  have hv6 : Keeps m s v6 := hv5.setFld
  dsimp -zeta only
  exact hv6.setBrsEnt
theorem Build_prefill_keeps {m : Nat} {s : State} {a1 a2} (k2 : Keeps m s a2.s) {a3} (hm : Sub 576478651579640836 m := by exact .of ‹_› rfl) : Keeps m s (Build.prefill a1 a2 a3).s := by
  unfold Build.prefill
  extract_lets v1 v2 v3 v4 v5
  have hv1 : Keeps m s v1 := k2
  have hv5 : Keeps m s v5.2 := hv1.room
  refine ite_ind (P := fun r : Build => Keeps m s r.s) ?_ (ite_ind (P := fun r : Build => Keeps m s r.s) ?_ (ite_ind (P := fun r : Build => Keeps m s r.s) ?_ (ite_ind (P := fun r : Build => Keeps m s r.s) (Build_add_keeps hv5) ?_)))
  · dsimp -zeta only
    exact hv1.tryReload.pass
  · dsimp -zeta only
    exact hv1.pass
  · dsimp -zeta only
    exact hv1.pass
  · dsimp -zeta only
    exact hv5.pass
theorem Keeps.noticePump {m : Nat} {s x : State} (h : Keeps m s x) {a1 a2} (hm : Sub 54043195528445952 m := by exact .of ‹_› rfl) : Keeps m s (State.noticePump x a1 a2) := by
  induction a2 generalizing x a1 with
  | zero =>
    unfold State.noticePump
    exact h
  | succ n ih =>
    unfold State.noticePump
    split
    · exact h
    · extract_lets v1
      exact .ite (by apply ih; exact h.set_notices.setChan) h
theorem execNoticeSend_keeps {m : Nat} {s : State} {a1} {x : State} (h : Keeps m s x) (hm : Sub 54043195528445952 m := by exact .of ‹_› rfl) : OutP m s (execNoticeSend a1 x) := by
  unfold execNoticeSend
  refine .next h.noticePump
theorem Keeps.cardSwapWrite {m : Nat} {s x : State} (h : Keeps m s x) {a1 a2} (hm : Sub 4194310 m := by exact .of ‹_› rfl) : Keeps m s (State.cardSwapWrite x a1 a2) := by
  unfold State.cardSwapWrite
  extract_lets v1 v2 v3 v4
  exact .ite h.refuseReg h.setReg.answer
theorem execRasCardSwapArm_keeps {m : Nat} {s : State} {a1 a2 a3 a4} {x : State} (h : Keeps m s x) (hm : Sub 13631502 m := by exact .of ‹_› rfl) : OutP m s (execRasCardSwapArm a1 a2 a3 a4 x) := by
  unfold execRasCardSwapArm
  refine .next (h.mcOnly (fun y1 h1 => h1.cardSwapWrite))
theorem execFhMaskUnmute_keeps {m : Nat} {s : State} {a1 a2 a3} {x : State} (h : Keeps m s x) (hm : Sub 2251799823122446 m := by exact .of ‹_› rfl) : OutP m s (execFhMaskUnmute a1 a2 a3 x) := by
  unfold execFhMaskUnmute
  refine .next (h.mcOnly (fun y1 h1 => (.ite h1.set_maskRun.setFld.answer h1.answer)))
theorem Keeps.softRepair {m : Nat} {s x : State} (h : Keeps m s x) {a1 a2} (hm : Sub 18446744105921806340 m := by exact .of ‹_› rfl) : Keeps m s (State.softRepair x a1 a2) := .ite h.countErr (.ite h h.set_repairs)
theorem execRevokePeer_keeps {m : Nat} {s : State} {a1 a2} {x : State} (h : Keeps m s x) (hm : Sub 4194310 m := by exact .of ‹_› rfl) : OutP m s (execRevokePeer a1 a2 x) := by
  unfold execRevokePeer
  extract_lets v1 v2
  refine .next (h.fromInst (fun y1 h1 => (.ite h1.codeState h1.setReg.answer)))
theorem Keeps.showFuses {m : Nat} {s x : State} (h : Keeps m s x) (hm : Sub 4 m := by exact .of ‹_› rfl) : Keeps m s (State.showFuses x) := by
  unfold State.showFuses
  extract_lets v1 v2 v3
  have hv2 : Keeps m s v2 := h.setReg.setReg.setReg
  have hv3 : Keeps m s v3 := hv2.setReg
  exact .foldl hv3 fun y1 h1 _ => h1.setReg
theorem Keeps.chipReset {m : Nat} {s x : State} (h : Keeps m s x) (hm : Sub 151115727451828646838271 m := by exact .of ‹_› rfl) : Keeps m s (State.chipReset x) := by
  unfold State.chipReset
  extract_lets y
  have hy : Keeps m s y := h.cutFlash
  refine Keeps.showFuses (hy.part hm rfl ⟨rfl, rfl, Nat.le_refl _, fun i => ⟨rfl, rfl, i.3⟩⟩ fun g hg => ?_)
  cases g <;> exact nomatch hg

theorem execRstNAssert_keeps {m : Nat} {s x : State} (h : Keeps m s x) (hm : Sub 151115727451828646838271 m := by exact .of ‹_› rfl) : OutP m s (execRstNAssert x) := by
  unfold execRstNAssert
  refine .next h.chipReset
theorem Keeps.codeViolation {m : Nat} {s x : State} (h : Keeps m s x) {a1 a2 a3} (hm : Sub 9437198 m := by exact .of ‹_› rfl) : Keeps m s (State.codeViolation x a1 a2 a3) := h.charge.answer
theorem execPartCmd_keeps {m : Nat} {s : State} {a1 a2 a3 a4} {x : State} (h : Keeps m s x) (hm : Sub 4094353494874127375 m := by exact .of ‹_› rfl) : OutP m s (execPartCmd a1 a2 a3 a4 x) := by
  unfold execPartCmd
  extract_lets v1 v2
  refine .next (h.fromInst (fun y1 h1 => (.ite h1.codeViolation (.ite h1.codeState h1.partCommand))))
theorem execGetDigests_keeps {m : Nat} {s : State} {a1} {x : State} (h : Keeps m s x) (hm : Sub 2 m := by exact .of ‹_› rfl) : OutP m s (execGetDigests a1 x) := by
  unfold execGetDigests
  refine .next (h.onAgreed (fun y1 h1 a2 => h1.spdmReply))
theorem Keeps.resetRegs {m : Nat} {s x : State} (h : Keeps m s x) {a1 a2} (hm : Sub 4 m := by exact .of ‹_› rfl) : Keeps m s (State.resetRegs x a1 a2) :=
  h.part hm rfl (later_of_regs rfl rfl rfl (regsWf_filter _ 0 _)) fun g hg => by cases g <;> first | rfl | exact nomatch hg

theorem Keeps.coreLost {m : Nat} {s x : State} (h : Keeps m s x) {a1} (hm : Sub 1028 m := by exact .of ‹_› rfl) : Keeps m s (State.coreLost x a1) := by
  unfold State.coreLost
  extract_lets v1 v2 v3 v4
  have hv4 : Keeps m s v4 := h.resetRegs.setReg
  exact hv4.setCore
theorem Keeps.hbmLost {m : Nat} {s x : State} (h : Keeps m s x) {a1} (hm : Sub 2048 m := by exact .of ‹_› rfl) : Keeps m s (State.hbmLost x a1) :=
  h.part hm rfl (later_of_dev rfl rfl rfl fun d => Mem.wf_filter d _ _) fun g hg => by cases g <;> first | rfl | exact nomatch hg

theorem Keeps.portCause {m : Nat} {s x : State} (h : Keeps m s x) (hm : Sub 4 m := by exact .of ‹_› rfl) : Keeps m s (State.portCause x) := by
  unfold State.portCause
  refine .ite h ?_
  extract_lets v1
  have hv1 : Keeps m s v1 := h.setFld
  exact .ite hv1.setFld.event hv1
theorem Keeps.linkLost {m : Nat} {s x : State} (h : Keeps m s x) {a1} (hm : Sub 35184372088836 m := by exact .of ‹_› rfl) : Keeps m s (State.linkLost x a1) := h.resetRegs.setPort.setFld
theorem Keeps.domLost {m : Nat} {s x : State} (h : Keeps m s x) {a1} (hm : Sub 578184786535779332 m := by exact .of ‹_› rfl) : Keeps m s (State.domLost x a1) := by
  unfold State.domLost
  refine .ite ?_ (.ite h.hbmLost (.ite (Keeps.portCause (.foldl h fun y1 h1 _ => h1.linkLost)) (.ite (Keeps.portCause (.foldl h fun y1 h1 _ => h1.linkLost)) (.ite h.devZero (.ite ?_ h.resetRegs)))))
  · extract_lets v1
    have hv1 : Keeps m s v1 := (.foldl h fun y1 h1 _ => h1.devZero.setFld)
    exact .foldl hv1 fun y1 h1 _ => h1.coreLost
  · extract_lets v1 v2
    have hv2 : Keeps m s v2 := by
      unfold v2
      refine Keeps.resetRegs ?_
      exact (Keeps.part h (.of hm (a := 1688849860263936) rfl) rfl (later_of rfl rfl rfl rfl) fun g hg => by cases g <;> first | rfl | exact nomatch hg)
    exact hv2.setReg.setFld.envelopeSync
theorem Keeps.copyScratch {m : Nat} {s x : State} (h : Keeps m s x) {a1 a2 a3} (hm : Sub 1024 m := by exact .of ‹_› rfl) : Keeps m s (State.copyScratch x a1 a2 a3) := by
  unfold State.copyScratch
  extract_lets v1 v2 v3 v4 v5 v6 v7
  exact h.setCore
theorem Keeps.dropRot {m : Nat} {s x : State} (h : Keeps m s x) {a1} (hm : Sub 512 m := by exact .of ‹_› rfl) : Keeps m s (State.dropRot x a1) := h.set_rots
theorem Keeps.rotHand {m : Nat} {s x : State} (h : Keeps m s x) {a1 a2} (hm : Sub 73786976294838208068 m := by exact .of ‹_› rfl) : Keeps m s (State.rotHand x a1 a2) := by
  unfold State.rotHand
  split
  · exact h
  · extract_lets v1 v2 v3 v4 v5 v6 v7 v8 v9
    have hv1 : Keeps m s v1 := h.copyScratch
    have hv2 : Keeps m s v2 := by
      unfold v2
      split
      · exact hv1.setFld
      · exact hv1
    have hv4 : Keeps m s v4 := hv2.set_map
    have hv6 : Keeps m s v6 := hv4.setCore
    have hv7 : Keeps m s v7 := hv6.setFld
    have hv8 : Keeps m s v8 := hv7.set_testing
    have hv9 : Keeps m s v9 := hv8.setFld.dropRot
    exact .ite hv9.setFld.event hv2.set_rots
theorem Keeps.rotElastic {m : Nat} {s x : State} (h : Keeps m s x) {a1} (hm : Sub 73786976294838208068 m := by exact .of ‹_› rfl) : Keeps m s (State.rotElastic x a1) := by
  unfold State.rotElastic
  split
  · exact h
  · extract_lets v1
    have hv1 : Keeps m s v1 := h.rotHand
    exact .ite hv1.rotHand hv1
theorem Keeps.applyChange {m : Nat} {s x : State} (h : Keeps m s x) {a1 a2} (hm : Sub 281474976711684 m := by exact .of ‹_› rfl) : Keeps m s (State.applyChange x a1 a2) := by
  unfold State.applyChange
  extract_lets v1 v2 v3 v4
  have hv1 : Keeps m s v1 := h.set_grpPend
  have hv2 : Keeps m s v2 := hv1.setFld
  exact .ite hv2 hv2.setCore
theorem Keeps.dueChanges {m : Nat} {s x : State} (h : Keeps m s x) {a1} (hm : Sub 281474976711684 m := by exact .of ‹_› rfl) : Keeps m s (State.dueChanges x a1) := by
  unfold State.dueChanges
  refine .foldl h fun y1 h1 a2 => ?_
  split
  · exact .ite h1.applyChange h1
  · exact h1
theorem execNegotiateAlgorithms_keeps {m : Nat} {s : State} {a1 a2} {x : State} (h : Keeps m s x) (hm : Sub 268435458 m := by exact .of ‹_› rfl) : OutP m s (execNegotiateAlgorithms a1 a2 x) := by
  unfold execNegotiateAlgorithms
  refine .next (h.onFn (fun y1 h1 a3 => (.ite h1.spdmError (.ite h1.spdmError h1.setSpdm.spdmReply))))
theorem Keeps.pfRead {m : Nat} {s x : State} (h : Keeps m s x) {a1 a2} (hm : Sub 2 m := by exact .of ‹_› rfl) : Keeps m s (State.pfRead x a1 a2) := .ite h.answer h.answer
theorem Keeps.winViolation {m : Nat} {s x : State} (h : Keeps m s x) {a1 a2 a3} (hm : Sub 9437198 m := by exact .of ‹_› rfl) : Keeps m s (State.winViolation x a1 a2 a3) := h.charge.answer
theorem Keeps.mbxHostRead {m : Nat} {s x : State} (h : Keeps m s x) {a1 a2 a3} (hm : Sub 450359994949305350 m := by exact .of ‹_› rfl) : Keeps m s (State.mbxHostRead x a1 a2 a3) := by
  unfold State.mbxHostRead
  extract_lets v1 v2 v3 v4
  have hv2 : Keeps m s v2.2 := h.mbxRead
  have hv4 : Keeps m s v4 := hv2
  exact hv4.set_reply
theorem Keeps.badBar {m : Nat} {s x : State} (h : Keeps m s x) {a1} (hm : Sub 6 m := by exact .of ‹_› rfl) : Keeps m s (State.badBar x a1) := h.bump.answer
theorem Keeps.mirrorRead {m : Nat} {s x : State} (h : Keeps m s x) {a1 a2} (hm : Sub 11534350 m := by exact .of ‹_› rfl) : Keeps m s (State.mirrorRead x a1 a2).2 := by
  unfold State.mirrorRead
  extract_lets v1 v2
  refine ite_ind (P := fun r : Nat × State => Keeps m s r.2) ?_ (ite_ind (P := fun r : Nat × State => Keeps m s r.2) ?_ ?_)
  · dsimp -zeta only
    exact h.winViolation
  · dsimp -zeta only
    exact h.gatedLog.answer
  · dsimp -zeta only
    exact h.answer
theorem Keeps.winRead {m : Nat} {s x : State} (h : Keeps m s x) {a1 a2} (hm : Sub 11534350 m := by exact .of ‹_› rfl) : Keeps m s (State.winRead x a1 a2).2 := by
  unfold State.winRead
  refine ite_ind (P := fun r : Nat × State => Keeps m s r.2) ?_ (ite_ind (P := fun r : Nat × State => Keeps m s r.2) ?_ (ite_ind (P := fun r : Nat × State => Keeps m s r.2) ?_ (ite_ind (P := fun r : Nat × State => Keeps m s r.2) ?_ (ite_ind (P := fun r : Nat × State => Keeps m s r.2) ?_ (ite_ind (P := fun r : Nat × State => Keeps m s r.2) ?_ (ite_ind (P := fun r : Nat × State => Keeps m s r.2) ?_ (ite_ind (P := fun r : Nat × State => Keeps m s r.2) ?_ (ite_ind (P := fun r : Nat × State => Keeps m s r.2) ?_ (ite_ind (P := fun r : Nat × State => Keeps m s r.2) ?_ (ite_ind (P := fun r : Nat × State => Keeps m s r.2) ?_ (ite_ind (P := fun r : Nat × State => Keeps m s r.2) (ite_ind (P := fun r : Nat × State => Keeps m s r.2) ?_ ?_) (ite_ind (P := fun r : Nat × State => Keeps m s r.2) (ite_ind (P := fun r : Nat × State => Keeps m s r.2) ?_ ?_) (ite_ind (P := fun r : Nat × State => Keeps m s r.2) ?_ (ite_ind (P := fun r : Nat × State => Keeps m s r.2) h.mirrorRead ?_))))))))))))))
  · dsimp -zeta only
    exact h.winViolation
  · dsimp -zeta only
    exact h.setWreg.answer
  · dsimp -zeta only
    exact h.answer
  · dsimp -zeta only
    exact h.answer
  · dsimp -zeta only
    exact h.answer
  · dsimp -zeta only
    exact h.setWreg.answer
  · dsimp -zeta only
    exact h.answer
  · dsimp -zeta only
    exact h.setWreg.answer
  · dsimp -zeta only
    exact h.answer
  · dsimp -zeta only
    exact h.setWreg.answer
  · dsimp -zeta only
    exact h.answer
  · dsimp -zeta only
    exact h.gatedLog.answer
  · dsimp -zeta only
    exact h.answer
  · dsimp -zeta only
    exact h.gatedLog.answer
  · dsimp -zeta only
    exact h.answer
  · dsimp -zeta only
    exact h.answer
  · dsimp -zeta only
    exact h.answer
theorem Keeps.winReadMany {m : Nat} {s x : State} (h : Keeps m s x) {a1 a2 a3} (hm : Sub 11534350 m := by exact .of ‹_› rfl) : Keeps m s (State.winReadMany x a1 a2 a3).2 := by
  induction a3 generalizing x a1 a2 with
  | zero =>
    unfold State.winReadMany
    dsimp -zeta only
    exact h
  | succ n ih =>
    unfold State.winReadMany
    extract_lets v1 v2
    have hv1 : Keeps m s v1.2 := h.winRead
    have hv2 : Keeps m s v2.2 := (by apply ih; exact hv1)
    exact hv2
theorem Keeps.bar2Inst {m : Nat} {s x : State} (h : Keeps m s x) {a1 a2 a3 a4 a5 a6} (hm : Sub 450359994960839694 m := by exact .of ‹_› rfl) : Keeps m s (State.bar2Inst x a1 a2 a3 a4 a5 a6) := by
  unfold State.bar2Inst
  extract_lets v1 v2 v3 v4 v5
  have hv3 : Keeps m s v3.2 := h.winReadMany
  have hv4 : Keeps m s v4 := hv3
  exact .ite h.winViolation (.ite h.answer (.ite (.ite h.mbxHostRead h.badBar) (.ite h.badBar hv4.set_reply)))
theorem execBar2Read_keeps {m : Nat} {s : State} {a1 a2 a3 a4 a5} {x : State} (h : Keeps m s x) (hm : Sub 450359994960839694 m := by exact .of ‹_› rfl) : OutP m s (execBar2Read a1 a2 a3 a4 a5 x) := by
  unfold execBar2Read
  refine .next (.ite h (.ite h.pfRead ?_))
  split
  · exact h.bar2Inst
  · exact h
theorem Keeps.rxMc {m : Nat} {s x : State} (h : Keeps m s x) {a1 a2 a3} (hm : Sub 4503599627370496 m := by exact .of ‹_› rfl) : Keeps m s (State.rxMc x a1 a2 a3) := h.set_tm
theorem execTmHrSizeWrite_keeps {m : Nat} {s : State} {a1 a2} {x : State} (h : Keeps m s x) (hm : Sub 6291470 m := by exact .of ‹_› rfl) : OutP m s (execTmHrSizeWrite a1 a2 x) := by
  unfold execTmHrSizeWrite
  extract_lets v1
  refine .next (h.ungated (fun y1 h1 => (.ite h1.bump.refuseWin (.ite h1.answer h1.setWreg.setWreg.answer))))
theorem Keeps.loseRange {m : Nat} {s x : State} (h : Keeps m s x) {a1} (hm : Sub 576460752303423489 m := by exact .of ‹_› rfl) : Keeps m s (State.loseRange x a1) := by
  unfold State.loseRange
  split
  · exact h.lose
  · exact h
theorem Keeps.setMeas {m : Nat} {s x : State} (h : Keeps m s x) {a1 a2} (hm : Sub 4 m := by exact .of ‹_› rfl) : Keeps m s (State.setMeas x a1 a2) := .foldl h fun y1 h1 _ => h1.setReg
theorem Keeps.cfgLock {m : Nat} {s x : State} (h : Keeps m s x) {a1} (hm : Sub 4194310 m := by exact .of ‹_› rfl) : Keeps m s (State.cfgLock x a1) := by
  unfold State.cfgLock
  refine .ite h.answer (.ite h.answer (.ite h.refuseReg ?_))
  extract_lets v1
  exact h.setFld.setMeas.setFld.answer
theorem Keeps.tryLeaf {m : Nat} {s x : State} (h : Keeps m s x) {a1 a2 a3 a4 a5 a6} (hm : Sub 4 m := by exact .of ‹_› rfl) : Keeps m s (State.tryLeaf x a1 a2 a3 a4 a5 a6).2 := by
  unfold State.tryLeaf
  dsimp -zeta only
  exact .ite h.noteKeys h
theorem Keeps.walkSeen {m : Nat} {s x : State} (h : Keeps m s x) {a1 a2} (hm : Sub 32212290564 m := by exact .of ‹_› rfl) : Keeps m s (State.walkSeen x a1 a2) := by
  unfold State.walkSeen
  extract_lets v1
  have hv1 : Keeps m s v1 := (.foldl h fun y1 h1 _ => h1.devChecked)
  exact hv1.set_wcache
theorem Keeps.walkMalformed {m : Nat} {s x : State} (h : Keeps m s x) {a1 a2} (hm : Sub 4 m := by exact .of ‹_› rfl) : Keeps m s (State.walkMalformed x a1 a2) := .ite h.bump h
theorem Keeps.hubWalk {m : Nat} {s x : State} (h : Keeps m s x) {a1 a2 a3} (hm : Sub 32212290564 m := by exact .of ‹_› rfl) : Keeps m s (State.hubWalk x a1 a2 a3).2 := by
  unfold State.hubWalk
  extract_lets v1
  have hv1 : Keeps m s v1 := h.bump64
  split
  · exact hv1.walkSeen.tryLeaf
  · dsimp -zeta only
    exact hv1.walkSeen.walkMalformed
theorem Keeps.tlbUsed {m : Nat} {s x : State} (h : Keeps m s x) {a1} (hm : Sub 16384 m := by exact .of ‹_› rfl) : Keeps m s (State.tlbUsed x a1) := .ite h.set_tlb h
theorem Keeps.tlbInsert {m : Nat} {s x : State} (h : Keeps m s x) {a1} (hm : Sub 16384 m := by exact .of ‹_› rfl) : Keeps m s (State.tlbInsert x a1) := by
  unfold State.tlbInsert
  extract_lets v1 v2 v3
  exact h.set_tlb
theorem Keeps.startWalk {m : Nat} {s x : State} (h : Keeps m s x) {a1} (hm : Sub 65540 m := by exact .of ‹_› rfl) : Keeps m s (State.startWalk x a1) := by
  unfold State.startWalk
  refine .ite h ?_
  extract_lets v1
  have hv1 : Keeps m s v1 := h.bump64
  exact .ite hv1.set_walks hv1.set_walks
theorem Keeps.xlate {m : Nat} {s x : State} (h : Keeps m s x) {a1 a2 a3 a4 a5} (hm : Sub 32212503556 m := by exact .of ‹_› rfl) : Keeps m s (State.xlate x a1 a2 a3 a4 a5).2 := by
  unfold State.xlate
  refine ite_ind (P := fun r : XRes × State => Keeps m s r.2) ?_ (ite_ind (P := fun r : XRes × State => Keeps m s r.2) ?_ (ite_ind (P := fun r : XRes × State => Keeps m s r.2) h.hubWalk ?_))
  · dsimp -zeta only
    exact h
  · dsimp -zeta only
    exact h
  · split
    · exact h.tlbUsed.tryLeaf
    · split
      · dsimp -zeta only
        exact h.set_walkFaults
      · extract_lets v1
        have hv1 : Keeps m s v1 := by
          unfold v1
          split
          · exact h.bump64
          · exact h.bump64
          · exact h
        split
        · split
          · exact hv1.tlbInsert.tryLeaf
          · dsimp -zeta only
            exact hv1.bump64.startWalk
        · dsimp -zeta only
          exact hv1.startWalk
theorem Keeps.span {m : Nat} {s x : State} (h : Keeps m s x) {a1 a2 a3 a4 a5 a6 a7} (hm : Sub 32212503556 m := by exact .of ‹_› rfl) : Keeps m s (State.span x a1 a2 a3 a4 a5 a6 a7).2 := by
  induction a5 generalizing x a1 a2 a3 a4 a6 a7 with
  | zero =>
    unfold State.span
    dsimp -zeta only
    exact h
  | succ n ih =>
    unfold State.span
    refine ite_ind (P := fun r : Span × State => Keeps m s r.2) ?_ ?_
    · dsimp -zeta only
      exact h
    · extract_lets v1 v2 v3
      have hv2 : Keeps m s v2.2 := h.xlate
      have hv3 : Keeps m s v3.2 := (by apply ih; exact hv2)
      split
      · exact hv2
      · exact hv2
      · split
        · exact hv3
        · exact hv3
theorem execDeactivate_keeps {m : Nat} {s : State} {a1 a2} {x : State} (h : Keeps m s x) (hm : Sub 1125899918376974 m := by exact .of ‹_› rfl) : OutP m s (execDeactivate a1 a2 x) := by
  unfold execDeactivate
  extract_lets v1
  refine .next (h.mcOnly (fun y1 h1 => (h1.ungated (fun y2 h2 => (.ite h2.answer h2.setCellX.answer)))))
theorem Keeps.spanChecked {m : Nat} {s x : State} (h : Keeps m s x) {a1} (hm : Sub 32212257796 m := by exact .of ‹_› rfl) : Keeps m s (State.spanChecked x a1) := .foldl h fun y1 h1 _ => h1.devChecked
theorem Keeps.progNote {m : Nat} {s x : State} (h : Keeps m s x) {a1 a2 a3 a4 a5 a6} (hm : Sub 137438953478 m := by exact .of ‹_› rfl) : Keeps m s (State.progNote x a1 a2 a3 a4 a5 a6) := by
  unfold State.progNote
  extract_lets v1 v2
  exact h.set_progImages.setMeas5.answer
theorem Keeps.onGroup {m : Nat} {s x : State} (h : Keeps m s x) {a1 a2 a3} {a4 : State → State} (k4 : ∀ z1, Keeps m s z1 → Keeps m s (a4 z1)) (hm : Sub 13631502 m := by exact .of ‹_› rfl) : Keeps m s (State.onGroup x a1 a2 a3 a4) := .ite h.brsState (.ite h.brsWrongOwner (k4 _ h))
theorem Keeps.grpHold {m : Nat} {s x : State} (h : Keeps m s x) {a1 a2 a3} (hm : Sub 17592199675918 m := by exact .of ‹_› rfl) : Keeps m s (State.grpHold x a1 a2 a3) := by
  unfold State.grpHold
  refine h.onGroup (fun y1 h1 => ?_)
  extract_lets v1 v2
  exact .ite (.ite h1.setBrsGrp.answer h1.brsState) (.ite h1.setGrpState.setFld.answer h1.brsState)
theorem execGrpHold_keeps {m : Nat} {s : State} {a1 a2} {x : State} (h : Keeps m s x) (hm : Sub 450377587148981262 m := by exact .of ‹_› rfl) : OutP m s (execGrpHold a1 a2 x) := by
  unfold execGrpHold
  refine .next (h.brsRun (fun y1 h1 a3 => (.ite h1.brsState h1.grpHold)))
theorem Keeps.lnkCmd {m : Nat} {s x : State} (h : Keeps m s x) {a1 a2} {a3 : State → State} (k3 : ∀ z1, Keeps m s z1 → Keeps m s (a3 z1)) (hm : Sub 11534350 m := by exact .of ‹_› rfl) : Keeps m s (State.lnkCmd x a1 a2 a3) := h.mcOnly (fun y1 h1 => (h1.ungated (fun y2 h2 => (k3 _ h2))))
theorem Keeps.linkDown {m : Nat} {s x : State} (h : Keeps m s x) {a1} (hm : Sub 35184372088836 m := by exact .of ‹_› rfl) : Keeps m s (State.linkDown x a1) := by
  unfold State.linkDown
  extract_lets v1
  have hv1 : Keeps m s v1 := h.setLink.dropFlits
  exact hv1.setFld.bump
theorem Keeps.lnkRefuse {m : Nat} {s x : State} (h : Keeps m s x) {a1} (hm : Sub 4194310 m := by exact .of ‹_› rfl) : Keeps m s (State.lnkRefuse x a1) := h.refuseReg
theorem execRetrain_keeps {m : Nat} {s : State} {a1 a2} {x : State} (h : Keeps m s x) (hm : Sub 35184387817486 m := by exact .of ‹_› rfl) : OutP m s (execRetrain a1 a2 x) := by
  unfold execRetrain
  extract_lets v1
  refine .next (h.lnkCmd (fun y1 h1 => (.ite h1.linkDown.answer h1.lnkRefuse)))
theorem Keeps.scrUpset {m : Nat} {s x : State} (h : Keeps m s x) {a1 a2 a3} (hm : Sub 1024 m := by exact .of ‹_› rfl) : Keeps m s (State.scrUpset x a1 a2 a3) := by
  unfold State.scrUpset
  split
  · exact h
  · exact h.setCore
theorem Keeps.devUpset {m : Nat} {s x : State} (h : Keeps m s x) {a1 a2} (hm : Sub 3072 m := by exact .of ‹_› rfl) : Keeps m s (State.devUpset x a1 a2) := by
  unfold State.devUpset
  split
  · exact h
  · exact .ite h h.scrUpset
  · exact h
  · exact h
  · exact h.set_dev fun d => Mem.wf_upset d _ _

theorem Keeps.scrubFinds {m : Nat} {s x : State} (h : Keeps m s x) {a1 a2} (hm : Sub 3072 m := by exact .of ‹_› rfl) : Keeps m s (State.scrubFinds x a1 a2) := by
  unfold State.scrubFinds
  split
  · exact h.devUpset
  · exact h.devUpset
  · exact h
theorem execCmul_keeps {m : Nat} {s : State} {a1} {x : State} (h : Keeps m s x) (hm : Sub 32225887244 m := by exact .of ‹_› rfl) : OutP m s (execCmul a1 x) := by
  unfold execCmul
  refine .next (h.vceIssue (fun y1 h1 a2 => h1.vceOp))
theorem Keeps.laneRecord {m : Nat} {s x : State} (h : Keeps m s x) {a1 a2 a3} (hm : Sub 70368744177664 m := by exact .of ‹_› rfl) : Keeps m s (State.laneRecord x a1 a2 a3) := h.set_laneRecs
theorem Keeps.switchLane {m : Nat} {s x : State} (h : Keeps m s x) {a1 a2 a3} (hm : Sub 105553116266500 m := by exact .of ‹_› rfl) : Keeps m s (State.switchLane x a1 a2 a3) := by
  unfold State.switchLane
  extract_lets v1 v2 v3 v4 v5 v6 v7 v8 v9
  have hv1 : ∀ z1, Keeps m s z1 → ∀ z1c, Keeps m s (v1 z1 z1c) := by
    intro z1 hz1 z1c
    unfold v1
    exact hz1.setFld.laneRecord
  have hv2 : Keeps m s v2 := (hv1 _ h _)
  have hv3 : Keeps m s v3 := (.ite (hv1 _ hv2 _) hv2)
  have hv4 : Keeps m s v4 := (.ite hv3.setFld hv3)
  have hv7 : Keeps m s v7 := hv4.setPort
  have hv8 : Keeps m s v8 := hv7.setFld
  have hv9 : Keeps m s v9 := hv8.bumpFld.event
  exact hv9.setFld.errLog
theorem Keeps.cwControl {m : Nat} {s x : State} (h : Keeps m s x) {a1 a2} (hm : Sub 105553116266500 m := by exact .of ‹_› rfl) : Keeps m s (State.cwControl x a1 a2) := by
  unfold State.cwControl
  extract_lets v1 v2 v3
  have hv2 : Keeps m s v2 := by
    unfold v2
    refine .ite ?_ h
    split
    · exact h.switchLane
    · exact h
  exact .ite hv2.setPort hv2
theorem Keeps.refuseWrite {m : Nat} {s x : State} (h : Keeps m s x) {a1} (hm : Sub 4194310 m := by exact .of ‹_› rfl) : Keeps m s (State.refuseWrite x a1) := by
  unfold State.refuseWrite
  extract_lets v1
  have hv1 : Keeps m s v1 := by
    unfold v1
    split
    · exact h.bump
    · exact h.bump
    · exact h.bump
    · exact h.bump
    · exact h.bump
    · exact h
  exact hv1.refuseReg
theorem Build_decode_keeps {m : Nat} {s : State} {a1 a2} (k2 : Keeps m s a2.s) {a3} (hm : Sub 576478651579640836 m := by exact .of ‹_› rfl) : Keeps m s (Build.decode a1 a2 a3).s := by
  unfold Build.decode
  extract_lets v1 v2 v3 v4
  have hv1 : Keeps m s v1 := k2
  have hv4 : Keeps m s v4.2 := hv1.room
  refine ite_ind (P := fun r : Build => Keeps m s r.s) ?_ (ite_ind (P := fun r : Build => Keeps m s r.s) ?_ (ite_ind (P := fun r : Build => Keeps m s r.s) ?_ (ite_ind (P := fun r : Build => Keeps m s r.s) (Build_add_keeps hv4) ?_)))
  · dsimp -zeta only
    exact hv1.tryReload.pass
  · dsimp -zeta only
    exact hv1.pass
  · dsimp -zeta only
    exact hv1.pass
  · dsimp -zeta only
    exact hv4.pass
theorem Keeps.endTask {m : Nat} {s x : State} (h : Keeps m s x) {a1 a2 a3 a4 a5} (hm : Sub 1028 m := by exact .of ‹_› rfl) : Keeps m s (State.endTask x a1 a2 a3 a4 a5) := by
  unfold State.endTask
  extract_lets v1 v2 v3
  split
  · exact h
  · extract_lets v4
    have hv4 : Keeps m s v4 := h.setCtx
    exact .ite hv4.raiseEvt hv4
theorem Keeps.noteFault {m : Nat} {s x : State} (h : Keeps m s x) {a1 a2 a3 a4 a5 a6 a7} (hm : Sub 4 m := by exact .of ‹_› rfl) : Keeps m s (State.noteFault x a1 a2 a3 a4 a5 a6 a7) := .ite h h.setReg.setReg
theorem Keeps.threadFault {m : Nat} {s x : State} (h : Keeps m s x) {a1 a2 a3 a4 a5 a6 a7 a8 a9} (hm : Sub 42992652 m := by exact .of ‹_› rfl) : Keeps m s (State.threadFault x a1 a2 a3 a4 a5 a6 a7 a8 a9) := by
  unfold State.threadFault
  extract_lets v1 v2 v3 v4 v5
  have hv3 : Keeps m s v3 := (.ite h.charge h)
  have hv4 : Keeps m s v4 := (.ite hv3.taint hv3)
  have hv5 : Keeps m s v5 := hv4.noteFault
  exact hv5.endTask
theorem Keeps.issue {m : Nat} {s x : State} (h : Keeps m s x) {a1} {a2 : State → State} (k2 : ∀ z1, Keeps m s z1 → Keeps m s (a2 z1)) (hm : Sub 32255247372 m := by exact .of ‹_› rfl) : Keeps m s (State.issue x a1 a2) := by
  unfold State.issue
  extract_lets v1 v2 v3 v4
  have hv4 : Keeps m s v4.2 := h.fetchPm
  refine .ite h ?_
  split
  · exact h.endTask
  · exact .ite h.threadFault (.ite hv4.threadFault (.ite hv4.countErr.threadFault (k2 _ hv4.setThread)))
theorem Keeps.pushOrHold {m : Nat} {s x : State} (h : Keeps m s x) {a1 a2 a3 a4 a5} (hm : Sub 1024 m := by exact .of ‹_› rfl) : Keeps m s (State.pushOrHold x a1 a2 a3 a4 a5) := by
  unfold State.pushOrHold
  extract_lets v1 v2 v3
  exact .ite h.setCtx h.setThread
theorem Keeps.issueItem {m : Nat} {s x : State} (h : Keeps m s x) {a1 a2 a3 a4 a5} (hm : Sub 32255247372 m := by exact .of ‹_› rfl) : Keeps m s (State.issueItem x a1 a2 a3 a4 a5) := by
  unfold State.issueItem
  refine h.issue (fun y1 h1 => ?_)
  extract_lets v1 v2
  exact .ite h1.scrChecked.pushOrHold h1.threadFault
theorem execIssueMe_keeps {m : Nat} {s : State} {a1 a2 a3} {x : State} (h : Keeps m s x) (hm : Sub 32255247372 m := by exact .of ‹_› rfl) : OutP m s (execIssueMe a1 a2 a3 x) := by
  unfold execIssueMe
  refine .next h.issueItem
theorem Keeps.setPmStatus {m : Nat} {s x : State} (h : Keeps m s x) {a1 a2 a3 a4} (hm : Sub 4 m := by exact .of ‹_› rfl) : Keeps m s (State.setPmStatus x a1 a2 a3 a4) := h.setReg
theorem Keeps.pmEnd {m : Nat} {s x : State} (h : Keeps m s x) {a1 a2 a3} (hm : Sub 1028 m := by exact .of ‹_› rfl) : Keeps m s (State.pmEnd x a1 a2 a3) := h.setCore.setPmStatus
theorem execGrantPeer_keeps {m : Nat} {s : State} {a1 a2} {x : State} (h : Keeps m s x) (hm : Sub 4194310 m := by exact .of ‹_› rfl) : OutP m s (execGrantPeer a1 a2 x) := by
  unfold execGrantPeer
  extract_lets v1 v2 v3
  refine .next (h.fromInst (fun y1 h1 => (.ite h1.codeState ?_)))
  split
  · exact h1.answer
  · exact h1.setReg.answer
theorem Keeps.imgCommand {m : Nat} {s x : State} (h : Keeps m s x) {a1 a2} {a3 : State → State} (k3 : ∀ z1, Keeps m s z1 → Keeps m s (a3 z1)) (hm : Sub 13631502 m := by exact .of ‹_› rfl) : Keeps m s (State.imgCommand x a1 a2 a3) := h.fromInst (fun y1 h1 => (.ite h1.codeViolation (.ite h1.codeState (k3 _ h1))))
theorem Keeps.psStat {m : Nat} {s x : State} (h : Keeps m s x) (hm : Sub 4 m := by exact .of ‹_› rfl) : Keeps m s (State.psStat x) := by
  unfold State.psStat
  extract_lets v1 v2 v3 v4
  have hv3 : Keeps m s v3 := h.setFld.setFld
  have hv4 : Keeps m s v4 := hv3.setFld
  exact hv4.setFld.setFld
theorem Keeps.imgBusy {m : Nat} {s x : State} (h : Keeps m s x) {a1 a2} (hm : Sub 75557863725914323419140 m := by exact .of ‹_› rfl) : Keeps m s (State.imgBusy x a1 a2) := h.set_boot.setFld
theorem Keeps.imgDone {m : Nat} {s x : State} (h : Keeps m s x) {a1} (hm : Sub 75557863725914323419142 m := by exact .of ‹_› rfl) : Keeps m s (State.imgDone x a1) := h.set_boot.setFld.answer
theorem Keeps.imgRefuse {m : Nat} {s x : State} (h : Keeps m s x) {a1 a2} (hm : Sub 75557863725914327613446 m := by exact .of ‹_› rfl) : Keeps m s (State.imgRefuse x a1 a2) := h.codeState.imgDone
theorem execPsRestart_keeps {m : Nat} {s : State} {a1} {x : State} (h : Keeps m s x) (hm : Sub 75557863725914337050638 m := by exact .of ‹_› rfl) : OutP m s (execPsRestart a1 x) := by
  unfold execPsRestart
  extract_lets v1
  refine .next (h.imgCommand (fun y1 h1 => ?_))
  split
  · exact .ite h1.set_boot.imgBusy.psStat h1.imgRefuse
  · exact h1.imgRefuse
theorem execTrainTimeout_keeps {m : Nat} {s : State} {a1} {x : State} (h : Keeps m s x) (hm : Sub 35184372088836 m := by exact .of ‹_› rfl) : OutP m s (execTrainTimeout a1 x) := by
  unfold execTrainTimeout
  refine .next (.ite h.linkDown h)
theorem Keeps.patternFails {m : Nat} {s x : State} (h : Keeps m s x) {a1 a2 a3} (hm : Sub 17179869188 m := by exact .of ‹_› rfl) : Keeps m s (State.patternFails x a1 a2 a3) := .ite h.event.errLog.escalate h
theorem execWitnessSuiteEnd_keeps {m : Nat} {s : State} {a1 a2} {x : State} (h : Keeps m s x) (hm : Sub 516508834081047314436 m := by exact .of ‹_› rfl) : OutP m s (execWitnessSuiteEnd a1 a2 x) := by
  unfold execWitnessSuiteEnd
  extract_lets v1 v2 v3 v4 v5 v6 v7 v8 v9
  have hv4 : Keeps m s v4 := by
    unfold v4
    exact (Keeps.part h (.of hm (a := 442721857769029238784) rfl) rfl (later_of rfl rfl rfl rfl) fun g hg => by cases g <;> first | rfl | exact nomatch hg)
  have hv5 : Keeps m s v5 := hv4.setFld.bumpFld
  have hv6 : Keeps m s v6 := hv5.setFld
  have hv7 : Keeps m s v7 := hv5.bumpFld.event
  have hv8 : Keeps m s v8 := (.foldl hv7 fun y1 h1 _ => h1.setFld.patternFails)
  have hv9 : Keeps m s v9 := (.ite hv8.setFld hv8)
  refine .next (.ite h (.ite hv6.set_testing (.ite hv9 hv9.set_testing)))
theorem Keeps.setStream {m : Nat} {s x : State} (h : Keeps m s x) {a1 a2 a3} (hm : Sub 536870912 m := by exact .of ‹_› rfl) : Keeps m s (State.setStream x a1 a2 a3) := h.set_ide
theorem Keeps.keyStream {m : Nat} {s x : State} (h : Keeps m s x) {a1 a2} (hm : Sub 536870914 m := by exact .of ‹_› rfl) : Keeps m s (State.keyStream x a1 a2) := .ite h.spdmError h.setStream.spdmReply
theorem execVrsq_keeps {m : Nat} {s : State} {a1} {x : State} (h : Keeps m s x) (hm : Sub 32225887244 m := by exact .of ‹_› rfl) : OutP m s (execVrsq a1 x) := by
  unfold execVrsq
  refine .next (h.vceIssue (fun y1 h1 a2 => h1.vceOp))
theorem Keeps.glide {m : Nat} {s x : State} (h : Keeps m s x) {a1} (hm : Sub 4 m := by exact .of ‹_› rfl) : Keeps m s (State.glide x a1) := by
  unfold State.glide
  extract_lets v1 v2 v3 v4
  exact h.setFld.glideFlag
theorem Keeps.linkOff {m : Nat} {s x : State} (h : Keeps m s x) {a1} (hm : Sub 35218731828228 m := by exact .of ‹_› rfl) : Keeps m s (State.linkOff x a1) := by
  unfold State.linkOff
  extract_lets v1 v2
  have hv1 : Keeps m s v1 := h.dropFlits.rehashAll
  exact hv1.setPort.setLink
theorem Keeps.toRecovery {m : Nat} {s x : State} (h : Keeps m s x) {a1} (hm : Sub 4 m := by exact .of ‹_› rfl) : Keeps m s (State.toRecovery x a1) := .ite h.setLink h
theorem Keeps.replay {m : Nat} {s x : State} (h : Keeps m s x) {a1} (hm : Sub 35184372088836 m := by exact .of ‹_› rfl) : Keeps m s (State.replay x a1) := by
  unfold State.replay
  extract_lets v1 v2 v3
  have hv2 : Keeps m s v2 := h.bumpFld
  have hv3 : Keeps m s v3 := hv2.setPort
  exact .ite hv3.toRecovery hv3
theorem Keeps.setCeiling {m : Nat} {s x : State} (h : Keeps m s x) {a1 a2} (hm : Sub 4 m := by exact .of ‹_› rfl) : Keeps m s (State.setCeiling x a1 a2) := h.setFld.glideFlag
theorem Keeps.lowerIsland {m : Nat} {s x : State} (h : Keeps m s x) {a1} (hm : Sub 4 m := by exact .of ‹_› rfl) : Keeps m s (State.lowerIsland x a1) := h.setCeiling
theorem Keeps.rasRefuse {m : Nat} {s x : State} (h : Keeps m s x) (hm : Sub 4194310 m := by exact .of ‹_› rfl) : Keeps m s (State.rasRefuse x) := h.setReg.refuseReg
theorem Keeps.rasDone {m : Nat} {s x : State} (h : Keeps m s x) {a1} (hm : Sub 6 m := by exact .of ‹_› rfl) : Keeps m s (State.rasDone x a1) := h.setReg.answer
theorem Keeps.fenceHand {m : Nat} {s x : State} (h : Keeps m s x) {a1 a2} (hm : Sub 708 m := by exact .of ‹_› rfl) : Keeps m s (State.fenceHand x a1 a2) := by
  unfold State.fenceHand
  refine .ite h ?_
  split
  · extract_lets v1
    have hv1 : Keeps m s v1 := h.setFld.dropRot
    exact (Keeps.part hv1 (.of hm (a := 192) rfl) rfl (later_of rfl rfl rfl rfl) fun g hg => by cases g <;> first | rfl | exact nomatch hg)
  · exact h.set_handovers
theorem Keeps.fenceNote {m : Nat} {s x : State} (h : Keeps m s x) {a1 a2} (hm : Sub 68719476868 m := by exact .of ‹_› rfl) : Keeps m s (State.fenceNote x a1 a2) := by
  unfold State.fenceNote
  extract_lets v1 v2
  have hv1 : Keeps m s v1 := (.ite h h.errLog)
  have hv2 : Keeps m s v2 := hv1.event
  exact (Keeps.part hv2 (.of hm (a := 68719476864) rfl) rfl (later_of rfl rfl rfl rfl) fun g hg => by cases g <;> first | rfl | exact nomatch hg)
theorem Keeps.fenceStop {m : Nat} {s x : State} (h : Keeps m s x) {a1} (hm : Sub 33555460 m := by exact .of ‹_› rfl) : Keeps m s (State.fenceStop x a1) := by
  unfold State.fenceStop
  extract_lets v1 v2 v3
  have hv1 : Keeps m s v1 := h.taint.taint
  have hv2 : Keeps m s v2 := hv1.tqReset.tqReset
  exact hv2.setCore
theorem Keeps.fenceCore {m : Nat} {s x : State} (h : Keeps m s x) {a1 a2} (hm : Sub 68753032900 m := by exact .of ‹_› rfl) : Keeps m s (State.fenceCore x a1 a2) := by
  unfold State.fenceCore
  refine .ite h ?_
  extract_lets v1
  have hv1 : Keeps m s v1 := (.ite h.setFld.dropRot h)
  exact hv1.fenceStop.fenceNote.fenceHand
theorem Keeps.dropFence {m : Nat} {s x : State} (h : Keeps m s x) {a1} (hm : Sub 68719476742 m := by exact .of ‹_› rfl) : Keeps m s (State.dropFence x a1) := .ite h.set_fenceRecs.rasDone h.rasDone
theorem Keeps.nameRot {m : Nat} {s x : State} (h : Keeps m s x) {a1} (hm : Sub 4194822 m := by exact .of ‹_› rfl) : Keeps m s (State.nameRot x a1) := .ite h.set_rots.rasDone h.rasRefuse
theorem Keeps.repairCmd {m : Nat} {s x : State} (h : Keeps m s x) (hm : Sub 18446744073713745926 m := by exact .of ‹_› rfl) : Keeps m s (State.repairCmd x) := by
  unfold State.repairCmd
  extract_lets v1 v2
  have hv2 : ∀ z1, Keeps m s (v2 z1) := by
    intro z1
    unfold v2
    exact h.set_repairs.setReg.answer
  split
  · exact hv2 _
  · exact hv2 _
  · exact h.rasRefuse
theorem Keeps.rasCommand {m : Nat} {s x : State} (h : Keeps m s x) {a1} (hm : Sub 18446744142466778822 m := by exact .of ‹_› rfl) : Keeps m s (State.rasCommand x a1) := by
  unfold State.rasCommand
  extract_lets v1
  refine .ite h.rasRefuse ?_
  split
  · exact h.fenceCore.rasDone
  · exact h.dropFence
  · exact .ite h.rasRefuse h.nameRot
  · exact h.repairCmd
  · exact h.rasRefuse
theorem Keeps.rasWrite {m : Nat} {s x : State} (h : Keeps m s x) {a1 a2 a3 a4} (hm : Sub 18446744142476216014 m := by exact .of ‹_› rfl) : Keeps m s (State.rasWrite x a1 a2 a3 a4) := h.mcOnly (fun y1 h1 => h1.rasCommand)
theorem execRasRotate_keeps {m : Nat} {s : State} {a1 a2} {x : State} (h : Keeps m s x) (hm : Sub 18446744142476216014 m := by exact .of ‹_› rfl) : OutP m s (execRasRotate a1 a2 x) := by
  unfold execRasRotate
  refine .next h.rasWrite
theorem execCmaci_keeps {m : Nat} {s : State} {a1} {x : State} (h : Keeps m s x) (hm : Sub 32225887244 m := by exact .of ‹_› rfl) : OutP m s (execCmaci a1 x) := by
  unfold execCmaci
  refine .next (h.vceIssue (fun y1 h1 a2 => h1.vceOp))
theorem Keeps.memState {m : Nat} {s x : State} (h : Keeps m s x) {a1 a2} (hm : Sub 4194310 m := by exact .of ‹_› rfl) : Keeps m s (State.memState x a1 a2) := h.refuseLog.answer
theorem execPoolReturn_keeps {m : Nat} {s : State} {a1 a2 a3 a4} {x : State} (h : Keeps m s x) (hm : Sub 13639694 m := by exact .of ‹_› rfl) : OutP m s (execPoolReturn a1 a2 a3 a4 x) := by
  unfold execPoolReturn
  extract_lets v1 v2 v3 v4 v5
  refine .next (.ite h.memState ?_)
  split
  · exact h.memState
  · exact .ite h.poolGive.answer h.charge.answer
theorem execSpawn_keeps {m : Nat} {s : State} {a1 a2} {x : State} (h : Keeps m s x) (hm : Sub 32255247372 m := by exact .of ‹_› rfl) : OutP m s (execSpawn a1 a2 x) := by
  unfold execSpawn
  refine .next h.issueItem
theorem execImgActivate_keeps {m : Nat} {s : State} {a1 a2} {x : State} (h : Keeps m s x) (hm : Sub 75557863725914337050638 m := by exact .of ‹_› rfl) : OutP m s (execImgActivate a1 a2 x) := by
  unfold execImgActivate
  extract_lets v1 v2
  refine .next (h.imgCommand (fun y1 h1 => (.ite h1.imgRefuse h1.set_boot.imgBusy)))
theorem Keeps.telemetry {m : Nat} {s x : State} (h : Keeps m s x) {a1} (hm : Sub 4 m := by exact .of ‹_› rfl) : Keeps m s (State.telemetry x a1) := by
  unfold State.telemetry
  extract_lets v1 v2 v3
  have hv1 : Keeps m s v1 := by
    unfold v1
    refine .foldl h fun y1 h1 a2 => ?_
    extract_lets v4 v5
    exact h1.setFld.setFld
  have hv2 : Keeps m s v2 := (.foldl hv1 fun y1 h1 _ => h1.setFld.bump64)
  have hv3 : Keeps m s v3 := hv2.bump64
  exact hv3.setFld.bump64
theorem Keeps.capLower {m : Nat} {s x : State} (h : Keeps m s x) (hm : Sub 4 m := by exact .of ‹_› rfl) : Keeps m s (State.capLower x) := by
  unfold State.capLower
  refine .ite (.foldl h fun y1 h1 _ => h1.lowerIsland) ?_
  extract_lets v1
  exact .ite (.foldl h fun y1 h1 _ => h1.lowerIsland) (.ite h.setFld h.event.bump.setFld)
theorem Keeps.raiseIsland {m : Nat} {s x : State} (h : Keeps m s x) {a1} (hm : Sub 4 m := by exact .of ‹_› rfl) : Keeps m s (State.raiseIsland x a1) := h.setCeiling
theorem Keeps.capRaise {m : Nat} {s x : State} (h : Keeps m s x) (hm : Sub 4 m := by exact .of ‹_› rfl) : Keeps m s (State.capRaise x) := .ite h.setFld (.ite (.foldl h fun y1 h1 _ => h1.raiseIsland) (.foldl h fun y1 h1 _ => h1.raiseIsland))
theorem Keeps.partPower {m : Nat} {s x : State} (h : Keeps m s x) {a1 a2} (hm : Sub 4 m := by exact .of ‹_› rfl) : Keeps m s (State.partPower x a1 a2) := by
  unfold State.partPower
  refine .ite h.setReg ?_
  extract_lets v1 v2
  have hv2 : Keeps m s v2 := h.setFld
  exact .ite hv2.event.bump hv2
theorem execCapPeriod_keeps {m : Nat} {s : State} {a1} {x : State} (h : Keeps m s x) (hm : Sub 2361183241434822606852 m := by exact .of ‹_› rfl) : OutP m s (execCapPeriod a1 x) := by
  unfold execCapPeriod
  extract_lets v1 v2 v3 v4 v5 v6 v7 v8 v9 v10 v11 v12 v13
  have hv1 : Keeps m s v1 := h.telemetry
  have hv10 : Keeps m s v10 := (.ite hv1.event hv1)
  have hv11 : Keeps m s v11 := (.ite hv10.set_trip.event hv10)
  have hv12 : Keeps m s v12 := hv11.setFld.setFld
  have hv13 : Keeps m s v13 := (.ite hv12.capLower (.ite hv12.capRaise hv12))
  refine .next (.foldl hv13 fun y1 h1 _ => h1.partPower)
theorem Keeps.retireFec {m : Nat} {s x : State} (h : Keeps m s x) {a1} (hm : Sub 4 m := by exact .of ‹_› rfl) : Keeps m s (State.retireFec x a1) := by
  unfold State.retireFec
  extract_lets v1
  have hv1 : Keeps m s v1 := h.setFld.setFld
  exact hv1.event.degrade.envelopeSync
theorem execLoop_keeps {m : Nat} {s : State} {a1} {x : State} (h : Keeps m s x) (hm : Sub 32225887244 m := by exact .of ‹_› rfl) : OutP m s (execLoop a1 x) := by
  unfold execLoop
  refine .next (h.vceIssue (fun y1 h1 a2 => ?_))
  extract_lets v1
  exact .ite h1.vceStop (.ite h1.vceCtl h1.vceCtl)
theorem Keeps.meDrainRow {m : Nat} {s x : State} (h : Keeps m s x) {a1 a2 a3 a4} (hm : Sub 32212255748 m := by exact .of ‹_› rfl) : Keeps m s (State.meDrainRow x a1 a2 a3 a4).1 := by
  unfold State.meDrainRow
  extract_lets v1 v2 v3 v4 v5 v6 v7
  have hv7 : Keeps m s v7 := h.scrWrite
  dsimp -zeta only
  exact .foldl hv7 fun y1 h1 _ => h1.scrPoisonSet
theorem Keeps.startArb {m : Nat} {s x : State} (h : Keeps m s x) {a1} (hm : Sub 35184372088836 m := by exact .of ‹_› rfl) : Keeps m s (State.startArb x a1) := by
  unfold State.startArb
  extract_lets v1 v2
  have hv2 : Keeps m s v2 := h.setPort
  exact hv2.setLink.bumpFld
theorem Keeps.requestSwap {m : Nat} {s x : State} (h : Keeps m s x) {a1 a2} (hm : Sub 35218731827204 m := by exact .of ‹_› rfl) : Keeps m s (State.requestSwap x a1 a2) := by
  unfold State.requestSwap
  extract_lets v1 v2
  have hv2 : Keeps m s v2 := h.setPort
  exact hv2.setFld.lnkPump
theorem execSwapCommand_keeps {m : Nat} {s : State} {a1 a2 a3} {x : State} (h : Keeps m s x) (hm : Sub 35218747555854 m := by exact .of ‹_› rfl) : OutP m s (execSwapCommand a1 a2 a3 x) := by
  unfold execSwapCommand
  extract_lets v1
  refine .next (h.lnkCmd (fun y1 h1 => (.ite h1.bumpFld.lnkRefuse h1.requestSwap.answer)))
theorem Keeps.writeTables {m : Nat} {s x : State} (h : Keeps m s x) {a1} (hm : Sub 576460784515681284 m := by exact .of ‹_› rfl) : Keeps m s (State.writeTables x a1) := .foldl h fun y1 h1 _ => h1.writeTable
theorem Keeps.migrations {m : Nat} {s x : State} (h : Keeps m s x) {a1} (hm : Sub 576478376701725700 m := by exact .of ‹_› rfl) : Keeps m s (State.migrations x a1) := by
  unfold State.migrations
  refine .foldl h fun y1 h1 a2 => ?_
  extract_lets v1
  split
  · exact h1
  · refine .ite ?_ h1.setBrsEnt
    extract_lets v2 v3 v4
    have hv2 : Keeps m s v2 := h1.setFld.setFld
    have hv4 : Keeps m s v4 := (.foldl hv2 fun y2 h2 _ => (.ite h2.setBrsBlk h2))
    exact hv4.setBrsEnt.writeTables
theorem Keeps.laneSyms {m : Nat} {s x : State} (h : Keeps m s x) {a1 a2} (hm : Sub 35184372088836 m := by exact .of ‹_› rfl) : Keeps m s (State.laneSyms x a1 a2) := by
  unfold State.laneSyms
  refine .foldl h fun y1 h1 a3 => ?_
  extract_lets v1 v2
  have hv2 : Keeps m s v2 := h1.setPort
  exact hv2.bumpFld
theorem Keeps.fabDone {m : Nat} {s x : State} (h : Keeps m s x) {a1 a2} (hm : Sub 34359739396 m := by exact .of ‹_› rfl) : Keeps m s (State.fabDone x a1 a2) := by
  unfold State.fabDone
  split
  · split
    · exact h
    · exact .ite h.setDisp (.ite h.setDisp h.dispEnd)
  · extract_lets v1 v2
    have hv1 : Keeps m s v1 := (.ite h h.bumpFld)
    exact hv1.set_fab
  · exact h.fabArrive
theorem Keeps.noteTag {m : Nat} {s x : State} (h : Keeps m s x) {a1 a2} (hm : Sub 1024 m := by exact .of ‹_› rfl) : Keeps m s (State.noteTag x a1 a2) := by
  unfold State.noteTag
  split
  · extract_lets v1
    exact h.setThread
  · extract_lets v1
    split
    · exact h.setThread
    · exact h
  · exact h
theorem Keeps.gwEnter {m : Nat} {s x : State} (h : Keeps m s x) {a1} (hm : Sub 35218731836420 m := by exact .of ‹_› rfl) : Keeps m s (State.gwEnter x a1) := by
  unfold State.gwEnter
  extract_lets v1 v2 v3 v4
  have hv4 : Keeps m s v4 := h.holdTag
  exact .ite hv4.setGateway.noteTag.gwPack h.setGateway.bump64
theorem Keeps.holdRequest {m : Nat} {s x : State} (h : Keeps m s x) {a1} (hm : Sub 34359738368 m := by exact .of ‹_› rfl) : Keeps m s (State.holdRequest x a1) := h.set_fab
theorem Keeps.fabSend {m : Nat} {s x : State} (h : Keeps m s x) {a1 a2} (hm : Sub 35218731827204 m := by exact .of ‹_› rfl) : Keeps m s (State.fabSend x a1 a2) := by
  unfold State.fabSend
  extract_lets v1
  have hv1 : Keeps m s v1 := h.holdTag
  exact hv1.toPort.bump64
theorem Keeps.fabIssue {m : Nat} {s x : State} (h : Keeps m s x) {a1} (hm : Sub 35218731836420 m := by exact .of ‹_› rfl) : Keeps m s (State.fabIssue x a1) := by
  unfold State.fabIssue
  refine .ite h.bump.event.fabArrive (.ite (.ite h.gwEnter h.holdRequest.bumpFld) (.ite ?_ h.holdRequest.bump64))
  extract_lets v1
  exact h.fabSend.noteTag
theorem Keeps.hubIssue {m : Nat} {s x : State} (h : Keeps m s x) {a1} (hm : Sub 35218731836420 m := by exact .of ‹_› rfl) : Keeps m s (State.hubIssue x a1) := .ite h.bump.event.fabDone h.fabIssue
theorem execFence_keeps {m : Nat} {s : State} {a1 a2} {x : State} (h : Keeps m s x) (hm : Sub 68753032900 m := by exact .of ‹_› rfl) : OutP m s (execFence a1 a2 x) := by
  unfold execFence
  refine .next h.fenceCore
theorem Keeps.tmCopyDone {m : Nat} {s x : State} (h : Keeps m s x) {a1 a2 a3 a4 a5 a6} (hm : Sub 4503599627370496 m := by exact .of ‹_› rfl) : Keeps m s (State.tmCopyDone x a1 a2 a3 a4 a5 a6) := by
  unfold State.tmCopyDone
  split
  · exact h
  · split
    · exact h
    · extract_lets v1
      exact h.setTmJob
theorem Keeps.tmDropHead {m : Nat} {s x : State} (h : Keeps m s x) {a1 a2 a3 a4} (hm : Sub 4503599627370500 m := by exact .of ‹_› rfl) : Keeps m s (State.tmDropHead x a1 a2 a3 a4) := h.tmCountDrop.tmLeave.tmRelease.tmCopyDone
theorem Keeps.takeOver {m : Nat} {s x : State} (h : Keeps m s x) {a1 a2} (hm : Sub 1156 m := by exact .of ‹_› rfl) : Keeps m s (State.takeOver x a1 a2) := by
  unfold State.takeOver
  split
  · exact h
  · split
    · exact h
    · refine .ite h ?_
      extract_lets v1 v2 v3
      have hv1 : Keeps m s v1 := (.ite h.tqReset h)
      exact hv1.set_handovers
theorem Keeps.hubRefused {m : Nat} {s x : State} (h : Keeps m s x) {a1 a2} (hm : Sub 9437196 m := by exact .of ‹_› rfl) : Keeps m s (State.hubRefused x a1 a2) := by
  unfold State.hubRefused
  split
  · exact .ite h.charge h
  · exact .ite h.charge h
  · exact h
theorem Keeps.reply1 {m : Nat} {s x : State} (h : Keeps m s x) {a1 a2} (hm : Sub 34369176588 m := by exact .of ‹_› rfl) : Keeps m s (State.reply1 x a1 a2) := by
  unfold State.reply1
  extract_lets v1 v2 v3
  split
  · exact h.bump.event
  · refine .ite h.bump.event ?_
    extract_lets v4
    exact .ite h.holdTag.bump (Keeps.hubRefused (.ite h h.holdTag)).fabDone
theorem Keeps.protoErr {m : Nat} {s x : State} (h : Keeps m s x) {a1} (hm : Sub 4 m := by exact .of ‹_› rfl) : Keeps m s (State.protoErr x a1) := h.bump.toRecovery
theorem Keeps.ackFlits {m : Nat} {s x : State} (h : Keeps m s x) {a1 a2} (hm : Sub 35184372088836 m := by exact .of ‹_› rfl) : Keeps m s (State.ackFlits x a1 a2).1 := by
  unfold State.ackFlits
  extract_lets v1 v2 v3 v4 v5
  have hv5 : Keeps m s v5 := h.setPort
  refine ite_ind (P := fun r : State × Bool => Keeps m s r.1) ?_ ?_
  · dsimp -zeta only
    exact hv5.setFld.setFld
  · dsimp -zeta only
    exact h.protoErr
theorem execTampStepEnd_keeps {m : Nat} {s : State} {a1 a2} {x : State} (h : Keeps m s x) (hm : Sub 1028 m := by exact .of ‹_› rfl) : OutP m s (execTampStepEnd a1 a2 x) := by
  unfold execTampStepEnd
  extract_lets v1 v2 v3 v4 v5 v6
  have hv6 : Keeps m s v6 := h.setCore
  refine .next (.ite h (.ite hv6 hv6.bump64))
theorem Keeps.cardSwaps {m : Nat} {s x : State} (h : Keeps m s x) (hm : Sub 4 m := by exact .of ‹_› rfl) : Keeps m s (State.cardSwaps x) := by
  unfold State.cardSwaps
  refine .foldl h fun y1 h1 a1 => ?_
  extract_lets v1 v2 v3 v4 v5
  have hv4 : Keeps m s v4 := (.foldl h1 fun y2 h2 _ => h2.setFld)
  have hv5 : Keeps m s v5 := hv4.setFld.event
  exact hv5.errLog
theorem Keeps.setStore {m : Nat} {s x : State} (h : Keeps m s x) {a1} (hm : Sub 75557863796351787073536 m := by exact .of ‹_› rfl) : Keeps m s (State.setStore x a1) := (Keeps.part h (.of hm (a := 75557863796351787073536) rfl) rfl (later_of rfl rfl rfl rfl) fun g hg => by cases g <;> first | rfl | exact nomatch hg)
theorem Keeps.readStore {m : Nat} {s x : State} (h : Keeps m s x) (hm : Sub 75557863796351787073572 m := by exact .of ‹_› rfl) : Keeps m s (State.readStore x) := by
  unfold State.readStore
  split
  · exact h.event.psStat
  · extract_lets v1 v2 v3 v4
    have hv2 : Keeps m s v2 := h.setStore
    refine Keeps.psStat ?_
    exact (Keeps.part hv2 (.of hm (a := 75557863725914323419168) rfl) rfl (later_of rfl rfl rfl rfl) fun g hg => by cases g <;> first | rfl | exact nomatch hg)
theorem execHbmSiloTrainingDone_keeps {m : Nat} {s : State} {a1} {x : State} (h : Keeps m s x) (hm : Sub 4611686050639642628 m := by exact .of ‹_› rfl) : OutP m s (execHbmSiloTrainingDone a1 x) := by
  unfold execHbmSiloTrainingDone
  extract_lets v1
  refine .next (.foldl h.set_siloOut fun y1 h1 _ => h1.countErr)
theorem execCas_keeps {m : Nat} {s : State} {a1} {x : State} (h : Keeps m s x) (hm : Sub 576496003288402948 m := by exact .of ‹_› rfl) : OutP m s (execCas a1 x) := by
  unfold execCas
  refine .next h.inbound
theorem execDomainDrainEnd_keeps {m : Nat} {s : State} {a1} {x : State} (h : Keeps m s x) (hm : Sub 578184786535779332 m := by exact .of ‹_› rfl) : OutP m s (execDomainDrainEnd a1 x) := by
  unfold execDomainDrainEnd
  refine .next (.ite h.domLost.setDomState h)
theorem Keeps.inboxPage {m : Nat} {s x : State} (h : Keeps m s x) {a1 a2 a3} {a4 : State → State} (k4 : ∀ z1, Keeps m s z1 → Keeps m s (a4 z1)) (hm : Sub 9437198 m := by exact .of ‹_› rfl) : Keeps m s (State.inboxPage x a1 a2 a3 a4) := by
  unfold State.inboxPage
  split
  · exact k4 _ h
  · exact .ite (k4 _ h) h.privilege
theorem execVmin_keeps {m : Nat} {s : State} {a1} {x : State} (h : Keeps m s x) (hm : Sub 32225887244 m := by exact .of ‹_› rfl) : OutP m s (execVmin a1 x) := by
  unfold execVmin
  refine .next (h.vceIssue (fun y1 h1 a2 => h1.vceOp))
theorem Keeps.refuseCore {m : Nat} {s x : State} (h : Keeps m s x) {a1 a2} (hm : Sub 4194310 m := by exact .of ‹_› rfl) : Keeps m s (State.refuseCore x a1 a2) := h.refuseReg
theorem execMemPmGo_keeps {m : Nat} {s : State} {a1 a2 a3 a4} {x : State} (h : Keeps m s x) (hm : Sub 13632526 m := by exact .of ‹_› rfl) : OutP m s (execMemPmGo a1 a2 a3 a4 x) := by
  unfold execMemPmGo
  extract_lets v1 v2 v3 v4 v5 v6 v7
  refine .next (.ite h.answer (.ite h.charge.setPmStatus.answer (.ite h.setPmStatus.answer (.ite h.refuseCore.setPmStatus (.ite h.charge.setPmStatus.answer (.ite h.refuseCore.bump.setPmStatus h.setCore.setPmStatus.answer))))))
theorem execThresholdWindowEnd_keeps {m : Nat} {s : State} {a1 a2} {x : State} (h : Keeps m s x) (hm : Sub 15049162752 m := by exact .of ‹_› rfl) : OutP m s (execThresholdWindowEnd a1 a2 x) := by
  unfold execThresholdWindowEnd
  extract_lets v1 v2 v3 v4 v5
  have hv4 : Keeps m s v4 := h.elapse
  refine .next (.ite hv4 ?_)
  exact (Keeps.part hv4 (.of hm (a := 15032385536) rfl) rfl (later_of rfl rfl rfl rfl) fun g hg => by cases g <;> first | rfl | exact nomatch hg)
theorem execAccrd_keeps {m : Nat} {s : State} {a1} {x : State} (h : Keeps m s x) (hm : Sub 32225887244 m := by exact .of ‹_› rfl) : OutP m s (execAccrd a1 x) := by
  unfold execAccrd
  refine .next (h.vceIssue (fun y1 h1 a2 => h1.vceOp))
theorem Keeps.fresh {m : Nat} {s x : State} (h : Keeps m s x) (hm : Sub 1 m := by exact .of ‹_› rfl) : Keeps m s (State.fresh x).2 := by
  unfold State.fresh
  dsimp -zeta only
  exact h.set_free
theorem Keeps.setBank {m : Nat} {s x : State} (h : Keeps m s x) {a1 a2} (hm : Sub 56668397794435742564352 m := by exact .of ‹_› rfl) : Keeps m s (State.setBank x a1 a2) := .ite h.set_bank0 h.set_bank1
theorem Keeps.chooseSlot {m : Nat} {s x : State} (h : Keeps m s x) (hm : Sub 132226261520350065983492 m := by exact .of ‹_› rfl) : Keeps m s (State.chooseSlot x) := by
  unfold State.chooseSlot
  extract_lets v1 v2 v3 v4
  have hv1 : ∀ z1, Keeps m s z1 → ∀ z1c, ∀ z1d, Keeps m s (v1 z1 z1c z1d) := by
    intro z1 hz1 z1c z1d
    unfold v1
    exact hz1.set_boot
  have hv3 : Keeps m s v3 := h.set_boot
  split
  · exact hv1 _ h _ _
  · extract_lets v5
    exact .ite (hv1 _ h _ _) (.ite (hv1 _ h.setBank _ _) (hv1 _ hv3.set_boot.event _ _))
theorem Keeps.gwEnd {m : Nat} {s x : State} (h : Keeps m s x) {a1 a2 a3} (hm : Sub 34359738368 m := by exact .of ‹_› rfl) : Keeps m s (State.gwEnd x a1 a2 a3) := by
  unfold State.gwEnd
  extract_lets v1
  split
  · exact h.setGwQueue
  · exact h
theorem Keeps.gwFault {m : Nat} {s x : State} (h : Keeps m s x) {a1 a2 a3 a4 a5 a6} (hm : Sub 34369175564 m := by exact .of ‹_› rfl) : Keeps m s (State.gwFault x a1 a2 a3 a4 a5 a6) := by
  unfold State.gwFault
  extract_lets v1
  exact h.charge.gwEnd
theorem Keeps.maskHold {m : Nat} {s x : State} (h : Keeps m s x) {a1} (hm : Sub 2251799813685252 m := by exact .of ‹_› rfl) : Keeps m s (State.maskHold x a1).2 := by
  unfold State.maskHold
  extract_lets v1 v2
  have hv2 : Keeps m s v2 := h.set_maskRun
  refine ite_ind (P := fun r : Bool × State => Keeps m s r.2) ?_ ?_
  · dsimp -zeta only
    exact hv2.setFld.event
  · dsimp -zeta only
    exact hv2
theorem execRpt_keeps {m : Nat} {s : State} {a1} {x : State} (h : Keeps m s x) (hm : Sub 32225887244 m := by exact .of ‹_› rfl) : OutP m s (execRpt a1 x) := by
  unfold execRpt
  refine .next (h.vceIssue (fun y1 h1 a2 => ?_))
  extract_lets v1 v2
  exact .ite h1.vceStop (.ite h1.vceCtl h1.vceCtl)
theorem Keeps.fabStores {m : Nat} {s x : State} (h : Keeps m s x) {a1 a2 a3 a4 a5 a6 a7 a8 a9 a10 a11} (hm : Sub 35218731836420 m := by exact .of ‹_› rfl) : Keeps m s (State.fabStores x a1 a2 a3 a4 a5 a6 a7 a8 a9 a10 a11) := by
  induction a7 generalizing x a1 a2 a3 a4 a5 a6 a8 a9 a10 a11 with
  | zero =>
    unfold State.fabStores
    exact h
  | succ n ih =>
    unfold State.fabStores
    refine .ite h ?_
    extract_lets v1
    apply ih
    exact h.fabIssue
theorem execDmaComplete_keeps {m : Nat} {s : State} {a1} {x : State} (h : Keeps m s x) (hm : Sub 1099512152064 m := by exact .of ‹_› rfl) : OutP m s (execDmaComplete a1 x) := by
  unfold execDmaComplete
  extract_lets v1 v2 v3
  have hv3 : Keeps m s v3 := h.setDmaQ
  refine .next ?_
  split
  · exact h
  · extract_lets v4
    exact .ite hv3 hv3.set_hostOut
theorem execAddI64_keeps {m : Nat} {s : State} {a1} {x : State} (h : Keeps m s x) (hm : Sub 576496003288402948 m := by exact .of ‹_› rfl) : OutP m s (execAddI64 a1 x) := by
  unfold execAddI64
  refine .next h.inbound
theorem Keeps.switch {m : Nat} {s x : State} (h : Keeps m s x) {a1 a2} (hm : Sub 1028 m := by exact .of ‹_› rfl) : Keeps m s (State.switch x a1 a2) := by
  unfold State.switch
  extract_lets v1 v2 v3 v4 v5 v6
  have hv5 : Keeps m s v5 := h.setCore
  have hv6 : Keeps m s v6 := hv5.bump64
  exact .ite hv6.bump.event hv6
theorem Keeps.syncOwners {m : Nat} {s x : State} (h : Keeps m s x) (hm : Sub 1028 m := by exact .of ‹_› rfl) : Keeps m s (State.syncOwners x) := .foldl h fun y1 h1 _ => (.ite h1 h1.switch)
theorem Keeps.sendNak {m : Nat} {s x : State} (h : Keeps m s x) {a1} (hm : Sub 35184372088836 m := by exact .of ‹_› rfl) : Keeps m s (State.sendNak x a1) := .ite h h.setPort.bumpFld
theorem Keeps.tmeEnd {m : Nat} {s x : State} (h : Keeps m s x) {a1 a2 a3 a4} (hm : Sub 1024 m := by exact .of ‹_› rfl) : Keeps m s (State.tmeEnd x a1 a2 a3 a4) := h.setTme
theorem Keeps.noteTmeFault {m : Nat} {s x : State} (h : Keeps m s x) {a1 a2 a3 a4 a5} (hm : Sub 4 m := by exact .of ‹_› rfl) : Keeps m s (State.noteTmeFault x a1 a2 a3 a4 a5) := .ite h h.setReg
theorem Keeps.setConv {m : Nat} {s x : State} (h : Keeps m s x) {a1 a2 a3 a4} (hm : Sub 32225887244 m := by exact .of ‹_› rfl) : Keeps m s (State.setConv x a1 a2 a3 a4) := by
  unfold State.setConv
  extract_lets v1 v2 v3 v4 v5
  have hv3 : Keeps m s v3 := h.scrChecked
  exact .ite hv3.noteTmeFault.charge.tmeEnd (.ite hv3.stateAt.tmeEnd hv3.setTme.tmeEnd)
theorem Keeps.tmeFault {m : Nat} {s x : State} (h : Keeps m s x) {a1 a2 a3 a4 a5 a6 a7 a8 a9 a10} (hm : Sub 42992652 m := by exact .of ‹_› rfl) : Keeps m s (State.tmeFault x a1 a2 a3 a4 a5 a6 a7 a8 a9 a10) := by
  unfold State.tmeFault
  extract_lets v1 v2
  have hv1 : Keeps m s v1 := h.tmeEnd
  have hv2 : Keeps m s v2 := hv1.noteTmeFault
  exact .ite hv2.taint hv2.charge
theorem Keeps.fabLoads {m : Nat} {s x : State} (h : Keeps m s x) {a1 a2 a3 a4 a5 a6 a7 a8} (hm : Sub 35218731836420 m := by exact .of ‹_› rfl) : Keeps m s (State.fabLoads x a1 a2 a3 a4 a5 a6 a7 a8) := by
  induction a6 generalizing x a1 a2 a3 a4 a5 a7 a8 with
  | zero =>
    unfold State.fabLoads
    exact h
  | succ n ih =>
    unfold State.fabLoads
    refine .ite h ?_
    extract_lets v1
    apply ih
    exact h.fabIssue
theorem Keeps.readSegs {m : Nat} {s x : State} (h : Keeps m s x) {a1 a2 a3 a4 a5} (hm : Sub 35250979744772 m := by exact .of ‹_› rfl) : Keeps m s (State.readSegs x a1 a2 a3 a4 a5).2 := by
  induction a5 generalizing x a1 a2 a3 a4 with
  | nil =>
    unfold State.readSegs
    dsimp -zeta only
    exact h
  | cons hd tl ih =>
    unfold State.readSegs
    extract_lets v1 v2
    have hv1 : Keeps m s v1.2 := by
      unfold v1
      split
      · extract_lets v3
        have hv3 : Keeps m s v3.2 := h.accRead
        exact ite_ind (P := fun r : Bytes × State => Keeps m s r.2) hv3 hv3
      · extract_lets v3
        have hv3 : Keeps m s v3 := h.fabLoads
        split
        · dsimp -zeta only
          exact h
        · dsimp -zeta only
          exact hv3
        · dsimp -zeta only
          exact hv3
        · dsimp -zeta only
          exact hv3
        · dsimp -zeta only
          exact hv3
    have hv2 : Keeps m s v2.2 := (by apply ih; exact hv1)
    split
    · split
      · exact hv2
      · exact hv2
    · exact hv1
theorem Keeps.tmeSource {m : Nat} {s x : State} (h : Keeps m s x) {a1 a2 a3 a4 a5 a6} (hm : Sub 35250979744772 m := by exact .of ‹_› rfl) : Keeps m s (State.tmeSource x a1 a2 a3 a4 a5 a6).2 := by
  unfold State.tmeSource
  split
  · dsimp -zeta only
    exact h
  · exact h.readSegs
theorem Keeps.landTile {m : Nat} {s x : State} (h : Keeps m s x) {a1 a2 a3 a4 a5} (hm : Sub 32212255748 m := by exact .of ‹_› rfl) : Keeps m s (State.landTile x a1 a2 a3 a4 a5).1 := by
  unfold State.landTile
  split
  · dsimp -zeta only
    exact h
  · extract_lets v1 v2
    refine foldl_ind (P := fun r : State × Nat => Keeps m s r.1) ?_ fun y1 h1 a6 => ?_
    · dsimp -zeta only
      exact h
    · extract_lets v3 v4 v5 v6
      have hv5 : Keeps m s v5 := h1.scrWrite
      have hv6 : Keeps m s v6 := by
        unfold v6
        refine .foldl hv5 fun y2 h2 a7 => ?_
        extract_lets v7 v8
        exact .ite h2.scrPoisonSet h2
      refine ite_ind (P := fun r : State × Nat => Keeps m s r.1) h1 ?_
      dsimp -zeta only
      exact hv6
theorem Keeps.writeSegs {m : Nat} {s x : State} (h : Keeps m s x) {a1 a2 a3 a4 a5 a6 a7} (hm : Sub 576496003283168260 m := by exact .of ‹_› rfl) : Keeps m s (State.writeSegs x a1 a2 a3 a4 a5 a6 a7).2 := by
  induction a6 generalizing x a1 a2 a3 a4 a5 a7 with
  | nil =>
    unfold State.writeSegs
    dsimp -zeta only
    exact h
  | cons hd tl ih =>
    unfold State.writeSegs
    extract_lets v1
    have hv1 : Keeps m s v1.2 := by
      unfold v1
      split
      · extract_lets v2
        have hv2 : Keeps m s v2.2 := h.accWrite
        refine ite_ind (P := fun r : Option (Nat × Nat) × State => Keeps m s r.2) ?_ hv2
        dsimp -zeta only
        exact .foldl hv2 fun y1 h1 _ => (.ite h1.devPoison h1)
      · dsimp -zeta only
        exact h.fabStores
    split
    · exact hv1
    · apply ih
      exact hv1
theorem Keeps.tmePieceDone {m : Nat} {s x : State} (h : Keeps m s x) {a1 a2 a3 a4 a5 a6 a7 a8} (hm : Sub 9438220 m := by exact .of ‹_› rfl) : Keeps m s (State.tmePieceDone x a1 a2 a3 a4 a5 a6 a7 a8) := by
  unfold State.tmePieceDone
  extract_lets v1 v2 v3 v4 v5
  have hv4 : Keeps m s v4 := h.setTme
  have hv5 : Keeps m s v5 := hv4.bump64
  exact .ite hv5.noteTmeFault.charge hv5
theorem Keeps.tmeTransfer {m : Nat} {s x : State} (h : Keeps m s x) {a1 a2 a3 a4 a5 a6} (hm : Sub 576496003292851212 m := by exact .of ‹_› rfl) : Keeps m s (State.tmeTransfer x a1 a2 a3 a4 a5 a6) := by
  unfold State.tmeTransfer
  extract_lets v1 v2 v3 v4 v5 v6 v7 v8 v9 v10
  have hv8 : Keeps m s v8.2 := by
    unfold v8
    refine ite_ind (P := fun r : Span × State => Keeps m s r.2) ?_ h.span
    dsimp -zeta only
    exact h
  have hv9 : Keeps m s v9.2 := (ite_ind (P := fun r : Span × State => Keeps m s r.2) hv8 hv8.span)
  split
  · exact hv8
  · exact hv8.tmeFault
  · split
    · exact hv9
    · exact hv9.tmeFault
    · refine .ite hv9 ?_
      extract_lets v11 v12
      have hv11 : Keeps m s v11.2 := by
        unfold v11
        refine ite_ind (P := fun r : Bytes × State => Keeps m s r.2) ?_ hv9.tmeSource
        dsimp -zeta only
        exact hv9.scrSpans
      have hv12 : Keeps m s v12 := hv11
      split
      · exact hv12
      · exact hv12.tmeFault
      · extract_lets v13 v14 v15 v16 v17 v18
        have hv13 : Keeps m s v13.1 := hv12.landTile
        have hv14 : Keeps m s v14.2 := hv12.writeSegs
        have hv15 : Keeps m s v15.2.1 := by
          unfold v15
          refine ite_ind (P := fun r : Option (Nat × Nat) × State × Nat => Keeps m s r.2.1) ?_ ?_
          · dsimp -zeta only
            exact hv13
          · dsimp -zeta only
            exact hv14
        have hv16 : Keeps m s v16 := hv15
        have hv17 : Keeps m s v17 := hv16.freeStaged
        have hv18 : Keeps m s v18 := hv17.setTme
        split
        · exact hv16.tmeFault
        · exact hv18.tmePieceDone
theorem Keeps.specDiscard {m : Nat} {s x : State} (h : Keeps m s x) {a1 a2 a3 a4} (hm : Sub 9220 m := by exact .of ‹_› rfl) : Keeps m s (State.specDiscard x a1 a2 a3 a4) := by
  unfold State.specDiscard
  extract_lets v1
  have hv1 : Keeps m s v1 := h.freeStaged
  exact hv1.setTme.tmeEnd
theorem execTmeTransferDone_keeps {m : Nat} {s : State} {a1 a2} {x : State} (h : Keeps m s x) (hm : Sub 576496003297045516 m := by exact .of ‹_› rfl) : OutP m s (execTmeTransferDone a1 a2 x) := by
  unfold execTmeTransferDone
  extract_lets v1 v2
  refine .next ?_
  split
  · exact h
  · extract_lets v3 v4
    have hv4 : Keeps m s v4 := h.setTme
    refine .ite h (.ite (.ite h.setConv h.tmeTransfer) ?_)
    split
    · exact h
    · exact h.specDiscard
    · exact .ite h (.ite hv4.setConv hv4.tmeTransfer)
theorem Keeps.setCredit {m : Nat} {s x : State} (h : Keeps m s x) {a1 a2} (hm : Sub 4503599627370500 m := by exact .of ‹_› rfl) : Keeps m s (State.setCredit x a1 a2) := h.set_tm.setFld
theorem Keeps.shpCharge {m : Nat} {s x : State} (h : Keeps m s x) {a1 a2} (hm : Sub 4503599627370500 m := by exact .of ‹_› rfl) : Keeps m s (State.shpCharge x a1 a2) := by
  unfold State.shpCharge
  extract_lets v1
  exact h.setCredit
theorem Keeps.hrWrite {m : Nat} {s x : State} (h : Keeps m s x) {a1 a2} (hm : Sub 1099511627784 m := by exact .of ‹_› rfl) : Keeps m s (State.hrWrite x a1 a2) := by
  unfold State.hrWrite
  extract_lets v1 v2 v3 v4
  have hv4 : Keeps m s v4 := h.set_hostOut
  exact hv4.setWreg.setWreg
theorem Keeps.hrSend {m : Nat} {s x : State} (h : Keeps m s x) {a1 a2} (hm : Sub 4504699138998284 m := by exact .of ‹_› rfl) : Keeps m s (State.hrSend x a1 a2) := by
  unfold State.hrSend
  extract_lets v1 v2 v3
  have hv1 : Keeps m s v1 := by
    unfold v1
    split
    · exact h.shpCharge
    · exact h
  have hv2 : Keeps m s v2 := by
    unfold v2
    split
    · exact hv1.shpCharge
    · exact hv1
  have hv3 : Keeps m s v3 := hv2.tmLeave.tmRelease.bumpFld
  exact hv3.hrWrite
theorem execIssueVce_keeps {m : Nat} {s : State} {a1 a2 a3 a4} {x : State} (h : Keeps m s x) (hm : Sub 32255247372 m := by exact .of ‹_› rfl) : OutP m s (execIssueVce a1 a2 a3 a4 x) := by
  unfold execIssueVce
  refine .next h.issueItem
theorem execCombine_keeps {m : Nat} {s : State} {a1} {x : State} (h : Keeps m s x) (hm : Sub 576496003288402948 m := by exact .of ‹_› rfl) : OutP m s (execCombine a1 x) := by
  unfold execCombine
  refine .next h.inbound
theorem Keeps.keyDrop {m : Nat} {s x : State} (h : Keeps m s x) {a1} (hm : Sub 576460752303423493 m := by exact .of ‹_› rfl) : Keeps m s (State.keyDrop x a1) := h.loseKey.setFld
theorem Keeps.teardownEnd {m : Nat} {s x : State} (h : Keeps m s x) {a1} (hm : Sub 1729382256910278661 m := by exact .of ‹_› rfl) : Keeps m s (State.teardownEnd x a1) := by
  unfold State.teardownEnd
  refine .ite h ?_
  extract_lets v1 v2 v3 v4 v5
  have hv2 : Keeps m s v2 := (.foldl h fun y1 h1 _ => (.foldl h1 fun y2 h2 _ => h2.poolGive))
  have hv4 : Keeps m s v4 := hv2.keyDrop.setPartSt
  have hv5 : Keeps m s v5 := hv4.setPartState.bumpPgen.setMeas5
  exact hv5.setReg
theorem Keeps.tearStart {m : Nat} {s x : State} (h : Keeps m s x) {a1} (hm : Sub 4094353494874127373 m := by exact .of ‹_› rfl) : Keeps m s (State.tearStart x a1) := by
  unfold State.tearStart
  extract_lets v1 v2
  have hv2 : Keeps m s v2 := h.setPartSt
  exact Keeps.teardownEnd (.foldl hv2 fun y1 h1 _ => (.ite h1.instReset (.ite h1 h1.set_dying)))
theorem Keeps.walkDone {m : Nat} {s x : State} (h : Keeps m s x) {a1} (hm : Sub 32212503556 m := by exact .of ‹_› rfl) : Keeps m s (State.walkDone x a1).2 := by
  unfold State.walkDone
  split
  · dsimp -zeta only
    exact h
  · extract_lets v1 v2
    have hv2 : Keeps m s v2 := h.set_walks
    refine ite_ind (P := fun r : Option Walk × State => Keeps m s r.2) ?_ (ite_ind (P := fun r : Option Walk × State => Keeps m s r.2) ?_ ?_)
    · dsimp -zeta only
      exact h.set_walks
    · dsimp -zeta only
      exact hv2.bump
    · split
      · extract_lets v3 v4 v5
        have hv3 : Keeps m s v3 := hv2.walkSeen
        have hv5 : Keeps m s v5 := by
          unfold v5
          split
          · exact hv3.tlbInsert
          · exact hv3
        dsimp -zeta only
        exact hv5.tlbInsert
      · extract_lets v3
        have hv3 : Keeps m s v3 := hv2.walkSeen.walkMalformed
        dsimp -zeta only
        exact hv3.set_walkFaults
theorem Keeps.ownerOnly {m : Nat} {s x : State} (h : Keeps m s x) {a1 a2 a3} {a4 : State → State} (k4 : ∀ z1, Keeps m s z1 → Keeps m s (a4 z1)) (hm : Sub 9437198 m := by exact .of ‹_› rfl) : Keeps m s (State.ownerOnly x a1 a2 a3 a4) := by
  unfold State.ownerOnly
  split
  · exact k4 _ h
  · exact .ite (k4 _ h) h.privilege
theorem execFecQctlCancel_keeps {m : Nat} {s : State} {a1 a2 a3} {x : State} (h : Keeps m s x) (hm : Sub 577023734484831246 m := by exact .of ‹_› rfl) : OutP m s (execFecQctlCancel a1 a2 a3 x) := by
  unfold execFecQctlCancel
  refine .next (h.ownerOnly (fun y1 h1 => (h1.ungated (fun y2 h2 => ?_))))
  extract_lets v1
  exact (Keeps.fecServe (.foldl h2 fun y3 h3 _ => h3.fecStop)).answer
theorem Keeps.fecTooLate {m : Nat} {s x : State} (h : Keeps m s x) {a1} (hm : Sub 577023734482734092 m := by exact .of ‹_› rfl) : Keeps m s (State.fecTooLate x a1) := h.dropFecJob.fecEnd.fecServe
theorem Keeps.fecBegin {m : Nat} {s x : State} (h : Keeps m s x) {a1} (hm : Sub 576460784515681284 m := by exact .of ‹_› rfl) : Keeps m s (State.fecBegin x a1).2 := by
  unfold State.fecBegin
  extract_lets v1 v2 v3 v4 v5 v6 v7
  have hv5 : Keeps m s v5 := h.devChecked.devWrite
  refine ite_ind (P := fun r : FecJob × State => Keeps m s r.2) ?_ (ite_ind (P := fun r : FecJob × State => Keeps m s r.2) ?_ (ite_ind (P := fun r : FecJob × State => Keeps m s r.2) ?_ ?_))
  · dsimp -zeta only
    exact h
  · dsimp -zeta only
    exact hv5
  · dsimp -zeta only
    exact .foldl hv5 fun y1 h1 _ => h1.devChecked
  · dsimp -zeta only
    exact hv5.bump.event
theorem Keeps.fecTake {m : Nat} {s x : State} (h : Keeps m s x) {a1 a2} (hm : Sub 577023734482734092 m := by exact .of ‹_› rfl) : Keeps m s (State.fecTake x a1 a2) := by
  unfold State.fecTake
  extract_lets v1 v2
  have hv1 : Keeps m s v1.2 := by
    unfold v1
    refine ite_ind (P := fun r : FecJob × State => Keeps m s r.2) ?_ h.fecBegin
    dsimp -zeta only
    exact h
  split
  · exact hv1.setFecJob.fecServe
  · extract_lets v3 v4 v5
    have hv4 : Keeps m s v4 := hv1.setFecJob
    exact hv4.set_fec.fecServe
theorem execCodeBlockStart_keeps {m : Nat} {s x : State} (h : Keeps m s x) (hm : Sub 577023734482734092 m := by exact .of ‹_› rfl) : OutP m s (execCodeBlockStart x) := by
  unfold execCodeBlockStart
  extract_lets v1
  have hv1 : Keeps m s v1 := by
    unfold v1
    split
    · exact h.fecTooLate
    · exact h
  refine .next (.ite hv1 ?_)
  split
  · exact hv1.fecTake
  · exact hv1
theorem Keeps.acceptTask {m : Nat} {s x : State} (h : Keeps m s x) {a1 a2} (hm : Sub 13632524 m := by exact .of ‹_› rfl) : Keeps m s (State.acceptTask x a1 a2) := by
  unfold State.acceptTask
  extract_lets v1 v2
  refine .ite h ?_
  split
  · exact h
  · extract_lets v3 v4 v5 v6 v7 v8 v9
    have hv5 : Keeps m s v5 := h.setCtx
    exact .ite hv5.bump (.ite h.setCtx (.ite h.setCtx.stateAt (.ite h.setCtx.charge h.setCtx)))
theorem Keeps.mbxOverlong {m : Nat} {s x : State} (h : Keeps m s x) {a1 a2 a3} (hm : Sub 18014398513676294 m := by exact .of ‹_› rfl) : Keeps m s (State.mbxOverlong x a1 a2 a3) := h.setChan.refuseLog.answer
theorem Keeps.mbxFull {m : Nat} {s x : State} (h : Keeps m s x) {a1} (hm : Sub 14 m := by exact .of ‹_› rfl) : Keeps m s (State.mbxFull x a1) := h.bump.setWreg.answer
theorem Keeps.dnSend {m : Nat} {s x : State} (h : Keeps m s x) {a1 a2 a3 a4 a5} (hm : Sub 54043195532640270 m := by exact .of ‹_› rfl) : Keeps m s (State.dnSend x a1 a2 a3 a4 a5) := .ite h.mbxOverlong (.ite (.ite h.setChan.answer h.mbxFull) (.ite h.mbxNotice.answer (.ite h.setChan.answer h.mbxFull)))
theorem execMbxEpSend_keeps {m : Nat} {s : State} {a1 a2 a3 a4} {x : State} (h : Keeps m s x) (hm : Sub 54043195542077454 m := by exact .of ‹_› rfl) : OutP m s (execMbxEpSend a1 a2 a3 a4 x) := by
  unfold execMbxEpSend
  extract_lets v1 v2 v3
  refine .next (.ite h.charge.answer h.dnSend)
theorem execTrainingPhaseEnd_keeps {m : Nat} {s : State} {a1 a2 a3 a4} {x : State} (h : Keeps m s x) (hm : Sub 35218731828228 m := by exact .of ‹_› rfl) : OutP m s (execTrainingPhaseEnd a1 a2 a3 a4 x) := by
  unfold execTrainingPhaseEnd
  extract_lets v1 v2 v3
  have hv3 : ∀ z1, Keeps m s z1 → Keeps m s (v3 z1) := by
    intro z1 hz1
    unfold v3
    exact hz1.setPort
  refine .next (.ite h (.ite (hv3 _ h.setFld) (.ite ?_ (hv3 _ h))))
  split
  · extract_lets v4
    have hv4 : Keeps m s v4 := h.setFld.setFld
    exact hv3 _ hv4.setFld
  · exact h.retirePort
theorem Keeps.meLoadRow {m : Nat} {s x : State} (h : Keeps m s x) {a1 a2 a3 a4} (hm : Sub 32212255749 m := by exact .of ‹_› rfl) : Keeps m s (State.meLoadRow x a1 a2 a3 a4).1 := by
  unfold State.meLoadRow
  extract_lets v1 v2 v3 v4 v5 v6 v7 v8 v9 v10 v11
  have hv10 : Keeps m s v10 := h.scrSpans
  have hv11 : Keeps m s v11 := hv10.set_free
  dsimp -zeta only
  exact hv11.setMe
theorem Keeps.meNote {m : Nat} {s x : State} (h : Keeps m s x) {a1 a2 a3 a4 a5} (hm : Sub 1024 m := by exact .of ‹_› rfl) : Keeps m s (State.meNote x a1 a2 a3 a4 a5) := h.setMe
theorem Keeps.meLoad {m : Nat} {s x : State} (h : Keeps m s x) {a1 a2 a3 a4} (hm : Sub 32212255749 m := by exact .of ‹_› rfl) : Keeps m s (State.meLoad x a1 a2 a3 a4) := by
  unfold State.meLoad
  extract_lets v1
  have hv1 : Keeps m s v1.1 := by
    unfold v1
    refine foldl_ind (P := fun r : State × NumFlags × Nat × Bool => Keeps m s r.1) ?_ fun y1 h1 a5 => ?_
    · dsimp -zeta only
      exact h
    · extract_lets v2
      have hv2 : Keeps m s v2.1 := h1.meLoadRow
      exact hv2
  exact hv1.bumpFld.meNote
theorem execDispatchRetry_keeps {m : Nat} {s : State} {a1 a2} {x : State} (h : Keeps m s x) (hm : Sub 35218731836420 m := by exact .of ‹_› rfl) : OutP m s (execDispatchRetry a1 a2 x) := by
  unfold execDispatchRetry
  extract_lets v1 v2
  refine .next ?_
  split
  · refine .ite ?_ h
    extract_lets v3 v4 v5
    have hv3 : Keeps m s v3 := h.setDisp.bump
    exact .ite hv3.bump.event.dispEnd (.ite hv3.setGateway.gwPack hv3.fabSend)
  · exact h
theorem Keeps.takeEntry {m : Nat} {s x : State} (h : Keeps m s x) {a1 a2} (hm : Sub 17592186044420 m := by exact .of ‹_› rfl) : Keeps m s (State.takeEntry x a1 a2).2 := by
  unfold State.takeEntry
  extract_lets v1 v2 v3 v4
  have hv3 : Keeps m s v3 := h.setBrsEnt
  have hv4 : Keeps m s v4 := hv3.setFld
  dsimp -zeta only
  exact hv4.setFld
theorem execDone_keeps {m : Nat} {s : State} {a1 a2} {x : State} (h : Keeps m s x) (hm : Sub 32255247372 m := by exact .of ‹_› rfl) : OutP m s (execDone a1 a2 x) := by
  unfold execDone
  refine .next (h.issue (fun y1 h1 => h1.endTask))
theorem execPoolRequest_keeps {m : Nat} {s : State} {a1 a2 a3 a4 a5} {x : State} (h : Keeps m s x) (hm : Sub 4202502 m := by exact .of ‹_› rfl) : OutP m s (execPoolRequest a1 a2 a3 a4 a5 x) := by
  unfold execPoolRequest
  extract_lets v1 v2 v3 v4 v5 v6 v7 v8 v9 v10 v11
  have hv6 : ∀ z1, Keeps m s z1 → ∀ z1c, Keeps m s (v6 z1 z1c) := by
    intro z1 hz1 z1c
    unfold v6
    exact .ite hz1.bumpFld hz1
  have hv8 : Keeps m s v8.2 := h.poolGrant
  refine .next (.ite h.memState (.ite hv8.setPool.answer (.ite (hv6 _ h.setPool _).answer (hv6 _ h _).answer)))
theorem Keeps.inSession {m : Nat} {s x : State} (h : Keeps m s x) {a1 a2 a3} {a4 : State → Spdm → State} (k4 : ∀ z1, Keeps m s z1 → ∀ z2, Keeps m s (a4 z1 z2)) (hm : Sub 2 m := by exact .of ‹_› rfl) : Keeps m s (State.inSession x a1 a2 a3 a4) := h.onAgreed (fun y1 h1 a5 => (.ite (k4 _ h1 _) h1.spdmError))
theorem execEndSession_keeps {m : Nat} {s : State} {a1 a2} {x : State} (h : Keeps m s x) (hm : Sub 268435458 m := by exact .of ‹_› rfl) : OutP m s (execEndSession a1 a2 x) := by
  unfold execEndSession
  refine .next (h.inSession (fun y1 h1 a3 => h1.setSpdm.spdmReply))
theorem Keeps.fhDown {m : Nat} {s x : State} (h : Keeps m s x) (hm : Sub 4 m := by exact .of ‹_› rfl) : Keeps m s (State.fhDown x) := .foldl h fun y1 h1 _ => (.ite h1 h1.setFh)
theorem Keeps.streamLost {m : Nat} {s x : State} (h : Keeps m s x) {a1 a2} (hm : Sub 671088640 m := by exact .of ‹_› rfl) : Keeps m s (State.streamLost x a1 a2) := by
  unfold State.streamLost
  extract_lets v1
  have hv1 : Keeps m s v1 := h.set_ide
  exact .foldl hv1 fun y1 h1 _ => h1.tdiError
theorem Keeps.msixSend {m : Nat} {s x : State} (h : Keeps m s x) {a1 a2} (hm : Sub 432345564227567616 m := by exact .of ‹_› rfl) : Keeps m s (State.msixSend x a1 a2) := by
  unfold State.msixSend
  extract_lets v1 v2
  have hv2 : Keeps m s v2 := h.setMsix
  exact .ite hv2.set_msixOut h
theorem Keeps.attach {m : Nat} {s x : State} (h : Keeps m s x) {a1} (hm : Sub 432345564361785348 m := by exact .of ‹_› rfl) : Keeps m s (State.attach x a1) := by
  unfold State.attach
  refine .foldl h fun y1 h1 a2 => ?_
  extract_lets v1 v2 v3
  have hv3 : Keeps m s v3 := h1.setFld
  exact .ite hv3.tdiError (.ite (.foldl hv3 fun y2 h2 _ => h2.msixSend) hv3)
theorem Keeps.portDown {m : Nat} {s x : State} (h : Keeps m s x) {a1} (hm : Sub 432345564898656260 m := by exact .of ‹_› rfl) : Keeps m s (State.portDown x a1) := by
  unfold State.portDown
  extract_lets v1 v2
  have hv1 : Keeps m s v1 := (.foldl h fun y1 h1 _ => h1.streamLost)
  have hv2 : Keeps m s v2 := hv1.setReg
  exact hv2.bump.attach
theorem Keeps.serdesDown {m : Nat} {s x : State} (h : Keeps m s x) (hm : Sub 432380749270745092 m := by exact .of ‹_› rfl) : Keeps m s (State.serdesDown x) := by
  unfold State.serdesDown
  extract_lets v1 v2
  have hv1 : Keeps m s v1 := (.foldl h fun y1 h1 _ => (.ite h1.linkDown h1))
  have hv2 : Keeps m s v2 := hv1.fhDown
  exact .foldl hv2 fun y1 h1 _ => (.ite h1.portDown h1)
theorem Keeps.resolve {m : Nat} {s x : State} (h : Keeps m s x) {a1 a2 a3} (hm : Sub 32212503556 m := by exact .of ‹_› rfl) : Keeps m s (State.resolve x a1 a2 a3).2.2 := by
  unfold State.resolve
  extract_lets v1 v2
  have hv2 : Keeps m s v2.2 := h.xlate
  split
  · dsimp -zeta only
    exact hv2
  · dsimp -zeta only
    exact hv2
  · dsimp -zeta only
    exact hv2
  · dsimp -zeta only
    exact hv2
theorem Keeps.postStore {m : Nat} {s x : State} (h : Keeps m s x) {a1 a2 a3 a4} (hm : Sub 35250944338948 m := by exact .of ‹_› rfl) : Keeps m s (State.postStore x a1 a2 a3 a4) := by
  unfold State.postStore
  extract_lets v1 v2 v3 v4
  have hv1 : Keeps m s v1.2.2 := h.resolve
  have hv2 : Keeps m s v2 := hv1
  have hv4 : Keeps m s v4 := hv2.setThread
  split
  · exact hv4.fabIssue
  · exact hv4
theorem Keeps.afterAck {m : Nat} {s x : State} (h : Keeps m s x) {a1 a2 a3} (hm : Sub 35250944338948 m := by exact .of ‹_› rfl) : Keeps m s (State.afterAck x a1 a2 a3) := by
  unfold State.afterAck
  extract_lets v1
  refine .ite ?_ h
  split
  · exact h.setThread.postStore
  · exact .ite h.setThread h
theorem Keeps.ackStore {m : Nat} {s x : State} (h : Keeps m s x) {a1 a2 a3 a4 a5} (hm : Sub 35250987330572 m := by exact .of ‹_› rfl) : Keeps m s (State.ackStore x a1 a2 a3 a4 a5) := by
  unfold State.ackStore
  extract_lets v1 v2 v3 v4 v5
  have hv2 : Keeps m s v2 := h.setThread
  have hv3 : Keeps m s v3 := (.ite hv2.charge hv2)
  have hv4 : Keeps m s v4 := hv3.noteFault
  exact .ite hv2.afterAck (.ite (.ite hv2.charge hv2) (.ite hv2.threadFault hv4.setThread.afterAck))
theorem Keeps.perform {m : Nat} {s x : State} (h : Keeps m s x) {a1 a2 a3} (hm : Sub 576460784551332868 m := by exact .of ‹_› rfl) : Keeps m s (State.perform x a1 a2 a3).2 := by
  unfold State.perform
  split
  · exact h.accRead
  · exact h.accWrite
  · exact h.accAtom
theorem execStoreAck_keeps {m : Nat} {s : State} {a1 a2} {x : State} (h : Keeps m s x) (hm : Sub 576496003292851212 m := by exact .of ‹_› rfl) : OutP m s (execStoreAck a1 a2 x) := by
  unfold execStoreAck
  extract_lets v1 v2
  refine .next ?_
  split
  · exact h
  · split
    · exact h.ackStore
    · extract_lets v3
      have hv3 : Keeps m s v3.2 := h.perform
      exact hv3.ackStore
    · exact h
    · extract_lets v3 v4 v5 v6
      have hv3 : Keeps m s v3.2.2 := h.resolve
      have hv4 : Keeps m s v4 := hv3
      have hv6 : Keeps m s v6 := hv4.setThread
      split
      · exact hv6.fabIssue
      · exact hv6
theorem Keeps.bootMap {m : Nat} {s x : State} (h : Keeps m s x) (hm : Sub 68 m := by exact .of ‹_› rfl) : Keeps m s (State.bootMap x) := by
  unfold State.bootMap
  extract_lets v1 v2 v3
  have hv3 : Keeps m s v3 := h.set_map
  exact .ite hv3.degrade hv3
theorem execReset_keeps {m : Nat} {s : State} {a1} {x : State} (h : Keeps m s x) (hm : Sub 4094353494874127375 m := by exact .of ‹_› rfl) : OutP m s (execReset a1 x) := by
  unfold execReset
  refine .next h.prtWrite
theorem execArbListenEnd_keeps {m : Nat} {s : State} {a1} {x : State} (h : Keeps m s x) (hm : Sub 35184372088832 m := by exact .of ‹_› rfl) : OutP m s (execArbListenEnd a1 x) := by
  unfold execArbListenEnd
  extract_lets v1 v2
  refine .next (.ite h.setPort h)
theorem execRasSoftRowRepair_keeps {m : Nat} {s : State} {a1} {x : State} (h : Keeps m s x) (hm : Sub 18446744142476216014 m := by exact .of ‹_› rfl) : OutP m s (execRasSoftRowRepair a1 x) := by
  unfold execRasSoftRowRepair
  refine .next h.rasWrite
theorem Keeps.laneFailed {m : Nat} {s x : State} (h : Keeps m s x) {a1 a2 a3 a4} (hm : Sub 35218731828228 m := by exact .of ‹_› rfl) : Keeps m s (State.laneFailed x a1 a2 a3 a4) := by
  unfold State.laneFailed
  extract_lets v1
  have hv1 : Keeps m s v1 := h.event.errLog
  exact .ite hv1.retirePort (.ite hv1 hv1.requestSwap)
theorem Keeps.keyCommand {m : Nat} {s x : State} (h : Keeps m s x) {a1 a2} (hm : Sub 576460752307617799 m := by exact .of ‹_› rfl) : Keeps m s (State.keyCommand x a1 a2) := by
  unfold State.keyCommand
  extract_lets v1
  exact .ite h.refuseReg (.ite h.keyDrop.answer (.ite h.keyMake.answer h.event.refuseReg))
theorem execTmeCommit_keeps {m : Nat} {s : State} {a1} {x : State} (h : Keeps m s x) (hm : Sub 9220 m := by exact .of ‹_› rfl) : OutP m s (execTmeCommit a1 x) := by
  unfold execTmeCommit
  extract_lets v1 v2
  refine .next ?_
  split
  · exact h
  · split
    · exact h
    · exact h.specDiscard
    · exact h.setTme
theorem Keeps.fecPush {m : Nat} {s x : State} (h : Keeps m s x) {a1 a2 a3 a4 a5} (hm : Sub 577023734484831246 m := by exact .of ‹_› rfl) : Keeps m s (State.fecPush x a1 a2 a3 a4 a5) := by
  unfold State.fecPush
  extract_lets v1
  refine h.ownerOnly (fun y1 h1 => (h1.pushInto (fun y2 h2 => (.ite h2.bump.refuseReg ?_))))
  extract_lets v2 v3
  exact h2.set_fec.fecServe.answer
theorem execLdpcEnc_keeps {m : Nat} {s : State} {a1 a2 a3 a4} {x : State} (h : Keeps m s x) (hm : Sub 577023734484831246 m := by exact .of ‹_› rfl) : OutP m s (execLdpcEnc a1 a2 a3 a4 x) := by
  unfold execLdpcEnc
  refine .next h.fecPush
theorem execChunkGet_keeps {m : Nat} {s : State} {a1 a2 a3} {x : State} (h : Keeps m s x) (hm : Sub 268435458 m := by exact .of ‹_› rfl) : OutP m s (execChunkGet a1 a2 a3 x) := by
  unfold execChunkGet
  refine .next (h.onAgreed (fun y1 h1 a4 => (.ite h1.setSpdm.spdmError h1.setSpdm.spdmReply)))
theorem Keeps.meDrain {m : Nat} {s x : State} (h : Keeps m s x) {a1 a2 a3} (hm : Sub 32212255748 m := by exact .of ‹_› rfl) : Keeps m s (State.meDrain x a1 a2 a3).1 := by
  unfold State.meDrain
  refine foldl_ind (P := fun r : State × NumFlags × Bool => Keeps m s r.1) ?_ fun y1 h1 a4 => ?_
  · dsimp -zeta only
    exact h
  · extract_lets v1
    have hv1 : Keeps m s v1.1 := h1.meDrainRow
    exact hv1
theorem execCodewordLockLoss_keeps {m : Nat} {s : State} {a1} {x : State} (h : Keeps m s x) (hm : Sub 4 m := by exact .of ‹_› rfl) : OutP m s (execCodewordLockLoss a1 x) := by
  unfold execCodewordLockLoss
  refine .next h.toRecovery
theorem Keeps.imgStart {m : Nat} {s x : State} (h : Keeps m s x) {a1 a2 a3 a4 a5} (hm : Sub 75557863725914323419140 m := by exact .of ‹_› rfl) : Keeps m s (State.imgStart x a1 a2 a3 a4 a5) := h.set_boot.setFld
theorem Keeps.stepPhase {m : Nat} {s x : State} (h : Keeps m s x) {a1} (hm : Sub 4 m := by exact .of ‹_› rfl) : Keeps m s (State.stepPhase x a1) := by
  unfold State.stepPhase
  extract_lets v1
  have hv1 : Keeps m s v1 := h.phaseStep.event
  exact .ite hv1 hv1.bump.event
theorem Keeps.forgetInst {m : Nat} {s x : State} (h : Keeps m s x) {a1} (hm : Sub 2341871806232657920 m := by exact .of ‹_› rfl) : Keeps m s (State.forgetInst x a1) := (Keeps.part h (.of hm (a := 2341871806232657920) rfl) rfl (later_of rfl rfl rfl rfl) fun g hg => by cases g <;> first | rfl | exact nomatch hg)
theorem Keeps.instFree {m : Nat} {s x : State} (h : Keeps m s x) {a1} (hm : Sub 4215369801108944909 m := by exact .of ‹_› rfl) : Keeps m s (State.instFree x a1) := by
  unfold State.instFree
  extract_lets v1 v2 v3 v4 v5 v6 v7
  have hv2 : Keeps m s v2 := h.keyDrop
  have hv3 : Keeps m s v3 := (.foldl hv2 fun y1 h1 _ => h1.freeRegion)
  have hv4 : Keeps m s v4 := hv3.invApply
  have hv5 : Keeps m s v5 := hv4.setFld
  have hv6 : Keeps m s v6 := hv5.setReg.setTdi
  have hv7 : Keeps m s v7 := hv6.setWreg.setMsix
  exact hv7.forgetInst.countRun.teardownEnd
theorem execInstanceResetEnd_keeps {m : Nat} {s : State} {a1} {x : State} (h : Keeps m s x) (hm : Sub 4233384199618426893 m := by exact .of ‹_› rfl) : OutP m s (execInstanceResetEnd a1 x) := by
  unfold execInstanceResetEnd
  extract_lets v1
  refine .next (.ite h (.ite h.instFree h.setFld.countRun.notify))
theorem Keeps.setCgl {m : Nat} {s x : State} (h : Keeps m s x) {a1 a2} (hm : Sub 8796093022208 m := by exact .of ‹_› rfl) : Keeps m s (State.setCgl x a1 a2) := h.set_cgl
theorem Keeps.dropGuards {m : Nat} {s x : State} (h : Keeps m s x) {a1 a2} (hm : Sub 140737488355328 m := by exact .of ‹_› rfl) : Keeps m s (State.dropGuards x a1 a2) := h.set_guards
theorem Keeps.putList {m : Nat} {s x : State} (h : Keeps m s x) {a1 a2} (hm : Sub 149533581377540 m := by exact .of ‹_› rfl) : Keeps m s (State.putList x a1 a2) := by
  unfold State.putList
  extract_lets v1 v2 v3 v4 v5
  have hv2 : Keeps m s v2 := h.setCgl
  have hv3 : Keeps m s v3 := hv2.setReg.setReg
  have hv4 : Keeps m s v4 := (.foldl hv3 fun y1 h1 _ => h1.setReg)
  have hv5 : Keeps m s v5 := hv4.setReg
  exact hv5.setFld.event.dropGuards
theorem execRotationHandover_keeps {m : Nat} {s : State} {a1} {x : State} (h : Keeps m s x) (hm : Sub 73786976294838208068 m := by exact .of ‹_› rfl) : OutP m s (execRotationHandover a1 x) := by
  unfold execRotationHandover
  extract_lets v1
  refine .next ?_
  split
  · exact h
  · exact .ite h h.rotElastic
theorem execFaddI64_keeps {m : Nat} {s : State} {a1} {x : State} (h : Keeps m s x) (hm : Sub 576496003288402948 m := by exact .of ‹_› rfl) : OutP m s (execFaddI64 a1 x) := by
  unfold execFaddI64
  refine .next h.inbound
theorem Keeps.setRun {m : Nat} {s x : State} (h : Keeps m s x) {a1} (hm : Sub 4 m := by exact .of ‹_› rfl) : Keeps m s (State.setRun x a1) := h.setFld
theorem Keeps.foldTime {m : Nat} {s x : State} (h : Keeps m s x) (hm : Sub 4 m := by exact .of ‹_› rfl) : Keeps m s (State.foldTime x) := by
  unfold State.foldTime
  extract_lets v1
  exact h.setTimeOff.setReg
theorem Keeps.setStep {m : Nat} {s x : State} (h : Keeps m s x) {a1} (hm : Sub 4 m := by exact .of ‹_› rfl) : Keeps m s (State.setStep x a1) := h.foldTime.setFld
theorem Keeps.servo {m : Nat} {s x : State} (h : Keeps m s x) {a1} (hm : Sub 4 m := by exact .of ‹_› rfl) : Keeps m s (State.servo x a1) := by
  unfold State.servo
  extract_lets v1 v2 v3 v4 v5 v6 v7 v8 v9 v10 v11 v12 v13 v14 v15 v16 v17 v18
  have hv7 : Keeps m s v7 := h.bumpFld
  have hv12 : Keeps m s v12 := hv7.setFld
  have hv13 : Keeps m s v13 := (.ite hv12 hv12.event)
  have hv14 : Keeps m s v14 := hv13.setStep
  have hv17 : Keeps m s v17 := hv14.setRun
  have hv18 : Keeps m s v18 := (.ite hv17.setFld hv17)
  exact .ite hv7.stepPhase.setRun.setFld (.ite hv18.setFld.event hv18)
theorem execTimeServoOfs_keeps {m : Nat} {s : State} {a1 a2} {x : State} (h : Keeps m s x) (hm : Sub 1125899916279822 m := by exact .of ‹_› rfl) : OutP m s (execTimeServoOfs a1 a2 x) := by
  unfold execTimeServoOfs
  refine .next (h.mcOnly (fun y1 h1 => (Keeps.answer (.ite h1.bumpFld h1.servo.timeCheck))))
theorem execFinish_keeps {m : Nat} {s : State} {a1 a2 a3} {x : State} (h : Keeps m s x) (hm : Sub 268435458 m := by exact .of ‹_› rfl) : OutP m s (execFinish a1 a2 a3 x) := by
  unfold execFinish
  refine .next (h.inSession (fun y1 h1 a4 => (.ite h1.setSpdm.spdmError h1.setSpdm.spdmReply)))
theorem execGetMeasurements_keeps {m : Nat} {s : State} {a1 a2 a3 a4} {x : State} (h : Keeps m s x) (hm : Sub 2 m := by exact .of ‹_› rfl) : OutP m s (execGetMeasurements a1 a2 a3 a4 x) := by
  unfold execGetMeasurements
  extract_lets v1
  refine .next (h.onAgreed (fun y1 h1 a5 => ?_))
  extract_lets v2 v3
  clear_value v3
  split
  · exact h1.spdmError
  · exact h1.spdmReply
theorem execVmax_keeps {m : Nat} {s : State} {a1} {x : State} (h : Keeps m s x) (hm : Sub 32225887244 m := by exact .of ‹_› rfl) : OutP m s (execVmax a1 x) := by
  unfold execVmax
  refine .next (h.vceIssue (fun y1 h1 a2 => h1.vceOp))
theorem Keeps.tdiReport {m : Nat} {s x : State} (h : Keeps m s x) {a1} (hm : Sub 2 m := by exact .of ‹_› rfl) : Keeps m s (State.tdiReport x a1) := by
  unfold State.tdiReport
  extract_lets v1
  exact h.spdmReply
theorem execGrpCreate_keeps {m : Nat} {s : State} {a1 a2} {x : State} (h : Keeps m s x) (hm : Sub 1026838889208224782 m := by exact .of ‹_› rfl) : OutP m s (execGrpCreate a1 a2 x) := by
  unfold execGrpCreate
  refine .next (h.brsRun (fun y1 h1 a3 => (.ite h1.brsState h1.grpCreate)))
theorem Keeps.upsetAt {m : Nat} {s x : State} (h : Keeps m s x) {a1 a2} (hm : Sub 3072 m := by exact .of ‹_› rfl) : Keeps m s (State.upsetAt x a1 a2) := by
  unfold State.upsetAt
  split
  · exact h.scrUpset
  · exact h.devUpset
theorem Keeps.onTdi {m : Nat} {s x : State} (h : Keeps m s x) {a1 a2 a3} {a4 : State → State} (k4 : ∀ z1, Keeps m s z1 → Keeps m s (a4 z1)) (hm : Sub 2 m := by exact .of ‹_› rfl) : Keeps m s (State.onTdi x a1 a2 a3 a4) := h.inSession (fun y1 h1 a5 => (.ite (k4 _ h1) h1.spdmError))
theorem Keeps.tdiRefuse {m : Nat} {s x : State} (h : Keeps m s x) {a1} (hm : Sub 4194310 m := by exact .of ‹_› rfl) : Keeps m s (State.tdiRefuse x a1) := h.refuseLog.spdmError
theorem execStartInterface_keeps {m : Nat} {s : State} {a1 a2 a3} {x : State} (h : Keeps m s x) (hm : Sub 138412038 m := by exact .of ‹_› rfl) : OutP m s (execStartInterface a1 a2 a3 x) := by
  unfold execStartInterface
  extract_lets v1
  refine .next (h.onTdi (fun y1 h1 => (.ite h1.tdiRefuse h1.setTdi.spdmReply)))
theorem execMsixUnmask_keeps {m : Nat} {s : State} {a1 a2} {x : State} (h : Keeps m s x) (hm : Sub 432345564361785344 m := by exact .of ‹_› rfl) : OutP m s (execMsixUnmask a1 a2 x) := by
  unfold execMsixUnmask
  extract_lets v1 v2
  refine .next (.ite h.set_tdi h.setMsix.msixSend)
theorem Keeps.admitSeq {m : Nat} {s x : State} (h : Keeps m s x) {a1 a2} (hm : Sub 17592199675918 m := by exact .of ‹_› rfl) : Keeps m s (State.admitSeq x a1 a2) := by
  unfold State.admitSeq
  extract_lets v1 v2 v3
  refine h.onGroup (fun y1 h1 => ?_)
  extract_lets v4 v5 v6 v7
  have hv6 : Keeps m s v6 := h1.setBrsGrp
  have hv7 : Keeps m s v7.2 := h1.takeEntry
  exact .ite h1.answer (.ite h1.brsState (.ite h1.bump.answer (.ite (.ite hv6.setFld.bump.answer h1.bump.answer) hv7.bump.answer)))
theorem execRaise_keeps {m : Nat} {s : State} {a1 a2} {x : State} (h : Keeps m s x) (hm : Sub 32255247372 m := by exact .of ‹_› rfl) : OutP m s (execRaise a1 a2 x) := by
  unfold execRaise
  refine .next (h.issue (fun y1 h1 => h1.raiseEvt))
theorem execTmEnqCtlReset_keeps {m : Nat} {s : State} {a1 a2} {x : State} (h : Keeps m s x) (hm : Sub 580964384158780430 m := by exact .of ‹_› rfl) : OutP m s (execTmEnqCtlReset a1 a2 x) := by
  unfold execTmEnqCtlReset
  extract_lets v1
  refine .next (h.ownerOnly (fun y1 h1 => (h1.ungated (fun y2 h2 => h2.tmWinReset.answer))))
theorem execReplayTimer_keeps {m : Nat} {s : State} {a1} {x : State} (h : Keeps m s x) (hm : Sub 35184372088836 m := by exact .of ‹_› rfl) : OutP m s (execReplayTimer a1 x) := by
  unfold execReplayTimer
  extract_lets v1
  refine .next (.ite h.bumpFld.replay h)
theorem execInstCreate_keeps {m : Nat} {s : State} {a1 a2 a3 a4} {x : State} (h : Keeps m s x) (hm : Sub 4094353494874127375 m := by exact .of ‹_› rfl) : OutP m s (execInstCreate a1 a2 a3 a4 x) := by
  unfold execInstCreate
  refine .next h.prtWrite
theorem execPolarEnc_keeps {m : Nat} {s : State} {a1 a2 a3 a4} {x : State} (h : Keeps m s x) (hm : Sub 577023734484831246 m := by exact .of ‹_› rfl) : OutP m s (execPolarEnc a1 a2 a3 a4 x) := by
  unfold execPolarEnc
  refine .next h.fecPush
theorem execFecDeadline_keeps {m : Nat} {s : State} {a1} {x : State} (h : Keeps m s x) (hm : Sub 577023734499511308 m := by exact .of ‹_› rfl) : OutP m s (execFecDeadline a1 x) := by
  unfold execFecDeadline
  extract_lets v1
  have hv1 : Keeps m s v1 := h.elapse
  refine .next ?_
  split
  · exact hv1.fecTooLate
  · exact hv1
theorem execLaneLockLoss_keeps {m : Nat} {s : State} {a1 a2} {x : State} (h : Keeps m s x) (hm : Sub 35218731828228 m := by exact .of ‹_› rfl) : OutP m s (execLaneLockLoss a1 a2 x) := by
  unfold execLaneLockLoss
  extract_lets v1 v2 v3 v4 v5 v6 v7
  have hv4 : Keeps m s v4 := h.setFld.setPort
  have hv6 : Keeps m s v6 := hv4.event.errLog
  refine .next (.ite h (.ite hv4.setPort.setFld (.ite hv6.retirePort hv6.setPort.toRecovery)))
theorem Keeps.cellRefuse {m : Nat} {s x : State} (h : Keeps m s x) {a1} (hm : Sub 4194310 m := by exact .of ‹_› rfl) : Keeps m s (State.cellRefuse x a1) := h.bump.refuseReg
theorem Keeps.raiseGroups {m : Nat} {s x : State} (h : Keeps m s x) {a1 a2 a3} (hm : Sub 1028 m := by exact .of ‹_› rfl) : Keeps m s (State.raiseGroups x a1 a2 a3) := by
  unfold State.raiseGroups
  refine .foldl h fun y1 h1 a4 => ?_
  extract_lets v1
  exact .ite h1 h1.raiseEvt
theorem Keeps.hubTask {m : Nat} {s x : State} (h : Keeps m s x) {a1 a2 a3} (hm : Sub 15729676 m := by exact .of ‹_› rfl) : Keeps m s (State.hubTask x a1 a2 a3).2.2 := by
  unfold State.hubTask
  refine ite_ind (P := fun r : Option Nat × Bool × State => Keeps m s r.2.2) ?_ (ite_ind (P := fun r : Option Nat × Bool × State => Keeps m s r.2.2) ?_ ?_)
  · dsimp -zeta only
    exact h.gatedLog
  · dsimp -zeta only
    exact h
  · extract_lets v1 v2
    refine ite_ind (P := fun r : Option Nat × Bool × State => Keeps m s r.2.2) ?_ ?_
    · dsimp -zeta only
      exact h.setCtx.acceptTask
    · dsimp -zeta only
      exact h.acceptTask
theorem execTaskAccept_keeps {m : Nat} {s : State} {a1 a2} {x : State} (h : Keeps m s x) (hm : Sub 15729678 m := by exact .of ‹_› rfl) : OutP m s (execTaskAccept a1 a2 x) := by
  unfold execTaskAccept
  extract_lets v1
  refine .next ?_
  split
  · exact .ite h h.acceptTask
  · extract_lets v2
    have hv2 : Keeps m s v2.2.2 := h.hubTask
    split
    · exact hv2.answer
    · exact hv2
theorem Keeps.enterRecovery {m : Nat} {s x : State} (h : Keeps m s x) (hm : Sub 75557863725914323419140 m := by exact .of ‹_› rfl) : Keeps m s (State.enterRecovery x) := by
  unfold State.enterRecovery
  dsimp -zeta only
  exact h.setFld.set_boot
theorem Keeps.epochNotices {m : Nat} {s x : State} (h : Keeps m s x) {a1 a2 a3 a4} (hm : Sub 52810917880836 m := by exact .of ‹_› rfl) : Keeps m s (State.epochNotices x a1 a2 a3 a4) := by
  unfold State.epochNotices
  extract_lets v1 v2 v3 v4 v5 v6
  have hv5 : Keeps m s v5 := (.foldl h fun y1 h1 _ => (.foldl h1 fun y2 h2 _ => h2.fabIssue))
  exact .ite hv5 hv5.set_brs
theorem Keeps.mbxAnswer {m : Nat} {s : State} {a1} (k1 : Keeps m s a1.2) (hm : Sub 2 m := by exact .of ‹_› rfl) : Keeps m s (State.mbxAnswer a1) := k1.answer
theorem Keeps.mbxReadMany {m : Nat} {s x : State} (h : Keeps m s x) {a1 a2 a3 a4 a5} (hm : Sub 522417588987233284 m := by exact .of ‹_› rfl) : Keeps m s (State.mbxReadMany x a1 a2 a3 a4 a5).2 := by
  induction a5 generalizing x a1 a2 a3 a4 with
  | zero =>
    unfold State.mbxReadMany
    dsimp -zeta only
    exact h
  | succ n ih =>
    unfold State.mbxReadMany
    split
    · dsimp -zeta only
      exact h
    · extract_lets v1 v2
      have hv1 : Keeps m s v1.2 := h.mbxRead
      have hv2 : Keeps m s v2 := hv1
      split
      · dsimp -zeta only
        exact hv2.set_epPtr
      · apply ih
        exact hv2
theorem execMbxEpRecv_keeps {m : Nat} {s : State} {a1 a2} {x : State} (h : Keeps m s x) (hm : Sub 522417588987233286 m := by exact .of ‹_› rfl) : OutP m s (execMbxEpRecv a1 a2 x) := by
  unfold execMbxEpRecv
  refine .next h.mbxReadMany.mbxAnswer
theorem execDownToArb_keeps {m : Nat} {s : State} {a1} {x : State} (h : Keeps m s x) (hm : Sub 35184372088836 m := by exact .of ‹_› rfl) : OutP m s (execDownToArb a1 x) := by
  unfold execDownToArb
  extract_lets v1
  refine .next (.ite h.startArb h)
theorem Keeps.cremaRead {m : Nat} {s x : State} (h : Keeps m s x) {a1 a2} (hm : Sub 32247909380 m := by exact .of ‹_› rfl) : Keeps m s (State.cremaRead x a1 a2).2.2 := by
  unfold State.cremaRead
  refine foldl_ind (P := fun r : List Nat × Nat × State => Keeps m s r.2.2) ?_ fun y1 h1 a3 => ?_
  · dsimp -zeta only
    exact h
  · extract_lets v1
    have hv1 : Keeps m s v1.2 := h1.accRead
    dsimp -zeta only
    exact hv1
theorem execTmeQreset_keeps {m : Nat} {s : State} {a1 a2 a3} {x : State} (h : Keeps m s x) (hm : Sub 9222 m := by exact .of ‹_› rfl) : OutP m s (execTmeQreset a1 a2 a3 x) := by
  unfold execTmeQreset
  extract_lets v1 v2
  have hv1 : Keeps m s v1 := (.ite h.tmeReset h)
  have hv2 : Keeps m s v2 := (.ite hv1.tmeReset hv1)
  refine .next hv2.answer
theorem Keeps.build {m : Nat} {s x : State} (h : Keeps m s x) {a1} (hm : Sub 576478651579640836 m := by exact .of ‹_› rfl) : Keeps m s (State.build x a1).s := by
  unfold State.build
  extract_lets pick b
  have hb : Keeps m s b.s := foldl_ind (P := fun r : Build => Keeps m s r.s) h fun y hy _ =>
    foldl_ind (P := fun r : Build => Keeps m s r.s) hy fun _ hz _ => Build_decode_keeps hz
  exact foldl_ind (P := fun r : Build => Keeps m s r.s) hb fun y hy _ =>
    foldl_ind (P := fun r : Build => Keeps m s r.s) hy fun _ hz _ => Build_prefill_keeps hz

theorem Keeps.countEpochs {m : Nat} {s x : State} (h : Keeps m s x) {a1} (hm : Sub 4 m := by exact .of ‹_› rfl) : Keeps m s (State.countEpochs x a1) := h.setFld
theorem Keeps.brsSend {m : Nat} {s x : State} (h : Keeps m s x) {a1} (hm : Sub 17592201774092 m := by exact .of ‹_› rfl) : Keeps m s (State.brsSend x a1) := by
  unfold State.brsSend
  extract_lets v1 v2 v3
  have hv2 : Keeps m s v2.1 := by
    unfold v2
    refine foldl_ind (P := fun r : State × List BrsTask => Keeps m s r.1) ?_ fun y1 h1 _ => (ite_ind (P := fun r : State × List BrsTask => Keeps m s r.1) h1 ?_)
    · dsimp -zeta only
      exact h
    · extract_lets v4
      have hv4 : Keeps m s v4.2.2 := h1.hubTask
      dsimp -zeta only
      exact hv4
  exact hv2.setBrsGrp
theorem Keeps.dispatchStep {m : Nat} {s x : State} (h : Keeps m s x) {a1 a2} (hm : Sub 576478376717454348 m := by exact .of ‹_› rfl) : Keeps m s (State.dispatchStep x a1 a2) := by
  unfold State.dispatchStep
  extract_lets v1 v2 v3 v4 v5 v6 v7
  have hv2 : Keeps m s v2 := (.foldl h fun y1 h1 _ => h1.devWrite)
  exact .ite hv2 hv2.setBrsGrp.brsSend
theorem Keeps.buildAndDispatch {m : Nat} {s x : State} (h : Keeps m s x) {a1} (hm : Sub 576478651595369484 m := by exact .of ‹_› rfl) : Keeps m s (State.buildAndDispatch x a1) := by
  unfold State.buildAndDispatch
  extract_lets v1
  have hv1 : Keeps m s v1.s := h.build
  exact hv1.dispatchStep.countEpochs
theorem Keeps.grpDestroy {m : Nat} {s x : State} (h : Keeps m s x) {a1 a2} (hm : Sub 13631502 m := by exact .of ‹_› rfl) : Keeps m s (State.grpDestroy x a1 a2) := h.onGroup (fun y1 h1 => (.ite h1.brsState h1.setGrpState.answer))
theorem Keeps.fecCountBlock {m : Nat} {s x : State} (h : Keeps m s x) {a1 a2} (hm : Sub 4 m := by exact .of ‹_› rfl) : Keeps m s (State.fecCountBlock x a1 a2) := by
  unfold State.fecCountBlock
  refine .ite ?_ h.bump64
  extract_lets v1
  have hv1 : Keeps m s v1 := h.bump64.bump64
  exact .ite hv1 hv1.bump
theorem Keeps.fecReads {m : Nat} {s x : State} (h : Keeps m s x) {a1 a2} (hm : Sub 32212257796 m := by exact .of ‹_› rfl) : Keeps m s (State.fecReads x a1 a2) := by
  unfold State.fecReads
  extract_lets v1 v2
  have hv2 : Keeps m s v2 := h.devChecked
  exact .ite (.ite hv2.devChecked hv2) h.devChecked
theorem Keeps.fecBlockEnd {m : Nat} {s x : State} (h : Keeps m s x) {a1 a2 a3 a4} (hm : Sub 562982165679108 m := by exact .of ‹_› rfl) : Keeps m s (State.fecBlockEnd x a1 a2 a3 a4) := by
  unfold State.fecBlockEnd
  refine .ite ?_ (.ite h.setFecJob ?_)
  · extract_lets v1
    have hv1 : Keeps m s v1 := h.bump.countErr
    exact hv1.setFecJob
  · extract_lets v1 v2
    have hv2 : Keeps m s v2 := h.fecReads.fecCountBlock
    exact hv2.setFecJob
theorem execCodeBlockEnd_keeps {m : Nat} {s : State} {a1 a2} {x : State} (h : Keeps m s x) (hm : Sub 562982165679108 m := by exact .of ‹_› rfl) : OutP m s (execCodeBlockEnd a1 a2 x) := by
  unfold execCodeBlockEnd
  refine .next ?_
  split
  · exact h
  · extract_lets v1 v2
    have hv2 : Keeps m s v2 := h.set_fec
    split
    · exact hv2
    · exact hv2.fecBlockEnd
theorem execPowerRemoval_keeps {m : Nat} {s x : State} (h : Keeps m s x) (hm : Sub 151115727451828646838271 m := by exact .of ‹_› rfl) : OutP m s (execPowerRemoval x) := by
  unfold execPowerRemoval
  refine .next ?_
  extract_lets v1
  have hv1 : Keeps m s v1 := h.chipReset
  exact (Keeps.part hv1 (.of hm (a := 2398076729582241710080) rfl) rfl (later_of rfl rfl rfl rfl) fun g hg => by cases g <;> first | rfl | exact nomatch hg)
theorem Keeps.setClass {m : Nat} {s x : State} (h : Keeps m s x) {a1 a2 a3 a4} (hm : Sub 17592199675918 m := by exact .of ‹_› rfl) : Keeps m s (State.setClass x a1 a2 a3 a4) := h.onSeq (fun y1 h1 a5 => h1.setBrsEnt.answer)
theorem execSetClass_keeps {m : Nat} {s : State} {a1 a2} {x : State} (h : Keeps m s x) (hm : Sub 450377587148981262 m := by exact .of ‹_› rfl) : OutP m s (execSetClass a1 a2 x) := by
  unfold execSetClass
  refine .next (h.seqCommand (fun y1 h1 a3 => h1.setClass))
theorem Keeps.tmeAccept {m : Nat} {s x : State} (h : Keeps m s x) {a1 a2 a3} (hm : Sub 13632524 m := by exact .of ‹_› rfl) : Keeps m s (State.tmeAccept x a1 a2 a3) := by
  unfold State.tmeAccept
  extract_lets v1 v2
  refine .ite h ?_
  split
  · exact h
  · extract_lets v3 v4 v5
    refine .ite h (.ite h.setTme.bump ?_)
    split
    · extract_lets v6
      have hv6 : Keeps m s v6 := h.setTme
      exact .ite hv6.stateAt (.ite hv6.charge hv6)
    · exact h.setTme
theorem execCopy_keeps {m : Nat} {s : State} {a1} {x : State} (h : Keeps m s x) (hm : Sub 13632524 m := by exact .of ‹_› rfl) : OutP m s (execCopy a1 x) := by
  unfold execCopy
  refine .next h.tmeAccept
theorem Keeps.gateSwapSet {m : Nat} {s x : State} (h : Keeps m s x) {a1 a2 a3 a4} (hm : Sub 4503599627370500 m := by exact .of ‹_› rfl) : Keeps m s (State.gateSwapSet x a1 a2 a3 a4) := by
  unfold State.gateSwapSet
  extract_lets v1 v2 v3 v4 v5
  have hv4 : Keeps m s v4 := h.setGate
  have hv5 : Keeps m s v5 := hv4.setFld
  exact .ite hv5 hv5.event
theorem Keeps.elasticHandovers {m : Nat} {s x : State} (h : Keeps m s x) {a1} (hm : Sub 73786976294838208196 m := by exact .of ‹_› rfl) : Keeps m s (State.elasticHandovers x a1) := by
  unfold State.elasticHandovers
  extract_lets v1 v2
  have hv2 : Keeps m s v2 := (.foldl h fun y1 h1 _ => h1.takeOver)
  exact .foldl hv2 fun y1 h1 _ => h1.rotElastic
theorem Keeps.modBrsEnt {m : Nat} {s x : State} (h : Keeps m s x) {a1 a2} (hm : Sub 17592186044416 m := by exact .of ‹_› rfl) : Keeps m s (State.modBrsEnt x a1 a2) := h.setBrsEnt
theorem Keeps.endSeq {m : Nat} {s x : State} (h : Keeps m s x) {a1 a2 a3} (hm : Sub 576478376701733892 m := by exact .of ‹_› rfl) : Keeps m s (State.endSeq x a1 a2 a3) := by
  unfold State.endSeq
  extract_lets v1 v2 v3
  have hv2 : Keeps m s v2 := h.outRecord
  have hv3 : Keeps m s v3 := (.foldl hv2 fun y1 h1 _ => h1.releaseBlock)
  exact hv3.modBrsEnt
theorem Keeps.endAll {m : Nat} {s x : State} (h : Keeps m s x) {a1 a2} (hm : Sub 576478376701733892 m := by exact .of ‹_› rfl) : Keeps m s (State.endAll x a1 a2) := .foldl h fun y1 h1 _ => h1.endSeq.removeEnt
theorem Keeps.admitWaiters {m : Nat} {s x : State} (h : Keeps m s x) {a1 a2} (hm : Sub 576478376701725700 m := by exact .of ‹_› rfl) : Keeps m s (State.admitWaiters x a1 a2) := by
  induction a2 generalizing x a1 with
  | zero =>
    unfold State.admitWaiters
    exact h
  | succ n ih =>
    unfold State.admitWaiters
    split
    · exact h
    · refine .ite ?_ h
      extract_lets v1 v2 v3 v4
      have hv1 : Keeps m s v1.2 := h.takeEntry
      have hv3 : Keeps m s v3 := hv1.setBrsGrp
      have hv4 : Keeps m s v4 := hv3.setFld
      apply ih
      exact hv4.outRecord
theorem Keeps.keyRead {m : Nat} {s x : State} (h : Keeps m s x) {a1 a2} (hm : Sub 32212257796 m := by exact .of ‹_› rfl) : Keeps m s (State.keyRead x a1 a2) := h.devChecked
theorem Keeps.lookup {m : Nat} {s x : State} (h : Keeps m s x) {a1 a2 a3} (hm : Sub 576478376701725700 m := by exact .of ‹_› rfl) : Keeps m s (State.lookup x a1 a2 a3) := by
  induction a3 generalizing x a1 a2 with
  | zero =>
    unfold State.lookup
    exact h
  | succ n ih =>
    unfold State.lookup
    extract_lets v1 v2 v3
    have hv3 : Keeps m s v3 := h.keyRead
    refine .ite ?_ h
    split
    · exact hv3
    · extract_lets v4 v5 v6
      have hv5 : Keeps m s v5 := hv3.setBrsBlk
      have hv6 : Keeps m s v6 := hv5.setBrsEnt
      apply ih
      exact hv6.writeTable.bump
theorem Keeps.promote {m : Nat} {s x : State} (h : Keeps m s x) {a1} (hm : Sub 576478376701725700 m := by exact .of ‹_› rfl) : Keeps m s (State.promote x a1) := h.modBrsEnt.lookup
theorem Keeps.admitAndBuild {m : Nat} {s x : State} (h : Keeps m s x) {a1} (hm : Sub 576478651595369484 m := by exact .of ‹_› rfl) : Keeps m s (State.admitAndBuild x a1) := by
  unfold State.admitAndBuild
  extract_lets v1 v2 v3
  have hv1 : Keeps m s v1 := h.admitWaiters
  have hv2 : Keeps m s v2 := (.foldl hv1 fun y1 h1 _ => h1.promote)
  exact .ite hv2.buildAndDispatch hv2.bump.setBrsGrp
theorem Keeps.boundary {m : Nat} {s x : State} (h : Keeps m s x) {a1} (hm : Sub 75534391399305838287 m := by exact .of ‹_› rfl) : Keeps m s (State.boundary x a1) := by
  unfold State.boundary
  extract_lets v1 v2 v3 v4 v5 v6
  have hv1 : Keeps m s v1 := (.foldl h fun y1 h1 _ => h1.removeEnt)
  have hv2 : Keeps m s v2 := hv1.migrations.elasticHandovers.cardSwaps
  have hv5 : Keeps m s v5 := hv2.endAll.destroyGroup.answer
  have hv6 : Keeps m s v6 := (.ite hv2.setBrsGrp.setGrpState hv2)
  refine .ite ?_ (.ite hv2.endAll.destroyGroup (.ite hv6 hv6.admitAndBuild))
  split
  · exact hv5.brsReply
  · exact hv5
theorem execPrtModeWrite_keeps {m : Nat} {s : State} {a1 a2} {x : State} (h : Keeps m s x) (hm : Sub 13631502 m := by exact .of ‹_› rfl) : OutP m s (execPrtModeWrite a1 a2 x) := by
  unfold execPrtModeWrite
  extract_lets v1
  refine .next (h.mcOnly (fun y1 h1 => ?_))
  extract_lets v2 v3
  have hv3 : Keeps m s v3 := h1.bump.refuseReg
  exact .ite hv3 (.ite h1.answer (.ite (.ite hv3 h1.setFld.answer) (.ite hv3 (.ite hv3 h1.setFld.answer))))
theorem Keeps.measure3 {m : Nat} {s x : State} (h : Keeps m s x) (hm : Sub 4 m := by exact .of ‹_› rfl) : Keeps m s (State.measure3 x) := h.setMeas
theorem Keeps.confirmFuses {m : Nat} {s x : State} (h : Keeps m s x) (hm : Sub 4722366482869645213700 m := by exact .of ‹_› rfl) : Keeps m s (State.confirmFuses x) := by
  unfold State.confirmFuses
  extract_lets sign keep keys f y z
  have hy : Keeps m s y := h.part (.of hm (a := 2 ^ 72) rfl) rfl
    ⟨rfl, rfl, Nat.le_max_left _ _, fun i => ⟨i.1, i.2, Nat.max_le.2 ⟨i.3, Nat.min_le_left _ _⟩⟩⟩ fun g hg => by
      cases g <;> first | rfl | exact nomatch hg
  have hz : Keeps m s z := .ite hy.event hy
  exact hz.showFuses.setFld.measure3

theorem Keeps.cmdStored {m : Nat} {s x : State} (h : Keeps m s x) (hm : Sub 80280230208783968632838 m := by exact .of ‹_› rfl) : Keeps m s (State.cmdStored x) := by
  unfold State.cmdStored
  split
  · exact .ite h (.ite h.confirmFuses.imgDone h.imgDone)
  · exact h
theorem Keeps.cmdLost {m : Nat} {s x : State} (h : Keeps m s x) {a1} (hm : Sub 75557863725914327613446 m := by exact .of ‹_› rfl) : Keeps m s (State.cmdLost x a1) := by
  unfold State.cmdLost
  split
  · exact h.set_boot.refuseLog.imgDone
  · exact h
theorem Keeps.storeDone {m : Nat} {s x : State} (h : Keeps m s x) {a1 a2 a3 a4 a5 a6} (hm : Sub 136948628003219715391494 m := by exact .of ‹_› rfl) : Keeps m s (State.storeDone x a1 a2 a3 a4 a5 a6) := by
  unfold State.storeDone
  extract_lets v1 v2 v3 v4 v5 v6 v7 v8 v9
  have hv2 : Keeps m s v2 := h.set_boot
  have hv3 : Keeps m s v3 := hv2.setBank
  have hv5 : Keeps m s v5 := hv2.setBank
  have hv7 : Keeps m s v7 := hv5.event.bump
  have hv9 : Keeps m s v9 := hv7.set_boot
  refine .ite (.ite hv3.set_boot.psStat hv3.psStat.cmdStored) (.ite h.set_boot.setBank (Keeps.psStat (.ite ?_ hv9.cmdLost)))
  split
  · exact hv9.refuseLog.imgDone
  · exact hv9
theorem execFlashProgramDone_keeps {m : Nat} {s : State} {a1 a2} {x : State} (h : Keeps m s x) (hm : Sub 146393360968959005818887 m := by exact .of ‹_› rfl) : OutP m s (execFlashProgramDone a1 a2 x) := by
  unfold execFlashProgramDone
  refine .next (.ite ?_ ?_)
  · split
    · exact h.storeDone
    · exact h.set_boot.setBank.psStat.imgDone
    · exact h
  · split
    · extract_lets v1 v2 v3
      have hv2 : Keeps m s v2 := h.set_boot
      have hv3 : Keeps m s v3 := (.ite hv2.programUnits hv2.anyUnits)
      split
      · exact hv2.programUnits.imgDone
      · exact hv3.setReg
    · exact h
theorem execPcieConfigWrite_keeps {m : Nat} {s : State} {a1 a2} {x : State} (h : Keeps m s x) (hm : Sub 432345564361785348 m := by exact .of ‹_› rfl) : OutP m s (execPcieConfigWrite a1 a2 x) := by
  unfold execPcieConfigWrite
  extract_lets v1
  refine .next (.ite h ?_)
  split
  · exact .ite h h.setFld.setFld.attach
  · split
    · exact h
    · extract_lets v2 v3
      have hv3 : Keeps m s v3 := h.setMsix
      exact .foldl hv3 fun y1 h1 _ => h1.msixSend
  · split
    · exact h
    · exact h.tdiError
theorem execTimeNowNsRead_keeps {m : Nat} {s : State} {a1} {x : State} (h : Keeps m s x) (hm : Sub 14 m := by exact .of ‹_› rfl) : OutP m s (execTimeNowNsRead a1 x) := by
  unfold execTimeNowNsRead
  refine .next ?_
  split
  · exact h.setReg.answer
  · extract_lets v1
    have hv1 : Keeps m s v1 := h.setWreg
    exact hv1.set_reply
theorem execImgConfirm_keeps {m : Nat} {s : State} {a1} {x : State} (h : Keeps m s x) (hm : Sub 75557863725914337050638 m := by exact .of ‹_› rfl) : OutP m s (execImgConfirm a1 x) := by
  unfold execImgConfirm
  extract_lets v1
  refine .next (h.imgCommand (fun y1 h1 => (.ite h1.imgRefuse h1.set_boot.imgBusy)))
theorem Keeps.ulMark {m : Nat} {s x : State} (h : Keeps m s x) {a1 a2 a3 a4 a5} (hm : Sub 576460784515681284 m := by exact .of ‹_› rfl) : Keeps m s (State.ulMark x a1 a2 a3 a4 a5) := by
  unfold State.ulMark
  extract_lets v1 v2
  exact h.devWrite
theorem Keeps.ulWrite {m : Nat} {s x : State} (h : Keeps m s x) {a1 a2 a3 a4 a5 a6 a7} (hm : Sub 576460784515681284 m := by exact .of ‹_› rfl) : Keeps m s (State.ulWrite x a1 a2 a3 a4 a5 a6 a7) := by
  unfold State.ulWrite
  refine .foldl h fun y1 h1 a8 => ?_
  extract_lets v1 v2 v3 v4 v5
  have hv2 : Keeps m s v2 := h1.bumpFld
  exact hv2.devWrite
theorem Keeps.ulAccept {m : Nat} {s x : State} (h : Keeps m s x) {a1 a2 a3 a4 a5 a6 a7 a8} (hm : Sub 576460784515681284 m := by exact .of ‹_› rfl) : Keeps m s (State.ulAccept x a1 a2 a3 a4 a5 a6 a7 a8) := by
  unfold State.ulAccept
  extract_lets v1 v2 v3 v4 v5 v6
  exact .ite h.bump (.ite h.bump.lateSym (.ite h.bump.event (Keeps.ulMark (.foldl h fun y1 h1 _ => h1.ulWrite))))
theorem Keeps.seqCheck {m : Nat} {s x : State} (h : Keeps m s x) {a1 a2 a3} (hm : Sub 4503599627370500 m := by exact .of ‹_› rfl) : Keeps m s (State.seqCheck x a1 a2 a3) := by
  unfold State.seqCheck
  extract_lets v1 v2 v3 v4
  have hv4 : Keeps m s v4 := h.set_tm
  exact .ite hv4 hv4.bump
theorem Keeps.rxUplane {m : Nat} {s x : State} (h : Keeps m s x) {a1 a2 a3 a4} (hm : Sub 580964384143051780 m := by exact .of ‹_› rfl) : Keeps m s (State.rxUplane x a1 a2 a3 a4) := by
  unfold State.rxUplane
  extract_lets v1 v2 v3 v4 v5
  split
  · exact h.bump
  · extract_lets v6 v7 v8
    refine .ite h.bump ?_
    clear_value v8
    split
    · exact h.bump
    · exact .ite h.bump h.seqCheck.ulAccept
theorem Keeps.setPol {m : Nat} {s x : State} (h : Keeps m s x) {a1 a2} (hm : Sub 4503599627370496 m := by exact .of ‹_› rfl) : Keeps m s (State.setPol x a1 a2) := h.set_tm
theorem Keeps.police {m : Nat} {s x : State} (h : Keeps m s x) {a1 a2} (hm : Sub 4503599627370496 m := by exact .of ‹_› rfl) : Keeps m s (State.police x a1 a2).2 := by
  unfold State.police
  refine ite_ind (P := fun r : Colour × State => Keeps m s r.2) ?_ ?_
  · dsimp -zeta only
    exact h
  · extract_lets v1 v2
    refine ite_ind (P := fun r : Colour × State => Keeps m s r.2) ?_ (ite_ind (P := fun r : Colour × State => Keeps m s r.2) ?_ ?_)
    · dsimp -zeta only
      exact h.setPol
    · dsimp -zeta only
      exact h.setPol
    · dsimp -zeta only
      exact h.setPol
theorem Keeps.toHostQueue {m : Nat} {s x : State} (h : Keeps m s x) {a1 a2 a3} (hm : Sub 4503599627370500 m := by exact .of ‹_› rfl) : Keeps m s (State.toHostQueue x a1 a2 a3) := by
  unfold State.toHostQueue
  extract_lets v1
  refine .ite h.bump.tmCountDrop ?_
  split
  · rename_i q1 q2 q3 q4
    have hq1 : Keeps m s q3 := OptP.of_eq (P := fun z : Nat × State => Keeps m s z.2) h.tmTake q4
    exact hq1.tmEnqueue
  · exact .ite h.bump.tmCountDrop h.bump.event.tmCountDrop
theorem Keeps.classify {m : Nat} {s x : State} (h : Keeps m s x) {a1 a2 a3} (hm : Sub 4503599627370500 m := by exact .of ‹_› rfl) : Keeps m s (State.classify x a1 a2 a3) := by
  unfold State.classify
  extract_lets v1 v2
  split
  · exact h.bump
  · extract_lets v3 v4
    have hv4 : Keeps m s v4.2 := by
      unfold v4
      refine ite_ind (P := fun r : Colour × State => Keeps m s r.2) h.police ?_
      dsimp -zeta only
      exact h
    exact .ite h.bump (.ite hv4.bump hv4.toHostQueue)
theorem Keeps.frameIn {m : Nat} {s x : State} (h : Keeps m s x) {a1 a2 a3} (hm : Sub 580964384143051780 m := by exact .of ‹_› rfl) : Keeps m s (State.frameIn x a1 a2 a3) := by
  unfold State.frameIn
  extract_lets v1 v2 v3 v4 v5
  have hv3 : Keeps m s v3 := h.bump64
  exact .ite hv3.bump (.ite hv3.bump (.ite hv3.bump (.ite hv3.rxMc (.ite (.ite hv3.bump (.ite hv3.rxMc hv3.rxUplane)) hv3.classify))))
theorem execFrameRx_keeps {m : Nat} {s : State} {a1 a2 a3 a4} {x : State} (h : Keeps m s x) (hm : Sub 580964384159828996 m := by exact .of ‹_› rfl) : OutP m s (execFrameRx a1 a2 a3 a4 x) := by
  unfold execFrameRx
  extract_lets v1
  have hv1 : Keeps m s v1 := h.elapse
  refine .next (.ite hv1 hv1.frameIn)
theorem execSwapReq_keeps {m : Nat} {s : State} {a1 a2} {x : State} (h : Keeps m s x) (hm : Sub 35218731827204 m := by exact .of ‹_› rfl) : OutP m s (execSwapReq a1 a2 x) := by
  unfold execSwapReq
  extract_lets v1 v2 v3 v4
  have hv4 : Keeps m s v4 := h.setPort
  refine .next (.ite h (.ite h.setPort.lnkPump hv4.setFld.setFld))
theorem execSymbolSendTime_keeps {m : Nat} {s : State} {a1 a2 a3 a4 a5 a6} {x : State} (h : Keeps m s x) (hm : Sub 4503599644147716 m := by exact .of ‹_› rfl) : OutP m s (execSymbolSendTime a1 a2 a3 a4 a5 a6 x) := by
  unfold execSymbolSendTime
  extract_lets v1 v2 v3 v4
  have hv1 : Keeps m s v1 := h.elapse
  refine .next (.ite hv1 ?_)
  split
  · exact hv1.setSym.lateSym
  · exact hv1.setSym
  · exact hv1
theorem execFabricReply_keeps {m : Nat} {s : State} {a1} {x : State} (h : Keeps m s x) (hm : Sub 35218741265420 m := by exact .of ‹_› rfl) : OutP m s (execFabricReply a1 x) := by
  unfold execFabricReply
  extract_lets v1
  have hv1 : Keeps m s v1.2 := h.rxTake
  refine .next ?_
  split
  · exact h
  · exact .ite hv1.reply1 h
theorem execCollisionRound_keeps {m : Nat} {s : State} {a1} {x : State} (h : Keeps m s x) (hm : Sub 35184372088836 m := by exact .of ‹_› rfl) : OutP m s (execCollisionRound a1 x) := by
  unfold execCollisionRound
  extract_lets v1 v2
  refine .next (.ite h.setPort.bumpFld h)
theorem execVceRun_keeps {m : Nat} {s : State} {a1} {x : State} (h : Keeps m s x) (hm : Sub 13632524 m := by exact .of ‹_› rfl) : OutP m s (execVceRun a1 x) := by
  unfold execVceRun
  extract_lets v1 v2 v3 v4 v5
  refine .next (.ite h ?_)
  split
  · exact h
  · extract_lets v6 v7 v8 v9 v10 v11
    have hv10 : ∀ z1, Keeps m s (v10 z1) := by
      intro z1
      unfold v10
      exact h.setVce
    exact .ite h.setVce.bump (.ite (hv10 _) (.ite (hv10 _).stateAt (.ite (hv10 _).charge h.setVce)))
theorem Keeps.romStart {m : Nat} {s x : State} (h : Keeps m s x) {a1 a2} (hm : Sub 132226261590787529637988 m := by exact .of ‹_› rfl) : Keeps m s (State.romStart x a1 a2) := by
  unfold State.romStart
  refine .ite h.set_boot ?_
  extract_lets v1
  have hv1 : Keeps m s v1 := h.showFuses.setMeas
  exact .ite hv1.bootMap.enterRecovery hv1.readStore.bootMap.chooseSlot
theorem execKeyUpdate_keeps {m : Nat} {s : State} {a1 a2 a3} {x : State} (h : Keeps m s x) (hm : Sub 2 m := by exact .of ‹_› rfl) : OutP m s (execKeyUpdate a1 a2 a3 x) := by
  unfold execKeyUpdate
  refine .next (h.inSession (fun y1 h1 a4 => (.ite h1.spdmError h1.spdmReply)))
theorem Keeps.scrRead {m : Nat} {s x : State} (h : Keeps m s x) {a1 a2 a3 a4} (hm : Sub 32212255748 m := by exact .of ‹_› rfl) : Keeps m s (State.scrRead x a1 a2 a3 a4).2 := by
  unfold State.scrRead
  extract_lets v1
  have hv1 : Keeps m s v1 := h.scrUpset
  dsimp -zeta only
  exact hv1.scrChecked
theorem Keeps.startRemote {m : Nat} {s x : State} (h : Keeps m s x) {a1 a2 a3 a4} (hm : Sub 35250944338948 m := by exact .of ‹_› rfl) : Keeps m s (State.startRemote x a1 a2 a3 a4) := by
  unfold State.startRemote
  extract_lets v1 v2 v3 v4
  have hv1 : Keeps m s v1.2.2 := h.resolve
  have hv2 : Keeps m s v2 := hv1
  have hv4 : Keeps m s v4 := hv2.setThread
  split
  · exact hv4.fabIssue
  · exact hv4
theorem execAtom_keeps {m : Nat} {s : State} {a1 a2 a3 a4 a5 a6} {x : State} (h : Keeps m s x) (hm : Sub 35250987330572 m := by exact .of ‹_› rfl) : OutP m s (execAtom a1 a2 a3 a4 a5 a6 x) := by
  unfold execAtom
  refine .next (h.issue (fun y1 h1 => ?_))
  extract_lets v1 v2 v3 v4 v5 v6 v7 v8
  have hv5 : Keeps m s v5.2 := h1.scrRead
  have hv8 : Keeps m s v8 := hv5.scrStore
  exact .ite (.ite (.ite hv5.threadFault hv8.setThread) h1.threadFault) h1.startRemote
theorem execDrainHoldEnd_keeps {m : Nat} {s : State} {a1} {x : State} (h : Keeps m s x) (hm : Sub 35218731828228 m := by exact .of ‹_› rfl) : OutP m s (execDrainHoldEnd a1 x) := by
  unfold execDrainHoldEnd
  extract_lets v1 v2 v3
  have hv3 : Keeps m s v3 := h.setFld.setPort
  refine .next (.ite hv3.rehashAll h)
theorem execVexp_keeps {m : Nat} {s : State} {a1} {x : State} (h : Keeps m s x) (hm : Sub 32225887244 m := by exact .of ‹_› rfl) : OutP m s (execVexp a1 x) := by
  unfold execVexp
  refine .next (h.vceIssue (fun y1 h1 a2 => h1.vceOp))
theorem Keeps.dmaState {m : Nat} {s x : State} (h : Keeps m s x) {a1 a2} (hm : Sub 4194308 m := by exact .of ‹_› rfl) : Keeps m s (State.dmaState x a1 a2) := h.refuseLog
theorem Keeps.dmaAccept {m : Nat} {s x : State} (h : Keeps m s x) {a1 a2 a3} (hm : Sub 32216973316 m := by exact .of ‹_› rfl) : Keeps m s (State.dmaAccept x a1 a2 a3) := by
  unfold State.dmaAccept
  extract_lets v1
  refine .ite h ?_
  split
  · exact h
  · extract_lets v2 v3 v4 v5
    have hv4 : Keeps m s v4 := h.setDmaQ
    have hv5 : ∀ z1, ∀ z1c, Keeps m s (v5 z1 z1c) := by
      intro z1 z1c
      unfold v5
      exact h.setDmaQ
    exact .ite h (.ite hv4.bump (.ite (hv5 _ _).countErr (.ite (hv5 _ _).dmaState (.ite (hv5 _ _) (.ite (hv5 _ _).dmaState (hv5 _ _))))))
theorem Keeps.mbxHostSend {m : Nat} {s x : State} (h : Keeps m s x) {a1 a2 a3} (hm : Sub 18014398513677326 m := by exact .of ‹_› rfl) : Keeps m s (State.mbxHostSend x a1 a2 a3) := by
  unfold State.mbxHostSend
  extract_lets v1 v2
  exact .ite h (.ite h.mbxOverlong (.ite h.mbxFull (Keeps.answer (.ite h.upEp h.setChan))))
theorem Keeps.cglRefuse {m : Nat} {s x : State} (h : Keeps m s x) {a1} (hm : Sub 4194310 m := by exact .of ‹_› rfl) : Keeps m s (State.cglRefuse x a1) := h.bump.refuseReg
theorem execCglSwap_keeps {m : Nat} {s : State} {a1 a2 a3} {x : State} (h : Keeps m s x) (hm : Sub 8796106653710 m := by exact .of ‹_› rfl) : OutP m s (execCglSwap a1 a2 a3 x) := by
  unfold execCglSwap
  extract_lets v1
  refine .next (h.mcOnly (fun y1 h1 => ?_))
  extract_lets v2 v3 v4 v5 v6 v7 v8 v9 v10
  have hv8 : Keeps m s v8 := h1.setCgl
  have hv9 : Keeps m s v9 := hv8.setFld
  have hv10 : Keeps m s v10 := (.ite hv9 hv9.bump.event)
  exact .ite h1.cglRefuse (.ite h1.answer (.ite h1.cglRefuse hv10.answer))
theorem execSecRcvReset_keeps {m : Nat} {s : State} {a1 a2} {x : State} (h : Keeps m s x) (hm : Sub 151115727451828646838271 m := by exact .of ‹_› rfl) : OutP m s (execSecRcvReset a1 a2 x) := by
  unfold execSecRcvReset
  refine .next (.ite h h.chipReset.romStart)
theorem Keeps.cellGone {m : Nat} {s x : State} (h : Keeps m s x) {a1} (hm : Sub 1125899906842628 m := by exact .of ‹_› rfl) : Keeps m s (State.cellGone x a1) := h.setFld.setCell.setCellX
theorem execGuardStart_keeps {m : Nat} {s : State} {a1 a2} {x : State} (h : Keeps m s x) (hm : Sub 140737505132544 m := by exact .of ‹_› rfl) : OutP m s (execGuardStart a1 a2 x) := by
  unfold execGuardStart
  extract_lets v1 v2
  have hv1 : Keeps m s v1 := h.elapse
  refine .next (.ite hv1 hv1.set_guards)
theorem Keeps.fatalNote {m : Nat} {s x : State} (h : Keeps m s x) {a1} (hm : Sub 1180591620717411303428 m := by exact .of ‹_› rfl) : Keeps m s (State.fatalNote x a1) := by
  unfold State.fatalNote
  extract_lets v1 v2 v3 v4 v5 v6 v7
  have hv5 : Keeps m s v5 := h.errLog
  have hv6 : Keeps m s v6 := (Keeps.setFld (.foldl hv5 fun y1 h1 _ => h1.setReg))
  have hv7 : Keeps m s v7 := (.ite hv6.set_fatalAt hv5)
  exact hv7.event
theorem Keeps.meClear {m : Nat} {s x : State} (h : Keeps m s x) {a1 a2 a3} (hm : Sub 1025 m := by exact .of ‹_› rfl) : Keeps m s (State.meClear x a1 a2 a3) := by
  unfold State.meClear
  extract_lets v1 v2 v3 v4
  have hv4 : Keeps m s v4 := h.setMe
  exact hv4.set_free
theorem execDisable_keeps {m : Nat} {s : State} {a1 a2} {x : State} (h : Keeps m s x) (hm : Sub 35218747556878 m := by exact .of ‹_› rfl) : OutP m s (execDisable a1 a2 x) := by
  unfold execDisable
  extract_lets v1
  refine .next (h.lnkCmd (fun y1 h1 => ?_))
  extract_lets v2 v3
  exact .ite h1.lnkRefuse (.ite h1.setPort.rehashAll.answer h1.linkOff.answer)
theorem execVsub_keeps {m : Nat} {s : State} {a1} {x : State} (h : Keeps m s x) (hm : Sub 32225887244 m := by exact .of ‹_› rfl) : OutP m s (execVsub a1 x) := by
  unfold execVsub
  refine .next (h.vceIssue (fun y1 h1 a2 => h1.vceOp))
theorem execTampPrewarm_keeps {m : Nat} {s : State} {a1} {x : State} (h : Keeps m s x) (hm : Sub 1024 m := by exact .of ‹_› rfl) : OutP m s (execTampPrewarm a1 x) := by
  unfold execTampPrewarm
  extract_lets v1 v2
  refine .next h.setCore
theorem Keeps.dmaEnd {m : Nat} {s x : State} (h : Keeps m s x) {a1 a2 a3} (hm : Sub 524288 m := by exact .of ‹_› rfl) : Keeps m s (State.dmaEnd x a1 a2 a3) := by
  unfold State.dmaEnd
  extract_lets v1
  exact h.setDmaQ
theorem Keeps.enterEntry {m : Nat} {s x : State} (h : Keeps m s x) {a1 a2 a3 a4} (hm : Sub 149634546665156 m := by exact .of ‹_› rfl) : Keeps m s (State.enterEntry x a1 a2 a3 a4) := by
  unfold State.enterEntry
  extract_lets v1 v2 v3 v4 v5 v6 v7
  have hv3 : Keeps m s v3 := by
    unfold v3
    split
    · extract_lets v8 v9
      have hv8 : Keeps m s v8 := h.setCgl
      have hv9 : Keeps m s v9 := hv8.bump.event
      exact hv9.setFld.countErr
    · exact h.setCgl
  have hv4 : Keeps m s v4 := hv3.setFld
  have hv5 : Keeps m s v5 := by
    unfold v5
    split
    · exact .ite hv4 hv4.fenceCore
    · exact hv4
  have hv6 : Keeps m s v6 := hv5.syncOwners
  have hv7 : Keeps m s v7 := (.ite hv6.raiseGroups hv6)
  exact hv7.dropGuards
theorem Keeps.xiResult {m : Nat} {s x : State} (h : Keeps m s x) {a1 a2 a3} (hm : Sub 576460784515681285 m := by exact .of ‹_› rfl) : Keeps m s (State.xiResult x a1 a2 a3).2 := by
  unfold State.xiResult
  extract_lets v1 v2 v3 v4 v5
  have hv4 : Keeps m s v4.2 := h.devChecked.fresh
  refine ite_ind (P := fun r : Nat × State => Keeps m s r.2) ?_ ?_
  · dsimp -zeta only
    exact .ite hv4.devWrite hv4
  · dsimp -zeta only
    exact h.devChecked
theorem Keeps.sendCombines {m : Nat} {s x : State} (h : Keeps m s x) {a1 a2 a3 a4 a5 a6 a7} (hm : Sub 35218731836420 m := by exact .of ‹_› rfl) : Keeps m s (State.sendCombines x a1 a2 a3 a4 a5 a6 a7) := by
  induction a6 generalizing x a1 a2 a3 a4 a5 a7 with
  | zero =>
    unfold State.sendCombines
    exact h
  | succ n ih =>
    unfold State.sendCombines
    extract_lets v1 v2 v3 v4 v5
    exact .ite h (by apply ih; exact h.hubIssue)
theorem Keeps.xiSend {m : Nat} {s x : State} (h : Keeps m s x) {a1 a2} (hm : Sub 576496003247516677 m := by exact .of ‹_› rfl) : Keeps m s (State.xiSend x a1 a2) := by
  unfold State.xiSend
  extract_lets v1 v2 v3 v4 v5 v6
  have hv3 : Keeps m s v3.2 := h.devChecked.setSlot.xiResult
  have hv4 : Keeps m s v4 := hv3
  have hv6 : Keeps m s v6 := hv4.set_fab
  exact hv6.sendCombines
theorem Keeps.codeFault {m : Nat} {s x : State} (h : Keeps m s x) {a1 a2 a3} (hm : Sub 13631502 m := by exact .of ‹_› rfl) : Keeps m s (State.codeFault x a1 a2 a3) := .ite h.codeState h.charge.answer
theorem Keeps.cremaWrite {m : Nat} {s x : State} (h : Keeps m s x) {a1 a2 a3} (hm : Sub 576460784551332868 m := by exact .of ‹_› rfl) : Keeps m s (State.cremaWrite x a1 a2 a3) := by
  induction a2 generalizing x a1 a3 with
  | nil =>
    unfold State.cremaWrite
    exact h
  | cons hd tl ih =>
    unfold State.cremaWrite
    apply ih
    exact h.accWrite
theorem Keeps.cremaSealEnd {m : Nat} {s x : State} (h : Keeps m s x) {a1 a2 a3} (hm : Sub 576460784564964366 m := by exact .of ‹_› rfl) : Keeps m s (State.cremaSealEnd x a1 a2 a3) := by
  unfold State.cremaSealEnd
  extract_lets v1 v2 v3 v4 v5
  split
  · exact h.codeFault
  · exact h.codeFault
  · extract_lets v6 v7 v8 v9 v10 v11
    have hv6 : Keeps m s v6.2.2 := h.cremaRead
    have hv7 : Keeps m s v7 := hv6.bump64
    have hv10 : Keeps m s v10 := hv7.cremaWrite.bump
    have hv11 : Keeps m s v11 := (.ite hv10 hv10.bump)
    exact .ite hv6.answer hv11.setCremaSlot.answer
theorem Keeps.outDone {m : Nat} {s x : State} (h : Keeps m s x) {a1 a2 a3} (hm : Sub 13631502 m := by exact .of ‹_› rfl) : Keeps m s (State.outDone x a1 a2 a3) := by
  unfold State.outDone
  refine h.onGroup (fun y1 h1 => ?_)
  extract_lets v1 v2
  exact .ite h1.answer (.ite h1.brsState h1.setFld.setFld.answer)
theorem execTagQuarantineEnd_keeps {m : Nat} {s : State} {a1} {x : State} (h : Keeps m s x) (hm : Sub 34359738368 m := by exact .of ‹_› rfl) : OutP m s (execTagQuarantineEnd a1 x) := by
  unfold execTagQuarantineEnd
  refine .next ?_
  split
  · exact .ite h.holdTag h
  · exact h
theorem Keeps.mapped {m : Nat} {s x : State} (h : Keeps m s x) {a1 a2 a3} {a4 : State → State} (k4 : ∀ z1, Keeps m s z1 → Keeps m s (a4 z1)) (hm : Sub 9437198 m := by exact .of ‹_› rfl) : Keeps m s (State.mapped x a1 a2 a3 a4) := by
  unfold State.mapped
  split
  · exact k4 _ h
  · exact .ite (k4 _ h) h.privilege
theorem execStRequest_keeps {m : Nat} {s : State} {a1} {x : State} (h : Keeps m s x) (hm : Sub 576496003288402948 m := by exact .of ‹_› rfl) : OutP m s (execStRequest a1 x) := by
  unfold execStRequest
  refine .next h.inbound
theorem execHostLinkUp_keeps {m : Nat} {s : State} {a1 a2 a3 a4} {x : State} (h : Keeps m s x) (hm : Sub 432345564361785348 m := by exact .of ‹_› rfl) : OutP m s (execHostLinkUp a1 a2 a3 a4 x) := by
  unfold execHostLinkUp
  extract_lets v1 v2
  refine .next (.ite h h.setReg.attach)
theorem Keeps.querySeq {m : Nat} {s x : State} (h : Keeps m s x) {a1 a2 a3} (hm : Sub 13631502 m := by exact .of ‹_› rfl) : Keeps m s (State.querySeq x a1 a2 a3) := h.onSeq (fun y1 h1 a4 => h1.answer)
theorem execSubportLinkChange_keeps {m : Nat} {s : State} {a1 a2} {x : State} (h : Keeps m s x) (hm : Sub 4 m := by exact .of ‹_› rfl) : OutP m s (execSubportLinkChange a1 a2 x) := by
  unfold execSubportLinkChange
  refine .next (.ite h h.setFh)
theorem execSecRcvProgram_keeps {m : Nat} {s : State} {a1 a2} {x : State} (h : Keeps m s x) (hm : Sub 75557863725914327613446 m := by exact .of ‹_› rfl) : OutP m s (execSecRcvProgram a1 a2 x) := by
  unfold execSecRcvProgram
  refine .next (.ite h (.ite h.refuseLog.answer h.set_boot.setFld.answer))
theorem Keeps.bar0Pf {m : Nat} {s x : State} (h : Keeps m s x) {a1 a2 a3} (hm : Sub 151115727451828646838271 m := by exact .of ‹_› rfl) : Keeps m s (State.bar0Pf x a1 a2 a3) := .ite h (.ite h.setReg (.ite h (.ite (h.after (execSecRcvReset_keeps h)) (.ite (h.after (execSecRcvProgram_keeps h)) h))))
theorem Keeps.refreshTEntry {m : Nat} {s x : State} (h : Keeps m s x) (hm : Sub 1024 m := by exact .of ‹_› rfl) : Keeps m s (State.refreshTEntry x) := by
  unfold State.refreshTEntry
  refine .foldl h fun y1 h1 a1 => ?_
  extract_lets v1 v2 v3
  exact .ite h1 h1.setCore
theorem Keeps.cycleStart {m : Nat} {s x : State} (h : Keeps m s x) {a1 a2} (hm : Sub 73787266565907941060 m := by exact .of ‹_› rfl) : Keeps m s (State.cycleStart x a1 a2) := by
  unfold State.cycleStart
  extract_lets v1 v2 v3 v4 v5 v6
  have hv2 : Keeps m s v2 := h.setCgl
  have hv3 : Keeps m s v3 := hv2.setFld
  have hv4 : Keeps m s v4 := hv3.bump64
  have hv5 : Keeps m s v5 := hv4.dueChanges.refreshTEntry
  have hv6 : Keeps m s v6 := by
    unfold v6
    refine .foldl hv5 fun y1 h1 a3 => ?_
    extract_lets v7
    exact .ite h1.takeOver h1
  refine .foldl hv6 fun y1 h1 a3 => ?_
  extract_lets v7
  exact .ite h1.rotHand h1
theorem execCglSwapApply_keeps {m : Nat} {s : State} {a1 a2} {x : State} (h : Keeps m s x) (hm : Sub 73787407404378359492 m := by exact .of ‹_› rfl) : OutP m s (execCglSwapApply a1 a2 x) := by
  unfold execCglSwapApply
  extract_lets v1 v2
  have hv1 : Keeps m s v1 := h.elapse
  refine .next ?_
  split
  · exact hv1
  · exact .ite hv1 hv1.putList.cycleStart.enterEntry
theorem Keeps.meAccept {m : Nat} {s x : State} (h : Keeps m s x) {a1 a2 a3} {a4 : State → MeDesc → MeJob → State} (k4 : ∀ z1, Keeps m s z1 → ∀ z2, ∀ z3, Keeps m s (a4 z1 z2 z3)) (hm : Sub 13632524 m := by exact .of ‹_› rfl) : Keeps m s (State.meAccept x a1 a2 a3 a4) := by
  unfold State.meAccept
  extract_lets v1 v2 v3
  refine .ite h ?_
  split
  · exact h
  · extract_lets v4 v5 v6 v7 v8
    have hv8 : Keeps m s v8 := h.setMe
    refine .ite h (.ite h.setMe.bump (.ite h ?_))
    clear_value v5
    split
    · extract_lets v5
      have hv5 : Keeps m s v5 := h.setMe
      exact .ite hv5.stateAt (.ite hv5.charge hv5)
    · exact k4 _ hv8.setActDesc _ _
theorem Keeps.meMma {m : Nat} {s x : State} (h : Keeps m s x) {a1 a2 a3 a4 a5} (hm : Sub 32212255748 m := by exact .of ‹_› rfl) : Keeps m s (State.meMma x a1 a2 a3 a4 a5) := by
  unfold State.meMma
  extract_lets v1 v2 v3 v4 v5 v6 v7 v8 v9 v10 v11 v12
  have hv6 : Keeps m s v6 := h.scrSpans
  have hv11 : Keeps m s v11 := hv6.setMe
  have hv12 : Keeps m s v12 := (.ite hv11 hv11.bumpFld.countErr)
  exact .ite hv12.countErr hv12
theorem execMeMma_keeps {m : Nat} {s : State} {a1 a2} {x : State} (h : Keeps m s x) (hm : Sub 32225887244 m := by exact .of ‹_› rfl) : OutP m s (execMeMma a1 a2 x) := by
  unfold execMeMma
  refine .next (h.meAccept (fun y1 h1 a3 a4 => h1.meMma))
theorem Keeps.replaceDue {m : Nat} {s x : State} (h : Keeps m s x) {a1} (hm : Sub 4 m := by exact .of ‹_› rfl) : Keeps m s (State.replaceDue x a1) := h.setFld.degrade
theorem Keeps.loadImages {m : Nat} {s x : State} (h : Keeps m s x) {a1} (hm : Sub 32212257796 m := by exact .of ‹_› rfl) : Keeps m s (State.loadImages x a1) := by
  unfold State.loadImages
  extract_lets v1
  have hv1 : ∀ z1, Keeps m s z1 → ∀ z1c, Keeps m s (v1 z1 z1c) := by
    intro z1 hz1 z1c
    unfold v1
    extract_lets v2 v3
    refine .ite hz1 (.foldl hz1 fun y1 h1 a2 => ?_)
    extract_lets v4
    have hv4 : Keeps m s v4.2 := h1.devRead
    exact hv4.setCore
  exact hv1 _ (hv1 _ h _) _
theorem Keeps.rotStart {m : Nat} {s x : State} (h : Keeps m s x) {a1} (hm : Sub 32212258308 m := by exact .of ‹_› rfl) : Keeps m s (State.rotStart x a1) := by
  unfold State.rotStart
  extract_lets v1
  refine .ite h ?_
  split
  · exact h
  · extract_lets v2 v3 v4 v5
    have hv3 : Keeps m s v3 := h.setCore
    have hv4 : Keeps m s v4 := hv3.set_rots
    have hv5 : Keeps m s v5 := hv4.loadImages.setFld
    exact hv5.errLog
theorem Keeps.stragglers {m : Nat} {s x : State} (h : Keeps m s x) {a1 a2} (hm : Sub 32212258564 m := by exact .of ‹_› rfl) : Keeps m s (State.stragglers x a1 a2) := by
  unfold State.stragglers
  refine .foldl h fun y1 h1 a3 => ?_
  extract_lets v1 v2 v3 v4
  have hv3 : Keeps m s v3 := h1.set_lateSteps
  have hv4 : Keeps m s v4 := hv3.setFld.event
  exact .ite h1 (.ite hv4.errLog.rotStart h1.set_lateSteps)
theorem Keeps.takeRecord {m : Nat} {s x : State} (h : Keeps m s x) {a1} (hm : Sub 1024 m := by exact .of ‹_› rfl) : Keeps m s (State.takeRecord x a1) := by
  unfold State.takeRecord
  extract_lets v1 v2 v3
  split
  · exact h.setCtx
  · exact h
theorem Keeps.prefixInsert {m : Nat} {s x : State} (h : Keeps m s x) {a1 a2} (hm : Sub 17592186044420 m := by exact .of ‹_› rfl) : Keeps m s (State.prefixInsert x a1 a2) := by
  unfold State.prefixInsert
  extract_lets v1 v2
  exact .ite h.bump h.setBrsBlk
theorem Keeps.fillBlocks {m : Nat} {s x : State} (h : Keeps m s x) {a1} (hm : Sub 17624398302212 m := by exact .of ‹_› rfl) : Keeps m s (State.fillBlocks x a1) := by
  unfold State.fillBlocks
  extract_lets v1
  refine .foldl h fun y1 h1 a2 => ?_
  extract_lets v2 v3
  have hv3 : Keeps m s v3 := h1.setBrsBlk
  exact .ite h1 (.ite hv3.keyRead.prefixInsert hv3)
theorem Keeps.tokenRecord {m : Nat} {s x : State} (h : Keeps m s x) {a1 a2 a3 a4 a5 a6} (hm : Sub 576460784515681284 m := by exact .of ‹_› rfl) : Keeps m s (State.tokenRecord x a1 a2 a3 a4 a5 a6) := h.outRecord
theorem Keeps.commitOk {m : Nat} {s x : State} (h : Keeps m s x) {a1 a2 a3} (hm : Sub 576478651579640836 m := by exact .of ‹_› rfl) : Keeps m s (State.commitOk x a1 a2 a3) := by
  unfold State.commitOk
  extract_lets v1 v2 v3 v4 v5 v6 v7 v8
  have hv6 : Keeps m s v6 := h.resolveEpochs.resolveEpochs
  have hv7 : Keeps m s v7 := hv6.setBrsEnt.fillBlocks
  have hv8 : Keeps m s v8 := (.ite hv7 hv7.tokenRecord)
  exact .ite hv8.endSeq hv8
theorem Keeps.commitItem {m : Nat} {s x : State} (h : Keeps m s x) {a1 a2} (hm : Sub 576478651579640836 m := by exact .of ‹_› rfl) : Keeps m s (State.commitItem x a1 a2) := by
  unfold State.commitItem
  extract_lets v1 v2 v3
  have hv2 : Keeps m s v2 := h.devChecked
  exact .ite hv2.resolveEpochs.endSeq (.ite hv2.resolveEpochs.endSeq hv2.commitOk)
theorem Keeps.freeEpochs {m : Nat} {s x : State} (h : Keeps m s x) {a1} (hm : Sub 274877906944 m := by exact .of ‹_› rfl) : Keeps m s (State.freeEpochs x a1) := by
  unfold State.freeEpochs
  extract_lets v1
  exact h.set_epochs
theorem Keeps.commitStep {m : Nat} {s x : State} (h : Keeps m s x) {a1 a2} (hm : Sub 576513870311468036 m := by exact .of ‹_› rfl) : Keeps m s (State.commitStep x a1 a2) := by
  unfold State.commitStep
  extract_lets v1 v2 v3 v4 v5 v6 v7 v8 v9 v10 v11 v12 v13 v14 v15
  have hv5 : Keeps m s v5 := (.foldl h fun y1 h1 _ => h1.takeRecord)
  have hv6 : Keeps m s v6 := hv5.setBrsGrp
  have hv7 : Keeps m s v7 := (.foldl hv6 fun y1 h1 _ => h1.commitItem)
  have hv9 : Keeps m s v9 := (.foldl hv7 fun y1 h1 _ => h1.endSeq)
  have hv10 : Keeps m s v10 := hv9.setFld
  have hv11 : Keeps m s v11 := (.foldl hv6 fun y1 h1 _ => h1.resolveEpochs.modBrsEnt)
  have hv12 : Keeps m s v12 := hv11.bump
  have hv14 : Keeps m s v14 := hv12.setFld
  have hv15 : Keeps m s v15 := (.ite hv10.setReg.freeEpochs (.ite hv12 (.ite hv14.setGrpState hv14)))
  clear_value v3
  split
  · exact hv15.epochNotices.countEpochs
  · exact hv15.countEpochs
theorem execStepCommit_keeps {m : Nat} {s : State} {a1 a2} {x : State} (h : Keeps m s x) (hm : Sub 75534426618037665743 m := by exact .of ‹_› rfl) : OutP m s (execStepCommit a1 a2 x) := by
  unfold execStepCommit
  extract_lets v1 v2 v3 v4
  have hv2 : Keeps m s v2 := h.brsSend
  refine .next (.ite h (.ite hv2.boundary (.ite hv2 hv2.commitStep.stragglers.boundary)))
theorem execFabricTimeout_keeps {m : Nat} {s : State} {a1} {x : State} (h : Keeps m s x) (hm : Sub 34359739396 m := by exact .of ‹_› rfl) : OutP m s (execFabricTimeout a1 x) := by
  unfold execFabricTimeout
  extract_lets v1
  refine .next ?_
  split
  · exact h
  · refine .ite h ?_
    extract_lets v2
    have hv2 : Keeps m s v2 := h.holdTag
    exact hv2.bump.event.fabDone
theorem Keeps.drrPick {m : Nat} {s x : State} (h : Keeps m s x) {a1 a2} (hm : Sub 4503599627370496 m := by exact .of ‹_› rfl) : Keeps m s (State.drrPick x a1 a2).2 := by
  induction a2 generalizing x a1 with
  | zero =>
    unfold State.drrPick
    dsimp -zeta only
    exact h
  | succ n ih =>
    unfold State.drrPick
    extract_lets v1 v2 v3 v4 v5 v6 v7 v8
    have hv7 : Keeps m s v7 := (.ite h.set_tm h)
    refine ite_ind (P := fun r : Option Nat × State => Keeps m s r.2) ?_ (by apply ih; exact hv7.setTmNode)
    dsimp -zeta only
    exact hv7.set_tm
theorem Keeps.wfqOffer {m : Nat} {s x : State} (h : Keeps m s x) {a1 a2 a3} (hm : Sub 4503599627370496 m := by exact .of ‹_› rfl) : Keeps m s (State.wfqOffer x a1 a2 a3).2 := by
  unfold State.wfqOffer
  extract_lets v1 v2 v3
  have hv3 : Keeps m s v3 := h.setTmNode
  dsimp -zeta only
  exact hv3
theorem Keeps.wfqPick {m : Nat} {s x : State} (h : Keeps m s x) {a1 a2} (hm : Sub 4503599627370496 m := by exact .of ‹_› rfl) : Keeps m s (State.wfqPick x a1 a2).2 := by
  unfold State.wfqPick
  extract_lets v1 v2 v3
  have hv3 : Keeps m s v3.2 := by
    unfold v3
    refine foldl_ind (P := fun r : Option (Nat × Nat) × State => Keeps m s r.2) ?_ fun y1 h1 a3 => ?_
    · dsimp -zeta only
      exact h
    · split
      · exact h1
      · extract_lets v4
        have hv4 : Keeps m s v4.2 := h1.wfqOffer
        split
        · exact hv4
        · exact ite_ind (P := fun r : Option (Nat × Nat) × State => Keeps m s r.2) hv4 hv4
  split
  · exact hv3
  · extract_lets v4 v5 v6 v7
    have hv4 : Keeps m s v4.2 := hv3.drrPick
    have hv6 : Keeps m s v6 := hv4.setTmNode
    dsimp -zeta only
    exact hv6.set_tm
theorem Keeps.tmPick {m : Nat} {s x : State} (h : Keeps m s x) {a1 a2} (hm : Sub 4503599627370496 m := by exact .of ‹_› rfl) : Keeps m s (State.tmPick x a1 a2).2 := by
  induction a2 generalizing x a1 with
  | zero =>
    unfold State.tmPick
    dsimp -zeta only
    exact h
  | succ n ih =>
    unfold State.tmPick
    extract_lets v1
    have hv1 : Keeps m s v1.2 := by
      unfold v1
      refine ite_ind (P := fun r : Option Nat × State => Keeps m s r.2) h.wfqPick ?_
      dsimp -zeta only
      exact h
    split
    · exact hv1
    · apply ih
      exact h
theorem Keeps.countHeld {m : Nat} {s x : State} (h : Keeps m s x) {a1} (hm : Sub 4503599627370500 m := by exact .of ‹_› rfl) : Keeps m s (State.countHeld x a1) := by
  unfold State.countHeld
  extract_lets v1
  refine .foldl h fun y1 h1 a2 => ?_
  split
  · exact h1
  · exact .ite h1 h1.setTmQ.bumpFld
theorem execHostRingDeliver_keeps {m : Nat} {s : State} {a1 a2} {x : State} (h : Keeps m s x) (hm : Sub 4504699155775500 m := by exact .of ‹_› rfl) : OutP m s (execHostRingDeliver a1 a2 x) := by
  unfold execHostRingDeliver
  extract_lets v1 v2 v3
  have hv1 : Keeps m s v1 := h.elapse
  have hv3 : Keeps m s v3.2 := hv1.tmPick
  refine .next ?_
  split
  · exact hv1.countHeld
  · split
    · exact hv1
    · exact hv3.hrSend.countHeld
theorem execPrtLcInstWrite_keeps {m : Nat} {s : State} {a1 a2 a3 a4} {x : State} (h : Keeps m s x) (hm : Sub 13631502 m := by exact .of ‹_› rfl) : OutP m s (execPrtLcInstWrite a1 a2 a3 a4 x) := by
  unfold execPrtLcInstWrite
  extract_lets v1
  refine .next (h.mcOnly (fun y1 h1 => (.ite h1.bump.refuseReg h1.setFld.answer)))
theorem execKeyDestroy_keeps {m : Nat} {s : State} {a1 a2} {x : State} (h : Keeps m s x) (hm : Sub 576460752317054991 m := by exact .of ‹_› rfl) : OutP m s (execKeyDestroy a1 a2 x) := by
  unfold execKeyDestroy
  refine .next (h.mcOnly (fun y1 h1 => h1.keyCommand))
theorem execLd_keeps {m : Nat} {s : State} {a1 a2 a3 a4 a5} {x : State} (h : Keeps m s x) (hm : Sub 35250987330572 m := by exact .of ‹_› rfl) : OutP m s (execLd a1 a2 a3 a4 a5 x) := by
  unfold execLd
  refine .next (h.issue (fun y1 h1 => ?_))
  extract_lets v1 v2 v3 v4 v5
  have hv5 : Keeps m s v5.2 := h1.scrRead
  exact .ite (.ite (.ite hv5.threadFault hv5.setThread) h1.threadFault) h1.startRemote
theorem Keeps.meDrainOp {m : Nat} {s x : State} (h : Keeps m s x) {a1 a2 a3 a4} (hm : Sub 32212255748 m := by exact .of ‹_› rfl) : Keeps m s (State.meDrainOp x a1 a2 a3 a4) := by
  unfold State.meDrainOp
  extract_lets v1
  have hv1 : Keeps m s v1.1 := h.meDrain
  exact hv1.meNote
theorem execMeDrain_keeps {m : Nat} {s : State} {a1} {x : State} (h : Keeps m s x) (hm : Sub 32225887244 m := by exact .of ‹_› rfl) : OutP m s (execMeDrain a1 x) := by
  unfold execMeDrain
  refine .next (h.meAccept (fun y1 h1 a2 a3 => h1.meDrainOp))
theorem execScrub_keeps {m : Nat} {s : State} {a1} {x : State} (h : Keeps m s x) (hm : Sub 32212257796 m := by exact .of ‹_› rfl) : OutP m s (execScrub a1 x) := by
  unfold execScrub
  extract_lets v1 v2
  have hv1 : Keeps m s v1 := (.foldl h fun y1 h1 _ => h1.scrubFinds)
  refine .next (.foldl hv1 fun y1 h1 _ => h1.devWord)
theorem execTimeStepWrite_keeps {m : Nat} {s : State} {a1 a2} {x : State} (h : Keeps m s x) (hm : Sub 13631502 m := by exact .of ‹_› rfl) : OutP m s (execTimeStepWrite a1 a2 x) := by
  unfold execTimeStepWrite
  refine .next (h.mcOnly (fun y1 h1 => (.ite h1.refuseReg h1.setStep.answer)))
theorem Keeps.stopList {m : Nat} {s x : State} (h : Keeps m s x) {a1} (hm : Sub 149533581378564 m := by exact .of ‹_› rfl) : Keeps m s (State.stopList x a1) := by
  unfold State.stopList
  extract_lets v1 v2 v3 v4
  have hv2 : Keeps m s v2 := h.setCgl
  have hv3 : Keeps m s v3 := hv2.setFld
  have hv4 : Keeps m s v4 := hv3.setReg
  exact hv4.dropGuards.syncOwners.refreshTEntry
theorem execCglBoundary_keeps {m : Nat} {s : State} {a1 a2 a3 a4} {x : State} (h : Keeps m s x) (hm : Sub 73787407404378359492 m := by exact .of ‹_› rfl) : OutP m s (execCglBoundary a1 a2 a3 a4 x) := by
  unfold execCglBoundary
  extract_lets v1 v2 v3 v4 v5 v6 v7
  have hv1 : Keeps m s v1 := h.elapse
  refine .next (.ite hv1 (.ite hv1.enterEntry (.ite hv1.stopList hv1.cycleStart.enterEntry)))
theorem execLdpcDec_keeps {m : Nat} {s : State} {a1 a2 a3 a4} {x : State} (h : Keeps m s x) (hm : Sub 577023734484831246 m := by exact .of ‹_› rfl) : OutP m s (execLdpcDec a1 a2 a3 a4 x) := by
  unfold execLdpcDec
  refine .next h.fecPush
theorem execStopInterface_keeps {m : Nat} {s : State} {a1 a2 a3} {x : State} (h : Keeps m s x) (hm : Sub 1207959554 m := by exact .of ‹_› rfl) : OutP m s (execStopInterface a1 a2 a3 x) := by
  unfold execStopInterface
  extract_lets v1
  refine .next (h.onTdi (fun y1 h1 => (Keeps.spdmReply ?_)))
  extract_lets v2
  have hv2 : Keeps m s v2 := h1.setTdi
  exact hv2.set_tdiStream
theorem execTmGateStop_keeps {m : Nat} {s : State} {a1 a2} {x : State} (h : Keeps m s x) (hm : Sub 4503599638904846 m := by exact .of ‹_› rfl) : OutP m s (execTmGateStop a1 a2 x) := by
  unfold execTmGateStop
  extract_lets v1
  refine .next (h.mcOnly (fun y1 h1 => (h1.ungated (fun y2 h2 => ?_))))
  extract_lets v2
  exact .ite h2.answer h2.setGate.setFld.answer
theorem execFatalAutoReset_keeps {m : Nat} {s : State} {a1 a2 a3} {x : State} (h : Keeps m s x) (hm : Sub 151115727451828646838271 m := by exact .of ‹_› rfl) : OutP m s (execFatalAutoReset a1 a2 a3 x) := by
  unfold execFatalAutoReset
  extract_lets v1
  have hv1 : Keeps m s v1 := h.elapse
  refine .next (.ite hv1.chipReset.romStart hv1)
theorem Keeps.pwrRefuse {m : Nat} {s x : State} (h : Keeps m s x) {a1} (hm : Sub 4194310 m := by exact .of ‹_› rfl) : Keeps m s (State.pwrRefuse x a1) := h.bump.refuseReg
theorem Keeps.dmaAbort {m : Nat} {s x : State} (h : Keeps m s x) {a1} (hm : Sub 1099512152064 m := by exact .of ‹_› rfl) : Keeps m s (State.dmaAbort x a1) := by
  unfold State.dmaAbort
  extract_lets v1 v2 v3
  have hv3 : Keeps m s v3 := h.setDmaQ
  exact .ite hv3 hv3.set_hostOut
theorem Keeps.fatalStop {m : Nat} {s x : State} (h : Keeps m s x) (hm : Sub 54044295040599044 m := by exact .of ‹_› rfl) : Keeps m s (State.fatalStop x) := by
  unfold State.fatalStop
  extract_lets v1
  have hv1 : Keeps m s v1 := (.foldl h fun y1 h1 _ => h1.dmaAbort)
  exact .foldl hv1 fun y1 h1 _ => (.ite h1.abortChan h1)
theorem execGetVersion_keeps {m : Nat} {s : State} {a1} {x : State} (h : Keeps m s x) (hm : Sub 268435458 m := by exact .of ‹_› rfl) : OutP m s (execGetVersion a1 x) := by
  unfold execGetVersion
  refine .next (h.onFn (fun y1 h1 a2 => h1.setSpdm.spdmReply))
theorem execGrpDestroy_keeps {m : Nat} {s : State} {a1 a2} {x : State} (h : Keeps m s x) (hm : Sub 450377587148981262 m := by exact .of ‹_› rfl) : OutP m s (execGrpDestroy a1 a2 x) := by
  unfold execGrpDestroy
  extract_lets v1 v2 v3
  have hv2 : Keeps m s v2 := h.brsUnknown
  have hv3 : Keeps m s v3.2 := hv2.brsTake
  refine .next ?_
  split
  · exact hv3
  · refine .ite hv3.answer.brsReply (.ite hv3.brsState.brsReply ?_)
    extract_lets v4 v5
    have hv4 : Keeps m s v4 := hv3.grpDestroy
    exact .ite hv4.setBrsGrp hv4.brsReply
theorem Keeps.tmPush {m : Nat} {s x : State} (h : Keeps m s x) {a1 a2 a3 a4 a5} (hm : Sub 580964384158780430 m := by exact .of ‹_› rfl) : Keeps m s (State.tmPush x a1 a2 a3 a4 a5) := by
  unfold State.tmPush
  extract_lets v1 v2
  refine h.ownerOnly (fun y1 h1 => (h1.pushInto (fun y2 h2 => (.ite h2.bump.refuseReg ?_))))
  extract_lets v3 v4
  exact h2.set_tm.tmRun.answer
theorem execUplane_keeps {m : Nat} {s : State} {a1 a2 a3 a4} {x : State} (h : Keeps m s x) (hm : Sub 580964384158780430 m := by exact .of ‹_› rfl) : OutP m s (execUplane a1 a2 a3 a4 x) := by
  unfold execUplane
  refine .next h.tmPush
theorem execVceQreset_keeps {m : Nat} {s : State} {a1 a2 a3 a4} {x : State} (h : Keeps m s x) (hm : Sub 1030 m := by exact .of ‹_› rfl) : OutP m s (execVceQreset a1 a2 a3 a4 x) := by
  unfold execVceQreset
  extract_lets v1 v2
  have hv1 : Keeps m s v1 := (.ite h.vceReset h)
  have hv2 : Keeps m s v2 := (.ite hv1.vceReset hv1)
  refine .next hv2.answer
theorem execTampRampStart_keeps {m : Nat} {s : State} {a1} {x : State} (h : Keeps m s x) (hm : Sub 1024 m := by exact .of ‹_› rfl) : OutP m s (execTampRampStart a1 x) := by
  unfold execTampRampStart
  extract_lets v1
  refine .next (.ite h.setCore h)
theorem execGetCertificate_keeps {m : Nat} {s : State} {a1 a2 a3 a4} {x : State} (h : Keeps m s x) (hm : Sub 2 m := by exact .of ‹_› rfl) : OutP m s (execGetCertificate a1 a2 a3 a4 x) := by
  unfold execGetCertificate
  refine .next (h.onAgreed (fun y1 h1 a5 => (.ite h1.spdmError h1.spdmReply)))
theorem execMbxSend_keeps {m : Nat} {s : State} {a1 a2 a3} {x : State} (h : Keeps m s x) (hm : Sub 18014398513677326 m := by exact .of ‹_› rfl) : OutP m s (execMbxSend a1 a2 a3 x) := by
  unfold execMbxSend
  refine .next h.mbxHostSend
theorem execRasRemoveFenceRecord_keeps {m : Nat} {s : State} {a1 a2} {x : State} (h : Keeps m s x) (hm : Sub 18446744142476216014 m := by exact .of ‹_› rfl) : OutP m s (execRasRemoveFenceRecord a1 a2 x) := by
  unfold execRasRemoveFenceRecord
  refine .next h.rasWrite
theorem execVrcp_keeps {m : Nat} {s : State} {a1} {x : State} (h : Keeps m s x) (hm : Sub 32225887244 m := by exact .of ‹_› rfl) : OutP m s (execVrcp a1 x) := by
  unfold execVrcp
  refine .next (h.vceIssue (fun y1 h1 a2 => h1.vceOp))
theorem execHeadDrop_keeps {m : Nat} {s : State} {a1 a2} {x : State} (h : Keeps m s x) (hm : Sub 4503599644147716 m := by exact .of ‹_› rfl) : OutP m s (execHeadDrop a1 a2 x) := by
  unfold execHeadDrop
  extract_lets v1 v2 v3 v4
  have hv1 : Keeps m s v1 := h.elapse
  have hv4 : Keeps m s v4 := hv1.bump.event
  refine .next ?_
  split
  · exact hv1
  · refine .ite hv1 (.ite ?_ (.ite hv1.bump.event.tmDropHead (.ite hv1.bump.tmDropHead hv1)))
    extract_lets v5
    have hv5 : Keeps m s v5 := by
      unfold v5
      split
      · exact hv4.lateSym
      · exact hv4
    exact hv5.tmDropHead
theorem execDestroy_keeps {m : Nat} {s : State} {a1} {x : State} (h : Keeps m s x) (hm : Sub 4094353494874127375 m := by exact .of ‹_› rfl) : OutP m s (execDestroy a1 x) := by
  unfold execDestroy
  refine .next h.prtWrite
theorem execImgWrite_keeps {m : Nat} {s : State} {a1 a2} {x : State} (h : Keeps m s x) (hm : Sub 75557863725946549308430 m := by exact .of ‹_› rfl) : OutP m s (execImgWrite a1 a2 x) := by
  unfold execImgWrite
  extract_lets v1 v2 v3 v4 v5 v6
  refine .next (h.imgCommand (fun y1 h1 => (.ite h1.imgRefuse (.ite h1.imgDone (.ite h1.imgRefuse ?_)))))
  split
  · exact h1.codeFault.imgDone
  · extract_lets v7 v8
    have hv8 : Keeps m s v8 := h1.spanChecked
    exact .ite hv8.imgDone hv8.imgStart
theorem execMbxMcSend_keeps {m : Nat} {s : State} {a1 a2 a3} {x : State} (h : Keeps m s x) (hm : Sub 54043195532640270 m := by exact .of ‹_› rfl) : OutP m s (execMbxMcSend a1 a2 a3 x) := by
  unfold execMbxMcSend
  extract_lets v1
  refine .next (.ite h.refuseLog.answer h.dnSend)
theorem Keeps.cancelSeq {m : Nat} {s x : State} (h : Keeps m s x) {a1 a2 a3} (hm : Sub 17592199675918 m := by exact .of ‹_› rfl) : Keeps m s (State.cancelSeq x a1 a2 a3) := h.onSeq (fun y1 h1 a4 => (.ite h1.brsState h1.setBrsEnt.answer))
theorem execCancelSeq_keeps {m : Nat} {s : State} {a1 a2} {x : State} (h : Keeps m s x) (hm : Sub 450377587148981262 m := by exact .of ‹_› rfl) : OutP m s (execCancelSeq a1 a2 x) := by
  unfold execCancelSeq
  refine .next (h.seqCommand (fun y1 h1 a3 => h1.cancelSeq))
theorem execVadd_keeps {m : Nat} {s : State} {a1} {x : State} (h : Keeps m s x) (hm : Sub 32225887244 m := by exact .of ‹_› rfl) : OutP m s (execVadd a1 x) := by
  unfold execVadd
  refine .next (h.vceIssue (fun y1 h1 a2 => h1.vceOp))
theorem Keeps.pmRun {m : Nat} {s x : State} (h : Keeps m s x) {a1 a2 a3} (hm : Sub 32257592332 m := by exact .of ‹_› rfl) : Keeps m s (State.pmRun x a1 a2 a3) := by
  induction a3 generalizing x a1 a2 with
  | zero =>
    unfold State.pmRun
    exact h
  | succ n ih =>
    unfold State.pmRun
    split
    · exact h
    · refine .ite h.pmEnd ?_
      extract_lets v1 v2 v3 v4
      have hv2 : Keeps m s v2.2 := h.xlate
      have hv3 : Keeps m s v3 := hv2
      have hv4 : ∀ z1, Keeps m s z1 → ∀ z1c, ∀ z1d, Keeps m s (v4 z1 z1c z1d) := by
        intro z1 hz1 z1c z1d
        unfold v4
        exact hz1.setCore
      split
      · exact hv3
      · exact hv3.charge.pmEnd
      · extract_lets v5
        have hv5 : Keeps m s v5.2 := hv3.accRead
        exact .ite (by apply ih; exact (hv4 _ hv5 _ _)) (.ite (hv4 _ hv5 _ _).charge.pmEnd (.ite hv5.charge.pmEnd hv5.pmEnd))
      · split
        · exact hv3
        · exact hv4 _ hv3 _ _
        · exact (hv4 _ hv3 _ _).charge.pmEnd
        · exact hv3.taint.pmEnd
        · exact hv3.charge.pmEnd
theorem execProgramLoadEnd_keeps {m : Nat} {s : State} {a1 a2} {x : State} (h : Keeps m s x) (hm : Sub 32257592332 m := by exact .of ‹_› rfl) : OutP m s (execProgramLoadEnd a1 a2 x) := by
  unfold execProgramLoadEnd
  refine .next h.pmRun
theorem Keeps.zeroShares {m : Nat} {s x : State} (h : Keeps m s x) {a1} (hm : Sub 576460752303426560 m := by exact .of ‹_› rfl) : Keeps m s (State.zeroShares x a1) := by
  unfold State.zeroShares
  extract_lets v1 v2 v3
  have hv1 : Keeps m s v1 := (.foldl h fun y1 h1 _ => (.ite h1 h1.devZero))
  have hv2 : Keeps m s v2 := (.foldl hv1 fun y1 h1 _ => h1.devZero)
  refine .foldl hv2 fun y1 h1 a2 => ?_
  extract_lets v4 v5
  exact h1.setCore
theorem execZeroingDone_keeps {m : Nat} {s : State} {a1} {x : State} (h : Keeps m s x) (hm : Sub 1729382256910273540 m := by exact .of ‹_› rfl) : OutP m s (execZeroingDone a1 x) := by
  unfold execZeroingDone
  extract_lets v1 v2 v3
  have hv3 : Keeps m s v3 := h.zeroShares.setPartSt
  refine .next (.ite h hv3.setPartState.event)
theorem execAdmitSeq_keeps {m : Nat} {s : State} {a1 a2} {x : State} (h : Keeps m s x) (hm : Sub 450377587148981262 m := by exact .of ‹_› rfl) : OutP m s (execAdmitSeq a1 a2 x) := by
  unfold execAdmitSeq
  refine .next (h.brsRun (fun y1 h1 a3 => h1.admitSeq))
theorem Keeps.gwAccept {m : Nat} {s x : State} (h : Keeps m s x) {a1 a2 a3} (hm : Sub 66576187396 m := by exact .of ‹_› rfl) : Keeps m s (State.gwAccept x a1 a2 a3) := by
  unfold State.gwAccept
  extract_lets v1
  split
  · exact h
  · extract_lets v2 v3 v4
    have hv4 : ∀ z1, ∀ z1c, Keeps m s (v4 z1 z1c) := by
      intro z1 z1c
      unfold v4
      exact h.setGwQueue
    exact .ite h (.ite h.setGwQueue.bump (.ite (hv4 _ _).countErr (.ite (hv4 _ _).refuseLog (.ite (hv4 _ _) (.ite (hv4 _ _).refuseLog (hv4 _ _))))))
theorem Keeps.gwMove {m : Nat} {s x : State} (h : Keeps m s x) {a1 a2 a3} (hm : Sub 576496003297045516 m := by exact .of ‹_› rfl) : Keeps m s (State.gwMove x a1 a2 a3) := by
  unfold State.gwMove
  extract_lets v1 v2 v3 v4 v5 v6 v7 v8 v9 v10
  have hv7 : Keeps m s v7.2 := h.span
  have hv8 : Keeps m s v8.2 := hv7.span
  have hv9 : Keeps m s v9.2 := hv8.span
  split
  · exact hv9.gwFault
  · exact hv9.gwFault
  · exact hv9.gwFault
  · extract_lets v11 v12 v13
    have hv13 : Keeps m s v13.2 := hv9.readSegs
    refine .ite hv9.refuseLog.gwEnd ?_
    split
    · exact hv13
    · exact .ite hv13.gwFault hv13.gwEnd
    · extract_lets v14 v15 v16
      have hv14 : Keeps m s v14.2 := hv13.writeSegs
      have hv16 : Keeps m s v16 := by
        unfold v16
        split
        · exact hv14.setGwQueue
        · exact hv14
      split
      · exact .ite hv14.gwFault hv14.gwEnd
      · exact .ite hv14.gwFault hv14.gwEnd
      · exact .ite hv16.gwEnd (.ite hv16.gwEnd hv16)
  · exact hv9
theorem Keeps.gwServe {m : Nat} {s x : State} (h : Keeps m s x) {a1 a2 a3 a4} (hm : Sub 576496003297045516 m := by exact .of ‹_› rfl) : Keeps m s (State.gwServe x a1 a2 a3 a4) := by
  unfold State.gwServe
  extract_lets v1
  have hv1 : Keeps m s v1 := (.ite h h.gwAccept)
  refine .foldl hv1 fun y1 h1 a5 => ?_
  split
  · exact .ite h1.gwMove h1
  · exact h1
theorem execSetm_keeps {m : Nat} {s : State} {a1} {x : State} (h : Keeps m s x) (hm : Sub 32225887244 m := by exact .of ‹_› rfl) : OutP m s (execSetm a1 x) := by
  unfold execSetm
  refine .next (h.vceIssue (fun y1 h1 a2 => h1.vceCtl))
theorem Keeps.afterWrite {m : Nat} {s x : State} (h : Keeps m s x) {x2 : State} (h2 : Keeps m s x2) {a1 a2 a3} (hm : Sub 581527334110112781 m := by exact .of ‹_› rfl) : Keeps m s (State.afterWrite x x2 a1 a2 a3) := by
  unfold State.afterWrite
  refine .ite (.ite (.foldl h2 fun y1 h1 _ => h1.setFld) h2) (.ite ?_ (.ite ?_ (.ite ?_ (.ite (.foldl h2 fun y1 h1 _ => h1.fecServe) (.ite (.foldl h2 fun y1 h1 _ => h1.tmRun) (.ite ?_ (.ite ?_ h2)))))))
  · extract_lets v1 v2
    exact .ite h2.setPool h2.poolServe
  · extract_lets v1
    exact .ite h2 h2.loseRange.loseRange
  · extract_lets v1 v2 v3
    exact .foldl h2 fun y1 h1 _ => h1.threshold
  · extract_lets v1
    exact h2.setCredit
  · extract_lets v1
    exact h2.setPol
theorem Keeps.frameRun {m : Nat} {s x : State} (h : Keeps m s x) {a1 a2 a3 a4 a5} (hm : Sub 576460818924702732 m := by exact .of ‹_› rfl) : Keeps m s (State.frameRun x a1 a2 a3 a4 a5).2 := by
  induction a2 generalizing x a1 a3 a4 a5 with
  | zero =>
    unfold State.frameRun
    dsimp -zeta only
    exact h
  | succ n ih =>
    unfold State.frameRun
    refine ite_ind (P := fun r : (Nat × Nat) × State => Keeps m s r.2) ?_ (ite_ind (P := fun r : (Nat × Nat) × State => Keeps m s r.2) ?_ ?_)
    · dsimp -zeta only
      exact h
    · extract_lets v1
      apply ih
      exact h.reply1
    · extract_lets v1 v2 v3 v4
      have hv3 : Keeps m s v3.2 := h.serve
      apply ih
      exact hv3
theorem Keeps.maskLog {m : Nat} {s x : State} (h : Keeps m s x) {a1} (hm : Sub 4 m := by exact .of ‹_› rfl) : Keeps m s (State.maskLog x a1) := by
  unfold State.maskLog
  extract_lets v1
  exact h.setReg.setReg.setFld
theorem Keeps.maskHit {m : Nat} {s x : State} (h : Keeps m s x) {a1 a2 a3 a4 a5} (hm : Sub 2251799813685255 m := by exact .of ‹_› rfl) : Keeps m s (State.maskHit x a1 a2 a3 a4 a5) := by
  unfold State.maskHit
  extract_lets v1 v2 v3 v4 v5 v6
  have hv2 : Keeps m s v2 := h.bump.event
  have hv3 : Keeps m s v3.2 := hv2.fresh
  have hv5 : Keeps m s v5.2 := (ite_ind (P := fun r : Bool × State => Keeps m s r.2) hv3.maskHold hv3)
  exact hv5.maskLog.answer
theorem execWitnessRotate_keeps {m : Nat} {s : State} {a1} {x : State} (h : Keeps m s x) (hm : Sub 590295810390934687236 m := by exact .of ‹_› rfl) : OutP m s (execWitnessRotate a1 x) := by
  unfold execWitnessRotate
  extract_lets v1 v2 v3 v4
  have hv1 : Keeps m s v1 := h.elapse
  have hv4 : Keeps m s v4 := hv1.set_witAt
  refine .next ?_
  clear_value v2
  split
  · exact hv1.rotStart
  · refine .ite hv1 ?_
    split
    · exact hv4.rotStart
    · exact hv4
theorem Keeps.writeEnables {m : Nat} {s x : State} (h : Keeps m s x) {a1 a2 a3 a4} (hm : Sub 4194310 m := by exact .of ‹_› rfl) : Keeps m s (State.writeEnables x a1 a2 a3 a4) := by
  unfold State.writeEnables
  extract_lets v1 v2 v3 v4 v5
  have hv5 : Keeps m s v5 := h.setReg
  exact .ite hv5.answer hv5.bumpFld.event.refuseReg
theorem execClkEnWrite_keeps {m : Nat} {s : State} {a1 a2 a3} {x : State} (h : Keeps m s x) (hm : Sub 13631502 m := by exact .of ‹_› rfl) : OutP m s (execClkEnWrite a1 a2 a3 x) := by
  unfold execClkEnWrite
  refine .next (.ite (h.mcOnly (fun y1 h1 => h1.writeEnables)) (h.mcOnly (fun y1 h1 => h1.writeEnables)))
theorem execTimeAdj_keeps {m : Nat} {s : State} {a1 a2} {x : State} (h : Keeps m s x) (hm : Sub 13631502 m := by exact .of ‹_› rfl) : OutP m s (execTimeAdj a1 a2 x) := by
  unfold execTimeAdj
  refine .next (h.mcOnly (fun y1 h1 => (.ite h1.answer (.ite h1.refuseReg h1.stepPhase.answer))))
theorem execDeclareLock_keeps {m : Nat} {s : State} {a1 a2} {x : State} (h : Keeps m s x) (hm : Sub 1125899916279822 m := by exact .of ‹_› rfl) : OutP m s (execDeclareLock a1 a2 x) := by
  unfold execDeclareLock
  refine .next (h.mcOnly (fun y1 h1 => ?_))
  extract_lets v1
  have hv1 : Keeps m s v1 := h1.setFld
  exact Keeps.answer (.ite hv1.setFld.timeCheck hv1)
theorem execPwrCapWrite_keeps {m : Nat} {s : State} {a1 a2} {x : State} (h : Keeps m s x) (hm : Sub 13631502 m := by exact .of ‹_› rfl) : OutP m s (execPwrCapWrite a1 a2 x) := by
  unfold execPwrCapWrite
  refine .next (h.mcOnly (fun y1 h1 => (.ite h1.pwrRefuse h1.setFld.answer)))
theorem execPwrTimedBudgetWrite_keeps {m : Nat} {s : State} {a1 a2} {x : State} (h : Keeps m s x) (hm : Sub 13631502 m := by exact .of ‹_› rfl) : OutP m s (execPwrTimedBudgetWrite a1 a2 x) := by
  unfold execPwrTimedBudgetWrite
  refine .next (h.mcOnly (fun y1 h1 => (.ite h1.pwrRefuse h1.setFld.answer)))
theorem execXltInvRange_keeps {m : Nat} {s : State} {a1 a2} {x : State} (h : Keeps m s x) (hm : Sub 13893646 m := by exact .of ‹_› rfl) : OutP m s (execXltInvRange a1 a2 x) := by
  unfold execXltInvRange
  refine .next h.invStart
theorem execXltInvAll_keeps {m : Nat} {s : State} {a1} {x : State} (h : Keeps m s x) (hm : Sub 13893646 m := by exact .of ‹_› rfl) : OutP m s (execXltInvAll a1 x) := by
  unfold execXltInvAll
  refine .next h.invStart
theorem Keeps.prtCmdWrite {m : Nat} {s x : State} (h : Keeps m s x) {a1 a2} (hm : Sub 4094353494874127375 m := by exact .of ‹_› rfl) : Keeps m s (State.prtCmdWrite x a1 a2) := by
  unfold State.prtCmdWrite
  extract_lets v1
  exact h.prtWrite
theorem Keeps.listCmd {m : Nat} {s x : State} (h : Keeps m s x) {a1} {a2 : Bool → Host.Outcome State Fault Refusal} (k2 : ∀ z1, OutP m s (a2 z1)) {a3} (k3 : OutP m s (a3)) (hm : Sub 2 m := by exact .of ‹_› rfl) : Keeps m s (State.listCmd x a1 a2 a3) := .ite (h.after (k2 _)) (.ite (h.after (by assumption)) h.answer)
theorem execCglStop_keeps {m : Nat} {s : State} {a1 a2} {x : State} (h : Keeps m s x) (hm : Sub 8796102459406 m := by exact .of ‹_› rfl) : OutP m s (execCglStop a1 a2 x) := by
  unfold execCglStop
  extract_lets v1
  refine .next (h.mcOnly (fun y1 h1 => ?_))
  extract_lets v2 v3
  have hv3 : Keeps m s v3 := h1.setCgl.setFld
  exact .ite h1.answer hv3.answer
theorem execCglLcGrpWrite_keeps {m : Nat} {s : State} {a1 a2 a3} {x : State} (h : Keeps m s x) (hm : Sub 281474990342158 m := by exact .of ‹_› rfl) : OutP m s (execCglLcGrpWrite a1 a2 a3 x) := by
  unfold execCglLcGrpWrite
  refine .next (h.mcOnly (fun y1 h1 => ?_))
  extract_lets v1 v2
  have hv2 : Keeps m s v2 := h1.set_grpPend
  exact .ite h1.answer (.ite h1.bump.refuseReg hv2.setReg.answer)
theorem execEnable_keeps {m : Nat} {s : State} {a1 a2} {x : State} (h : Keeps m s x) (hm : Sub 35184387817486 m := by exact .of ‹_› rfl) : OutP m s (execEnable a1 a2 x) := by
  unfold execEnable
  extract_lets v1
  refine .next (h.lnkCmd (fun y1 h1 => (.ite h1.startArb.answer h1.lnkRefuse)))
theorem execUnretire_keeps {m : Nat} {s : State} {a1 a2} {x : State} (h : Keeps m s x) (hm : Sub 35184387817486 m := by exact .of ‹_› rfl) : OutP m s (execUnretire a1 a2 x) := by
  unfold execUnretire
  extract_lets v1
  refine .next (h.lnkCmd (fun y1 h1 => (.ite h1.linkDown.portCause.answer h1.lnkRefuse)))
theorem Keeps.lnkCmdWrite {m : Nat} {s x : State} (h : Keeps m s x) {a1 a2 a3} (hm : Sub 35218747556878 m := by exact .of ‹_› rfl) : Keeps m s (State.lnkCmdWrite x a1 a2 a3) := by
  unfold State.lnkCmdWrite
  extract_lets v1
  clear_value v1
  split
  · exact h.answer
  · exact h.after (execEnable_keeps h)
  · exact h.after (execDisable_keeps h)
  · exact h.after (execRetrain_keeps h)
  · exact h.after (execSwapCommand_keeps h)
  · exact h.after (execUnretire_keeps h)
  · exact h.lnkRefuse
theorem execActivate_keeps {m : Nat} {s : State} {a1 a2} {x : State} (h : Keeps m s x) (hm : Sub 1125899922571278 m := by exact .of ‹_› rfl) : OutP m s (execActivate a1 a2 x) := by
  unfold execActivate
  extract_lets v1
  refine .next (h.mcOnly (fun y1 h1 => (h1.ungated (fun y2 h2 => (.ite h2.cellRefuse (.ite h2.bump.answer ?_))))))
  extract_lets v2
  have hv2 : Keeps m s v2 := h2.setCellX
  exact hv2.setFld.setCell.answer
theorem Keeps.tmRefuse {m : Nat} {s x : State} (h : Keeps m s x) {a1} (hm : Sub 4194310 m := by exact .of ‹_› rfl) : Keeps m s (State.tmRefuse x a1) := h.bump.refuseReg
theorem execTmGateSwap_keeps {m : Nat} {s : State} {a1 a2 a3} {x : State} (h : Keeps m s x) (hm : Sub 4503599643099150 m := by exact .of ‹_› rfl) : OutP m s (execTmGateSwap a1 a2 a3 x) := by
  unfold execTmGateSwap
  extract_lets v1
  refine .next (h.mcOnly (fun y1 h1 => (h1.ungated (fun y2 h2 => ?_))))
  extract_lets v2 v3 v4 v5
  exact .ite h2.tmRefuse (.ite h2.answer (.ite h2.tmRefuse h2.gateSwapSet.answer))
theorem Keeps.hubOwn {m : Nat} {s x : State} (h : Keeps m s x) {a1 a2 a3} (hm : Sub 31768172829322641103 m := by exact .of ‹_› rfl) : OptP (fun z => Keeps m s z) (State.hubOwn x a1 a2 a3) := by
  unfold State.hubOwn
  extract_lets v1 v2
  refine ite_ind (h.after (execClkEnWrite_keeps h)) (ite_ind (h.after (execClkEnWrite_keeps h)) (ite_ind (h.after (execTimeStepWrite_keeps h)) (ite_ind (h.after (execTimeAdj_keeps h)) (ite_ind (h.after (execTimeServoOfs_keeps h)) (ite_ind (h.after (execDeclareLock_keeps h)) (ite_ind (h.after (execPwrCapWrite_keeps h)) (ite_ind (h.after (execPwrTimedBudgetWrite_keeps h)) (ite_ind h.domCommand (ite_ind (OptP.some ?_) (ite_ind (h.after (execPrtModeWrite_keeps h)) (ite_ind h.prtCmdWrite (ite_ind h.keyCommand (ite_ind h.cfgLock (ite_ind h.refuseReg (ite_ind h.rasCommand (ite_ind (h.after (execFhMaskUnmute_keeps h)) (ite_ind h.refuseReg (ite_ind (.ite h.bump.refuseReg (.ite h.bump.refuseReg h.refuseReg)) ?_))))))))))))))))))
  · split
    · exact h.after (execXltInvInstance_keeps h)
    · exact h.after (execXltInvRange_keeps h)
    · exact h.after (execXltInvAll_keeps h)
    · exact h.refuseReg
  · split
    · exact h.after (execClkIslTargetWrite_keeps h)
    · extract_lets v3
      exact h.listCmd (fun a4 => (execCglSwap_keeps h)) (execCglStop_keeps h)
    · exact h.after (execCglLcGrpWrite_keeps h)
    · exact h.after (execPrtLcInstWrite_keeps h)
    · exact h.lnkCmdWrite
    · split
      · extract_lets v3
        refine OptP.some ?_
        split
        · exact h.bump.refuseReg
        · exact h.after (execActivate_keeps h)
        · exact h.after (execDeactivate_keeps h)
        · exact h.answer
      · exact h.fhCmdWrite
      · extract_lets v3
        exact h.listCmd (fun a4 => (execTmGateSwap_keeps h)) (execTmGateStop_keeps h)
      · exact h.cardSwapWrite
      · exact trivial
theorem Keeps.flushStores {m : Nat} {s x : State} (h : Keeps m s x) {a1 a2 a3 a4} (hm : Sub 576460784551332868 m := by exact .of ‹_› rfl) : Keeps m s (State.flushStores x a1 a2 a3 a4) := by
  induction a4 generalizing x a1 a2 a3 with
  | nil =>
    unfold State.flushStores
    exact h
  | cons hd tl ih =>
    unfold State.flushStores
    split
    · extract_lets v1 v2 v3
      have hv1 : Keeps m s v1.2 := h.perform
      apply ih
      exact hv1.setThread
    · apply ih
      exact h
theorem execSoftRowRepairDone_keeps {m : Nat} {s x : State} (h : Keeps m s x) (hm : Sub 55340232221128654852 m := by exact .of ‹_› rfl) : OutP m s (execSoftRowRepairDone x) := by
  unfold execSoftRowRepairDone
  refine .next ?_
  split
  · exact h
  · extract_lets v1
    have hv1 : Keeps m s v1 := by
      unfold v1
      exact (Keeps.part h (.of hm (a := 55340232221128654848) rfl) rfl (later_of rfl rfl rfl rfl) fun g hg => by cases g <;> first | rfl | exact nomatch hg)
    exact .ite hv1.setReg hv1
theorem Keeps.regNone {m : Nat} {s x : State} (h : Keeps m s x) {a1 a2} (hm : Sub 9437198 m := by exact .of ‹_› rfl) : Keeps m s (State.regNone x a1 a2) := by
  unfold State.regNone
  extract_lets v1
  exact h.charge.answer
theorem execFecQctlReset_keeps {m : Nat} {s : State} {a1 a2} {x : State} (h : Keeps m s x) (hm : Sub 577023734484831246 m := by exact .of ‹_› rfl) : OutP m s (execFecQctlReset a1 a2 x) := by
  unfold execFecQctlReset
  refine .next (h.ownerOnly (fun y1 h1 => (h1.ungated (fun y2 h2 => h2.fecQueueReset.answer))))
theorem execFabXrTailWrite_keeps {m : Nat} {s : State} {a1 a2 a3} {x : State} (h : Keeps m s x) (hm : Sub 13631502 m := by exact .of ‹_› rfl) : OutP m s (execFabXrTailWrite a1 a2 a3 x) := by
  unfold execFabXrTailWrite
  extract_lets v1
  refine .next (h.mapped (fun y1 h1 => ?_))
  extract_lets v2 v3 v4
  exact .ite h1.refuseReg h1.setFld.answer
theorem execFabXiDone_keeps {m : Nat} {s : State} {a1 a2 a3} {x : State} (h : Keeps m s x) (hm : Sub 576496003261148175 m := by exact .of ‹_› rfl) : OutP m s (execFabXiDone a1 a2 a3 x) := by
  unfold execFabXiDone
  extract_lets v1 v2
  refine .next (h.inboxPage (fun y1 h1 => ?_))
  extract_lets v3
  exact .ite h1.slotFree.answer (.ite h1.refuseReg h1.xiSend.answer)
theorem Keeps.ownerReg {m : Nat} {s x : State} (h : Keeps m s x) {a1 a2 a3} (hm : Sub 581562552844037135 m := by exact .of ‹_› rfl) : OptP (fun z => Keeps m s z) (State.ownerReg x a1 a2 a3) := by
  unfold State.ownerReg
  split
  · extract_lets v1 v2
    have hv2 : Keeps m s v2 := (.ite (h.after (execFecQctlCancel_keeps h)) h.answer)
    exact .ite (hv2.after (execFecQctlReset_keeps hv2)) hv2
  · exact .ite (h.after (execTmEnqCtlReset_keeps h)) h.answer
  · exact h.after (execFabXrTailWrite_keeps h)
  · exact h.after (execFabXiDone_keeps h)
  · split
    · exact h.ownerOnly (fun y1 h1 => (h1.ungated (fun y2 h2 => h2.setReg.fecServe.answer)))
    · exact h.ownerOnly (fun y1 h1 => (h1.ungated (fun y2 h2 => h2.setReg.tmRun.answer)))
    · exact ite_ind (h.mapped (fun y1 h1 => h1.setReg.answer)) trivial
theorem execPrtTqReset_keeps {m : Nat} {s : State} {a1 a2 a3} {x : State} (h : Keeps m s x) (hm : Sub 1030 m := by exact .of ‹_› rfl) : OutP m s (execPrtTqReset a1 a2 a3 x) := by
  unfold execPrtTqReset
  extract_lets v1 v2
  have hv1 : Keeps m s v1 := (.ite h.tqReset h)
  have hv2 : Keeps m s v2 := (.ite hv1.tqReset hv1)
  refine .next hv2.answer
theorem Keeps.cancelTag {m : Nat} {s x : State} (h : Keeps m s x) {a1 a2 a3} (hm : Sub 1028 m := by exact .of ‹_› rfl) : Keeps m s (State.cancelTag x a1 a2 a3) := by
  unfold State.cancelTag
  extract_lets v1 v2 v3 v4 v5 v6 v7 v8
  exact .ite h.bump h.setCtx
theorem execPrtTaskCancel_keeps {m : Nat} {s : State} {a1 a2} {x : State} (h : Keeps m s x) (hm : Sub 1030 m := by exact .of ‹_› rfl) : OutP m s (execPrtTaskCancel a1 a2 x) := by
  unfold execPrtTaskCancel
  refine .next h.cancelTag.answer
theorem execRasCoreFence_keeps {m : Nat} {s : State} {a1 a2 a3} {x : State} (h : Keeps m s x) (hm : Sub 68762470094 m := by exact .of ‹_› rfl) : OutP m s (execRasCoreFence a1 a2 a3 x) := by
  unfold execRasCoreFence
  refine .next (h.mcOnly (fun y1 h1 => (Keeps.answer (.ite h1.fenceCore h1))))
theorem execMeCtrlWrite_keeps {m : Nat} {s : State} {a1 a2} {x : State} (h : Keeps m s x) (hm : Sub 4194310 m := by exact .of ‹_› rfl) : OutP m s (execMeCtrlWrite a1 a2 x) := by
  unfold execMeCtrlWrite
  extract_lets v1
  refine .next (.ite h.refuseReg h.setFld.answer)
theorem execMeQreset_keeps {m : Nat} {s : State} {a1 a2 a3} {x : State} (h : Keeps m s x) (hm : Sub 1030 m := by exact .of ‹_› rfl) : OutP m s (execMeQreset a1 a2 a3 x) := by
  unfold execMeQreset
  extract_lets v1 v2
  have hv1 : Keeps m s v1 := (.ite h.meReset h)
  have hv2 : Keeps m s v2 := (.ite hv1.meReset hv1)
  refine .next hv2.answer
theorem execMeActDescWrite_keeps {m : Nat} {s : State} {a1 a2 a3} {x : State} (h : Keeps m s x) (hm : Sub 4194310 m := by exact .of ‹_› rfl) : OutP m s (execMeActDescWrite a1 a2 a3 x) := by
  unfold execMeActDescWrite
  extract_lets v1 v2
  refine .next (.ite h.setReg.answer h.bump.refuseReg)
theorem execVceCtrlWrite_keeps {m : Nat} {s : State} {a1 a2 a3} {x : State} (h : Keeps m s x) (hm : Sub 4194310 m := by exact .of ‹_› rfl) : OutP m s (execVceCtrlWrite a1 a2 a3 x) := by
  unfold execVceCtrlWrite
  extract_lets v1
  refine .next (.ite h.refuseReg h.setFld.answer)
theorem execTmeCtrlWrite_keeps {m : Nat} {s : State} {a1 a2} {x : State} (h : Keeps m s x) (hm : Sub 4194310 m := by exact .of ‹_› rfl) : OutP m s (execTmeCtrlWrite a1 a2 x) := by
  unfold execTmeCtrlWrite
  extract_lets v1
  refine .next (.ite h.refuseReg h.setFld.answer)
theorem Keeps.coreOwn {m : Nat} {s x : State} (h : Keeps m s x) {a1 a2 a3 a4} (hm : Sub 68766672590 m := by exact .of ‹_› rfl) : OptP (fun z => Keeps m s z) (State.coreOwn x a1 a2 a3 a4) := by
  unfold State.coreOwn
  extract_lets v1 v2 v3
  exact ite_ind (h.after (execPrtTqReset_keeps h)) (ite_ind (h.after (execPrtTaskCancel_keeps h)) (ite_ind (h.after (execPrtTaskCancel_keeps h)) (ite_ind (h.after (execMemPmGo_keeps h)) (ite_ind (h.after (execRasCoreFence_keeps h)) (ite_ind (h.after (execMeCtrlWrite_keeps h)) (ite_ind (h.after (execMeQreset_keeps h)) (ite_ind (h.after (execMeActDescWrite_keeps h)) (ite_ind (h.after (execMeActDescWrite_keeps h)) (ite_ind (h.after (execVceCtrlWrite_keeps h)) (ite_ind (h.after (execVceCtrlWrite_keeps h)) (ite_ind (h.after (execVceQreset_keeps h)) (ite_ind (h.after (execVceQreset_keeps h)) (ite_ind (h.after (execTmeCtrlWrite_keeps h)) (ite_ind (h.after (execTmeQreset_keeps h)) trivial))))))))))))))
theorem Keeps.plainWrite {m : Nat} {s x : State} (h : Keeps m s x) {a1 a2 a3} (hm : Sub 581527334110112783 m := by exact .of ‹_› rfl) : Keeps m s (State.plainWrite x a1 a2 a3) := by
  unfold State.plainWrite
  extract_lets v1 v2 v3 v4
  have hv4 : Keeps m s v4 := (h.afterWrite h.setReg)
  exact .ite h.refuseWrite (.ite hv4.refuseWrite hv4.answer)
theorem Keeps.regWrite {m : Nat} {s x : State} (h : Keeps m s x) {a1 a2 a3} (hm : Sub 31768172829322641103 m := by exact .of ‹_› rfl) : Keeps m s (State.regWrite x a1 a2 a3) := by
  unfold State.regWrite
  split
  · exact h.regNone
  · split
    · exact h.regNone
    · extract_lets v1 v2
      split
      · rename_i q1 q2 q3 q4 q5 q6 q7 q8 q9
        have hq1 : Keeps m s q8 := OptP.of_eq (P := fun z : State => Keeps m s z) h.ownerReg q9
        exact hq1
      · refine .ite h.privilege (.ite h.gatedLog.answer ?_)
        split
        · rename_i q1 q2 q3 q4 q5 q6 q7 q8 q9 q10 q11
          have hq1 : Keeps m s q10 := OptP.of_eq (P := fun z : State => Keeps m s z) (ite_ind h.coreOwn h.hubOwn) q11
          exact hq1
        · exact h.plainWrite
theorem Keeps.portWindow {m : Nat} {s x : State} (h : Keeps m s x) {a1} (hm : Sub 35218731828228 m := by exact .of ‹_› rfl) : Keeps m s (State.portWindow x a1) := by
  unfold State.portWindow
  extract_lets v1 v2 v3 v4 v5 v6
  have hv2 : Keeps m s v2 := (.foldl h fun y1 h1 _ => h1.setFld)
  have hv3 : Keeps m s v3 := hv2.setPort
  exact .ite hv3 (.ite hv3.event.errLog.retirePort (.ite hv3.event.errLog.retirePort (.foldl hv3 fun y1 h1 _ => (.ite h1.laneFailed h1))))
theorem execLnkWindowEnd_keeps {m : Nat} {s x : State} (h : Keeps m s x) (hm : Sub 35218731828228 m := by exact .of ‹_› rfl) : OutP m s (execLnkWindowEnd x) := by
  unfold execLnkWindowEnd
  refine .next (.foldl h fun y1 h1 _ => h1.portWindow)
theorem execChallenge_keeps {m : Nat} {s : State} {a1 a2 a3} {x : State} (h : Keeps m s x) (hm : Sub 2 m := by exact .of ‹_› rfl) : OutP m s (execChallenge a1 a2 a3 x) := by
  unfold execChallenge
  refine .next (h.onAgreed (fun y1 h1 a4 => (.ite h1.spdmError h1.spdmReply)))
theorem execAssign_keeps {m : Nat} {s : State} {a1 a2} {x : State} (h : Keeps m s x) (hm : Sub 4094353494874127375 m := by exact .of ‹_› rfl) : OutP m s (execAssign a1 a2 x) := by
  unfold execAssign
  refine .next h.prtWrite
theorem execSecCfgLock_keeps {m : Nat} {s : State} {a1 a2} {x : State} (h : Keeps m s x) (hm : Sub 13631502 m := by exact .of ‹_› rfl) : OutP m s (execSecCfgLock a1 a2 x) := by
  unfold execSecCfgLock
  refine .next (h.mcOnly (fun y1 h1 => h1.cfgLock))
theorem execReclaimAck_keeps {m : Nat} {s : State} {a1} {x : State} (h : Keeps m s x) (hm : Sub 1152921504611041286 m := by exact .of ‹_› rfl) : OutP m s (execReclaimAck a1 x) := by
  unfold execReclaimAck
  extract_lets v1 v2
  refine .next (h.fromInst (fun y1 h1 => (.ite h1.codeState ?_)))
  extract_lets v3
  exact h1.setPartSt.answer
theorem execScatter_keeps {m : Nat} {s : State} {a1} {x : State} (h : Keeps m s x) (hm : Sub 13632524 m := by exact .of ‹_› rfl) : OutP m s (execScatter a1 x) := by
  unfold execScatter
  refine .next h.tmeAccept
theorem execCfma_keeps {m : Nat} {s : State} {a1} {x : State} (h : Keeps m s x) (hm : Sub 32225887244 m := by exact .of ‹_› rfl) : OutP m s (execCfma a1 x) := by
  unfold execCfma
  refine .next (h.vceIssue (fun y1 h1 a2 => h1.vceOp))
theorem execSt_keeps {m : Nat} {s : State} {a1 a2 a3 a4 a5} {x : State} (h : Keeps m s x) (hm : Sub 35250987330572 m := by exact .of ‹_› rfl) : OutP m s (execSt a1 a2 a3 a4 a5 x) := by
  unfold execSt
  refine .next (h.issue (fun y1 h1 => ?_))
  extract_lets v1 v2 v3 v4 v5 v6
  exact .ite (.ite h1.scrUpset.scrChecked.scrStore h1.threadFault) (.ite h1.postStore h1.setThread)
theorem Keeps.markIsland {m : Nat} {s x : State} (h : Keeps m s x) {a1 a2} (hm : Sub 32212254724 m := by exact .of ‹_› rfl) : Keeps m s (State.markIsland x a1 a2) := .ite h h.event.setFld.countErr
theorem execCremaAbort_keeps {m : Nat} {s : State} {a1 a2} {x : State} (h : Keeps m s x) (hm : Sub 104857606 m := by exact .of ‹_› rfl) : OutP m s (execCremaAbort a1 a2 x) := by
  unfold execCremaAbort
  refine .next h.cremaCommand
theorem execSwapRej_keeps {m : Nat} {s : State} {a1} {x : State} (h : Keeps m s x) (hm : Sub 35184372088836 m := by exact .of ‹_› rfl) : OutP m s (execSwapRej a1 x) := by
  unfold execSwapRej
  extract_lets v1 v2 v3 v4 v5 v6
  have hv5 : Keeps m s v5 := h.setPort
  have hv6 : Keeps m s v6 := (.ite hv5 hv5.setFld.setFld)
  refine .next (.ite h hv6.setFld.bumpFld)
theorem Keeps.sendDispatch {m : Nat} {s x : State} (h : Keeps m s x) {a1 a2 a3 a4 a5 a6} (hm : Sub 52843175226380 m := by exact .of ‹_› rfl) : Keeps m s (State.sendDispatch x a1 a2 a3 a4 a5 a6) := by
  unfold State.sendDispatch
  extract_lets v1 v2 v3 v4 v5 v6 v7 v8 v9
  have hv5 : Keeps m s v5.2 := h.readSegs
  have hv6 : Keeps m s v6 := hv5.ringAdvance
  split
  · exact hv5.ringAdvance.ringDone
  · exact hv5.ringFault
  · refine .ite hv6.ringDone ?_
    extract_lets v10 v11 v12 v13
    have hv13 : Keeps m s v13 := (.ite hv6.set_brs hv6)
    exact hv13.setDisp.hubIssue
theorem Keeps.cremaApply {m : Nat} {s x : State} (h : Keeps m s x) {a1 a2 a3 a4} (hm : Sub 33554434 m := by exact .of ‹_› rfl) : Keeps m s (State.cremaApply x a1 a2 a3 a4) := by
  unfold State.cremaApply
  extract_lets v1
  exact h.setCremaSlot.answer
theorem Keeps.cremaAddEnd {m : Nat} {s x : State} (h : Keeps m s x) {a1 a2} (hm : Sub 32261540878 m := by exact .of ‹_› rfl) : Keeps m s (State.cremaAddEnd x a1 a2) := by
  unfold State.cremaAddEnd
  extract_lets v1 v2
  refine .ite h.cremaApply ?_
  split
  · exact h.codeFault
  · extract_lets v3
    have hv3 : Keeps m s v3.2.2 := h.cremaRead
    exact .ite hv3.bump64.cremaApply hv3.answer
theorem execMbxMcRecv_keeps {m : Nat} {s : State} {a1} {x : State} (h : Keeps m s x) (hm : Sub 522417588987233286 m := by exact .of ‹_› rfl) : OutP m s (execMbxMcRecv a1 x) := by
  unfold execMbxMcRecv
  refine .next h.mbxReadMany.mbxAnswer
theorem execInboxSlotFree_keeps {m : Nat} {s : State} {a1 a2} {x : State} (h : Keeps m s x) (hm : Sub 576460818875419652 m := by exact .of ‹_› rfl) : OutP m s (execInboxSlotFree a1 a2 x) := by
  unfold execInboxSlotFree
  refine .next (.ite h.slotFree h)
theorem execOutDone_keeps {m : Nat} {s : State} {a1 a2} {x : State} (h : Keeps m s x) (hm : Sub 450359994962936846 m := by exact .of ‹_› rfl) : OutP m s (execOutDone a1 a2 x) := by
  unfold execOutDone
  refine .next (h.brsRun (fun y1 h1 a3 => (.ite h1.brsState h1.outDone)))
theorem execFree_keeps {m : Nat} {s : State} {a1 a2} {x : State} (h : Keeps m s x) (hm : Sub 1729382806670399495 m := by exact .of ‹_› rfl) : OutP m s (execFree a1 a2 x) := by
  unfold execFree
  refine .next ?_
  split
  · exact h.memState
  · exact h.freeRegion.answer
theorem execBulk_keeps {m : Nat} {s : State} {a1} {x : State} (h : Keeps m s x) (hm : Sub 576496003296791564 m := by exact .of ‹_› rfl) : OutP m s (execBulk a1 x) := by
  unfold execBulk
  extract_lets v1 v2
  have hv1 : Keeps m s v1.2 := h.rxTake
  have hv2 : Keeps m s v2 := hv1.bump64
  refine .next ?_
  split
  · exact h
  · extract_lets v3 v4 v5
    have hv4 : Keeps m s v4.2 := hv2.frameRun
    exact .ite h (.ite hv2.bump.event (.ite hv2.fabState (.ite hv4 hv4.sendTo)))
theorem execInstReset_keeps {m : Nat} {s : State} {a1 a2} {x : State} (h : Keeps m s x) (hm : Sub 4094353494874127375 m := by exact .of ‹_› rfl) : OutP m s (execInstReset a1 a2 x) := by
  unfold execInstReset
  refine .next h.prtWrite
theorem Keeps.dmaFault {m : Nat} {s x : State} (h : Keeps m s x) {a1 a2 a3 a4 a5 a6} (hm : Sub 9961484 m := by exact .of ‹_› rfl) : Keeps m s (State.dmaFault x a1 a2 a3 a4 a5 a6) := h.charge.dmaEnd
theorem execCremaAdd_keeps {m : Nat} {s : State} {a1 a2} {x : State} (h : Keeps m s x) (hm : Sub 104857606 m := by exact .of ‹_› rfl) : OutP m s (execCremaAdd a1 a2 x) := by
  unfold execCremaAdd
  refine .next h.cremaCommand
theorem Keeps.glideFlags {m : Nat} {s x : State} (h : Keeps m s x) (hm : Sub 4 m := by exact .of ‹_› rfl) : Keeps m s (State.glideFlags x) := .foldl h fun y1 h1 _ => h1.glideFlag
theorem execReclaimInstant_keeps {m : Nat} {s : State} {a1 a2} {x : State} (h : Keeps m s x) (hm : Sub 17592202821636 m := by exact .of ‹_› rfl) : OutP m s (execReclaimInstant a1 a2 x) := by
  unfold execReclaimInstant
  extract_lets v1 v2 v3
  have hv1 : Keeps m s v1 := h.elapse
  have hv3 : Keeps m s v3 := hv1.setPartState
  refine .next (.ite hv1 (.foldl hv3 fun y1 h1 _ => h1.setBrsGrp))
theorem execSetconv_keeps {m : Nat} {s : State} {a1} {x : State} (h : Keeps m s x) (hm : Sub 32225887244 m := by exact .of ‹_› rfl) : OutP m s (execSetconv a1 x) := by
  unfold execSetconv
  extract_lets v1 v2
  have hv2 : Keeps m s v2 := h.tmeAccept
  refine .next ?_
  split
  · extract_lets v3
    exact .ite hv2.setConv hv2
  · exact hv2
theorem Keeps.meRetire {m : Nat} {s x : State} (h : Keeps m s x) {a1 a2 a3} (hm : Sub 32212255748 m := by exact .of ‹_› rfl) : Keeps m s (State.meRetire x a1 a2 a3) := by
  unfold State.meRetire
  extract_lets v1 v2 v3 v4 v5 v6 v7 v8 v9
  have hv2 : Keeps m s v2.1 := by
    unfold v2
    refine ite_ind (P := fun r : State × NumFlags × Bool => Keeps m s r.1) h.meDrain ?_
    dsimp -zeta only
    exact h
  have hv3 : Keeps m s v3 := hv2
  have hv8 : Keeps m s v8 := hv3.setMe
  have hv9 : Keeps m s v9 := hv8.setFld
  exact hv9.settle.raiseEvt
theorem execMeComplete_keeps {m : Nat} {s : State} {a1} {x : State} (h : Keeps m s x) (hm : Sub 32212255748 m := by exact .of ‹_› rfl) : OutP m s (execMeComplete a1 x) := by
  unfold execMeComplete
  extract_lets v1
  refine .next ?_
  split
  · exact h
  · exact .ite h h.meRetire
theorem execKeyExchange_keeps {m : Nat} {s : State} {a1 a2 a3} {x : State} (h : Keeps m s x) (hm : Sub 268435459 m := by exact .of ‹_› rfl) : OutP m s (execKeyExchange a1 a2 a3 x) := by
  unfold execKeyExchange
  refine .next (h.onAgreed (fun y1 h1 a4 => ?_))
  extract_lets v1 v2 v3 v4
  have hv4 : Keeps m s v4.2 := h1.fresh
  exact hv4.setSpdm.spdmReply
theorem execPerst_keeps {m : Nat} {s : State} {a1} {x : State} (h : Keeps m s x) (hm : Sub 432345564898656260 m := by exact .of ‹_› rfl) : OutP m s (execPerst a1 x) := by
  unfold execPerst
  refine .next h.portDown
theorem execCancel_keeps {m : Nat} {s : State} {a1 a2} {x : State} (h : Keeps m s x) (hm : Sub 32255247372 m := by exact .of ‹_› rfl) : OutP m s (execCancel a1 a2 x) := by
  unfold execCancel
  refine .next (h.issue (fun y1 h1 => h1.cancelTag))
theorem execAlloc_keeps {m : Nat} {s : State} {a1 a2} {x : State} (h : Keeps m s x) (hm : Sub 576461302063437830 m := by exact .of ‹_› rfl) : OutP m s (execAlloc a1 a2 x) := by
  unfold execAlloc
  extract_lets v1 v2 v3 v4 v5 v6
  refine .next (.ite h.answer (.ite h.memState (.ite h.bump.answer ?_)))
  split
  · exact h.bump.answer
  · split
    · exact h.bump.answer
    · rename_i q1 q2 q3 q4 q5 q6
      have hq1 : Keeps m s q5 := OptP.of_eq (P := fun z : State => Keeps m s z) h.bindKey q6
      extract_lets v7 v8 v9 v10
      have hv8 : Keeps m s v8 := hq1.devZero
      have hv9 : Keeps m s v9 := hv8.mapPages
      exact hv9.set_regions.answer
theorem Keeps.meRowLands {m : Nat} {s x : State} (h : Keeps m s x) {a1 a2 a3 a4 a5} (hm : Sub 32212255749 m := by exact .of ‹_› rfl) : Keeps m s (State.meRowLands x a1 a2 a3 a4 a5) := by
  unfold State.meRowLands
  extract_lets v1 v2 v3 v4 v5 v6 v7 v8
  have hv5 : Keeps m s v5 := h.setMe.meNote
  have hv6 : Keeps m s v6 := hv5.set_free
  have hv7 : Keeps m s v7 := hv6.bumpFld
  have hv8 : Keeps m s v8 := (.ite hv7.countErr hv7)
  exact hv8.bump64
theorem execGlideStep_keeps {m : Nat} {s : State} {a1} {x : State} (h : Keeps m s x) (hm : Sub 4 m := by exact .of ‹_› rfl) : OutP m s (execGlideStep a1 x) := by
  unfold execGlideStep
  refine .next h.glide
theorem execInstQuery_keeps {m : Nat} {s : State} {a1} {x : State} (h : Keeps m s x) (hm : Sub 2 m := by exact .of ‹_› rfl) : OutP m s (execInstQuery a1 x) := by
  unfold execInstQuery
  extract_lets v1 v2
  refine .next (h.fromInst (fun y1 h1 => h1.answer))
theorem execTimePllLock_keeps {m : Nat} {s x : State} (h : Keeps m s x) (hm : Sub 1125899906842628 m := by exact .of ‹_› rfl) : OutP m s (execTimePllLock x) := by
  unfold execTimePllLock
  extract_lets v1 v2
  have hv1 : Keeps m s v1 := h.setFld
  have hv2 : Keeps m s v2 := (.ite hv1.setFld hv1)
  refine .next hv2.setReg.setReg.glideFlags.timeCheck
theorem execCellFrameBoundary_keeps {m : Nat} {s : State} {a1 a2} {x : State} (h : Keeps m s x) (hm : Sub 16777220 m := by exact .of ‹_› rfl) : OutP m s (execCellFrameBoundary a1 a2 x) := by
  unfold execCellFrameBoundary
  extract_lets v1 v2 v3
  have hv1 : Keeps m s v1 := h.elapse
  refine .next (.ite hv1.setCell (.ite hv1.setCell hv1))
theorem Keeps.fenceCluster {m : Nat} {s x : State} (h : Keeps m s x) {a1 a2} (hm : Sub 68753032900 m := by exact .of ‹_› rfl) : Keeps m s (State.fenceCluster x a1 a2) := .foldl h.degrade fun y1 h1 _ => h1.fenceCore
theorem execToHost_keeps {m : Nat} {s : State} {a1 a2} {x : State} (h : Keeps m s x) (hm : Sub 32216973316 m := by exact .of ‹_› rfl) : OutP m s (execToHost a1 a2 x) := by
  unfold execToHost
  refine .next h.dmaAccept
theorem execEndKernel_keeps {m : Nat} {s : State} {a1} {x : State} (h : Keeps m s x) (hm : Sub 32225887244 m := by exact .of ‹_› rfl) : OutP m s (execEndKernel a1 x) := by
  unfold execEndKernel
  refine .next (h.vceIssue (fun y1 h1 a2 => h1.vceStop))
theorem Keeps.hrBaseWrite {m : Nat} {s x : State} (h : Keeps m s x) {a1 a2} (hm : Sub 6291470 m := by exact .of ‹_› rfl) : Keeps m s (State.hrBaseWrite x a1 a2) := h.ungated (fun y1 h1 => (.ite h1.refuseWin h1.setWreg.answer))
theorem execRasFence_keeps {m : Nat} {s : State} {a1 a2} {x : State} (h : Keeps m s x) (hm : Sub 18446744142476216014 m := by exact .of ‹_› rfl) : OutP m s (execRasFence a1 a2 x) := by
  unfold execRasFence
  refine .next h.rasWrite
theorem Keeps.deliver {m : Nat} {s x : State} (h : Keeps m s x) {a1 a2 a3 a4 a5} (hm : Sub 42992652 m := by exact .of ‹_› rfl) : Keeps m s (State.deliver x a1 a2 a3 a4 a5) := by
  unfold State.deliver
  extract_lets v1 v2 v3 v4 v5 v6
  have hv2 : Keeps m s v2 := h.setThread
  have hv4 : Keeps m s v4 := (.ite hv2.charge hv2)
  have hv5 : Keeps m s v5 := hv4.noteFault
  exact .ite h.setThread (.ite hv2.threadFault hv5.setThread)
theorem execRemoteReply_keeps {m : Nat} {s : State} {a1 a2 a3} {x : State} (h : Keeps m s x) (hm : Sub 576496003292851212 m := by exact .of ‹_› rfl) : OutP m s (execRemoteReply a1 a2 a3 x) := by
  unfold execRemoteReply
  extract_lets v1 v2 v3
  have hv3 : Keeps m s v3 := h.flushStores
  refine .next ?_
  split
  · exact h
  · split
    · exact h.deliver
    · extract_lets v4
      have hv4 : Keeps m s v4.2 := hv3.devUpset.perform
      exact hv4.deliver
    · exact h
    · exact h.startRemote
theorem Keeps.harqWrite {m : Nat} {s x : State} (h : Keeps m s x) {a1} (hm : Sub 576460784515681284 m := by exact .of ‹_› rfl) : Keeps m s (State.harqWrite x a1) := by
  unfold State.harqWrite
  extract_lets v1 v2 v3
  have hv2 : Keeps m s v2 := by
    unfold v2
    refine .foldl h fun y1 h1 a2 => ?_
    extract_lets v4
    exact .ite h1.devWrite (.ite h1.devPoison h1.devWrite)
  exact hv2.devWrite
theorem Keeps.itAvg {m : Nat} {s x : State} (h : Keeps m s x) {a1} (hm : Sub 1 m := by exact .of ‹_› rfl) : Keeps m s (State.itAvg x a1).2 := by
  unfold State.itAvg
  extract_lets v1 v2 v3
  have hv3 : Keeps m s v3.2 := h.fresh
  refine ite_ind (P := fun r : Nat × State => Keeps m s r.2) ?_ hv3
  dsimp -zeta only
  exact h
theorem Keeps.fecComplete {m : Nat} {s x : State} (h : Keeps m s x) {a1} (hm : Sub 577023734482734093 m := by exact .of ‹_› rfl) : Keeps m s (State.fecComplete x a1) := by
  unfold State.fecComplete
  extract_lets v1 v2 v3 v4 v5 v6 v7 v8 v9 v10 v11 v12
  have hv2 : Keeps m s v2 := h.dropFecJob
  have hv6 : Keeps m s v6 := (.ite hv2.harqWrite hv2)
  have hv8 : Keeps m s v8 := (.ite hv6.devWrite hv6)
  have hv9 : Keeps m s v9 := (.ite hv8.bump.event hv8)
  have hv10 : Keeps m s v10 := (.ite hv9.bump hv9)
  have hv11 : Keeps m s v11.2 := hv10.itAvg
  split
  · exact hv2.fecEnd.fecServe
  · exact hv11.fecRecord.fecServe
theorem execTagGrant_keeps {m : Nat} {s x : State} (h : Keeps m s x) (hm : Sub 35218731836420 m := by exact .of ‹_› rfl) : OutP m s (execTagGrant x) := by
  unfold execTagGrant
  extract_lets v1 v2 v3
  have hv1 : Keeps m s v1 := h.dropStale
  refine .next ?_
  split
  · extract_lets v4 v5
    have hv4 : Keeps m s v4 := hv1.set_fab
    exact .ite hv4.bump.event.fabDone hv4.fabSend.noteTag
  · split
    · extract_lets v4 v5 v6
      have hv5 : Keeps m s v5 := hv1.holdTag
      have hv6 : Keeps m s v6 := hv5.setGateway
      exact hv6.noteTag.gwPack
    · exact hv1
theorem Keeps.psStart {m : Nat} {s x : State} (h : Keeps m s x) {a1 a2} (hm : Sub 75557863725914323419140 m := by exact .of ‹_› rfl) : Keeps m s (State.psStart x a1 a2) := h.set_boot.psStat
theorem Keeps.dmaMove {m : Nat} {s x : State} (h : Keeps m s x) {a1 a2 a3} (hm : Sub 576497102805003276 m := by exact .of ‹_› rfl) : Keeps m s (State.dmaMove x a1 a2 a3) := by
  unfold State.dmaMove
  extract_lets v1 v2 v3 v4 v5
  have hv5 : Keeps m s v5.2 := h.span
  split
  · exact hv5
  · exact hv5.dmaFault
  · refine .ite hv5.dmaFault ?_
    split
    · exact hv5.dmaFault
    · exact hv5.dmaFault
    · exact .ite hv5.dmaFault hv5.dmaFault
    · refine .ite ?_ ?_
      · extract_lets v6
        have hv6 : Keeps m s v6.2 := hv5.writeSegs
        split
        · exact hv6.dmaFault
        · exact hv6.dmaMoved
      · extract_lets v6 v7
        have hv6 : Keeps m s v6.2 := hv5.readSegs
        have hv7 : Keeps m s v7 := hv6
        split
        · exact hv7
        · exact hv7.dmaFault
        · exact .ite hv7.set_hostOut.dmaMoved hv7.dmaFault
theorem execTeardown_keeps {m : Nat} {s : State} {a1 a2} {x : State} (h : Keeps m s x) (hm : Sub 4094353494890904589 m := by exact .of ‹_› rfl) : OutP m s (execTeardown a1 a2 x) := by
  unfold execTeardown
  extract_lets v1 v2
  have hv1 : Keeps m s v1 := h.elapse
  refine .next (.ite hv1 hv1.tearStart)
theorem execGetCapabilities_keeps {m : Nat} {s : State} {a1 a2} {x : State} (h : Keeps m s x) (hm : Sub 268435458 m := by exact .of ‹_› rfl) : OutP m s (execGetCapabilities a1 a2 x) := by
  unfold execGetCapabilities
  refine .next (h.onFn (fun y1 h1 a3 => (.ite h1.spdmError (.ite h1.spdmError h1.setSpdm.spdmReply))))
theorem Keeps.gwPush {m : Nat} {s x : State} (h : Keeps m s x) {a1 a2} (hm : Sub 34359738370 m := by exact .of ‹_› rfl) : Keeps m s (State.gwPush x a1 a2) := by
  unfold State.gwPush
  extract_lets v1
  exact .ite h.answer (.ite h.answer h.setGwQueue.answer)
theorem execXltIfDone_keeps {m : Nat} {s : State} {a1 a2} {x : State} (h : Keeps m s x) (hm : Sub 12582918 m := by exact .of ‹_› rfl) : OutP m s (execXltIfDone a1 a2 x) := by
  unfold execXltIfDone
  extract_lets v1 v2
  exact ite_ind (.next h.answer) (ite_ind (.next h.refuseLog.answer) (.next h.set_ifr.answer))
theorem Keeps.winWrite {m : Nat} {s x : State} (h : Keeps m s x) {a1 a2 a3 a4} (hm : Sub 18014432885474318 m := by exact .of ‹_› rfl) : Keeps m s (State.winWrite x a1 a2 a3 a4) := by
  unfold State.winWrite
  split
  · exact .ite h.mbxHostSend (.ite h.dmaPush h.gwPush)
  · exact .ite h.setWreg.answer (.ite (h.after (execXltIfDone_keeps h)) (.ite h.hrBaseWrite (.ite (h.after (execTmHrSizeWrite_keeps h)) (h.after (execTmHrDone_keeps h)))))
  · exact h.answer
  · exact h.winViolation
theorem execUlMapClear_keeps {m : Nat} {s : State} {a1 a2} {x : State} (h : Keeps m s x) (hm : Sub 577586684439301124 m := by exact .of ‹_› rfl) : OutP m s (execUlMapClear a1 a2 x) := by
  unfold execUlMapClear
  extract_lets v1 v2 v3 v4
  have hv1 : Keeps m s v1 := h.elapse
  have hv4 : Keeps m s v4 := (.ite hv1 hv1.devWrite)
  refine .next (.ite hv1 (.ite hv1.cellGone (.ite hv1 (.ite hv4.bumpFld hv4))))
theorem execQuerySeq_keeps {m : Nat} {s : State} {a1 a2} {x : State} (h : Keeps m s x) (hm : Sub 450359994962936846 m := by exact .of ‹_› rfl) : OutP m s (execQuerySeq a1 a2 x) := by
  unfold execQuerySeq
  refine .next (h.seqCommand (fun y1 h1 a3 => h1.querySeq))
theorem execVceComplete_keeps {m : Nat} {s : State} {a1} {x : State} (h : Keeps m s x) (hm : Sub 1028 m := by exact .of ‹_› rfl) : OutP m s (execVceComplete a1 x) := by
  unfold execVceComplete
  extract_lets v1 v2 v3 v4
  refine .next ?_
  split
  · exact h
  · split
    · exact h
    · refine .ite h ?_
      extract_lets v5 v6 v7 v8 v9 v10
      have hv8 : Keeps m s v8 := h.setVce
      have hv9 : Keeps m s v9 := hv8.setFld
      have hv10 : Keeps m s v10 := (.ite hv9.noteVceFault hv9)
      exact hv10.modCtx.raiseEvt
theorem execTmeRunAheadRead_keeps {m : Nat} {s : State} {a1} {x : State} (h : Keeps m s x) (hm : Sub 35250979990532 m := by exact .of ‹_› rfl) : OutP m s (execTmeRunAheadRead a1 x) := by
  unfold execTmeRunAheadRead
  extract_lets v1 v2 v3 v4
  refine .next ?_
  split
  · exact h
  · split
    · exact h
    · extract_lets v5 v6 v7 v8
      have hv7 : Keeps m s v7.2 := h.span
      have hv8 : ∀ z1, Keeps m s z1 → Keeps m s (v8 z1) := by
        intro z1 hz1
        unfold v8
        exact hz1.setTme
      refine .ite h ?_
      split
      · exact hv7
      · exact hv8 _ hv7
      · extract_lets v9 v10 v11
        have hv10 : Keeps m s v10.2 := hv7.readSegs
        have hv11 : Keeps m s v11.2 := hv10.poolGrant
        refine .ite (hv8 _ hv7) (.ite (hv8 _ hv7.bump) ?_)
        split
        · extract_lets v12
          exact hv8 _ hv11.setTme
        · exact hv8 _ hv10
theorem execCremaCommandDone_keeps {m : Nat} {s : State} {a1} {x : State} (h : Keeps m s x) (hm : Sub 576460784632073230 m := by exact .of ‹_› rfl) : OutP m s (execCremaCommandDone a1 x) := by
  unfold execCremaCommandDone
  extract_lets v1
  refine .next ?_
  split
  · exact h
  · extract_lets v2
    have hv2 : Keeps m s v2 := (.ite h.cremaAddEnd h.cremaSealEnd)
    exact hv2.set_cremaJobs.cremaServe
theorem execReady_keeps {m : Nat} {s : State} {a1} {x : State} (h : Keeps m s x) (hm : Sub 35218731827204 m := by exact .of ‹_› rfl) : OutP m s (execReady a1 x) := by
  unfold execReady
  extract_lets v1 v2 v3
  have hv3 : Keeps m s v3 := h.setPort
  refine .next (.ite hv3.setReg.setLink.lnkPump h)
theorem execOutputRoomWaitEnd_keeps {m : Nat} {s : State} {a1} {x : State} (h : Keeps m s x) (hm : Sub 576478651595369484 m := by exact .of ‹_› rfl) : OutP m s (execOutputRoomWaitEnd a1 x) := by
  unfold execOutputRoomWaitEnd
  extract_lets v1 v2
  refine .next (.ite h h.setBrsGrp.buildAndDispatch)
theorem execVperm_keeps {m : Nat} {s : State} {a1} {x : State} (h : Keeps m s x) (hm : Sub 32225887244 m := by exact .of ‹_› rfl) : OutP m s (execVperm a1 x) := by
  unfold execVperm
  refine .next (h.vceIssue (fun y1 h1 a2 => h1.vceOp))
theorem execMeLoadacc_keeps {m : Nat} {s : State} {a1} {x : State} (h : Keeps m s x) (hm : Sub 32225887245 m := by exact .of ‹_› rfl) : OutP m s (execMeLoadacc a1 x) := by
  unfold execMeLoadacc
  refine .next (h.meAccept (fun y1 h1 a2 a3 => h1.meLoad))
theorem execToDev_keeps {m : Nat} {s : State} {a1 a2} {x : State} (h : Keeps m s x) (hm : Sub 32216973316 m := by exact .of ‹_› rfl) : OutP m s (execToDev a1 a2 x) := by
  unfold execToDev
  refine .next h.dmaAccept
theorem execLockInterface_keeps {m : Nat} {s : State} {a1 a2 a3 a4} {x : State} (h : Keeps m s x) (hm : Sub 1212153862 m := by exact .of ‹_› rfl) : OutP m s (execLockInterface a1 a2 a3 a4 x) := by
  unfold execLockInterface
  extract_lets v1
  refine .next (h.onTdi (fun y1 h1 => (.ite h1.tdiRefuse (Keeps.spdmReply ?_))))
  extract_lets v2
  have hv2 : Keeps m s v2 := h1.setTdi
  exact hv2.set_tdiStream
theorem execPolarDec_keeps {m : Nat} {s : State} {a1 a2 a3 a4} {x : State} (h : Keeps m s x) (hm : Sub 577023734484831246 m := by exact .of ‹_› rfl) : OutP m s (execPolarDec a1 a2 a3 a4 x) := by
  unfold execPolarDec
  refine .next h.fecPush
theorem execMaskCheck_keeps {m : Nat} {s : State} {a1 a2 a3 a4 a5} {x : State} (h : Keeps m s x) (hm : Sub 2251799813685255 m := by exact .of ‹_› rfl) : OutP m s (execMaskCheck a1 a2 a3 a4 a5 x) := by
  unfold execMaskCheck
  extract_lets v1 v2 v3 v4
  have hv4 : Keeps m s v4 := h.bump64
  refine .next (.ite h.answer ?_)
  split
  · exact hv4.set_maskRun.answer
  · exact hv4.maskHit
theorem execRecoveryTimeout_keeps {m : Nat} {s : State} {a1} {x : State} (h : Keeps m s x) (hm : Sub 35218731828228 m := by exact .of ‹_› rfl) : OutP m s (execRecoveryTimeout a1 x) := by
  unfold execRecoveryTimeout
  extract_lets v1
  refine .next (.ite h.linkOff (.ite h.linkDown.bumpFld h))
theorem execIssueTme_keeps {m : Nat} {s : State} {a1 a2 a3} {x : State} (h : Keeps m s x) (hm : Sub 32255247372 m := by exact .of ‹_› rfl) : OutP m s (execIssueTme a1 a2 a3 x) := by
  unfold execIssueTme
  refine .next h.issueItem
theorem execKeyGenerate_keeps {m : Nat} {s : State} {a1 a2 a3} {x : State} (h : Keeps m s x) (hm : Sub 576460752317054991 m := by exact .of ‹_› rfl) : OutP m s (execKeyGenerate a1 a2 a3 x) := by
  unfold execKeyGenerate
  refine .next (h.mcOnly (fun y1 h1 => h1.keyCommand))
theorem execTimeCmpFire_keeps {m : Nat} {s : State} {a1 a2} {x : State} (h : Keeps m s x) (hm : Sub 4398063288324 m := by exact .of ‹_› rfl) : OutP m s (execTimeCmpFire a1 a2 x) := by
  unfold execTimeCmpFire
  extract_lets v1 v2 v3 v4 v5
  have hv1 : Keeps m s v1 := h.elapse
  have hv5 : Keeps m s v5 := hv1.event
  refine .next (.ite hv1 hv5.set_mcIrq)
theorem Keeps.winRecord {m : Nat} {s x : State} (h : Keeps m s x) {a1 a2 a3} (hm : Sub 8 m := by exact .of ‹_› rfl) : Keeps m s (State.winRecord x a1 a2 a3) := .ite h h.setWreg
theorem Keeps.bar0Inst {m : Nat} {s x : State} (h : Keeps m s x) {a1 a2 a3 a4 a5 a6} (hm : Sub 18014432885474318 m := by exact .of ‹_› rfl) : Keeps m s (State.bar0Inst x a1 a2 a3 a4 a5 a6) := by
  unfold State.bar0Inst
  refine .ite h.winViolation ?_
  extract_lets v1
  exact Keeps.winRecord (.ite h.bump.refuseWin h.winWrite)
theorem execBar0Write_keeps {m : Nat} {s : State} {a1 a2 a3 a4 a5 a6} {x : State} (h : Keeps m s x) (hm : Sub 151115727451828646838271 m := by exact .of ‹_› rfl) : OutP m s (execBar0Write a1 a2 a3 a4 a5 a6 x) := by
  unfold execBar0Write
  refine .next (.ite h (.ite h.bar0Pf ?_))
  split
  · exact h.bar0Inst
  · exact h
theorem execDispatchEntryComplete_keeps {m : Nat} {s : State} {a1 a2} {x : State} (h : Keeps m s x) (hm : Sub 34359739396 m := by exact .of ‹_› rfl) : OutP m s (execDispatchEntryComplete a1 a2 x) := by
  unfold execDispatchEntryComplete
  extract_lets v1 v2
  refine .next ?_
  split
  · exact .ite h.dispEnd h
  · exact h
theorem execHostLinkDown_keeps {m : Nat} {s : State} {a1} {x : State} (h : Keeps m s x) (hm : Sub 432345564898656260 m := by exact .of ‹_› rfl) : OutP m s (execHostLinkDown a1 x) := by
  unfold execHostLinkDown
  refine .next h.portDown
theorem execXltInvComplete_keeps {m : Nat} {s x : State} (h : Keeps m s x) (hm : Sub 376836 m := by exact .of ‹_› rfl) : OutP m s (execXltInvComplete x) := by
  unfold execXltInvComplete
  split
  · refine .next h
  · refine ite_ind (.next h) (.next (Keeps.setReg ?_))
    extract_lets v1
    have hv1 : Keeps m s v1 := h.invApply
    exact hv1.set_inval
theorem execCfms_keeps {m : Nat} {s : State} {a1} {x : State} (h : Keeps m s x) (hm : Sub 32225887244 m := by exact .of ‹_› rfl) : OutP m s (execCfms a1 x) := by
  unfold execCfms
  refine .next (h.vceIssue (fun y1 h1 a2 => h1.vceOp))
theorem Keeps.applyTable {m : Nat} {s x : State} (h : Keeps m s x) {a1 a2} (hm : Sub 31768172829322641103 m := by exact .of ‹_› rfl) : Keeps m s (State.applyTable x a1 a2) := by
  induction a2 generalizing x a1 with
  | nil =>
    unfold State.applyTable
    exact h.answer
  | cons hd tl ih =>
    unfold State.applyTable
    extract_lets v1
    have hv1 : Keeps m s v1 := h.regWrite
    exact .ite (by apply ih; exact hv1) hv1.setFld.setFld
theorem Keeps.bootSlot {m : Nat} {s x : State} (h : Keeps m s x) {a1 a2 a3} (hm : Sub 75589631898743646060239 m := by exact .of ‹_› rfl) : Keeps m s (State.bootSlot x a1 a2 a3) := by
  unfold State.bootSlot
  extract_lets v1 v2 v3 v4 v5 v6 v7
  have hv4 : Keeps m s v4 := h.set_boot
  have hv5 : Keeps m s v5 := hv4.setFld.setFld
  have hv6 : Keeps m s v6 := hv5.setFld.setFld
  have hv7 : Keeps m s v7 := hv6.setMeas.measure3
  exact hv7.applyTable
theorem execImageVerified_keeps {m : Nat} {s x : State} (h : Keeps m s x) (hm : Sub 75589631898743646060239 m := by exact .of ‹_› rfl) : OutP m s (execImageVerified x) := by
  unfold execImageVerified
  refine .next ?_
  split
  · extract_lets v1 v2 v3
    have hv2 : Keeps m s v2 := h.setFld.event
    exact .ite h.bootSlot (.ite hv2.enterRecovery hv2.set_boot)
  · exact h
theorem execPut_keeps {m : Nat} {s : State} {a1 a2 a3} {x : State} (h : Keeps m s x) (hm : Sub 576496003297045516 m := by exact .of ‹_› rfl) : OutP m s (execPut a1 a2 a3 x) := by
  unfold execPut
  refine .next h.gwServe
theorem execXclkLost_keeps {m : Nat} {s x : State} (h : Keeps m s x) (hm : Sub 433506649177587716 m := by exact .of ‹_› rfl) : OutP m s (execXclkLost x) := by
  unfold execXclkLost
  extract_lets v1 v2 v3
  have hv1 : Keeps m s v1 := h.setFld.event
  have hv2 : Keeps m s v2 := hv1.setFld.setFld
  have hv3 : Keeps m s v3 := hv2.setFld.glideFlags
  refine .next hv3.timeCheck.serdesDown
theorem execWaitevt_keeps {m : Nat} {s : State} {a1 a2} {x : State} (h : Keeps m s x) (hm : Sub 32255247372 m := by exact .of ‹_› rfl) : OutP m s (execWaitevt a1 a2 x) := by
  unfold execWaitevt
  refine .next (h.issue (fun y1 h1 => ?_))
  extract_lets v1 v2 v3
  exact .ite h1.setCtx h1.setCtx
theorem execBadBarAccess_keeps {m : Nat} {s : State} {a1 a2} {x : State} (h : Keeps m s x) (hm : Sub 6 m := by exact .of ‹_› rfl) : OutP m s (execBadBarAccess a1 a2 x) := by
  unfold execBadBarAccess
  extract_lets v1
  refine .next (.ite h (.ite h.bump h.badBar))
theorem execQueuedItemPush_keeps {m : Nat} {s : State} {a1 a2} {x : State} (h : Keeps m s x) (hm : Sub 1024 m := by exact .of ‹_› rfl) : OutP m s (execQueuedItemPush a1 a2 x) := by
  unfold execQueuedItemPush
  extract_lets v1 v2
  refine .next ?_
  split
  · exact h
  · extract_lets v3
    exact .ite h.setCtx h
theorem execRfma_keeps {m : Nat} {s : State} {a1} {x : State} (h : Keeps m s x) (hm : Sub 32225887244 m := by exact .of ‹_› rfl) : OutP m s (execRfma a1 x) := by
  unfold execRfma
  refine .next (h.vceIssue (fun y1 h1 a2 => h1.vceOp))
theorem execVendorDefinedRequest_keeps {m : Nat} {s : State} {a1 a2 a3} {x : State} (h : Keeps m s x) (hm : Sub 671088642 m := by exact .of ‹_› rfl) : OutP m s (execVendorDefinedRequest a1 a2 a3 x) := by
  unfold execVendorDefinedRequest
  extract_lets v1
  refine .next (h.inSession (fun y1 h1 a4 => ?_))
  split
  · exact h1.keyStream
  · exact .ite h1.spdmError h1.setStream.spdmReply
  · exact h1.streamLost.spdmReply
  · split
    · exact h1.tdiReport
    · exact h1.spdmError
  · split
    · exact h1.spdmReply
    · exact h1.spdmError
  · exact h1.spdmError
theorem execTableWalkDone_keeps {m : Nat} {s : State} {a1} {x : State} (h : Keeps m s x) (hm : Sub 35250944338948 m := by exact .of ‹_› rfl) : OutP m s (execTableWalkDone a1 x) := by
  unfold execTableWalkDone
  extract_lets v1
  have hv1 : Keeps m s v1.2 := h.walkDone
  refine .next ?_
  split
  · exact hv1
  · split
    · refine .foldl hv1 fun y1 h1 a2 => ?_
      split
      · exact .ite h1.startRemote h1
      · exact h1
    · exact hv1
theorem execRegisterWrite_keeps {m : Nat} {s : State} {a1 a2 a3} {x : State} (h : Keeps m s x) (hm : Sub 31768172829322641103 m := by exact .of ‹_› rfl) : OutP m s (execRegisterWrite a1 a2 a3 x) := by
  unfold execRegisterWrite
  refine .next h.regWrite
theorem Keeps.derate {m : Nat} {s x : State} (h : Keeps m s x) {a1 a2 a3} (hm : Sub 68753032900 m := by exact .of ‹_› rfl) : Keeps m s (State.derate x a1 a2 a3) := by
  unfold State.derate
  extract_lets v1 v2 v3
  have hv3 : Keeps m s v3 := (.ite h.errLog h)
  exact .ite hv3.setTarget.event.degrade hv3.fenceCluster
theorem Keeps.retireQueue {m : Nat} {s x : State} (h : Keeps m s x) {a1} (hm : Sub 9007199254740996 m := by exact .of ‹_› rfl) : Keeps m s (State.retireQueue x a1) := by
  unfold State.retireQueue
  extract_lets v1
  have hv1 : Keeps m s v1 := h.degrade
  exact .ite hv1 hv1.set_retiredQ
theorem Keeps.escalAct {m : Nat} {s x : State} (h : Keeps m s x) {a1} (hm : Sub 18455751373929580228 m := by exact .of ‹_› rfl) : Keeps m s (State.escalAct x a1) := .ite h.fenceCore (.ite h.derate (.ite h.fenceCluster (.ite h.softRepair (.ite h.replaceDue (.ite h.retireFec (.ite h.retireQueue (.ite h.replaceDue h)))))))
theorem execEscalation_keeps {m : Nat} {s : State} {a1} {x : State} (h : Keeps m s x) (hm : Sub 18455751373929580228 m := by exact .of ‹_› rfl) : OutP m s (execEscalation a1 x) := by
  unfold execEscalation
  extract_lets v1
  have hv1 : Keeps m s v1 := (.foldl h fun y1 h1 _ => h1.countErr)
  refine .next ?_
  split
  · exact hv1
  · exact hv1.set_escal.escalAct
theorem execTimeMarker_keeps {m : Nat} {s : State} {a1 a2} {x : State} (h : Keeps m s x) (hm : Sub 2231252290564 m := by exact .of ‹_› rfl) : OutP m s (execTimeMarker a1 a2 x) := by
  unfold execTimeMarker
  extract_lets v1 v2
  have hv1 : Keeps m s v1 := (.foldl h.elapse fun y1 h1 _ => h1.upsetAt)
  refine .next (.foldl hv1.set_islCopy fun y1 h1 _ => h1.markIsland)
theorem execSwap_keeps {m : Nat} {s : State} {a1} {x : State} (h : Keeps m s x) (hm : Sub 576496003288402948 m := by exact .of ‹_› rfl) : OutP m s (execSwap a1 x) := by
  unfold execSwap
  refine .next h.inbound
theorem execFatalError_keeps {m : Nat} {s : State} {a1} {x : State} (h : Keeps m s x) (hm : Sub 1180645665012451902468 m := by exact .of ‹_› rfl) : OutP m s (execFatalError a1 x) := by
  unfold execFatalError
  refine .next h.fatalNote.fatalStop
theorem execStarve_keeps {m : Nat} {s : State} {a1} {x : State} (h : Keeps m s x) (hm : Sub 9220 m := by exact .of ‹_› rfl) : OutP m s (execStarve a1 x) := by
  unfold execStarve
  extract_lets v1 v2 v3 v4 v5
  have hv2 : Keeps m s v2 := h.tqReset
  have hv3 : Keeps m s v3 := hv2.meReset
  have hv4 : Keeps m s v4 := hv3.vceReset.vceReset
  have hv5 : Keeps m s v5 := hv4.tmeReset
  refine .next (.ite h hv5.bump.event)
theorem execCmac_keeps {m : Nat} {s : State} {a1} {x : State} (h : Keeps m s x) (hm : Sub 32225887244 m := by exact .of ‹_› rfl) : OutP m s (execCmac a1 x) := by
  unfold execCmac
  refine .next (h.vceIssue (fun y1 h1 a2 => h1.vceOp))
theorem execMapRemote_keeps {m : Nat} {s : State} {a1 a2} {x : State} (h : Keeps m s x) (hm : Sub 576461302063437830 m := by exact .of ‹_› rfl) : OutP m s (execMapRemote a1 a2 x) := by
  unfold execMapRemote
  extract_lets v1 v2 v3 v4 v5
  refine .next (h.fromInst (fun y1 h1 => (.ite h1.codeState (.ite h1.answer (.ite h1.codeState ?_)))))
  extract_lets v6 v7
  have hv7 : Keeps m s v7 := h1.mapPages
  exact .ite h1.answer hv7.set_regions.answer
theorem execCreate_keeps {m : Nat} {s : State} {a1 a2} {x : State} (h : Keeps m s x) (hm : Sub 4094353494874127375 m := by exact .of ‹_› rfl) : OutP m s (execCreate a1 a2 x) := by
  unfold execCreate
  refine .next h.prtWrite
theorem execCremaOpen_keeps {m : Nat} {s : State} {a1 a2} {x : State} (h : Keeps m s x) (hm : Sub 104857606 m := by exact .of ‹_› rfl) : OutP m s (execCremaOpen a1 a2 x) := by
  unfold execCremaOpen
  refine .next h.cremaCommand
theorem execXclkRestored_keeps {m : Nat} {s x : State} (h : Keeps m s x) (hm : Sub 1125899906842628 m := by exact .of ‹_› rfl) : OutP m s (execXclkRestored x) := by
  unfold execXclkRestored
  refine .next h.setFld.setFld.event.setFld.timeCheck
theorem execPartCancel_keeps {m : Nat} {s : State} {a1} {x : State} (h : Keeps m s x) (hm : Sub 4094353494874127375 m := by exact .of ‹_› rfl) : OutP m s (execPartCancel a1 x) := by
  unfold execPartCancel
  refine .next h.prtWrite
theorem execEgressComplete_keeps {m : Nat} {s : State} {a1} {x : State} (h : Keeps m s x) (hm : Sub 580964384156683276 m := by exact .of ‹_› rfl) : OutP m s (execEgressComplete a1 x) := by
  unfold execEgressComplete
  refine .next ?_
  split
  · exact h
  · extract_lets v1 v2 v3 v4
    have hv2 : Keeps m s v2 := h.set_tm
    have hv4 : Keeps m s v4 := (.ite hv2.bump hv2)
    exact hv4.tmRecord.tmRun
theorem execTaskDispatch_keeps {m : Nat} {s : State} {a1} {x : State} (h : Keeps m s x) (hm : Sub 1028 m := by exact .of ‹_› rfl) : OutP m s (execTaskDispatch a1 x) := by
  unfold execTaskDispatch
  extract_lets v1 v2 v3 v4
  have hv4 : Keeps m s v4 := by
    unfold v4
    split
    · exact h.setCore.setPmStatus
    · exact h
  refine .next (.ite h ?_)
  split
  · split
    · exact h
    · extract_lets v5 v6 v7
      exact hv4.setCtx
  · exact h
theorem Keeps.takeFlit {m : Nat} {s x : State} (h : Keeps m s x) {a1 a2} (hm : Sub 35184372088836 m := by exact .of ‹_› rfl) : Keeps m s (State.takeFlit x a1 a2) := by
  unfold State.takeFlit
  extract_lets v1 v2 v3 v4 v5 v6
  exact .ite h.setPort.setFld (.ite h.bump (.ite h.sendNak h.protoErr))
theorem Keeps.flitIn {m : Nat} {s x : State} (h : Keeps m s x) {a1 a2} (hm : Sub 35218731828228 m := by exact .of ‹_› rfl) : Keeps m s (State.flitIn x a1 a2) := by
  unfold State.flitIn
  extract_lets v1 v2 v3 v4 v5 v6 v7 v8
  have hv2 : Keeps m s v2 := h.setPort
  have hv3 : Keeps m s v3 := (.ite hv2 hv2.setReg)
  have hv4 : Keeps m s v4.1 := by
    unfold v4
    refine ite_ind (P := fun r : State × Bool => Keeps m s r.1) hv3.ackFlits ?_
    dsimp -zeta only
    exact hv3
  have hv5 : Keeps m s v5 := hv4
  have hv6 : Keeps m s v6 := (.ite hv5.bumpFld.replay hv5)
  have hv7 : Keeps m s v7 := (.ite hv6.takeFlit hv6)
  have hv8 : Keeps m s v8 := hv7.lnkPump
  exact .ite hv5 (.ite hv8.linkOff hv8)
theorem execReclaim_keeps {m : Nat} {s : State} {a1} {x : State} (h : Keeps m s x) (hm : Sub 4094353494874127375 m := by exact .of ‹_› rfl) : OutP m s (execReclaim a1 x) := by
  unfold execReclaim
  refine .next h.prtWrite
theorem execImgCheck_keeps {m : Nat} {s : State} {a1 a2} {x : State} (h : Keeps m s x) (hm : Sub 75557863725914337050638 m := by exact .of ‹_› rfl) : OutP m s (execImgCheck a1 a2 x) := by
  unfold execImgCheck
  extract_lets v1 v2
  refine .next (h.imgCommand (fun y1 h1 => (.ite h1.imgRefuse ?_)))
  extract_lets v3 v4 v5 v6 v7
  have hv6 : Keeps m s v6 := h1.set_boot.setFld
  have hv7 : Keeps m s v7 := hv6.imgRefuse
  exact .ite hv6.imgDone hv7.answer
theorem execGet_keeps {m : Nat} {s : State} {a1 a2 a3} {x : State} (h : Keeps m s x) (hm : Sub 576496003297045516 m := by exact .of ‹_› rfl) : OutP m s (execGet a1 a2 a3 x) := by
  unfold execGet
  refine .next h.gwServe
theorem execProgReg_keeps {m : Nat} {s : State} {a1 a2} {x : State} (h : Keeps m s x) (hm : Sub 169664842766 m := by exact .of ‹_› rfl) : OutP m s (execProgReg a1 a2 x) := by
  unfold execProgReg
  extract_lets v1 v2 v3 v4 v5 v6 v7
  refine .next (h.fromInst (fun y1 h1 => (.ite h1.codeState (.ite h1.answer (.ite h1.codeState (.ite h1.codeViolation ?_))))))
  split
  · exact h1.codeFault
  · extract_lets v8 v9 v10
    have hv10 : Keeps m s v10 := h1.spanChecked
    exact .ite hv10.answer hv10.progNote
theorem execPsWrite_keeps {m : Nat} {s : State} {a1} {x : State} (h : Keeps m s x) (hm : Sub 75557863725914344390662 m := by exact .of ‹_› rfl) : OutP m s (execPsWrite a1 x) := by
  unfold execPsWrite
  extract_lets v1 v2
  have hv1 : Keeps m s v1 := h.elapse
  refine .next (.ite hv1 ?_)
  split
  · exact hv1.psStart
  · refine .ite ?_ hv1.psStart
    extract_lets v3 v4
    have hv3 : Keeps m s v3 := hv1.cmdLost
    exact hv3.set_boot.bump.event.psStat
theorem execMeClear_keeps {m : Nat} {s : State} {a1} {x : State} (h : Keeps m s x) (hm : Sub 13632525 m := by exact .of ‹_› rfl) : OutP m s (execMeClear a1 x) := by
  unfold execMeClear
  refine .next (h.meAccept (fun y1 h1 a2 a3 => h1.meClear))
theorem Keeps.oneStep {m : Nat} {s x : State} (h : Keeps m s x) {a1 a2} (hm : Sub 5 m := by exact .of ‹_› rfl) : Keeps m s (State.oneStep x a1 a2).2 := by
  unfold State.oneStep
  extract_lets v1 v2 v3 v4 v5
  have hv5 : Keeps m s v5.2 := h.fresh
  refine ite_ind (P := fun r : List Nat × State => Keeps m s r.2) ?_ (ite_ind (P := fun r : List Nat × State => Keeps m s r.2) ?_ (ite_ind (P := fun r : List Nat × State => Keeps m s r.2) ?_ hv5))
  · dsimp -zeta only
    exact h
  · dsimp -zeta only
    exact h.event
  · dsimp -zeta only
    exact h
theorem Keeps.tmSend {m : Nat} {s x : State} (h : Keeps m s x) {a1 a2 a3 a4} (hm : Sub 4503599627370501 m := by exact .of ‹_› rfl) : Keeps m s (State.tmSend x a1 a2 a3 a4) := by
  unfold State.tmSend
  extract_lets v1 v2 v3 v4 v5 v6 v7 v8 v9 v10 v11 v12
  have hv2 : Keeps m s v2 := by
    unfold v2
    split
    · exact h.shpCharge
    · exact h
  have hv3 : Keeps m s v3 := by
    unfold v3
    split
    · exact hv2.shpCharge
    · exact hv2
  have hv6 : Keeps m s v6.2 := hv3.oneStep
  have hv7 : Keeps m s v7 := hv6.tmLeave.tmRelease
  have hv8 : Keeps m s v8 := hv7.bump64.bumpFld
  have hv9 : Keeps m s v9 := (.ite hv8.errLog hv8)
  have hv10 : Keeps m s v10 := (.ite hv9.bump.event hv9)
  have hv12 : Keeps m s v12 := hv10.set_tm
  exact hv12.tmCopyDone
theorem execCvtn_keeps {m : Nat} {s : State} {a1} {x : State} (h : Keeps m s x) (hm : Sub 32225887244 m := by exact .of ‹_› rfl) : OutP m s (execCvtn a1 x) := by
  unfold execCvtn
  refine .next (h.vceIssue (fun y1 h1 a2 => h1.vceOp))
theorem execDispatch_keeps {m : Nat} {s : State} {a1} {x : State} (h : Keeps m s x) (hm : Sub 576496003288402948 m := by exact .of ‹_› rfl) : OutP m s (execDispatch a1 x) := by
  unfold execDispatch
  refine .next h.inbound
theorem execSwapAck_keeps {m : Nat} {s : State} {a1} {x : State} (h : Keeps m s x) (hm : Sub 105553116266500 m := by exact .of ‹_› rfl) : OutP m s (execSwapAck a1 x) := by
  unfold execSwapAck
  extract_lets v1
  refine .next ?_
  split
  · exact .ite h.switchLane h
  · exact h
theorem execPwrDomOn_keeps {m : Nat} {s : State} {a1 a2 a3} {x : State} (h : Keeps m s x) (hm : Sub 9223372036868407310 m := by exact .of ‹_› rfl) : OutP m s (execPwrDomOn a1 a2 a3 x) := by
  unfold execPwrDomOn
  refine .next (h.mcOnly (fun y1 h1 => h1.domCommand))
theorem execFastRetrainDone_keeps {m : Nat} {s : State} {a1 a2} {x : State} (h : Keeps m s x) (hm : Sub 105587476004868 m := by exact .of ‹_› rfl) : OutP m s (execFastRetrainDone a1 a2 x) := by
  unfold execFastRetrainDone
  extract_lets v1 v2 v3 v4 v5 v6 v7
  have hv2 : Keeps m s v2 := h.setFld
  have hv3 : Keeps m s v3 := (.foldl hv2 fun y1 h1 _ => (.ite h1.switchLane h1))
  have hv4 : Keeps m s v4 := by
    unfold v4
    split
    · exact .ite hv3.switchLane hv3
    · exact hv3
  have hv6 : Keeps m s v6 := hv4.setPort
  have hv7 : Keeps m s v7 := hv6.bumpFld.bumpFld
  refine .next (.ite h hv7.setLink.lnkPump)
theorem execBfly_keeps {m : Nat} {s : State} {a1} {x : State} (h : Keeps m s x) (hm : Sub 32225887244 m := by exact .of ‹_› rfl) : OutP m s (execBfly a1 x) := by
  unfold execBfly
  refine .next (h.vceIssue (fun y1 h1 a2 => h1.vceOp))
theorem execSpareClearLoadEnd_keeps {m : Nat} {s : State} {a1} {x : State} (h : Keeps m s x) (hm : Sub 32212257924 m := by exact .of ‹_› rfl) : OutP m s (execSpareClearLoadEnd a1 x) := by
  unfold execSpareClearLoadEnd
  refine .next ?_
  split
  · exact h
  · split
    · exact h
    · extract_lets v1 v2 v3 v4 v5
      have hv2 : Keeps m s v2 := h.setCore
      have hv3 : Keeps m s v3 := hv2.loadImages
      have hv4 : Keeps m s v4 := hv3.set_handovers
      have hv5 : Keeps m s v5 := (.ite hv4 hv4.takeOver)
      exact .ite hv5 (.ite hv5 hv5.takeOver)
theorem execDispatchRingRead_keeps {m : Nat} {s x : State} (h : Keeps m s x) (hm : Sub 52843179666444 m := by exact .of ‹_› rfl) : OutP m s (execDispatchRingRead x) := by
  unfold execDispatchRingRead
  refine .next ?_
  split
  · exact h
  · extract_lets v1 v2 v3 v4 v5 v6 v7 v8 v9 v10
    have hv6 : ∀ z1, Keeps m s z1 → ∀ z1c, Keeps m s (v6 z1 z1c) := by
      intro z1 hz1 z1c
      unfold v6
      exact hz1.ringAdvance.ringDone
    have hv7 : Keeps m s v7.2 := h.span
    have hv8 : Keeps m s v8.2 := hv7.span
    have hv9 : Keeps m s v9.2 := hv8.span
    refine .ite (hv6 _ h.fabState _) (.ite (hv6 _ h _) (.ite h.ringFault (.ite h.ringFault ?_)))
    split
    · exact hv7
    · exact hv7.ringFault
    · split
      · exact hv8
      · exact .ite (hv6 _ hv8.fabState _) hv8.ringFault
      · split
        · exact hv9
        · exact .ite (hv6 _ hv9.bump _) hv9.sendDispatch
        · exact hv6 _ hv9.fabState _
theorem execHoldoverExpiry_keeps {m : Nat} {s : State} {a1 a2} {x : State} (h : Keeps m s x) (hm : Sub 16777220 m := by exact .of ‹_› rfl) : OutP m s (execHoldoverExpiry a1 a2 x) := by
  unfold execHoldoverExpiry
  extract_lets v1 v2 v3
  have hv1 : Keeps m s v1 := h.elapse
  refine .next (.ite hv1.setCell.event hv1)
theorem execCompletionQueueRead_keeps {m : Nat} {s : State} {a1 a2 a3 a4} {x : State} (h : Keeps m s x) (hm : Sub 32255247374 m := by exact .of ‹_› rfl) : OutP m s (execCompletionQueueRead a1 a2 a3 a4 x) := by
  unfold execCompletionQueueRead
  refine .next (h.issue (fun y1 h1 => ?_))
  extract_lets v1 v2 v3 v4
  have hv4 : ∀ z1, Keeps m s z1 → ∀ z1c, Keeps m s (v4 z1 z1c) := by
    intro z1 hz1 z1c
    unfold v4
    exact hz1.setThread
  split
  · exact (hv4 _ h1 _).answer
  · extract_lets v5
    have hv5 : Keeps m s v5 := h1.setCtx
    exact (hv4 _ hv5 _).answer
theorem execRstNRelease_keeps {m : Nat} {s : State} {a1 a2 a3} {x : State} (h : Keeps m s x) (hm : Sub 132226261590787529637988 m := by exact .of ‹_› rfl) : OutP m s (execRstNRelease a1 a2 a3 x) := by
  unfold execRstNRelease
  refine .next (.ite h.set_boot.romStart h)
theorem execVmov_keeps {m : Nat} {s : State} {a1} {x : State} (h : Keeps m s x) (hm : Sub 32225887244 m := by exact .of ‹_› rfl) : OutP m s (execVmov a1 x) := by
  unfold execVmov
  refine .next (h.vceIssue (fun y1 h1 a2 => h1.vceOp))
theorem execMbxInstReset_keeps {m : Nat} {s : State} {a1} {x : State} (h : Keeps m s x) (hm : Sub 4094353494874127373 m := by exact .of ‹_› rfl) : OutP m s (execMbxInstReset a1 x) := by
  unfold execMbxInstReset
  refine .next (h.fromInst (fun y1 h1 => h1.instReset))
theorem execDmaPieceDone_keeps {m : Nat} {s : State} {a1 a2} {x : State} (h : Keeps m s x) (hm : Sub 576497102805003276 m := by exact .of ‹_› rfl) : OutP m s (execDmaPieceDone a1 a2 x) := by
  unfold execDmaPieceDone
  extract_lets v1 v2
  refine .next ?_
  split
  · exact h
  · exact .ite h.setDmaQ.bump h.dmaMove
theorem execFabXiNext_keeps {m : Nat} {s : State} {a1 a2} {x : State} (h : Keeps m s x) (hm : Sub 576460818884856846 m := by exact .of ‹_› rfl) : OutP m s (execFabXiNext a1 a2 x) := by
  unfold execFabXiNext
  extract_lets v1
  refine .next (h.inboxPage (fun y1 h1 => ?_))
  split
  · exact h1.answer
  · extract_lets v2 v3
    have hv3 : Keeps m s v3 := h1.set_fab
    exact hv3.setSlot.answer
theorem execRmul_keeps {m : Nat} {s : State} {a1} {x : State} (h : Keeps m s x) (hm : Sub 32225887244 m := by exact .of ‹_› rfl) : OutP m s (execRmul a1 x) := by
  unfold execRmul
  refine .next (h.vceIssue (fun y1 h1 a2 => h1.vceOp))
theorem execFenceRem_keeps {m : Nat} {s : State} {a1} {x : State} (h : Keeps m s x) (hm : Sub 32255247372 m := by exact .of ‹_› rfl) : OutP m s (execFenceRem a1 x) := by
  unfold execFenceRem
  refine .next (h.issue (fun y1 h1 => ?_))
  extract_lets v1
  exact .ite h1 h1.setThread
theorem execSeto_keeps {m : Nat} {s : State} {a1} {x : State} (h : Keeps m s x) (hm : Sub 32225887244 m := by exact .of ‹_› rfl) : OutP m s (execSeto a1 x) := by
  unfold execSeto
  refine .next (h.vceIssue (fun y1 h1 a2 => h1.vceCtl))
theorem execCplane_keeps {m : Nat} {s : State} {a1 a2 a3 a4} {x : State} (h : Keeps m s x) (hm : Sub 580964384158780430 m := by exact .of ‹_› rfl) : OutP m s (execCplane a1 a2 a3 a4 x) := by
  unfold execCplane
  refine .next h.tmPush
theorem execGroupChangeApply_keeps {m : Nat} {s : State} {a1} {x : State} (h : Keeps m s x) (hm : Sub 281474976711684 m := by exact .of ‹_› rfl) : OutP m s (execGroupChangeApply a1 x) := by
  unfold execGroupChangeApply
  refine .next ?_
  split
  · exact .ite h h.applyChange.syncOwners.refreshTEntry
  · exact h
theorem execGwComplete_keeps {m : Nat} {s : State} {a1} {x : State} (h : Keeps m s x) (hm : Sub 576496003292851212 m := by exact .of ‹_› rfl) : OutP m s (execGwComplete a1 x) := by
  unfold execGwComplete
  extract_lets v1 v2
  refine .next ?_
  split
  · exact h
  · refine .ite h (.ite h.setGwQueue.bump ?_)
    extract_lets v3 v4
    have hv3 : Keeps m s v3.2 := h.span
    split
    · exact hv3
    · exact hv3.charge.setGwQueue
    · exact hv3.writeSegs.setGwQueue
theorem execInstDestroy_keeps {m : Nat} {s : State} {a1 a2} {x : State} (h : Keeps m s x) (hm : Sub 4094353494874127375 m := by exact .of ‹_› rfl) : OutP m s (execInstDestroy a1 a2 x) := by
  unfold execInstDestroy
  refine .next h.prtWrite
theorem execMbxRecv_keeps {m : Nat} {s : State} {a1 a2 a3} {x : State} (h : Keeps m s x) (hm : Sub 450359994949305350 m := by exact .of ‹_› rfl) : OutP m s (execMbxRecv a1 a2 a3 x) := by
  unfold execMbxRecv
  refine .next (.ite h h.mbxHostRead)
theorem execAddRec_keeps {m : Nat} {s : State} {a1} {x : State} (h : Keeps m s x) (hm : Sub 576496003288402948 m := by exact .of ‹_› rfl) : OutP m s (execAddRec a1 x) := by
  unfold execAddRec
  refine .next h.inbound
theorem execGwEntryGrant_keeps {m : Nat} {s : State} {a1} {x : State} (h : Keeps m s x) (hm : Sub 35218731836420 m := by exact .of ‹_› rfl) : OutP m s (execGwEntryGrant a1 x) := by
  unfold execGwEntryGrant
  extract_lets v1 v2
  have hv1 : Keeps m s v1 := h.dropStale
  refine .next (.ite hv1 ?_)
  split
  · exact hv1.set_fab.gwEnter
  · exact hv1
theorem execRaw_keeps {m : Nat} {s : State} {a1 a2 a3 a4} {x : State} (h : Keeps m s x) (hm : Sub 580964384158780430 m := by exact .of ‹_› rfl) : OutP m s (execRaw a1 a2 a3 a4 x) := by
  unfold execRaw
  refine .next h.tmPush
theorem execAddF32_keeps {m : Nat} {s : State} {a1} {x : State} (h : Keeps m s x) (hm : Sub 576496003288402948 m := by exact .of ‹_› rfl) : OutP m s (execAddF32 a1 x) := by
  unfold execAddF32
  refine .next h.inbound
theorem execFecJobComplete_keeps {m : Nat} {s : State} {a1} {x : State} (h : Keeps m s x) (hm : Sub 577023734482734093 m := by exact .of ‹_› rfl) : OutP m s (execFecJobComplete a1 x) := by
  unfold execFecJobComplete
  refine .next ?_
  split
  · exact h.fecComplete
  · exact h
theorem execHeartbeat_keeps {m : Nat} {s : State} {a1 a2} {x : State} (h : Keeps m s x) (hm : Sub 2 m := by exact .of ‹_› rfl) : OutP m s (execHeartbeat a1 a2 x) := by
  unfold execHeartbeat
  refine .next (h.inSession (fun y1 h1 a3 => h1.spdmReply))
theorem execAnnounce_keeps {m : Nat} {s : State} {a1 a2} {x : State} (h : Keeps m s x) (hm : Sub 35184372088836 m := by exact .of ‹_› rfl) : OutP m s (execAnnounce a1 a2 x) := by
  unfold execAnnounce
  extract_lets v1 v2 v3 v4 v5 v6 v7
  have hv6 : Keeps m s v6 := h.setPort
  have hv7 : Keeps m s v7 := hv6.setReg.setReg
  refine .next (.ite h (.ite (.ite h (.ite h.setLink h.linkDown)) hv7.setFld.setLink))
theorem execLdRequest_keeps {m : Nat} {s : State} {a1} {x : State} (h : Keeps m s x) (hm : Sub 576496003288402948 m := by exact .of ‹_› rfl) : OutP m s (execLdRequest a1 x) := by
  unfold execLdRequest
  refine .next h.inbound
theorem execFrameTx_keeps {m : Nat} {s : State} {a1 a2 a3} {x : State} (h : Keeps m s x) (hm : Sub 4503599644147717 m := by exact .of ‹_› rfl) : OutP m s (execFrameTx a1 a2 a3 x) := by
  unfold execFrameTx
  extract_lets v1 v2 v3 v4
  have hv1 : Keeps m s v1 := h.elapse
  have hv3 : Keeps m s v3.2 := hv1.tmPick
  have hv4 : Keeps m s v4 := by
    unfold v4
    split
    · exact hv3
    · split
      · exact hv3
      · exact hv3.tmSend
  refine .next (.ite hv1 hv4.countHeld)
theorem execFunctionLevelReset_keeps {m : Nat} {s : State} {a1 a2} {x : State} (h : Keeps m s x) (hm : Sub 4238468682949983245 m := by exact .of ‹_› rfl) : OutP m s (execFunctionLevelReset a1 a2 x) := by
  unfold execFunctionLevelReset
  extract_lets v1 v2
  have hv2 : Keeps m s v2 := h.bump
  refine .next (.ite h ?_)
  split
  · exact hv2
  · extract_lets v3
    have hv3 : Keeps m s v3 := (.ite hv2.instReset hv2)
    exact hv3.setMsix.setTdi
theorem execVsum_keeps {m : Nat} {s : State} {a1} {x : State} (h : Keeps m s x) (hm : Sub 32225887244 m := by exact .of ‹_› rfl) : OutP m s (execVsum a1 x) := by
  unfold execVsum
  refine .next (h.vceIssue (fun y1 h1 a2 => h1.vceOp))
theorem execFlitRx_keeps {m : Nat} {s : State} {a1 a2 a3 a4 a5} {x : State} (h : Keeps m s x) (hm : Sub 105587476005892 m := by exact .of ‹_› rfl) : OutP m s (execFlitRx a1 a2 a3 a4 a5 x) := by
  unfold execFlitRx
  extract_lets v1 v2 v3 v4 v5 v6 v7
  have hv3 : Keeps m s v3 := h.bump64
  have hv5 : Keeps m s v5 := hv3.setPort
  have hv6 : Keeps m s v6 := (.ite hv3 hv3.bump64.laneSyms)
  have hv7 : Keeps m s v7 := hv6.cwControl
  refine .next (.ite h (.ite hv5.bump.sendNak (.ite hv7.bump.sendNak hv7.flitIn)))
theorem execSeta_keeps {m : Nat} {s : State} {a1} {x : State} (h : Keeps m s x) (hm : Sub 32225887244 m := by exact .of ‹_› rfl) : OutP m s (execSeta a1 x) := by
  unfold execSeta
  refine .next (h.vceIssue (fun y1 h1 a2 => h1.vceCtl))
theorem execGather_keeps {m : Nat} {s : State} {a1} {x : State} (h : Keeps m s x) (hm : Sub 13632524 m := by exact .of ‹_› rfl) : OutP m s (execGather a1 x) := by
  unfold execGather
  refine .next h.tmeAccept
theorem execMeRowReachesBank_keeps {m : Nat} {s : State} {a1 a2} {x : State} (h : Keeps m s x) (hm : Sub 32212255749 m := by exact .of ‹_› rfl) : OutP m s (execMeRowReachesBank a1 a2 x) := by
  unfold execMeRowReachesBank
  refine .next ?_
  split
  · exact h
  · exact h.meRowLands
theorem execBlockMoveDone_keeps {m : Nat} {s x : State} (h : Keeps m s x) {a1} (hm : Sub 576478376701733892 m := by exact .of ‹_› rfl) : OutP m s (execBlockMoveDone a1 x) := by
  unfold execBlockMoveDone
  refine .next ?_
  split
  · exact h
  · extract_lets k kv sp hb sb n br y0 y z qs
    have hy : Keeps m s y := Keeps.devChecked (x := y0) h.set_brs
    have hz : Keeps m s z :=
      .ite (hy.set_dev fun d => Mem.wf_copy d _ _ _).setBrsBlk.poolGive.bump (hy.set_dev fun d => Mem.wf_copy d _ _ _).setBrsBlk.poolGive.bump
    refine .foldl hz fun w hw _ => ?_
    extract_lets e
    exact .ite hw (.ite hw.setBrsEnt hw.setBrsEnt.writeTables)

theorem execSpareChoice_keeps {m : Nat} {s : State} {a1} {x : State} (h : Keeps m s x) (hm : Sub 1220 m := by exact .of ‹_› rfl) : OutP m s (execSpareChoice a1 x) := by
  unfold execSpareChoice
  refine .next ?_
  split
  · exact h
  · extract_lets v1 v2 v3
    have hv1 : ∀ z1, Keeps m s z1 → ∀ z1c, Keeps m s (v1 z1 z1c) := by
      intro z1 hz1 z1c
      unfold v1
      exact hz1.set_handovers
    have hv3 : Keeps m s v3 := h.degrade
    split
    · extract_lets v4 v5 v6
      have hv4 : Keeps m s v4 := h.set_map
      have hv6 : Keeps m s v6 := hv4.setCore
      exact hv1 _ hv6 _
    · split
      · exact hv3
      · extract_lets v4 v5 v6 v7 v8
        have hv5 : Keeps m s v5 := hv3.set_map
        have hv6 : Keeps m s v6 := hv5.set_map
        have hv8 : Keeps m s v8 := hv6.setCore
        exact .ite hv5.set_handovers (hv1 _ hv8 _)

end

end Sys2Proof.Machine
end

