-- ==== Sys2Proof/Laws/Exec.lean ====
section
/-!
SUPPORT. Laws/Exec.lean: exec of each command is its meaning, so that no proof unfolds exec; whatever the command, exec keeps what
Keeps names, and changes only the parts of the state that foot numbers.
-/
namespace Sys2Proof.Machine

section

set_option linter.unusedVariables false

open Sys2Proof.Safety

@[simp] theorem exec_registerWrite {wr addr value} (s : State) : exec (.registerWrite wr addr value) s = execRegisterWrite wr addr value s := rfl
@[simp] theorem exec_meMma {u err} (s : State) : exec (.meMma u err) s = execMeMma u err s := rfl
@[simp] theorem exec_meDrain {u} (s : State) : exec (.meDrain u) s = execMeDrain u s := rfl
@[simp] theorem exec_meLoadacc {u} (s : State) : exec (.meLoadacc u) s = execMeLoadacc u s := rfl
@[simp] theorem exec_meClear {u} (s : State) : exec (.meClear u) s = execMeClear u s := rfl
@[simp] theorem exec_meRowReachesBank {u err} (s : State) : exec (.meRowReachesBank u err) s = execMeRowReachesBank u err s := rfl
@[simp] theorem exec_meComplete {u} (s : State) : exec (.meComplete u) s = execMeComplete u s := rfl
@[simp] theorem exec_meQreset {core t e} (s : State) : exec (.meQreset core t e) s = execMeQreset core t e s := rfl
@[simp] theorem exec_meCtrlWrite {core en} (s : State) : exec (.meCtrlWrite core en) s = execMeCtrlWrite core en s := rfl
@[simp] theorem exec_meActDescWrite {u w value} (s : State) : exec (.meActDescWrite u w value) s = execMeActDescWrite u w value s := rfl
@[simp] theorem exec_tampStepEnd {core ready} (s : State) : exec (.tampStepEnd core ready) s = execTampStepEnd core ready s := rfl
@[simp] theorem exec_tampRampStart {core} (s : State) : exec (.tampRampStart core) s = execTampRampStart core s := rfl
@[simp] theorem exec_tampPrewarm {core} (s : State) : exec (.tampPrewarm core) s = execTampPrewarm core s := rfl
@[simp] theorem exec_ld {th rd addr size err} (s : State) : exec (.ld th rd addr size err) s = execLd th rd addr size err s := rfl
@[simp] theorem exec_st {th addr size data err} (s : State) : exec (.st th addr size data err) s = execSt th addr size data err s := rfl
@[simp] theorem exec_atom {th op rd addr data cmp} (s : State) : exec (.atom th op rd addr data cmp) s = execAtom th op rd addr data cmp s := rfl
@[simp] theorem exec_fenceRem {th} (s : State) : exec (.fenceRem th) s = execFenceRem th s := rfl
@[simp] theorem exec_issueMe {th off prio} (s : State) : exec (.issueMe th off prio) s = execIssueMe th off prio s := rfl
@[simp] theorem exec_issueVce {th v off prio} (s : State) : exec (.issueVce th v off prio) s = execIssueVce th v off prio s := rfl
@[simp] theorem exec_issueTme {th off prio} (s : State) : exec (.issueTme th off prio) s = execIssueTme th off prio s := rfl
@[simp] theorem exec_spawn {th off} (s : State) : exec (.spawn th off) s = execSpawn th off s := rfl
@[simp] theorem exec_raise {th e} (s : State) : exec (.raise th e) s = execRaise th e s := rfl
@[simp] theorem exec_waitevt {th e} (s : State) : exec (.waitevt th e) s = execWaitevt th e s := rfl
@[simp] theorem exec_cancel {th tag} (s : State) : exec (.cancel th tag) s = execCancel th tag s := rfl
@[simp] theorem exec_done {th status} (s : State) : exec (.done th status) s = execDone th status s := rfl
@[simp] theorem exec_queuedItemPush {u t} (s : State) : exec (.queuedItemPush u t) s = execQueuedItemPush u t s := rfl
@[simp] theorem exec_remoteReply {u t err} (s : State) : exec (.remoteReply u t err) s = execRemoteReply u t err s := rfl
@[simp] theorem exec_storeAck {u t} (s : State) : exec (.storeAck u t) s = execStoreAck u t s := rfl
@[simp] theorem exec_taskAccept {u hub} (s : State) : exec (.taskAccept u hub) s = execTaskAccept u hub s := rfl
@[simp] theorem exec_taskDispatch {u} (s : State) : exec (.taskDispatch u) s = execTaskDispatch u s := rfl
@[simp] theorem exec_prtTaskCancel {u tag} (s : State) : exec (.prtTaskCancel u tag) s = execPrtTaskCancel u tag s := rfl
@[simp] theorem exec_prtTqReset {core t e} (s : State) : exec (.prtTqReset core t e) s = execPrtTqReset core t e s := rfl
@[simp] theorem exec_memPmGo {core wr go ctx} (s : State) : exec (.memPmGo core wr go ctx) s = execMemPmGo core wr go ctx s := rfl
@[simp] theorem exec_programLoadEnd {core remote} (s : State) : exec (.programLoadEnd core remote) s = execProgramLoadEnd core remote s := rfl
@[simp] theorem exec_fence {core kind} (s : State) : exec (.fence core kind) s = execFence core kind s := rfl
@[simp] theorem exec_rasCoreFence {core wr value} (s : State) : exec (.rasCoreFence core wr value) s = execRasCoreFence core wr value s := rfl
@[simp] theorem exec_spareChoice {lc} (s : State) : exec (.spareChoice lc) s = execSpareChoice lc s := rfl
@[simp] theorem exec_spareClearLoadEnd {lc} (s : State) : exec (.spareClearLoadEnd lc) s = execSpareClearLoadEnd lc s := rfl
@[simp] theorem exec_vceRun {u} (s : State) : exec (.vceRun u) s = execVceRun u s := rfl
@[simp] theorem exec_vmov {u} (s : State) : exec (.vmov u) s = execVmov u s := rfl
@[simp] theorem exec_vperm {u} (s : State) : exec (.vperm u) s = execVperm u s := rfl
@[simp] theorem exec_vadd {u} (s : State) : exec (.vadd u) s = execVadd u s := rfl
@[simp] theorem exec_vsub {u} (s : State) : exec (.vsub u) s = execVsub u s := rfl
@[simp] theorem exec_cmul {u} (s : State) : exec (.cmul u) s = execCmul u s := rfl
@[simp] theorem exec_cfma {u} (s : State) : exec (.cfma u) s = execCfma u s := rfl
@[simp] theorem exec_cfms {u} (s : State) : exec (.cfms u) s = execCfms u s := rfl
@[simp] theorem exec_cmac {u} (s : State) : exec (.cmac u) s = execCmac u s := rfl
@[simp] theorem exec_cmaci {u} (s : State) : exec (.cmaci u) s = execCmaci u s := rfl
@[simp] theorem exec_accrd {u} (s : State) : exec (.accrd u) s = execAccrd u s := rfl
@[simp] theorem exec_bfly {u} (s : State) : exec (.bfly u) s = execBfly u s := rfl
@[simp] theorem exec_rmul {u} (s : State) : exec (.rmul u) s = execRmul u s := rfl
@[simp] theorem exec_rfma {u} (s : State) : exec (.rfma u) s = execRfma u s := rfl
@[simp] theorem exec_vmax {u} (s : State) : exec (.vmax u) s = execVmax u s := rfl
@[simp] theorem exec_vmin {u} (s : State) : exec (.vmin u) s = execVmin u s := rfl
@[simp] theorem exec_vsum {u} (s : State) : exec (.vsum u) s = execVsum u s := rfl
@[simp] theorem exec_vexp {u} (s : State) : exec (.vexp u) s = execVexp u s := rfl
@[simp] theorem exec_vrcp {u} (s : State) : exec (.vrcp u) s = execVrcp u s := rfl
@[simp] theorem exec_vrsq {u} (s : State) : exec (.vrsq u) s = execVrsq u s := rfl
@[simp] theorem exec_cvt {u} (s : State) : exec (.cvt u) s = execCvt u s := rfl
@[simp] theorem exec_cvtn {u} (s : State) : exec (.cvtn u) s = execCvtn u s := rfl
@[simp] theorem exec_rpt {u} (s : State) : exec (.rpt u) s = execRpt u s := rfl
@[simp] theorem exec_loop {u} (s : State) : exec (.loop u) s = execLoop u s := rfl
@[simp] theorem exec_seta {u} (s : State) : exec (.seta u) s = execSeta u s := rfl
@[simp] theorem exec_seto {u} (s : State) : exec (.seto u) s = execSeto u s := rfl
@[simp] theorem exec_setl {u} (s : State) : exec (.setl u) s = execSetl u s := rfl
@[simp] theorem exec_setm {u} (s : State) : exec (.setm u) s = execSetm u s := rfl
@[simp] theorem exec_endKernel {u} (s : State) : exec (.endKernel u) s = execEndKernel u s := rfl
@[simp] theorem exec_vceComplete {u} (s : State) : exec (.vceComplete u) s = execVceComplete u s := rfl
@[simp] theorem exec_vceQreset {core v t e} (s : State) : exec (.vceQreset core v t e) s = execVceQreset core v t e s := rfl
@[simp] theorem exec_vceCtrlWrite {core v en} (s : State) : exec (.vceCtrlWrite core v en) s = execVceCtrlWrite core v en s := rfl
@[simp] theorem exec_copy {u} (s : State) : exec (.copy u) s = execCopy u s := rfl
@[simp] theorem exec_gather {u} (s : State) : exec (.gather u) s = execGather u s := rfl
@[simp] theorem exec_scatter {u} (s : State) : exec (.scatter u) s = execScatter u s := rfl
@[simp] theorem exec_setconv {u} (s : State) : exec (.setconv u) s = execSetconv u s := rfl
@[simp] theorem exec_tmeTransferDone {u remote} (s : State) : exec (.tmeTransferDone u remote) s = execTmeTransferDone u remote s := rfl
@[simp] theorem exec_tmeRunAheadRead {u} (s : State) : exec (.tmeRunAheadRead u) s = execTmeRunAheadRead u s := rfl
@[simp] theorem exec_tmeCommit {u} (s : State) : exec (.tmeCommit u) s = execTmeCommit u s := rfl
@[simp] theorem exec_tmeComplete {u} (s : State) : exec (.tmeComplete u) s = execTmeComplete u s := rfl
@[simp] theorem exec_tmeQreset {core t e} (s : State) : exec (.tmeQreset core t e) s = execTmeQreset core t e s := rfl
@[simp] theorem exec_tmeCtrlWrite {core en} (s : State) : exec (.tmeCtrlWrite core en) s = execTmeCtrlWrite core en s := rfl
@[simp] theorem exec_poolRequest {pool port inst timed wait} (s : State) : exec (.poolRequest pool port inst timed wait) s = execPoolRequest pool port inst timed wait s := rfl
@[simp] theorem exec_poolReturn {pool port inst addr} (s : State) : exec (.poolReturn pool port inst addr) s = execPoolReturn pool port inst addr s := rfl
@[simp] theorem exec_alloc {inst req} (s : State) : exec (.alloc inst req) s = execAlloc inst req s := rfl
@[simp] theorem exec_free {inst addr} (s : State) : exec (.free inst addr) s = execFree inst addr s := rfl
@[simp] theorem exec_scrub {errs} (s : State) : exec (.scrub errs) s = execScrub errs s := rfl
@[simp] theorem exec_tableWalkDone {n} (s : State) : exec (.tableWalkDone n) s = execTableWalkDone n s := rfl
@[simp] theorem exec_xltInvInstance {wr inst} (s : State) : exec (.xltInvInstance wr inst) s = execXltInvInstance wr inst s := rfl
@[simp] theorem exec_xltInvRange {wr inst} (s : State) : exec (.xltInvRange wr inst) s = execXltInvRange wr inst s := rfl
@[simp] theorem exec_xltInvAll {wr} (s : State) : exec (.xltInvAll wr) s = execXltInvAll wr s := rfl
@[simp] theorem exec_xltInvComplete (s : State) : exec (.xltInvComplete) s = execXltInvComplete s := rfl
@[simp] theorem exec_toDev {inst bad} (s : State) : exec (.toDev inst bad) s = execToDev inst bad s := rfl
@[simp] theorem exec_toHost {inst bad} (s : State) : exec (.toHost inst bad) s = execToHost inst bad s := rfl
@[simp] theorem exec_dmaPieceDone {inst host} (s : State) : exec (.dmaPieceDone inst host) s = execDmaPieceDone inst host s := rfl
@[simp] theorem exec_dmaComplete {inst} (s : State) : exec (.dmaComplete inst) s = execDmaComplete inst s := rfl
@[simp] theorem exec_xltIfDone {inst value} (s : State) : exec (.xltIfDone inst value) s = execXltIfDone inst value s := rfl
@[simp] theorem exec_xclkLost (s : State) : exec (.xclkLost) s = execXclkLost s := rfl
@[simp] theorem exec_xclkRestored (s : State) : exec (.xclkRestored) s = execXclkRestored s := rfl
@[simp] theorem exec_timePllLock (s : State) : exec (.timePllLock) s = execTimePllLock s := rfl
@[simp] theorem exec_glideStep {isl} (s : State) : exec (.glideStep isl) s = execGlideStep isl s := rfl
@[simp] theorem exec_clkIslTargetWrite {wr isl target} (s : State) : exec (.clkIslTargetWrite wr isl target) s = execClkIslTargetWrite wr isl target s := rfl
@[simp] theorem exec_clkEnWrite {wr islands value} (s : State) : exec (.clkEnWrite wr islands value) s = execClkEnWrite wr islands value s := rfl
@[simp] theorem exec_timeMarker {drift upsets} (s : State) : exec (.timeMarker drift upsets) s = execTimeMarker drift upsets s := rfl
@[simp] theorem exec_timeServoOfs {wr e} (s : State) : exec (.timeServoOfs wr e) s = execTimeServoOfs wr e s := rfl
@[simp] theorem exec_timeStepWrite {wr step} (s : State) : exec (.timeStepWrite wr step) s = execTimeStepWrite wr step s := rfl
@[simp] theorem exec_timeAdj {wr e} (s : State) : exec (.timeAdj wr e) s = execTimeAdj wr e s := rfl
@[simp] theorem exec_timeNowNsRead {reader} (s : State) : exec (.timeNowNsRead reader) s = execTimeNowNsRead reader s := rfl
@[simp] theorem exec_declareLock {wr lock} (s : State) : exec (.declareLock wr lock) s = execDeclareLock wr lock s := rfl
@[simp] theorem exec_timeCmpFire {n ticks} (s : State) : exec (.timeCmpFire n ticks) s = execTimeCmpFire n ticks s := rfl
@[simp] theorem exec_cglBoundary {list ticks ex sel} (s : State) : exec (.cglBoundary list ticks ex sel) s = execCglBoundary list ticks ex sel s := rfl
@[simp] theorem exec_guardStart {list ticks} (s : State) : exec (.guardStart list ticks) s = execGuardStart list ticks s := rfl
@[simp] theorem exec_cglSwap {wr list stop} (s : State) : exec (.cglSwap wr list stop) s = execCglSwap wr list stop s := rfl
@[simp] theorem exec_cglStop {wr list} (s : State) : exec (.cglStop wr list) s = execCglStop wr list s := rfl
@[simp] theorem exec_cglSwapApply {list ticks} (s : State) : exec (.cglSwapApply list ticks) s = execCglSwapApply list ticks s := rfl
@[simp] theorem exec_cglLcGrpWrite {wr lc grp} (s : State) : exec (.cglLcGrpWrite wr lc grp) s = execCglLcGrpWrite wr lc grp s := rfl
@[simp] theorem exec_groupChangeApply {lc} (s : State) : exec (.groupChangeApply lc) s = execGroupChangeApply lc s := rfl
@[simp] theorem exec_starve {core} (s : State) : exec (.starve core) s = execStarve core s := rfl
@[simp] theorem exec_grpCreate {inst bad} (s : State) : exec (.grpCreate inst bad) s = execGrpCreate inst bad s := rfl
@[simp] theorem exec_grpDestroy {inst bad} (s : State) : exec (.grpDestroy inst bad) s = execGrpDestroy inst bad s := rfl
@[simp] theorem exec_grpHold {inst bad} (s : State) : exec (.grpHold inst bad) s = execGrpHold inst bad s := rfl
@[simp] theorem exec_admitSeq {inst bad} (s : State) : exec (.admitSeq inst bad) s = execAdmitSeq inst bad s := rfl
@[simp] theorem exec_cancelSeq {inst bad} (s : State) : exec (.cancelSeq inst bad) s = execCancelSeq inst bad s := rfl
@[simp] theorem exec_querySeq {inst bad} (s : State) : exec (.querySeq inst bad) s = execQuerySeq inst bad s := rfl
@[simp] theorem exec_setClass {inst bad} (s : State) : exec (.setClass inst bad) s = execSetClass inst bad s := rfl
@[simp] theorem exec_migrate {inst bad} (s : State) : exec (.migrate inst bad) s = execMigrate inst bad s := rfl
@[simp] theorem exec_outDone {inst bad} (s : State) : exec (.outDone inst bad) s = execOutDone inst bad s := rfl
@[simp] theorem exec_stepCommit {grp late} (s : State) : exec (.stepCommit grp late) s = execStepCommit grp late s := rfl
@[simp] theorem exec_outputRoomWaitEnd {grp} (s : State) : exec (.outputRoomWaitEnd grp) s = execOutputRoomWaitEnd grp s := rfl
@[simp] theorem exec_blockMoveDone {n} (s : State) : exec (.blockMoveDone n) s = execBlockMoveDone n s := rfl
@[simp] theorem exec_ldRequest {port} (s : State) : exec (.ldRequest port) s = execLdRequest port s := rfl
@[simp] theorem exec_stRequest {port} (s : State) : exec (.stRequest port) s = execStRequest port s := rfl
@[simp] theorem exec_swap {port} (s : State) : exec (.swap port) s = execSwap port s := rfl
@[simp] theorem exec_cas {port} (s : State) : exec (.cas port) s = execCas port s := rfl
@[simp] theorem exec_faddI64 {port} (s : State) : exec (.faddI64 port) s = execFaddI64 port s := rfl
@[simp] theorem exec_addI64 {port} (s : State) : exec (.addI64 port) s = execAddI64 port s := rfl
@[simp] theorem exec_addRec {port} (s : State) : exec (.addRec port) s = execAddRec port s := rfl
@[simp] theorem exec_addF32 {port} (s : State) : exec (.addF32 port) s = execAddF32 port s := rfl
@[simp] theorem exec_dispatch {port} (s : State) : exec (.dispatch port) s = execDispatch port s := rfl
@[simp] theorem exec_combine {port} (s : State) : exec (.combine port) s = execCombine port s := rfl
@[simp] theorem exec_epochNote {port} (s : State) : exec (.epochNote port) s = execEpochNote port s := rfl
@[simp] theorem exec_bulk {port} (s : State) : exec (.bulk port) s = execBulk port s := rfl
@[simp] theorem exec_fabricReply {port} (s : State) : exec (.fabricReply port) s = execFabricReply port s := rfl
@[simp] theorem exec_tagGrant (s : State) : exec (.tagGrant) s = execTagGrant s := rfl
@[simp] theorem exec_fabricTimeout {tag} (s : State) : exec (.fabricTimeout tag) s = execFabricTimeout tag s := rfl
@[simp] theorem exec_tagQuarantineEnd {tag} (s : State) : exec (.tagQuarantineEnd tag) s = execTagQuarantineEnd tag s := rfl
@[simp] theorem exec_gwFrameSend {gw card} (s : State) : exec (.gwFrameSend gw card) s = execGwFrameSend gw card s := rfl
@[simp] theorem exec_gwEntryGrant {gw} (s : State) : exec (.gwEntryGrant gw) s = execGwEntryGrant gw s := rfl
@[simp] theorem exec_get {inst bad remote} (s : State) : exec (.get inst bad remote) s = execGet inst bad remote s := rfl
@[simp] theorem exec_put {inst bad remote} (s : State) : exec (.put inst bad remote) s = execPut inst bad remote s := rfl
@[simp] theorem exec_gwComplete {inst} (s : State) : exec (.gwComplete inst) s = execGwComplete inst s := rfl
@[simp] theorem exec_fabXrTailWrite {wr ring tail} (s : State) : exec (.fabXrTailWrite wr ring tail) s = execFabXrTailWrite wr ring tail s := rfl
@[simp] theorem exec_dispatchRingRead (s : State) : exec (.dispatchRingRead) s = execDispatchRingRead s := rfl
@[simp] theorem exec_dispatchRetry {ring entry} (s : State) : exec (.dispatchRetry ring entry) s = execDispatchRetry ring entry s := rfl
@[simp] theorem exec_dispatchEntryComplete {ring entry} (s : State) : exec (.dispatchEntryComplete ring entry) s = execDispatchEntryComplete ring entry s := rfl
@[simp] theorem exec_fabXiNext {wr inbox} (s : State) : exec (.fabXiNext wr inbox) s = execFabXiNext wr inbox s := rfl
@[simp] theorem exec_fabXiDone {wr inbox slot} (s : State) : exec (.fabXiDone wr inbox slot) s = execFabXiDone wr inbox slot s := rfl
@[simp] theorem exec_inboxSlotFree {inbox slot} (s : State) : exec (.inboxSlotFree inbox slot) s = execInboxSlotFree inbox slot s := rfl
@[simp] theorem exec_enable {wr port} (s : State) : exec (.enable wr port) s = execEnable wr port s := rfl
@[simp] theorem exec_disable {wr port} (s : State) : exec (.disable wr port) s = execDisable wr port s := rfl
@[simp] theorem exec_retrain {wr port} (s : State) : exec (.retrain wr port) s = execRetrain wr port s := rfl
@[simp] theorem exec_swapCommand {wr port lane} (s : State) : exec (.swapCommand wr port lane) s = execSwapCommand wr port lane s := rfl
@[simp] theorem exec_unretire {wr port} (s : State) : exec (.unretire wr port) s = execUnretire wr port s := rfl
@[simp] theorem exec_announce {port key} (s : State) : exec (.announce port key) s = execAnnounce port key s := rfl
@[simp] theorem exec_collisionRound {port} (s : State) : exec (.collisionRound port) s = execCollisionRound port s := rfl
@[simp] theorem exec_trainingPhaseEnd {port spare tx rx} (s : State) : exec (.trainingPhaseEnd port spare tx rx) s = execTrainingPhaseEnd port spare tx rx s := rfl
@[simp] theorem exec_ready {port} (s : State) : exec (.ready port) s = execReady port s := rfl
@[simp] theorem exec_trainTimeout {port} (s : State) : exec (.trainTimeout port) s = execTrainTimeout port s := rfl
@[simp] theorem exec_recoveryTimeout {port} (s : State) : exec (.recoveryTimeout port) s = execRecoveryTimeout port s := rfl
@[simp] theorem exec_fastRetrainDone {port spare} (s : State) : exec (.fastRetrainDone port spare) s = execFastRetrainDone port spare s := rfl
@[simp] theorem exec_drainHoldEnd {port} (s : State) : exec (.drainHoldEnd port) s = execDrainHoldEnd port s := rfl
@[simp] theorem exec_downToArb {port} (s : State) : exec (.downToArb port) s = execDownToArb port s := rfl
@[simp] theorem exec_flitRx {port ctl flit sym bad} (s : State) : exec (.flitRx port ctl flit sym bad) s = execFlitRx port ctl flit sym bad s := rfl
@[simp] theorem exec_replayTimer {port} (s : State) : exec (.replayTimer port) s = execReplayTimer port s := rfl
@[simp] theorem exec_swapReq {port lane} (s : State) : exec (.swapReq port lane) s = execSwapReq port lane s := rfl
@[simp] theorem exec_swapAck {port} (s : State) : exec (.swapAck port) s = execSwapAck port s := rfl
@[simp] theorem exec_swapRej {port} (s : State) : exec (.swapRej port) s = execSwapRej port s := rfl
@[simp] theorem exec_laneDriveOff {port} (s : State) : exec (.laneDriveOff port) s = execLaneDriveOff port s := rfl
@[simp] theorem exec_lnkWindowEnd (s : State) : exec (.lnkWindowEnd) s = execLnkWindowEnd s := rfl
@[simp] theorem exec_laneLockLoss {port lane} (s : State) : exec (.laneLockLoss port lane) s = execLaneLockLoss port lane s := rfl
@[simp] theorem exec_ldpcDec {wr q job poison} (s : State) : exec (.ldpcDec wr q job poison) s = execLdpcDec wr q job poison s := rfl
@[simp] theorem exec_ldpcEnc {wr q job poison} (s : State) : exec (.ldpcEnc wr q job poison) s = execLdpcEnc wr q job poison s := rfl
@[simp] theorem exec_polarDec {wr q job poison} (s : State) : exec (.polarDec wr q job poison) s = execPolarDec wr q job poison s := rfl
@[simp] theorem exec_polarEnc {wr q job poison} (s : State) : exec (.polarEnc wr q job poison) s = execPolarEnc wr q job poison s := rfl
@[simp] theorem exec_codeBlockStart (s : State) : exec (.codeBlockStart) s = execCodeBlockStart s := rfl
@[simp] theorem exec_codeBlockEnd {unit error} (s : State) : exec (.codeBlockEnd unit error) s = execCodeBlockEnd unit error s := rfl
@[simp] theorem exec_fecJobComplete {q} (s : State) : exec (.fecJobComplete q) s = execFecJobComplete q s := rfl
@[simp] theorem exec_fecDeadline {ticks} (s : State) : exec (.fecDeadline ticks) s = execFecDeadline ticks s := rfl
@[simp] theorem exec_fecQctlCancel {wr q tag} (s : State) : exec (.fecQctlCancel wr q tag) s = execFecQctlCancel wr q tag s := rfl
@[simp] theorem exec_fecQctlReset {wr q} (s : State) : exec (.fecQctlReset wr q) s = execFecQctlReset wr q s := rfl
@[simp] theorem exec_activate {wr cell} (s : State) : exec (.activate wr cell) s = execActivate wr cell s := rfl
@[simp] theorem exec_deactivate {wr cell} (s : State) : exec (.deactivate wr cell) s = execDeactivate wr cell s := rfl
@[simp] theorem exec_cellFrameBoundary {cell ticks} (s : State) : exec (.cellFrameBoundary cell ticks) s = execCellFrameBoundary cell ticks s := rfl
@[simp] theorem exec_holdoverExpiry {cell ticks} (s : State) : exec (.holdoverExpiry cell ticks) s = execHoldoverExpiry cell ticks s := rfl
@[simp] theorem exec_maskCheck {stream cell ant sym pk} (s : State) : exec (.maskCheck stream cell ant sym pk) s = execMaskCheck stream cell ant sym pk s := rfl
@[simp] theorem exec_fhMaskUnmute {wr stream go} (s : State) : exec (.fhMaskUnmute wr stream go) s = execFhMaskUnmute wr stream go s := rfl
@[simp] theorem exec_frameRx {target ticks fcsOk frame} (s : State) : exec (.frameRx target ticks fcsOk frame) s = execFrameRx target ticks fcsOk frame s := rfl
@[simp] theorem exec_uplane {wr win desc poison} (s : State) : exec (.uplane wr win desc poison) s = execUplane wr win desc poison s := rfl
@[simp] theorem exec_cplane {wr win desc poison} (s : State) : exec (.cplane wr win desc poison) s = execCplane wr win desc poison s := rfl
@[simp] theorem exec_raw {wr win desc poison} (s : State) : exec (.raw wr win desc poison) s = execRaw wr win desc poison s := rfl
@[simp] theorem exec_frameTx {target ticks crcBad} (s : State) : exec (.frameTx target ticks crcBad) s = execFrameTx target ticks crcBad s := rfl
@[simp] theorem exec_headDrop {queue ticks} (s : State) : exec (.headDrop queue ticks) s = execHeadDrop queue ticks s := rfl
@[simp] theorem exec_egressComplete {win} (s : State) : exec (.egressComplete win) s = execEgressComplete win s := rfl
@[simp] theorem exec_ulMapClear {cell ticks} (s : State) : exec (.ulMapClear cell ticks) s = execUlMapClear cell ticks s := rfl
@[simp] theorem exec_tmGateSwap {wr target stop} (s : State) : exec (.tmGateSwap wr target stop) s = execTmGateSwap wr target stop s := rfl
@[simp] theorem exec_tmGateStop {wr target} (s : State) : exec (.tmGateStop wr target) s = execTmGateStop wr target s := rfl
@[simp] theorem exec_gateBoundary {target ticks} (s : State) : exec (.gateBoundary target ticks) s = execGateBoundary target ticks s := rfl
@[simp] theorem exec_tmEnqCtlReset {wr win} (s : State) : exec (.tmEnqCtlReset wr win) s = execTmEnqCtlReset wr win s := rfl
@[simp] theorem exec_tmHrDone {inst n} (s : State) : exec (.tmHrDone inst n) s = execTmHrDone inst n s := rfl
@[simp] theorem exec_tmHrSizeWrite {inst n} (s : State) : exec (.tmHrSizeWrite inst n) s = execTmHrSizeWrite inst n s := rfl
@[simp] theorem exec_hostRingDeliver {port ticks} (s : State) : exec (.hostRingDeliver port ticks) s = execHostRingDeliver port ticks s := rfl
@[simp] theorem exec_fhPortCmdEnable {wr port sub} (s : State) : exec (.fhPortCmdEnable wr port sub) s = execFhPortCmdEnable wr port sub s := rfl
@[simp] theorem exec_fhPortCmdDisable {wr port sub} (s : State) : exec (.fhPortCmdDisable wr port sub) s = execFhPortCmdDisable wr port sub s := rfl
@[simp] theorem exec_subportLinkChange {target up} (s : State) : exec (.subportLinkChange target up) s = execSubportLinkChange target up s := rfl
@[simp] theorem exec_create {c rng} (s : State) : exec (.create c rng) s = execCreate c rng s := rfl
@[simp] theorem exec_reset {c} (s : State) : exec (.reset c) s = execReset c s := rfl
@[simp] theorem exec_reclaim {c} (s : State) : exec (.reclaim c) s = execReclaim c s := rfl
@[simp] theorem exec_partCancel {c} (s : State) : exec (.partCancel c) s = execPartCancel c s := rfl
@[simp] theorem exec_assign {c rng} (s : State) : exec (.assign c rng) s = execAssign c rng s := rfl
@[simp] theorem exec_recover {c} (s : State) : exec (.recover c) s = execRecover c s := rfl
@[simp] theorem exec_destroy {c} (s : State) : exec (.destroy c) s = execDestroy c s := rfl
@[simp] theorem exec_instCreate {c inst rng grants} (s : State) : exec (.instCreate c inst rng grants) s = execInstCreate c inst rng grants s := rfl
@[simp] theorem exec_instReset {c inst} (s : State) : exec (.instReset c inst) s = execInstReset c inst s := rfl
@[simp] theorem exec_instDestroy {c inst} (s : State) : exec (.instDestroy c inst) s = execInstDestroy c inst s := rfl
@[simp] theorem exec_instanceResetEnd {inst} (s : State) : exec (.instanceResetEnd inst) s = execInstanceResetEnd inst s := rfl
@[simp] theorem exec_prtModeWrite {wr mode} (s : State) : exec (.prtModeWrite wr mode) s = execPrtModeWrite wr mode s := rfl
@[simp] theorem exec_prtLcInstWrite {wr lc t e} (s : State) : exec (.prtLcInstWrite wr lc t e) s = execPrtLcInstWrite wr lc t e s := rfl
@[simp] theorem exec_reclaimInstant {part ticks} (s : State) : exec (.reclaimInstant part ticks) s = execReclaimInstant part ticks s := rfl
@[simp] theorem exec_teardown {part ticks} (s : State) : exec (.teardown part ticks) s = execTeardown part ticks s := rfl
@[simp] theorem exec_zeroingDone {part} (s : State) : exec (.zeroingDone part) s = execZeroingDone part s := rfl
@[simp] theorem exec_hostLinkDown {port} (s : State) : exec (.hostLinkDown port) s = execHostLinkDown port s := rfl
@[simp] theorem exec_hostLinkUp {port rate width flit} (s : State) : exec (.hostLinkUp port rate width flit) s = execHostLinkUp port rate width flit s := rfl
@[simp] theorem exec_functionLevelReset {port fn} (s : State) : exec (.functionLevelReset port fn) s = execFunctionLevelReset port fn s := rfl
@[simp] theorem exec_mbxSend {inst rid msg} (s : State) : exec (.mbxSend inst rid msg) s = execMbxSend inst rid msg s := rfl
@[simp] theorem exec_mbxRecv {inst ch bad} (s : State) : exec (.mbxRecv inst ch bad) s = execMbxRecv inst ch bad s := rfl
@[simp] theorem exec_mbxEpRecv {part bad} (s : State) : exec (.mbxEpRecv part bad) s = execMbxEpRecv part bad s := rfl
@[simp] theorem exec_mbxEpSend {lc ctx inst msg} (s : State) : exec (.mbxEpSend lc ctx inst msg) s = execMbxEpSend lc ctx inst msg s := rfl
@[simp] theorem exec_mbxMcSend {mc inst msg} (s : State) : exec (.mbxMcSend mc inst msg) s = execMbxMcSend mc inst msg s := rfl
@[simp] theorem exec_mbxMcRecv {bad} (s : State) : exec (.mbxMcRecv bad) s = execMbxMcRecv bad s := rfl
@[simp] theorem exec_noticeSend {inst} (s : State) : exec (.noticeSend inst) s = execNoticeSend inst s := rfl
@[simp] theorem exec_msixUnmask {inst vec} (s : State) : exec (.msixUnmask inst vec) s = execMsixUnmask inst vec s := rfl
@[simp] theorem exec_mbxInstReset {inst} (s : State) : exec (.mbxInstReset inst) s = execMbxInstReset inst s := rfl
@[simp] theorem exec_instQuery {inst} (s : State) : exec (.instQuery inst) s = execInstQuery inst s := rfl
@[simp] theorem exec_progReg {inst d} (s : State) : exec (.progReg inst d) s = execProgReg inst d s := rfl
@[simp] theorem exec_mapRemote {inst d} (s : State) : exec (.mapRemote inst d) s = execMapRemote inst d s := rfl
@[simp] theorem exec_grantPeer {inst d} (s : State) : exec (.grantPeer inst d) s = execGrantPeer inst d s := rfl
@[simp] theorem exec_revokePeer {inst d} (s : State) : exec (.revokePeer inst d) s = execRevokePeer inst d s := rfl
@[simp] theorem exec_reclaimAck {inst} (s : State) : exec (.reclaimAck inst) s = execReclaimAck inst s := rfl
@[simp] theorem exec_partCmd {inst d rng grants} (s : State) : exec (.partCmd inst d rng grants) s = execPartCmd inst d rng grants s := rfl
@[simp] theorem exec_rstNAssert (s : State) : exec (.rstNAssert) s = execRstNAssert s := rfl
@[simp] theorem exec_rstNRelease {hpEn fuseOk flashOk} (s : State) : exec (.rstNRelease hpEn fuseOk flashOk) s = execRstNRelease hpEn fuseOk flashOk s := rfl
@[simp] theorem exec_imageVerified (s : State) : exec (.imageVerified) s = execImageVerified s := rfl
@[simp] theorem exec_imgWrite {inst d} (s : State) : exec (.imgWrite inst d) s = execImgWrite inst d s := rfl
@[simp] theorem exec_imgCheck {inst d} (s : State) : exec (.imgCheck inst d) s = execImgCheck inst d s := rfl
@[simp] theorem exec_imgActivate {inst d} (s : State) : exec (.imgActivate inst d) s = execImgActivate inst d s := rfl
@[simp] theorem exec_imgConfirm {inst} (s : State) : exec (.imgConfirm inst) s = execImgConfirm inst s := rfl
@[simp] theorem exec_psRestart {inst} (s : State) : exec (.psRestart inst) s = execPsRestart inst s := rfl
@[simp] theorem exec_psWrite {ticks} (s : State) : exec (.psWrite ticks) s = execPsWrite ticks s := rfl
@[simp] theorem exec_secRcvProgram {slot unit} (s : State) : exec (.secRcvProgram slot unit) s = execSecRcvProgram slot unit s := rfl
@[simp] theorem exec_secRcvReset {fuseOk flashOk} (s : State) : exec (.secRcvReset fuseOk flashOk) s = execSecRcvReset fuseOk flashOk s := rfl
@[simp] theorem exec_keyGenerate {wr id rng} (s : State) : exec (.keyGenerate wr id rng) s = execKeyGenerate wr id rng s := rfl
@[simp] theorem exec_keyDestroy {wr id} (s : State) : exec (.keyDestroy wr id) s = execKeyDestroy wr id s := rfl
@[simp] theorem exec_secCfgLock {wr locked} (s : State) : exec (.secCfgLock wr locked) s = execSecCfgLock wr locked s := rfl
@[simp] theorem exec_getVersion {f} (s : State) : exec (.getVersion f) s = execGetVersion f s := rfl
@[simp] theorem exec_getCapabilities {f ver} (s : State) : exec (.getCapabilities f ver) s = execGetCapabilities f ver s := rfl
@[simp] theorem exec_negotiateAlgorithms {f supported} (s : State) : exec (.negotiateAlgorithms f supported) s = execNegotiateAlgorithms f supported s := rfl
@[simp] theorem exec_getDigests {f} (s : State) : exec (.getDigests f) s = execGetDigests f s := rfl
@[simp] theorem exec_getCertificate {f slot offset len} (s : State) : exec (.getCertificate f slot offset len) s = execGetCertificate f slot offset len s := rfl
@[simp] theorem exec_challenge {f slot nonce} (s : State) : exec (.challenge f slot nonce) s = execChallenge f slot nonce s := rfl
@[simp] theorem exec_getMeasurements {f index sign nonce} (s : State) : exec (.getMeasurements f index sign nonce) s = execGetMeasurements f index sign nonce s := rfl
@[simp] theorem exec_keyExchange {f reqId share} (s : State) : exec (.keyExchange f reqId share) s = execKeyExchange f reqId share s := rfl
@[simp] theorem exec_finish {f sess macOk} (s : State) : exec (.finish f sess macOk) s = execFinish f sess macOk s := rfl
@[simp] theorem exec_keyUpdate {f sess op} (s : State) : exec (.keyUpdate f sess op) s = execKeyUpdate f sess op s := rfl
@[simp] theorem exec_heartbeat {f sess} (s : State) : exec (.heartbeat f sess) s = execHeartbeat f sess s := rfl
@[simp] theorem exec_endSession {f sess} (s : State) : exec (.endSession f sess) s = execEndSession f sess s := rfl
@[simp] theorem exec_chunkSend {f seq last} (s : State) : exec (.chunkSend f seq last) s = execChunkSend f seq last s := rfl
@[simp] theorem exec_chunkGet {f seq last} (s : State) : exec (.chunkGet f seq last) s = execChunkGet f seq last s := rfl
@[simp] theorem exec_vendorDefinedRequest {f sess msg} (s : State) : exec (.vendorDefinedRequest f sess msg) s = execVendorDefinedRequest f sess msg s := rfl
@[simp] theorem exec_lockInterface {f sess inst stream} (s : State) : exec (.lockInterface f sess inst stream) s = execLockInterface f sess inst stream s := rfl
@[simp] theorem exec_startInterface {f sess inst} (s : State) : exec (.startInterface f sess inst) s = execStartInterface f sess inst s := rfl
@[simp] theorem exec_stopInterface {f sess inst} (s : State) : exec (.stopInterface f sess inst) s = execStopInterface f sess inst s := rfl
@[simp] theorem exec_cremaOpen {inst d} (s : State) : exec (.cremaOpen inst d) s = execCremaOpen inst d s := rfl
@[simp] theorem exec_cremaAdd {inst d} (s : State) : exec (.cremaAdd inst d) s = execCremaAdd inst d s := rfl
@[simp] theorem exec_cremaSeal {inst d} (s : State) : exec (.cremaSeal inst d) s = execCremaSeal inst d s := rfl
@[simp] theorem exec_cremaAbort {inst d} (s : State) : exec (.cremaAbort inst d) s = execCremaAbort inst d s := rfl
@[simp] theorem exec_escalation {bridges} (s : State) : exec (.escalation bridges) s = execEscalation bridges s := rfl
@[simp] theorem exec_thresholdWindowEnd {row ticks} (s : State) : exec (.thresholdWindowEnd row ticks) s = execThresholdWindowEnd row ticks s := rfl
@[simp] theorem exec_rasFence {wr core} (s : State) : exec (.rasFence wr core) s = execRasFence wr core s := rfl
@[simp] theorem exec_rasRemoveFenceRecord {wr core} (s : State) : exec (.rasRemoveFenceRecord wr core) s = execRasRemoveFenceRecord wr core s := rfl
@[simp] theorem exec_rasRotate {wr lc} (s : State) : exec (.rasRotate wr lc) s = execRasRotate wr lc s := rfl
@[simp] theorem exec_rasSoftRowRepair {wr} (s : State) : exec (.rasSoftRowRepair wr) s = execRasSoftRowRepair wr s := rfl
@[simp] theorem exec_softRowRepairDone (s : State) : exec (.softRowRepairDone) s = execSoftRowRepairDone s := rfl
@[simp] theorem exec_witnessRotate {ticks} (s : State) : exec (.witnessRotate ticks) s = execWitnessRotate ticks s := rfl
@[simp] theorem exec_rotationHandover {lc} (s : State) : exec (.rotationHandover lc) s = execRotationHandover lc s := rfl
@[simp] theorem exec_witnessSuiteEnd {core fails} (s : State) : exec (.witnessSuiteEnd core fails) s = execWitnessSuiteEnd core fails s := rfl
@[simp] theorem exec_rasCardSwapArm {wr k fromCard toCard} (s : State) : exec (.rasCardSwapArm wr k fromCard toCard) s = execRasCardSwapArm wr k fromCard toCard s := rfl
@[simp] theorem exec_fatalError {kind} (s : State) : exec (.fatalError kind) s = execFatalError kind s := rfl
@[simp] theorem exec_fatalAutoReset {ticks fuseOk flashOk} (s : State) : exec (.fatalAutoReset ticks fuseOk flashOk) s = execFatalAutoReset ticks fuseOk flashOk s := rfl
@[simp] theorem exec_mcWatchdog {mc} (s : State) : exec (.mcWatchdog mc) s = execMcWatchdog mc s := rfl
@[simp] theorem exec_pwrDomOff {wr dom rsvd} (s : State) : exec (.pwrDomOff wr dom rsvd) s = execPwrDomOff wr dom rsvd s := rfl
@[simp] theorem exec_pwrDomOn {wr dom rsvd} (s : State) : exec (.pwrDomOn wr dom rsvd) s = execPwrDomOn wr dom rsvd s := rfl
@[simp] theorem exec_domainDrainEnd {dom} (s : State) : exec (.domainDrainEnd dom) s = execDomainDrainEnd dom s := rfl
@[simp] theorem exec_domainRampEnd {dom} (s : State) : exec (.domainRampEnd dom) s = execDomainRampEnd dom s := rfl
@[simp] theorem exec_capPeriod {t} (s : State) : exec (.capPeriod t) s = execCapPeriod t s := rfl
@[simp] theorem exec_pwrCapWrite {wr capW} (s : State) : exec (.pwrCapWrite wr capW) s = execPwrCapWrite wr capW s := rfl
@[simp] theorem exec_pwrTimedBudgetWrite {wr budgetW} (s : State) : exec (.pwrTimedBudgetWrite wr budgetW) s = execPwrTimedBudgetWrite wr budgetW s := rfl
@[simp] theorem exec_bar0Write {f off len data rid ide} (s : State) : exec (.bar0Write f off len data rid ide) s = execBar0Write f off len data rid ide s := rfl
@[simp] theorem exec_bar2Read {f off len ide bad} (s : State) : exec (.bar2Read f off len ide bad) s = execBar2Read f off len ide bad s := rfl
@[simp] theorem exec_badBarAccess {port write} (s : State) : exec (.badBarAccess port write) s = execBadBarAccess port write s := rfl
@[simp] theorem exec_perst {port} (s : State) : exec (.perst port) s = execPerst port s := rfl
@[simp] theorem exec_completionQueueRead {th q rd bad} (s : State) : exec (.completionQueueRead th q rd bad) s = execCompletionQueueRead th q rd bad s := rfl
@[simp] theorem exec_codewordLockLoss {port} (s : State) : exec (.codewordLockLoss port) s = execCodewordLockLoss port s := rfl
@[simp] theorem exec_arbListenEnd {port} (s : State) : exec (.arbListenEnd port) s = execArbListenEnd port s := rfl
@[simp] theorem exec_pcieConfigWrite {f w} (s : State) : exec (.pcieConfigWrite f w) s = execPcieConfigWrite f w s := rfl
@[simp] theorem exec_hbmSiloTrainingDone {failed} (s : State) : exec (.hbmSiloTrainingDone failed) s = execHbmSiloTrainingDone failed s := rfl
@[simp] theorem exec_flashProgramDone {store ok} (s : State) : exec (.flashProgramDone store ok) s = execFlashProgramDone store ok s := rfl
@[simp] theorem exec_cremaCommandDone {inst} (s : State) : exec (.cremaCommandDone inst) s = execCremaCommandDone inst s := rfl
@[simp] theorem exec_symbolSendTime {cell frame sub slot sym ticks} (s : State) : exec (.symbolSendTime cell frame sub slot sym ticks) s = execSymbolSendTime cell frame sub slot sym ticks s := rfl
@[simp] theorem exec_powerRemoval (s : State) : exec (.powerRemoval) s = execPowerRemoval s := rfl

/-- The parts of the state that a command may change. -/
def foot : Instr → Nat
  | .registerWrite .. => 31768172829322641103
  | .meMma .. => 32225887244
  | .meDrain .. => 32225887244
  | .meLoadacc .. => 32225887245
  | .meClear .. => 13632525
  | .meRowReachesBank .. => 32212255749
  | .meComplete .. => 32212255748
  | .meQreset .. => 1030
  | .meCtrlWrite .. => 4194310
  | .meActDescWrite .. => 4194310
  | .tampStepEnd .. => 1028
  | .tampRampStart .. => 1024
  | .tampPrewarm .. => 1024
  | .ld .. => 35250987330572
  | .st .. => 35250987330572
  | .atom .. => 35250987330572
  | .fenceRem .. => 32255247372
  | .issueMe .. => 32255247372
  | .issueVce .. => 32255247372
  | .issueTme .. => 32255247372
  | .spawn .. => 32255247372
  | .raise .. => 32255247372
  | .waitevt .. => 32255247372
  | .cancel .. => 32255247372
  | .done .. => 32255247372
  | .queuedItemPush .. => 1024
  | .remoteReply .. => 576496003292851212
  | .storeAck .. => 576496003292851212
  | .taskAccept .. => 15729678
  | .taskDispatch .. => 1028
  | .prtTaskCancel .. => 1030
  | .prtTqReset .. => 1030
  | .memPmGo .. => 13632526
  | .programLoadEnd .. => 32257592332
  | .fence .. => 68753032900
  | .rasCoreFence .. => 68762470094
  | .spareChoice .. => 1220
  | .spareClearLoadEnd .. => 32212257924
  | .vceRun .. => 13632524
  | .vmov .. => 32225887244
  | .vperm .. => 32225887244
  | .vadd .. => 32225887244
  | .vsub .. => 32225887244
  | .cmul .. => 32225887244
  | .cfma .. => 32225887244
  | .cfms .. => 32225887244
  | .cmac .. => 32225887244
  | .cmaci .. => 32225887244
  | .accrd .. => 32225887244
  | .bfly .. => 32225887244
  | .rmul .. => 32225887244
  | .rfma .. => 32225887244
  | .vmax .. => 32225887244
  | .vmin .. => 32225887244
  | .vsum .. => 32225887244
  | .vexp .. => 32225887244
  | .vrcp .. => 32225887244
  | .vrsq .. => 32225887244
  | .cvt .. => 32225887244
  | .cvtn .. => 32225887244
  | .rpt .. => 32225887244
  | .loop .. => 32225887244
  | .seta .. => 32225887244
  | .seto .. => 32225887244
  | .setl .. => 32225887244
  | .setm .. => 32225887244
  | .endKernel .. => 32225887244
  | .vceComplete .. => 1028
  | .vceQreset .. => 1030
  | .vceCtrlWrite .. => 4194310
  | .copy .. => 13632524
  | .gather .. => 13632524
  | .scatter .. => 13632524
  | .setconv .. => 32225887244
  | .tmeTransferDone .. => 576496003297045516
  | .tmeRunAheadRead .. => 35250979990532
  | .tmeCommit .. => 9220
  | .tmeComplete .. => 9220
  | .tmeQreset .. => 9222
  | .tmeCtrlWrite .. => 4194310
  | .poolRequest .. => 4202502
  | .poolReturn .. => 13639694
  | .alloc .. => 576461302063437830
  | .free .. => 1729382806670399495
  | .scrub .. => 32212257796
  | .tableWalkDone .. => 35250944338948
  | .xltInvInstance .. => 13893646
  | .xltInvRange .. => 13893646
  | .xltInvAll .. => 13893646
  | .xltInvComplete .. => 376836
  | .toDev .. => 32216973316
  | .toHost .. => 32216973316
  | .dmaPieceDone .. => 576497102805003276
  | .dmaComplete .. => 1099512152064
  | .xltIfDone .. => 12582918
  | .xclkLost .. => 433506649177587716
  | .xclkRestored .. => 1125899906842628
  | .timePllLock .. => 1125899906842628
  | .glideStep .. => 4
  | .clkIslTargetWrite .. => 13631502
  | .clkEnWrite .. => 13631502
  | .timeMarker .. => 2231252290564
  | .timeServoOfs .. => 1125899916279822
  | .timeStepWrite .. => 13631502
  | .timeAdj .. => 13631502
  | .timeNowNsRead .. => 14
  | .declareLock .. => 1125899916279822
  | .timeCmpFire .. => 4398063288324
  | .cglBoundary .. => 73787407404378359492
  | .guardStart .. => 140737505132544
  | .cglSwap .. => 8796106653710
  | .cglStop .. => 8796102459406
  | .cglSwapApply .. => 73787407404378359492
  | .cglLcGrpWrite .. => 281474990342158
  | .groupChangeApply .. => 281474976711684
  | .starve .. => 9220
  | .grpCreate .. => 1026838889208224782
  | .grpDestroy .. => 450377587148981262
  | .grpHold .. => 450377587148981262
  | .admitSeq .. => 450377587148981262
  | .cancelSeq .. => 450377587148981262
  | .querySeq .. => 450359994962936846
  | .setClass .. => 450377587148981262
  | .migrate .. => 450377587148981262
  | .outDone .. => 450359994962936846
  | .stepCommit .. => 75534426618037665743
  | .outputRoomWaitEnd .. => 576478651595369484
  | .blockMoveDone .. => 576478376701733892
  | .ldRequest .. => 576496003288402948
  | .stRequest .. => 576496003288402948
  | .swap .. => 576496003288402948
  | .cas .. => 576496003288402948
  | .faddI64 .. => 576496003288402948
  | .addI64 .. => 576496003288402948
  | .addRec .. => 576496003288402948
  | .addF32 .. => 576496003288402948
  | .dispatch .. => 576496003288402948
  | .combine .. => 576496003288402948
  | .epochNote .. => 576496003288402948
  | .bulk .. => 576496003296791564
  | .fabricReply .. => 35218741265420
  | .tagGrant .. => 35218731836420
  | .fabricTimeout .. => 34359739396
  | .tagQuarantineEnd .. => 34359738368
  | .gwFrameSend .. => 35218731835396
  | .gwEntryGrant .. => 35218731836420
  | .get .. => 576496003297045516
  | .put .. => 576496003297045516
  | .gwComplete .. => 576496003292851212
  | .fabXrTailWrite .. => 13631502
  | .dispatchRingRead .. => 52843179666444
  | .dispatchRetry .. => 35218731836420
  | .dispatchEntryComplete .. => 34359739396
  | .fabXiNext .. => 576460818884856846
  | .fabXiDone .. => 576496003261148175
  | .inboxSlotFree .. => 576460818875419652
  | .enable .. => 35184387817486
  | .disable .. => 35218747556878
  | .retrain .. => 35184387817486
  | .swapCommand .. => 35218747555854
  | .unretire .. => 35184387817486
  | .announce .. => 35184372088836
  | .collisionRound .. => 35184372088836
  | .trainingPhaseEnd .. => 35218731828228
  | .ready .. => 35218731827204
  | .trainTimeout .. => 35184372088836
  | .recoveryTimeout .. => 35218731828228
  | .fastRetrainDone .. => 105587476004868
  | .drainHoldEnd .. => 35218731828228
  | .downToArb .. => 35184372088836
  | .flitRx .. => 105587476005892
  | .replayTimer .. => 35184372088836
  | .swapReq .. => 35218731827204
  | .swapAck .. => 105553116266500
  | .swapRej .. => 35184372088836
  | .laneDriveOff .. => 35184372088832
  | .lnkWindowEnd .. => 35218731828228
  | .laneLockLoss .. => 35218731828228
  | .ldpcDec .. => 577023734484831246
  | .ldpcEnc .. => 577023734484831246
  | .polarDec .. => 577023734484831246
  | .polarEnc .. => 577023734484831246
  | .codeBlockStart .. => 577023734482734092
  | .codeBlockEnd .. => 562982165679108
  | .fecJobComplete .. => 577023734482734093
  | .fecDeadline .. => 577023734499511308
  | .fecQctlCancel .. => 577023734484831246
  | .fecQctlReset .. => 577023734484831246
  | .activate .. => 1125899922571278
  | .deactivate .. => 1125899918376974
  | .cellFrameBoundary .. => 16777220
  | .holdoverExpiry .. => 16777220
  | .maskCheck .. => 2251799813685255
  | .fhMaskUnmute .. => 2251799823122446
  | .frameRx .. => 580964384159828996
  | .uplane .. => 580964384158780430
  | .cplane .. => 580964384158780430
  | .raw .. => 580964384158780430
  | .frameTx .. => 4503599644147717
  | .headDrop .. => 4503599644147716
  | .egressComplete .. => 580964384156683276
  | .ulMapClear .. => 577586684439301124
  | .tmGateSwap .. => 4503599643099150
  | .tmGateStop .. => 4503599638904846
  | .gateBoundary .. => 4503599644147716
  | .tmEnqCtlReset .. => 580964384158780430
  | .tmHrDone .. => 6291470
  | .tmHrSizeWrite .. => 6291470
  | .hostRingDeliver .. => 4504699155775500
  | .fhPortCmdEnable .. => 15728654
  | .fhPortCmdDisable .. => 15728654
  | .subportLinkChange .. => 4
  | .create .. => 4094353494874127375
  | .reset .. => 4094353494874127375
  | .reclaim .. => 4094353494874127375
  | .partCancel .. => 4094353494874127375
  | .assign .. => 4094353494874127375
  | .recover .. => 4094353494874127375
  | .destroy .. => 4094353494874127375
  | .instCreate .. => 4094353494874127375
  | .instReset .. => 4094353494874127375
  | .instDestroy .. => 4094353494874127375
  | .instanceResetEnd .. => 4233384199618426893
  | .prtModeWrite .. => 13631502
  | .prtLcInstWrite .. => 13631502
  | .reclaimInstant .. => 17592202821636
  | .teardown .. => 4094353494890904589
  | .zeroingDone .. => 1729382256910273540
  | .hostLinkDown .. => 432345564898656260
  | .hostLinkUp .. => 432345564361785348
  | .functionLevelReset .. => 4238468682949983245
  | .mbxSend .. => 18014398513677326
  | .mbxRecv .. => 450359994949305350
  | .mbxEpRecv .. => 522417588987233286
  | .mbxEpSend .. => 54043195542077454
  | .mbxMcSend .. => 54043195532640270
  | .mbxMcRecv .. => 522417588987233286
  | .noticeSend .. => 54043195528445952
  | .msixUnmask .. => 432345564361785344
  | .mbxInstReset .. => 4094353494874127373
  | .instQuery .. => 2
  | .progReg .. => 169664842766
  | .mapRemote .. => 576461302063437830
  | .grantPeer .. => 4194310
  | .revokePeer .. => 4194310
  | .reclaimAck .. => 1152921504611041286
  | .partCmd .. => 4094353494874127375
  | .rstNAssert .. => 151115727451828646838271
  | .rstNRelease .. => 132226261590787529637988
  | .imageVerified .. => 75589631898743646060239
  | .imgWrite .. => 75557863725946549308430
  | .imgCheck .. => 75557863725914337050638
  | .imgActivate .. => 75557863725914337050638
  | .imgConfirm .. => 75557863725914337050638
  | .psRestart .. => 75557863725914337050638
  | .psWrite .. => 75557863725914344390662
  | .secRcvProgram .. => 75557863725914327613446
  | .secRcvReset .. => 151115727451828646838271
  | .keyGenerate .. => 576460752317054991
  | .keyDestroy .. => 576460752317054991
  | .secCfgLock .. => 13631502
  | .getVersion .. => 268435458
  | .getCapabilities .. => 268435458
  | .negotiateAlgorithms .. => 268435458
  | .getDigests .. => 2
  | .getCertificate .. => 2
  | .challenge .. => 2
  | .getMeasurements .. => 2
  | .keyExchange .. => 268435459
  | .finish .. => 268435458
  | .keyUpdate .. => 2
  | .heartbeat .. => 2
  | .endSession .. => 268435458
  | .chunkSend .. => 268435458
  | .chunkGet .. => 268435458
  | .vendorDefinedRequest .. => 671088642
  | .lockInterface .. => 1212153862
  | .startInterface .. => 138412038
  | .stopInterface .. => 1207959554
  | .cremaOpen .. => 104857606
  | .cremaAdd .. => 104857606
  | .cremaSeal .. => 104857606
  | .cremaAbort .. => 104857606
  | .escalation .. => 18455751373929580228
  | .thresholdWindowEnd .. => 15049162752
  | .rasFence .. => 18446744142476216014
  | .rasRemoveFenceRecord .. => 18446744142476216014
  | .rasRotate .. => 18446744142476216014
  | .rasSoftRowRepair .. => 18446744142476216014
  | .softRowRepairDone .. => 55340232221128654852
  | .witnessRotate .. => 590295810390934687236
  | .rotationHandover .. => 73786976294838208068
  | .witnessSuiteEnd .. => 516508834081047314436
  | .rasCardSwapArm .. => 13631502
  | .fatalError .. => 1180645665012451902468
  | .fatalAutoReset .. => 151115727451828646838271
  | .mcWatchdog .. => 54043195528446980
  | .pwrDomOff .. => 9223372036868407310
  | .pwrDomOn .. => 9223372036868407310
  | .domainDrainEnd .. => 578184786535779332
  | .domainRampEnd .. => 9223374235878031364
  | .capPeriod .. => 2361183241434822606852
  | .pwrCapWrite .. => 13631502
  | .pwrTimedBudgetWrite .. => 13631502
  | .bar0Write .. => 151115727451828646838271
  | .bar2Read .. => 450359994960839694
  | .badBarAccess .. => 6
  | .perst .. => 432345564898656260
  | .completionQueueRead .. => 32255247374
  | .codewordLockLoss .. => 4
  | .arbListenEnd .. => 35184372088832
  | .pcieConfigWrite .. => 432345564361785348
  | .hbmSiloTrainingDone .. => 4611686050639642628
  | .flashProgramDone .. => 146393360968959005818887
  | .cremaCommandDone .. => 576460784632073230
  | .symbolSendTime .. => 4503599644147716
  | .powerRemoval .. => 151115727451828646838271

theorem OutP.congr {m k : Nat} {s : State} {o p : Host.Outcome State Fault Refusal} (e : o = p) (f : k = m) (h : OutP k s p) : OutP m s o :=
  e ▸ f ▸ h

/-- No command touches the queue; the state after it is a later state of the same part; the parts it changes are those of foot. -/
theorem exec_keeps (c : Instr) (s : State) : OutP (foot c) s (exec c s) := by
  cases c with
  | registerWrite => exact .congr (exec_registerWrite s) rfl (execRegisterWrite_keeps (.refl s) (.refl _))
  | meMma => exact .congr (exec_meMma s) rfl (execMeMma_keeps (.refl s) (.refl _))
  | meDrain => exact .congr (exec_meDrain s) rfl (execMeDrain_keeps (.refl s) (.refl _))
  | meLoadacc => exact .congr (exec_meLoadacc s) rfl (execMeLoadacc_keeps (.refl s) (.refl _))
  | meClear => exact .congr (exec_meClear s) rfl (execMeClear_keeps (.refl s) (.refl _))
  | meRowReachesBank => exact .congr (exec_meRowReachesBank s) rfl (execMeRowReachesBank_keeps (.refl s) (.refl _))
  | meComplete => exact .congr (exec_meComplete s) rfl (execMeComplete_keeps (.refl s) (.refl _))
  | meQreset => exact .congr (exec_meQreset s) rfl (execMeQreset_keeps (.refl s) (.refl _))
  | meCtrlWrite => exact .congr (exec_meCtrlWrite s) rfl (execMeCtrlWrite_keeps (.refl s) (.refl _))
  | meActDescWrite => exact .congr (exec_meActDescWrite s) rfl (execMeActDescWrite_keeps (.refl s) (.refl _))
  | tampStepEnd => exact .congr (exec_tampStepEnd s) rfl (execTampStepEnd_keeps (.refl s) (.refl _))
  | tampRampStart => exact .congr (exec_tampRampStart s) rfl (execTampRampStart_keeps (.refl s) (.refl _))
  | tampPrewarm => exact .congr (exec_tampPrewarm s) rfl (execTampPrewarm_keeps (.refl s) (.refl _))
  | ld => exact .congr (exec_ld s) rfl (execLd_keeps (.refl s) (.refl _))
  | st => exact .congr (exec_st s) rfl (execSt_keeps (.refl s) (.refl _))
  | atom => exact .congr (exec_atom s) rfl (execAtom_keeps (.refl s) (.refl _))
  | fenceRem => exact .congr (exec_fenceRem s) rfl (execFenceRem_keeps (.refl s) (.refl _))
  | issueMe => exact .congr (exec_issueMe s) rfl (execIssueMe_keeps (.refl s) (.refl _))
  | issueVce => exact .congr (exec_issueVce s) rfl (execIssueVce_keeps (.refl s) (.refl _))
  | issueTme => exact .congr (exec_issueTme s) rfl (execIssueTme_keeps (.refl s) (.refl _))
  | spawn => exact .congr (exec_spawn s) rfl (execSpawn_keeps (.refl s) (.refl _))
  | raise => exact .congr (exec_raise s) rfl (execRaise_keeps (.refl s) (.refl _))
  | waitevt => exact .congr (exec_waitevt s) rfl (execWaitevt_keeps (.refl s) (.refl _))
  | cancel => exact .congr (exec_cancel s) rfl (execCancel_keeps (.refl s) (.refl _))
  | done => exact .congr (exec_done s) rfl (execDone_keeps (.refl s) (.refl _))
  | queuedItemPush => exact .congr (exec_queuedItemPush s) rfl (execQueuedItemPush_keeps (.refl s) (.refl _))
  | remoteReply => exact .congr (exec_remoteReply s) rfl (execRemoteReply_keeps (.refl s) (.refl _))
  | storeAck => exact .congr (exec_storeAck s) rfl (execStoreAck_keeps (.refl s) (.refl _))
  | taskAccept => exact .congr (exec_taskAccept s) rfl (execTaskAccept_keeps (.refl s) (.refl _))
  | taskDispatch => exact .congr (exec_taskDispatch s) rfl (execTaskDispatch_keeps (.refl s) (.refl _))
  | prtTaskCancel => exact .congr (exec_prtTaskCancel s) rfl (execPrtTaskCancel_keeps (.refl s) (.refl _))
  | prtTqReset => exact .congr (exec_prtTqReset s) rfl (execPrtTqReset_keeps (.refl s) (.refl _))
  | memPmGo => exact .congr (exec_memPmGo s) rfl (execMemPmGo_keeps (.refl s) (.refl _))
  | programLoadEnd => exact .congr (exec_programLoadEnd s) rfl (execProgramLoadEnd_keeps (.refl s) (.refl _))
  | fence => exact .congr (exec_fence s) rfl (execFence_keeps (.refl s) (.refl _))
  | rasCoreFence => exact .congr (exec_rasCoreFence s) rfl (execRasCoreFence_keeps (.refl s) (.refl _))
  | spareChoice => exact .congr (exec_spareChoice s) rfl (execSpareChoice_keeps (.refl s) (.refl _))
  | spareClearLoadEnd => exact .congr (exec_spareClearLoadEnd s) rfl (execSpareClearLoadEnd_keeps (.refl s) (.refl _))
  | vceRun => exact .congr (exec_vceRun s) rfl (execVceRun_keeps (.refl s) (.refl _))
  | vmov => exact .congr (exec_vmov s) rfl (execVmov_keeps (.refl s) (.refl _))
  | vperm => exact .congr (exec_vperm s) rfl (execVperm_keeps (.refl s) (.refl _))
  | vadd => exact .congr (exec_vadd s) rfl (execVadd_keeps (.refl s) (.refl _))
  | vsub => exact .congr (exec_vsub s) rfl (execVsub_keeps (.refl s) (.refl _))
  | cmul => exact .congr (exec_cmul s) rfl (execCmul_keeps (.refl s) (.refl _))
  | cfma => exact .congr (exec_cfma s) rfl (execCfma_keeps (.refl s) (.refl _))
  | cfms => exact .congr (exec_cfms s) rfl (execCfms_keeps (.refl s) (.refl _))
  | cmac => exact .congr (exec_cmac s) rfl (execCmac_keeps (.refl s) (.refl _))
  | cmaci => exact .congr (exec_cmaci s) rfl (execCmaci_keeps (.refl s) (.refl _))
  | accrd => exact .congr (exec_accrd s) rfl (execAccrd_keeps (.refl s) (.refl _))
  | bfly => exact .congr (exec_bfly s) rfl (execBfly_keeps (.refl s) (.refl _))
  | rmul => exact .congr (exec_rmul s) rfl (execRmul_keeps (.refl s) (.refl _))
  | rfma => exact .congr (exec_rfma s) rfl (execRfma_keeps (.refl s) (.refl _))
  | vmax => exact .congr (exec_vmax s) rfl (execVmax_keeps (.refl s) (.refl _))
  | vmin => exact .congr (exec_vmin s) rfl (execVmin_keeps (.refl s) (.refl _))
  | vsum => exact .congr (exec_vsum s) rfl (execVsum_keeps (.refl s) (.refl _))
  | vexp => exact .congr (exec_vexp s) rfl (execVexp_keeps (.refl s) (.refl _))
  | vrcp => exact .congr (exec_vrcp s) rfl (execVrcp_keeps (.refl s) (.refl _))
  | vrsq => exact .congr (exec_vrsq s) rfl (execVrsq_keeps (.refl s) (.refl _))
  | cvt => exact .congr (exec_cvt s) rfl (execCvt_keeps (.refl s) (.refl _))
  | cvtn => exact .congr (exec_cvtn s) rfl (execCvtn_keeps (.refl s) (.refl _))
  | rpt => exact .congr (exec_rpt s) rfl (execRpt_keeps (.refl s) (.refl _))
  | loop => exact .congr (exec_loop s) rfl (execLoop_keeps (.refl s) (.refl _))
  | seta => exact .congr (exec_seta s) rfl (execSeta_keeps (.refl s) (.refl _))
  | seto => exact .congr (exec_seto s) rfl (execSeto_keeps (.refl s) (.refl _))
  | setl => exact .congr (exec_setl s) rfl (execSetl_keeps (.refl s) (.refl _))
  | setm => exact .congr (exec_setm s) rfl (execSetm_keeps (.refl s) (.refl _))
  | endKernel => exact .congr (exec_endKernel s) rfl (execEndKernel_keeps (.refl s) (.refl _))
  | vceComplete => exact .congr (exec_vceComplete s) rfl (execVceComplete_keeps (.refl s) (.refl _))
  | vceQreset => exact .congr (exec_vceQreset s) rfl (execVceQreset_keeps (.refl s) (.refl _))
  | vceCtrlWrite => exact .congr (exec_vceCtrlWrite s) rfl (execVceCtrlWrite_keeps (.refl s) (.refl _))
  | copy => exact .congr (exec_copy s) rfl (execCopy_keeps (.refl s) (.refl _))
  | gather => exact .congr (exec_gather s) rfl (execGather_keeps (.refl s) (.refl _))
  | scatter => exact .congr (exec_scatter s) rfl (execScatter_keeps (.refl s) (.refl _))
  | setconv => exact .congr (exec_setconv s) rfl (execSetconv_keeps (.refl s) (.refl _))
  | tmeTransferDone => exact .congr (exec_tmeTransferDone s) rfl (execTmeTransferDone_keeps (.refl s) (.refl _))
  | tmeRunAheadRead => exact .congr (exec_tmeRunAheadRead s) rfl (execTmeRunAheadRead_keeps (.refl s) (.refl _))
  | tmeCommit => exact .congr (exec_tmeCommit s) rfl (execTmeCommit_keeps (.refl s) (.refl _))
  | tmeComplete => exact .congr (exec_tmeComplete s) rfl (execTmeComplete_keeps (.refl s) (.refl _))
  | tmeQreset => exact .congr (exec_tmeQreset s) rfl (execTmeQreset_keeps (.refl s) (.refl _))
  | tmeCtrlWrite => exact .congr (exec_tmeCtrlWrite s) rfl (execTmeCtrlWrite_keeps (.refl s) (.refl _))
  | poolRequest => exact .congr (exec_poolRequest s) rfl (execPoolRequest_keeps (.refl s) (.refl _))
  | poolReturn => exact .congr (exec_poolReturn s) rfl (execPoolReturn_keeps (.refl s) (.refl _))
  | alloc => exact .congr (exec_alloc s) rfl (execAlloc_keeps (.refl s) (.refl _))
  | free => exact .congr (exec_free s) rfl (execFree_keeps (.refl s) (.refl _))
  | scrub => exact .congr (exec_scrub s) rfl (execScrub_keeps (.refl s) (.refl _))
  | tableWalkDone => exact .congr (exec_tableWalkDone s) rfl (execTableWalkDone_keeps (.refl s) (.refl _))
  | xltInvInstance => exact .congr (exec_xltInvInstance s) rfl (execXltInvInstance_keeps (.refl s) (.refl _))
  | xltInvRange => exact .congr (exec_xltInvRange s) rfl (execXltInvRange_keeps (.refl s) (.refl _))
  | xltInvAll => exact .congr (exec_xltInvAll s) rfl (execXltInvAll_keeps (.refl s) (.refl _))
  | xltInvComplete => exact .congr (exec_xltInvComplete s) rfl (execXltInvComplete_keeps (.refl s) (.refl _))
  | toDev => exact .congr (exec_toDev s) rfl (execToDev_keeps (.refl s) (.refl _))
  | toHost => exact .congr (exec_toHost s) rfl (execToHost_keeps (.refl s) (.refl _))
  | dmaPieceDone => exact .congr (exec_dmaPieceDone s) rfl (execDmaPieceDone_keeps (.refl s) (.refl _))
  | dmaComplete => exact .congr (exec_dmaComplete s) rfl (execDmaComplete_keeps (.refl s) (.refl _))
  | xltIfDone => exact .congr (exec_xltIfDone s) rfl (execXltIfDone_keeps (.refl s) (.refl _))
  | xclkLost => exact .congr (exec_xclkLost s) rfl (execXclkLost_keeps (.refl s) (.refl _))
  | xclkRestored => exact .congr (exec_xclkRestored s) rfl (execXclkRestored_keeps (.refl s) (.refl _))
  | timePllLock => exact .congr (exec_timePllLock s) rfl (execTimePllLock_keeps (.refl s) (.refl _))
  | glideStep => exact .congr (exec_glideStep s) rfl (execGlideStep_keeps (.refl s) (.refl _))
  | clkIslTargetWrite => exact .congr (exec_clkIslTargetWrite s) rfl (execClkIslTargetWrite_keeps (.refl s) (.refl _))
  | clkEnWrite => exact .congr (exec_clkEnWrite s) rfl (execClkEnWrite_keeps (.refl s) (.refl _))
  | timeMarker => exact .congr (exec_timeMarker s) rfl (execTimeMarker_keeps (.refl s) (.refl _))
  | timeServoOfs => exact .congr (exec_timeServoOfs s) rfl (execTimeServoOfs_keeps (.refl s) (.refl _))
  | timeStepWrite => exact .congr (exec_timeStepWrite s) rfl (execTimeStepWrite_keeps (.refl s) (.refl _))
  | timeAdj => exact .congr (exec_timeAdj s) rfl (execTimeAdj_keeps (.refl s) (.refl _))
  | timeNowNsRead => exact .congr (exec_timeNowNsRead s) rfl (execTimeNowNsRead_keeps (.refl s) (.refl _))
  | declareLock => exact .congr (exec_declareLock s) rfl (execDeclareLock_keeps (.refl s) (.refl _))
  | timeCmpFire => exact .congr (exec_timeCmpFire s) rfl (execTimeCmpFire_keeps (.refl s) (.refl _))
  | cglBoundary => exact .congr (exec_cglBoundary s) rfl (execCglBoundary_keeps (.refl s) (.refl _))
  | guardStart => exact .congr (exec_guardStart s) rfl (execGuardStart_keeps (.refl s) (.refl _))
  | cglSwap => exact .congr (exec_cglSwap s) rfl (execCglSwap_keeps (.refl s) (.refl _))
  | cglStop => exact .congr (exec_cglStop s) rfl (execCglStop_keeps (.refl s) (.refl _))
  | cglSwapApply => exact .congr (exec_cglSwapApply s) rfl (execCglSwapApply_keeps (.refl s) (.refl _))
  | cglLcGrpWrite => exact .congr (exec_cglLcGrpWrite s) rfl (execCglLcGrpWrite_keeps (.refl s) (.refl _))
  | groupChangeApply => exact .congr (exec_groupChangeApply s) rfl (execGroupChangeApply_keeps (.refl s) (.refl _))
  | starve => exact .congr (exec_starve s) rfl (execStarve_keeps (.refl s) (.refl _))
  | grpCreate => exact .congr (exec_grpCreate s) rfl (execGrpCreate_keeps (.refl s) (.refl _))
  | grpDestroy => exact .congr (exec_grpDestroy s) rfl (execGrpDestroy_keeps (.refl s) (.refl _))
  | grpHold => exact .congr (exec_grpHold s) rfl (execGrpHold_keeps (.refl s) (.refl _))
  | admitSeq => exact .congr (exec_admitSeq s) rfl (execAdmitSeq_keeps (.refl s) (.refl _))
  | cancelSeq => exact .congr (exec_cancelSeq s) rfl (execCancelSeq_keeps (.refl s) (.refl _))
  | querySeq => exact .congr (exec_querySeq s) rfl (execQuerySeq_keeps (.refl s) (.refl _))
  | setClass => exact .congr (exec_setClass s) rfl (execSetClass_keeps (.refl s) (.refl _))
  | migrate => exact .congr (exec_migrate s) rfl (execMigrate_keeps (.refl s) (.refl _))
  | outDone => exact .congr (exec_outDone s) rfl (execOutDone_keeps (.refl s) (.refl _))
  | stepCommit => exact .congr (exec_stepCommit s) rfl (execStepCommit_keeps (.refl s) (.refl _))
  | outputRoomWaitEnd => exact .congr (exec_outputRoomWaitEnd s) rfl (execOutputRoomWaitEnd_keeps (.refl s) (.refl _))
  | blockMoveDone => exact .congr (exec_blockMoveDone s) rfl (execBlockMoveDone_keeps (.refl s) (.refl _))
  | ldRequest => exact .congr (exec_ldRequest s) rfl (execLdRequest_keeps (.refl s) (.refl _))
  | stRequest => exact .congr (exec_stRequest s) rfl (execStRequest_keeps (.refl s) (.refl _))
  | swap => exact .congr (exec_swap s) rfl (execSwap_keeps (.refl s) (.refl _))
  | cas => exact .congr (exec_cas s) rfl (execCas_keeps (.refl s) (.refl _))
  | faddI64 => exact .congr (exec_faddI64 s) rfl (execFaddI64_keeps (.refl s) (.refl _))
  | addI64 => exact .congr (exec_addI64 s) rfl (execAddI64_keeps (.refl s) (.refl _))
  | addRec => exact .congr (exec_addRec s) rfl (execAddRec_keeps (.refl s) (.refl _))
  | addF32 => exact .congr (exec_addF32 s) rfl (execAddF32_keeps (.refl s) (.refl _))
  | dispatch => exact .congr (exec_dispatch s) rfl (execDispatch_keeps (.refl s) (.refl _))
  | combine => exact .congr (exec_combine s) rfl (execCombine_keeps (.refl s) (.refl _))
  | epochNote => exact .congr (exec_epochNote s) rfl (execEpochNote_keeps (.refl s) (.refl _))
  | bulk => exact .congr (exec_bulk s) rfl (execBulk_keeps (.refl s) (.refl _))
  | fabricReply => exact .congr (exec_fabricReply s) rfl (execFabricReply_keeps (.refl s) (.refl _))
  | tagGrant => exact .congr (exec_tagGrant s) rfl (execTagGrant_keeps (.refl s) (.refl _))
  | fabricTimeout => exact .congr (exec_fabricTimeout s) rfl (execFabricTimeout_keeps (.refl s) (.refl _))
  | tagQuarantineEnd => exact .congr (exec_tagQuarantineEnd s) rfl (execTagQuarantineEnd_keeps (.refl s) (.refl _))
  | gwFrameSend => exact .congr (exec_gwFrameSend s) rfl (execGwFrameSend_keeps (.refl s) (.refl _))
  | gwEntryGrant => exact .congr (exec_gwEntryGrant s) rfl (execGwEntryGrant_keeps (.refl s) (.refl _))
  | get => exact .congr (exec_get s) rfl (execGet_keeps (.refl s) (.refl _))
  | put => exact .congr (exec_put s) rfl (execPut_keeps (.refl s) (.refl _))
  | gwComplete => exact .congr (exec_gwComplete s) rfl (execGwComplete_keeps (.refl s) (.refl _))
  | fabXrTailWrite => exact .congr (exec_fabXrTailWrite s) rfl (execFabXrTailWrite_keeps (.refl s) (.refl _))
  | dispatchRingRead => exact .congr (exec_dispatchRingRead s) rfl (execDispatchRingRead_keeps (.refl s) (.refl _))
  | dispatchRetry => exact .congr (exec_dispatchRetry s) rfl (execDispatchRetry_keeps (.refl s) (.refl _))
  | dispatchEntryComplete => exact .congr (exec_dispatchEntryComplete s) rfl (execDispatchEntryComplete_keeps (.refl s) (.refl _))
  | fabXiNext => exact .congr (exec_fabXiNext s) rfl (execFabXiNext_keeps (.refl s) (.refl _))
  | fabXiDone => exact .congr (exec_fabXiDone s) rfl (execFabXiDone_keeps (.refl s) (.refl _))
  | inboxSlotFree => exact .congr (exec_inboxSlotFree s) rfl (execInboxSlotFree_keeps (.refl s) (.refl _))
  | enable => exact .congr (exec_enable s) rfl (execEnable_keeps (.refl s) (.refl _))
  | disable => exact .congr (exec_disable s) rfl (execDisable_keeps (.refl s) (.refl _))
  | retrain => exact .congr (exec_retrain s) rfl (execRetrain_keeps (.refl s) (.refl _))
  | swapCommand => exact .congr (exec_swapCommand s) rfl (execSwapCommand_keeps (.refl s) (.refl _))
  | unretire => exact .congr (exec_unretire s) rfl (execUnretire_keeps (.refl s) (.refl _))
  | announce => exact .congr (exec_announce s) rfl (execAnnounce_keeps (.refl s) (.refl _))
  | collisionRound => exact .congr (exec_collisionRound s) rfl (execCollisionRound_keeps (.refl s) (.refl _))
  | trainingPhaseEnd => exact .congr (exec_trainingPhaseEnd s) rfl (execTrainingPhaseEnd_keeps (.refl s) (.refl _))
  | ready => exact .congr (exec_ready s) rfl (execReady_keeps (.refl s) (.refl _))
  | trainTimeout => exact .congr (exec_trainTimeout s) rfl (execTrainTimeout_keeps (.refl s) (.refl _))
  | recoveryTimeout => exact .congr (exec_recoveryTimeout s) rfl (execRecoveryTimeout_keeps (.refl s) (.refl _))
  | fastRetrainDone => exact .congr (exec_fastRetrainDone s) rfl (execFastRetrainDone_keeps (.refl s) (.refl _))
  | drainHoldEnd => exact .congr (exec_drainHoldEnd s) rfl (execDrainHoldEnd_keeps (.refl s) (.refl _))
  | downToArb => exact .congr (exec_downToArb s) rfl (execDownToArb_keeps (.refl s) (.refl _))
  | flitRx => exact .congr (exec_flitRx s) rfl (execFlitRx_keeps (.refl s) (.refl _))
  | replayTimer => exact .congr (exec_replayTimer s) rfl (execReplayTimer_keeps (.refl s) (.refl _))
  | swapReq => exact .congr (exec_swapReq s) rfl (execSwapReq_keeps (.refl s) (.refl _))
  | swapAck => exact .congr (exec_swapAck s) rfl (execSwapAck_keeps (.refl s) (.refl _))
  | swapRej => exact .congr (exec_swapRej s) rfl (execSwapRej_keeps (.refl s) (.refl _))
  | laneDriveOff => exact .congr (exec_laneDriveOff s) rfl (execLaneDriveOff_keeps (.refl s) (.refl _))
  | lnkWindowEnd => exact .congr (exec_lnkWindowEnd s) rfl (execLnkWindowEnd_keeps (.refl s) (.refl _))
  | laneLockLoss => exact .congr (exec_laneLockLoss s) rfl (execLaneLockLoss_keeps (.refl s) (.refl _))
  | ldpcDec => exact .congr (exec_ldpcDec s) rfl (execLdpcDec_keeps (.refl s) (.refl _))
  | ldpcEnc => exact .congr (exec_ldpcEnc s) rfl (execLdpcEnc_keeps (.refl s) (.refl _))
  | polarDec => exact .congr (exec_polarDec s) rfl (execPolarDec_keeps (.refl s) (.refl _))
  | polarEnc => exact .congr (exec_polarEnc s) rfl (execPolarEnc_keeps (.refl s) (.refl _))
  | codeBlockStart => exact .congr (exec_codeBlockStart s) rfl (execCodeBlockStart_keeps (.refl s) (.refl _))
  | codeBlockEnd => exact .congr (exec_codeBlockEnd s) rfl (execCodeBlockEnd_keeps (.refl s) (.refl _))
  | fecJobComplete => exact .congr (exec_fecJobComplete s) rfl (execFecJobComplete_keeps (.refl s) (.refl _))
  | fecDeadline => exact .congr (exec_fecDeadline s) rfl (execFecDeadline_keeps (.refl s) (.refl _))
  | fecQctlCancel => exact .congr (exec_fecQctlCancel s) rfl (execFecQctlCancel_keeps (.refl s) (.refl _))
  | fecQctlReset => exact .congr (exec_fecQctlReset s) rfl (execFecQctlReset_keeps (.refl s) (.refl _))
  | activate => exact .congr (exec_activate s) rfl (execActivate_keeps (.refl s) (.refl _))
  | deactivate => exact .congr (exec_deactivate s) rfl (execDeactivate_keeps (.refl s) (.refl _))
  | cellFrameBoundary => exact .congr (exec_cellFrameBoundary s) rfl (execCellFrameBoundary_keeps (.refl s) (.refl _))
  | holdoverExpiry => exact .congr (exec_holdoverExpiry s) rfl (execHoldoverExpiry_keeps (.refl s) (.refl _))
  | maskCheck => exact .congr (exec_maskCheck s) rfl (execMaskCheck_keeps (.refl s) (.refl _))
  | fhMaskUnmute => exact .congr (exec_fhMaskUnmute s) rfl (execFhMaskUnmute_keeps (.refl s) (.refl _))
  | frameRx => exact .congr (exec_frameRx s) rfl (execFrameRx_keeps (.refl s) (.refl _))
  | uplane => exact .congr (exec_uplane s) rfl (execUplane_keeps (.refl s) (.refl _))
  | cplane => exact .congr (exec_cplane s) rfl (execCplane_keeps (.refl s) (.refl _))
  | raw => exact .congr (exec_raw s) rfl (execRaw_keeps (.refl s) (.refl _))
  | frameTx => exact .congr (exec_frameTx s) rfl (execFrameTx_keeps (.refl s) (.refl _))
  | headDrop => exact .congr (exec_headDrop s) rfl (execHeadDrop_keeps (.refl s) (.refl _))
  | egressComplete => exact .congr (exec_egressComplete s) rfl (execEgressComplete_keeps (.refl s) (.refl _))
  | ulMapClear => exact .congr (exec_ulMapClear s) rfl (execUlMapClear_keeps (.refl s) (.refl _))
  | tmGateSwap => exact .congr (exec_tmGateSwap s) rfl (execTmGateSwap_keeps (.refl s) (.refl _))
  | tmGateStop => exact .congr (exec_tmGateStop s) rfl (execTmGateStop_keeps (.refl s) (.refl _))
  | gateBoundary => exact .congr (exec_gateBoundary s) rfl (execGateBoundary_keeps (.refl s) (.refl _))
  | tmEnqCtlReset => exact .congr (exec_tmEnqCtlReset s) rfl (execTmEnqCtlReset_keeps (.refl s) (.refl _))
  | tmHrDone => exact .congr (exec_tmHrDone s) rfl (execTmHrDone_keeps (.refl s) (.refl _))
  | tmHrSizeWrite => exact .congr (exec_tmHrSizeWrite s) rfl (execTmHrSizeWrite_keeps (.refl s) (.refl _))
  | hostRingDeliver => exact .congr (exec_hostRingDeliver s) rfl (execHostRingDeliver_keeps (.refl s) (.refl _))
  | fhPortCmdEnable => exact .congr (exec_fhPortCmdEnable s) rfl (execFhPortCmdEnable_keeps (.refl s) (.refl _))
  | fhPortCmdDisable => exact .congr (exec_fhPortCmdDisable s) rfl (execFhPortCmdDisable_keeps (.refl s) (.refl _))
  | subportLinkChange => exact .congr (exec_subportLinkChange s) rfl (execSubportLinkChange_keeps (.refl s) (.refl _))
  | create => exact .congr (exec_create s) rfl (execCreate_keeps (.refl s) (.refl _))
  | reset => exact .congr (exec_reset s) rfl (execReset_keeps (.refl s) (.refl _))
  | reclaim => exact .congr (exec_reclaim s) rfl (execReclaim_keeps (.refl s) (.refl _))
  | partCancel => exact .congr (exec_partCancel s) rfl (execPartCancel_keeps (.refl s) (.refl _))
  | assign => exact .congr (exec_assign s) rfl (execAssign_keeps (.refl s) (.refl _))
  | recover => exact .congr (exec_recover s) rfl (execRecover_keeps (.refl s) (.refl _))
  | destroy => exact .congr (exec_destroy s) rfl (execDestroy_keeps (.refl s) (.refl _))
  | instCreate => exact .congr (exec_instCreate s) rfl (execInstCreate_keeps (.refl s) (.refl _))
  | instReset => exact .congr (exec_instReset s) rfl (execInstReset_keeps (.refl s) (.refl _))
  | instDestroy => exact .congr (exec_instDestroy s) rfl (execInstDestroy_keeps (.refl s) (.refl _))
  | instanceResetEnd => exact .congr (exec_instanceResetEnd s) rfl (execInstanceResetEnd_keeps (.refl s) (.refl _))
  | prtModeWrite => exact .congr (exec_prtModeWrite s) rfl (execPrtModeWrite_keeps (.refl s) (.refl _))
  | prtLcInstWrite => exact .congr (exec_prtLcInstWrite s) rfl (execPrtLcInstWrite_keeps (.refl s) (.refl _))
  | reclaimInstant => exact .congr (exec_reclaimInstant s) rfl (execReclaimInstant_keeps (.refl s) (.refl _))
  | teardown => exact .congr (exec_teardown s) rfl (execTeardown_keeps (.refl s) (.refl _))
  | zeroingDone => exact .congr (exec_zeroingDone s) rfl (execZeroingDone_keeps (.refl s) (.refl _))
  | hostLinkDown => exact .congr (exec_hostLinkDown s) rfl (execHostLinkDown_keeps (.refl s) (.refl _))
  | hostLinkUp => exact .congr (exec_hostLinkUp s) rfl (execHostLinkUp_keeps (.refl s) (.refl _))
  | functionLevelReset => exact .congr (exec_functionLevelReset s) rfl (execFunctionLevelReset_keeps (.refl s) (.refl _))
  | mbxSend => exact .congr (exec_mbxSend s) rfl (execMbxSend_keeps (.refl s) (.refl _))
  | mbxRecv => exact .congr (exec_mbxRecv s) rfl (execMbxRecv_keeps (.refl s) (.refl _))
  | mbxEpRecv => exact .congr (exec_mbxEpRecv s) rfl (execMbxEpRecv_keeps (.refl s) (.refl _))
  | mbxEpSend => exact .congr (exec_mbxEpSend s) rfl (execMbxEpSend_keeps (.refl s) (.refl _))
  | mbxMcSend => exact .congr (exec_mbxMcSend s) rfl (execMbxMcSend_keeps (.refl s) (.refl _))
  | mbxMcRecv => exact .congr (exec_mbxMcRecv s) rfl (execMbxMcRecv_keeps (.refl s) (.refl _))
  | noticeSend => exact .congr (exec_noticeSend s) rfl (execNoticeSend_keeps (.refl s) (.refl _))
  | msixUnmask => exact .congr (exec_msixUnmask s) rfl (execMsixUnmask_keeps (.refl s) (.refl _))
  | mbxInstReset => exact .congr (exec_mbxInstReset s) rfl (execMbxInstReset_keeps (.refl s) (.refl _))
  | instQuery => exact .congr (exec_instQuery s) rfl (execInstQuery_keeps (.refl s) (.refl _))
  | progReg => exact .congr (exec_progReg s) rfl (execProgReg_keeps (.refl s) (.refl _))
  | mapRemote => exact .congr (exec_mapRemote s) rfl (execMapRemote_keeps (.refl s) (.refl _))
  | grantPeer => exact .congr (exec_grantPeer s) rfl (execGrantPeer_keeps (.refl s) (.refl _))
  | revokePeer => exact .congr (exec_revokePeer s) rfl (execRevokePeer_keeps (.refl s) (.refl _))
  | reclaimAck => exact .congr (exec_reclaimAck s) rfl (execReclaimAck_keeps (.refl s) (.refl _))
  | partCmd => exact .congr (exec_partCmd s) rfl (execPartCmd_keeps (.refl s) (.refl _))
  | rstNAssert => exact .congr (exec_rstNAssert s) rfl (execRstNAssert_keeps (.refl s) (.refl _))
  | rstNRelease => exact .congr (exec_rstNRelease s) rfl (execRstNRelease_keeps (.refl s) (.refl _))
  | imageVerified => exact .congr (exec_imageVerified s) rfl (execImageVerified_keeps (.refl s) (.refl _))
  | imgWrite => exact .congr (exec_imgWrite s) rfl (execImgWrite_keeps (.refl s) (.refl _))
  | imgCheck => exact .congr (exec_imgCheck s) rfl (execImgCheck_keeps (.refl s) (.refl _))
  | imgActivate => exact .congr (exec_imgActivate s) rfl (execImgActivate_keeps (.refl s) (.refl _))
  | imgConfirm => exact .congr (exec_imgConfirm s) rfl (execImgConfirm_keeps (.refl s) (.refl _))
  | psRestart => exact .congr (exec_psRestart s) rfl (execPsRestart_keeps (.refl s) (.refl _))
  | psWrite => exact .congr (exec_psWrite s) rfl (execPsWrite_keeps (.refl s) (.refl _))
  | secRcvProgram => exact .congr (exec_secRcvProgram s) rfl (execSecRcvProgram_keeps (.refl s) (.refl _))
  | secRcvReset => exact .congr (exec_secRcvReset s) rfl (execSecRcvReset_keeps (.refl s) (.refl _))
  | keyGenerate => exact .congr (exec_keyGenerate s) rfl (execKeyGenerate_keeps (.refl s) (.refl _))
  | keyDestroy => exact .congr (exec_keyDestroy s) rfl (execKeyDestroy_keeps (.refl s) (.refl _))
  | secCfgLock => exact .congr (exec_secCfgLock s) rfl (execSecCfgLock_keeps (.refl s) (.refl _))
  | getVersion => exact .congr (exec_getVersion s) rfl (execGetVersion_keeps (.refl s) (.refl _))
  | getCapabilities => exact .congr (exec_getCapabilities s) rfl (execGetCapabilities_keeps (.refl s) (.refl _))
  | negotiateAlgorithms => exact .congr (exec_negotiateAlgorithms s) rfl (execNegotiateAlgorithms_keeps (.refl s) (.refl _))
  | getDigests => exact .congr (exec_getDigests s) rfl (execGetDigests_keeps (.refl s) (.refl _))
  | getCertificate => exact .congr (exec_getCertificate s) rfl (execGetCertificate_keeps (.refl s) (.refl _))
  | challenge => exact .congr (exec_challenge s) rfl (execChallenge_keeps (.refl s) (.refl _))
  | getMeasurements => exact .congr (exec_getMeasurements s) rfl (execGetMeasurements_keeps (.refl s) (.refl _))
  | keyExchange => exact .congr (exec_keyExchange s) rfl (execKeyExchange_keeps (.refl s) (.refl _))
  | finish => exact .congr (exec_finish s) rfl (execFinish_keeps (.refl s) (.refl _))
  | keyUpdate => exact .congr (exec_keyUpdate s) rfl (execKeyUpdate_keeps (.refl s) (.refl _))
  | heartbeat => exact .congr (exec_heartbeat s) rfl (execHeartbeat_keeps (.refl s) (.refl _))
  | endSession => exact .congr (exec_endSession s) rfl (execEndSession_keeps (.refl s) (.refl _))
  | chunkSend => exact .congr (exec_chunkSend s) rfl (execChunkSend_keeps (.refl s) (.refl _))
  | chunkGet => exact .congr (exec_chunkGet s) rfl (execChunkGet_keeps (.refl s) (.refl _))
  | vendorDefinedRequest => exact .congr (exec_vendorDefinedRequest s) rfl (execVendorDefinedRequest_keeps (.refl s) (.refl _))
  | lockInterface => exact .congr (exec_lockInterface s) rfl (execLockInterface_keeps (.refl s) (.refl _))
  | startInterface => exact .congr (exec_startInterface s) rfl (execStartInterface_keeps (.refl s) (.refl _))
  | stopInterface => exact .congr (exec_stopInterface s) rfl (execStopInterface_keeps (.refl s) (.refl _))
  | cremaOpen => exact .congr (exec_cremaOpen s) rfl (execCremaOpen_keeps (.refl s) (.refl _))
  | cremaAdd => exact .congr (exec_cremaAdd s) rfl (execCremaAdd_keeps (.refl s) (.refl _))
  | cremaSeal => exact .congr (exec_cremaSeal s) rfl (execCremaSeal_keeps (.refl s) (.refl _))
  | cremaAbort => exact .congr (exec_cremaAbort s) rfl (execCremaAbort_keeps (.refl s) (.refl _))
  | escalation => exact .congr (exec_escalation s) rfl (execEscalation_keeps (.refl s) (.refl _))
  | thresholdWindowEnd => exact .congr (exec_thresholdWindowEnd s) rfl (execThresholdWindowEnd_keeps (.refl s) (.refl _))
  | rasFence => exact .congr (exec_rasFence s) rfl (execRasFence_keeps (.refl s) (.refl _))
  | rasRemoveFenceRecord => exact .congr (exec_rasRemoveFenceRecord s) rfl (execRasRemoveFenceRecord_keeps (.refl s) (.refl _))
  | rasRotate => exact .congr (exec_rasRotate s) rfl (execRasRotate_keeps (.refl s) (.refl _))
  | rasSoftRowRepair => exact .congr (exec_rasSoftRowRepair s) rfl (execRasSoftRowRepair_keeps (.refl s) (.refl _))
  | softRowRepairDone => exact .congr (exec_softRowRepairDone s) rfl (execSoftRowRepairDone_keeps (.refl s) (.refl _))
  | witnessRotate => exact .congr (exec_witnessRotate s) rfl (execWitnessRotate_keeps (.refl s) (.refl _))
  | rotationHandover => exact .congr (exec_rotationHandover s) rfl (execRotationHandover_keeps (.refl s) (.refl _))
  | witnessSuiteEnd => exact .congr (exec_witnessSuiteEnd s) rfl (execWitnessSuiteEnd_keeps (.refl s) (.refl _))
  | rasCardSwapArm => exact .congr (exec_rasCardSwapArm s) rfl (execRasCardSwapArm_keeps (.refl s) (.refl _))
  | fatalError => exact .congr (exec_fatalError s) rfl (execFatalError_keeps (.refl s) (.refl _))
  | fatalAutoReset => exact .congr (exec_fatalAutoReset s) rfl (execFatalAutoReset_keeps (.refl s) (.refl _))
  | mcWatchdog => exact .congr (exec_mcWatchdog s) rfl (execMcWatchdog_keeps (.refl s) (.refl _))
  | pwrDomOff => exact .congr (exec_pwrDomOff s) rfl (execPwrDomOff_keeps (.refl s) (.refl _))
  | pwrDomOn => exact .congr (exec_pwrDomOn s) rfl (execPwrDomOn_keeps (.refl s) (.refl _))
  | domainDrainEnd => exact .congr (exec_domainDrainEnd s) rfl (execDomainDrainEnd_keeps (.refl s) (.refl _))
  | domainRampEnd => exact .congr (exec_domainRampEnd s) rfl (execDomainRampEnd_keeps (.refl s) (.refl _))
  | capPeriod => exact .congr (exec_capPeriod s) rfl (execCapPeriod_keeps (.refl s) (.refl _))
  | pwrCapWrite => exact .congr (exec_pwrCapWrite s) rfl (execPwrCapWrite_keeps (.refl s) (.refl _))
  | pwrTimedBudgetWrite => exact .congr (exec_pwrTimedBudgetWrite s) rfl (execPwrTimedBudgetWrite_keeps (.refl s) (.refl _))
  | bar0Write => exact .congr (exec_bar0Write s) rfl (execBar0Write_keeps (.refl s) (.refl _))
  | bar2Read => exact .congr (exec_bar2Read s) rfl (execBar2Read_keeps (.refl s) (.refl _))
  | badBarAccess => exact .congr (exec_badBarAccess s) rfl (execBadBarAccess_keeps (.refl s) (.refl _))
  | perst => exact .congr (exec_perst s) rfl (execPerst_keeps (.refl s) (.refl _))
  | completionQueueRead => exact .congr (exec_completionQueueRead s) rfl (execCompletionQueueRead_keeps (.refl s) (.refl _))
  | codewordLockLoss => exact .congr (exec_codewordLockLoss s) rfl (execCodewordLockLoss_keeps (.refl s) (.refl _))
  | arbListenEnd => exact .congr (exec_arbListenEnd s) rfl (execArbListenEnd_keeps (.refl s) (.refl _))
  | pcieConfigWrite => exact .congr (exec_pcieConfigWrite s) rfl (execPcieConfigWrite_keeps (.refl s) (.refl _))
  | hbmSiloTrainingDone => exact .congr (exec_hbmSiloTrainingDone s) rfl (execHbmSiloTrainingDone_keeps (.refl s) (.refl _))
  | flashProgramDone => exact .congr (exec_flashProgramDone s) rfl (execFlashProgramDone_keeps (.refl s) (.refl _))
  | cremaCommandDone => exact .congr (exec_cremaCommandDone s) rfl (execCremaCommandDone_keeps (.refl s) (.refl _))
  | symbolSendTime => exact .congr (exec_symbolSendTime s) rfl (execSymbolSendTime_keeps (.refl s) (.refl _))
  | powerRemoval => exact .congr (exec_powerRemoval s) rfl (execPowerRemoval_keeps (.refl s) (.refl _))

/-- What is not among the parts of a set is the same. -/
theorem Keeps.sameBut {m : Nat} {s t : State} (h : Keeps m s t) {l : List Field} (hl : ∀ f : Field, m.testBit f.bit = true → f ∈ l) :
    SameBut l s t := fun f hf => h.same f (Bool.eq_false_iff.2 fun e => hf (hl f e))

end

end Sys2Proof.Machine
end

