-- ==== Sys2Proof/Laws/State.lean ====
section
/-!
SUPPORT. Laws/State.lean: the named updates of the state: what each leaves alone, field by field, and what the reads give after it.
-/
namespace Sys2Proof.Machine

/-! ### What an update leaves alone -/

@[simp] theorem State.setReg_frame (s : State) (a v : Nat) :
    (s.setReg a v).pending = s.pending ∧ (s.setReg a v).free = s.free ∧ (s.setReg a v).reply = s.reply ∧ (s.setReg a v).win = s.win ∧
    (s.setReg a v).grade = s.grade ∧ (s.setReg a v).failed = s.failed ∧ (s.setReg a v).map = s.map ∧
    (s.setReg a v).handovers = s.handovers ∧ (s.setReg a v).lateSteps = s.lateSteps ∧ (s.setReg a v).rots = s.rots ∧
    (s.setReg a v).cores = s.cores ∧ (s.setReg a v).dev = s.dev ∧ (s.setReg a v).regions = s.regions ∧ (s.setReg a v).pools = s.pools ∧
    (s.setReg a v).tlb = s.tlb ∧ (s.setReg a v).wcache = s.wcache ∧ (s.setReg a v).walks = s.walks ∧
    (s.setReg a v).walkFaults = s.walkFaults ∧ (s.setReg a v).inval = s.inval ∧ (s.setReg a v).dma = s.dma ∧ (s.setReg a v).vlog = s.vlog ∧
    (s.setReg a v).glog = s.glog ∧ (s.setReg a v).slog = s.slog ∧ (s.setReg a v).ifr = s.ifr ∧ (s.setReg a v).cnt = s.cnt ∧
    (s.setReg a v).crema = s.crema ∧ (s.setReg a v).cremaJobs = s.cremaJobs ∧ (s.setReg a v).tdi = s.tdi ∧ (s.setReg a v).spdm = s.spdm ∧
    (s.setReg a v).ide = s.ide ∧ (s.setReg a v).tdiStream = s.tdiStream ∧ (s.setReg a v).rasWin = s.rasWin ∧
    (s.setReg a v).rasBins = s.rasBins ∧ (s.setReg a v).rasCool = s.rasCool ∧ (s.setReg a v).escal = s.escal ∧ (s.setReg a v).fab = s.fab ∧
    (s.setReg a v).fenceRecs = s.fenceRecs ∧ (s.setReg a v).progImages = s.progImages ∧ (s.setReg a v).epochs = s.epochs ∧
    (s.setReg a v).nextTable = s.nextTable ∧ (s.setReg a v).hostOut = s.hostOut ∧ (s.setReg a v).islCopy = s.islCopy ∧
    (s.setReg a v).mcIrq = s.mcIrq ∧ (s.setReg a v).cgl = s.cgl ∧ (s.setReg a v).brs = s.brs ∧ (s.setReg a v).lnk = s.lnk ∧
    (s.setReg a v).laneRecs = s.laneRecs ∧ (s.setReg a v).guards = s.guards ∧ (s.setReg a v).grpPend = s.grpPend ∧
    (s.setReg a v).fec = s.fec ∧ (s.setReg a v).cells = s.cells ∧ (s.setReg a v).maskRun = s.maskRun ∧ (s.setReg a v).tm = s.tm ∧
    (s.setReg a v).retiredQ = s.retiredQ ∧ (s.setReg a v).mbx = s.mbx ∧ (s.setReg a v).notices = s.notices ∧
    (s.setReg a v).epPtr = s.epPtr ∧ (s.setReg a v).msix = s.msix ∧ (s.setReg a v).msixOut = s.msixOut ∧ (s.setReg a v).lost = s.lost ∧
    (s.setReg a v).parts = s.parts ∧ (s.setReg a v).dying = s.dying ∧ (s.setReg a v).siloOut = s.siloOut ∧
    (s.setReg a v).rampWait = s.rampWait ∧ (s.setReg a v).repairs = s.repairs ∧ (s.setReg a v).repaired = s.repaired ∧
    (s.setReg a v).testing = s.testing ∧ (s.setReg a v).witOrder = s.witOrder ∧ (s.setReg a v).witRun = s.witRun ∧
    (s.setReg a v).witAt = s.witAt ∧ (s.setReg a v).fatalAt = s.fatalAt ∧ (s.setReg a v).trip = s.trip ∧ (s.setReg a v).fuses = s.fuses ∧
    (s.setReg a v).flash = s.flash ∧ (s.setReg a v).bank0 = s.bank0 ∧ (s.setReg a v).bank1 = s.bank1 ∧ (s.setReg a v).boot = s.boot :=
  ⟨rfl, rfl, rfl, rfl, rfl, rfl, rfl, rfl, rfl, rfl, rfl, rfl, rfl, rfl, rfl, rfl, rfl, rfl, rfl, rfl, rfl, rfl, rfl, rfl, rfl, rfl, rfl, rfl, rfl, rfl, rfl, rfl, rfl, rfl, rfl, rfl, rfl, rfl, rfl, rfl, rfl, rfl, rfl, rfl, rfl, rfl, rfl, rfl, rfl, rfl, rfl, rfl, rfl, rfl, rfl, rfl, rfl, rfl, rfl, rfl, rfl, rfl, rfl, rfl, rfl, rfl, rfl, rfl, rfl, rfl, rfl, rfl, rfl, rfl, rfl, rfl, rfl⟩

@[simp] theorem State.setFld_frame (s : State) (a lo w v : Nat) :
    (s.setFld a lo w v).pending = s.pending ∧ (s.setFld a lo w v).free = s.free ∧ (s.setFld a lo w v).reply = s.reply ∧
    (s.setFld a lo w v).win = s.win ∧ (s.setFld a lo w v).grade = s.grade ∧ (s.setFld a lo w v).failed = s.failed ∧
    (s.setFld a lo w v).map = s.map ∧ (s.setFld a lo w v).handovers = s.handovers ∧ (s.setFld a lo w v).lateSteps = s.lateSteps ∧
    (s.setFld a lo w v).rots = s.rots ∧ (s.setFld a lo w v).cores = s.cores ∧ (s.setFld a lo w v).dev = s.dev ∧
    (s.setFld a lo w v).regions = s.regions ∧ (s.setFld a lo w v).pools = s.pools ∧ (s.setFld a lo w v).tlb = s.tlb ∧
    (s.setFld a lo w v).wcache = s.wcache ∧ (s.setFld a lo w v).walks = s.walks ∧ (s.setFld a lo w v).walkFaults = s.walkFaults ∧
    (s.setFld a lo w v).inval = s.inval ∧ (s.setFld a lo w v).dma = s.dma ∧ (s.setFld a lo w v).vlog = s.vlog ∧
    (s.setFld a lo w v).glog = s.glog ∧ (s.setFld a lo w v).slog = s.slog ∧ (s.setFld a lo w v).ifr = s.ifr ∧
    (s.setFld a lo w v).cnt = s.cnt ∧ (s.setFld a lo w v).crema = s.crema ∧ (s.setFld a lo w v).cremaJobs = s.cremaJobs ∧
    (s.setFld a lo w v).tdi = s.tdi ∧ (s.setFld a lo w v).spdm = s.spdm ∧ (s.setFld a lo w v).ide = s.ide ∧
    (s.setFld a lo w v).tdiStream = s.tdiStream ∧ (s.setFld a lo w v).rasWin = s.rasWin ∧ (s.setFld a lo w v).rasBins = s.rasBins ∧
    (s.setFld a lo w v).rasCool = s.rasCool ∧ (s.setFld a lo w v).escal = s.escal ∧ (s.setFld a lo w v).fab = s.fab ∧
    (s.setFld a lo w v).fenceRecs = s.fenceRecs ∧ (s.setFld a lo w v).progImages = s.progImages ∧ (s.setFld a lo w v).epochs = s.epochs ∧
    (s.setFld a lo w v).nextTable = s.nextTable ∧ (s.setFld a lo w v).hostOut = s.hostOut ∧ (s.setFld a lo w v).islCopy = s.islCopy ∧
    (s.setFld a lo w v).mcIrq = s.mcIrq ∧ (s.setFld a lo w v).cgl = s.cgl ∧ (s.setFld a lo w v).brs = s.brs ∧
    (s.setFld a lo w v).lnk = s.lnk ∧ (s.setFld a lo w v).laneRecs = s.laneRecs ∧ (s.setFld a lo w v).guards = s.guards ∧
    (s.setFld a lo w v).grpPend = s.grpPend ∧ (s.setFld a lo w v).fec = s.fec ∧ (s.setFld a lo w v).cells = s.cells ∧
    (s.setFld a lo w v).maskRun = s.maskRun ∧ (s.setFld a lo w v).tm = s.tm ∧ (s.setFld a lo w v).retiredQ = s.retiredQ ∧
    (s.setFld a lo w v).mbx = s.mbx ∧ (s.setFld a lo w v).notices = s.notices ∧ (s.setFld a lo w v).epPtr = s.epPtr ∧
    (s.setFld a lo w v).msix = s.msix ∧ (s.setFld a lo w v).msixOut = s.msixOut ∧ (s.setFld a lo w v).lost = s.lost ∧
    (s.setFld a lo w v).parts = s.parts ∧ (s.setFld a lo w v).dying = s.dying ∧ (s.setFld a lo w v).siloOut = s.siloOut ∧
    (s.setFld a lo w v).rampWait = s.rampWait ∧ (s.setFld a lo w v).repairs = s.repairs ∧ (s.setFld a lo w v).repaired = s.repaired ∧
    (s.setFld a lo w v).testing = s.testing ∧ (s.setFld a lo w v).witOrder = s.witOrder ∧ (s.setFld a lo w v).witRun = s.witRun ∧
    (s.setFld a lo w v).witAt = s.witAt ∧ (s.setFld a lo w v).fatalAt = s.fatalAt ∧ (s.setFld a lo w v).trip = s.trip ∧
    (s.setFld a lo w v).fuses = s.fuses ∧ (s.setFld a lo w v).flash = s.flash ∧ (s.setFld a lo w v).bank0 = s.bank0 ∧
    (s.setFld a lo w v).bank1 = s.bank1 ∧ (s.setFld a lo w v).boot = s.boot :=
  ⟨rfl, rfl, rfl, rfl, rfl, rfl, rfl, rfl, rfl, rfl, rfl, rfl, rfl, rfl, rfl, rfl, rfl, rfl, rfl, rfl, rfl, rfl, rfl, rfl, rfl, rfl, rfl, rfl, rfl, rfl, rfl, rfl, rfl, rfl, rfl, rfl, rfl, rfl, rfl, rfl, rfl, rfl, rfl, rfl, rfl, rfl, rfl, rfl, rfl, rfl, rfl, rfl, rfl, rfl, rfl, rfl, rfl, rfl, rfl, rfl, rfl, rfl, rfl, rfl, rfl, rfl, rfl, rfl, rfl, rfl, rfl, rfl, rfl, rfl, rfl, rfl, rfl⟩

@[simp] theorem State.bumpFld_frame (s : State) (a lo w n : Nat) :
    (s.bumpFld a lo w n).pending = s.pending ∧ (s.bumpFld a lo w n).free = s.free ∧ (s.bumpFld a lo w n).reply = s.reply ∧
    (s.bumpFld a lo w n).win = s.win ∧ (s.bumpFld a lo w n).grade = s.grade ∧ (s.bumpFld a lo w n).failed = s.failed ∧
    (s.bumpFld a lo w n).map = s.map ∧ (s.bumpFld a lo w n).handovers = s.handovers ∧ (s.bumpFld a lo w n).lateSteps = s.lateSteps ∧
    (s.bumpFld a lo w n).rots = s.rots ∧ (s.bumpFld a lo w n).cores = s.cores ∧ (s.bumpFld a lo w n).dev = s.dev ∧
    (s.bumpFld a lo w n).regions = s.regions ∧ (s.bumpFld a lo w n).pools = s.pools ∧ (s.bumpFld a lo w n).tlb = s.tlb ∧
    (s.bumpFld a lo w n).wcache = s.wcache ∧ (s.bumpFld a lo w n).walks = s.walks ∧ (s.bumpFld a lo w n).walkFaults = s.walkFaults ∧
    (s.bumpFld a lo w n).inval = s.inval ∧ (s.bumpFld a lo w n).dma = s.dma ∧ (s.bumpFld a lo w n).vlog = s.vlog ∧
    (s.bumpFld a lo w n).glog = s.glog ∧ (s.bumpFld a lo w n).slog = s.slog ∧ (s.bumpFld a lo w n).ifr = s.ifr ∧
    (s.bumpFld a lo w n).cnt = s.cnt ∧ (s.bumpFld a lo w n).crema = s.crema ∧ (s.bumpFld a lo w n).cremaJobs = s.cremaJobs ∧
    (s.bumpFld a lo w n).tdi = s.tdi ∧ (s.bumpFld a lo w n).spdm = s.spdm ∧ (s.bumpFld a lo w n).ide = s.ide ∧
    (s.bumpFld a lo w n).tdiStream = s.tdiStream ∧ (s.bumpFld a lo w n).rasWin = s.rasWin ∧ (s.bumpFld a lo w n).rasBins = s.rasBins ∧
    (s.bumpFld a lo w n).rasCool = s.rasCool ∧ (s.bumpFld a lo w n).escal = s.escal ∧ (s.bumpFld a lo w n).fab = s.fab ∧
    (s.bumpFld a lo w n).fenceRecs = s.fenceRecs ∧ (s.bumpFld a lo w n).progImages = s.progImages ∧
    (s.bumpFld a lo w n).epochs = s.epochs ∧ (s.bumpFld a lo w n).nextTable = s.nextTable ∧ (s.bumpFld a lo w n).hostOut = s.hostOut ∧
    (s.bumpFld a lo w n).islCopy = s.islCopy ∧ (s.bumpFld a lo w n).mcIrq = s.mcIrq ∧ (s.bumpFld a lo w n).cgl = s.cgl ∧
    (s.bumpFld a lo w n).brs = s.brs ∧ (s.bumpFld a lo w n).lnk = s.lnk ∧ (s.bumpFld a lo w n).laneRecs = s.laneRecs ∧
    (s.bumpFld a lo w n).guards = s.guards ∧ (s.bumpFld a lo w n).grpPend = s.grpPend ∧ (s.bumpFld a lo w n).fec = s.fec ∧
    (s.bumpFld a lo w n).cells = s.cells ∧ (s.bumpFld a lo w n).maskRun = s.maskRun ∧ (s.bumpFld a lo w n).tm = s.tm ∧
    (s.bumpFld a lo w n).retiredQ = s.retiredQ ∧ (s.bumpFld a lo w n).mbx = s.mbx ∧ (s.bumpFld a lo w n).notices = s.notices ∧
    (s.bumpFld a lo w n).epPtr = s.epPtr ∧ (s.bumpFld a lo w n).msix = s.msix ∧ (s.bumpFld a lo w n).msixOut = s.msixOut ∧
    (s.bumpFld a lo w n).lost = s.lost ∧ (s.bumpFld a lo w n).parts = s.parts ∧ (s.bumpFld a lo w n).dying = s.dying ∧
    (s.bumpFld a lo w n).siloOut = s.siloOut ∧ (s.bumpFld a lo w n).rampWait = s.rampWait ∧ (s.bumpFld a lo w n).repairs = s.repairs ∧
    (s.bumpFld a lo w n).repaired = s.repaired ∧ (s.bumpFld a lo w n).testing = s.testing ∧ (s.bumpFld a lo w n).witOrder = s.witOrder ∧
    (s.bumpFld a lo w n).witRun = s.witRun ∧ (s.bumpFld a lo w n).witAt = s.witAt ∧ (s.bumpFld a lo w n).fatalAt = s.fatalAt ∧
    (s.bumpFld a lo w n).trip = s.trip ∧ (s.bumpFld a lo w n).fuses = s.fuses ∧ (s.bumpFld a lo w n).flash = s.flash ∧
    (s.bumpFld a lo w n).bank0 = s.bank0 ∧ (s.bumpFld a lo w n).bank1 = s.bank1 ∧ (s.bumpFld a lo w n).boot = s.boot :=
  ⟨rfl, rfl, rfl, rfl, rfl, rfl, rfl, rfl, rfl, rfl, rfl, rfl, rfl, rfl, rfl, rfl, rfl, rfl, rfl, rfl, rfl, rfl, rfl, rfl, rfl, rfl, rfl, rfl, rfl, rfl, rfl, rfl, rfl, rfl, rfl, rfl, rfl, rfl, rfl, rfl, rfl, rfl, rfl, rfl, rfl, rfl, rfl, rfl, rfl, rfl, rfl, rfl, rfl, rfl, rfl, rfl, rfl, rfl, rfl, rfl, rfl, rfl, rfl, rfl, rfl, rfl, rfl, rfl, rfl, rfl, rfl, rfl, rfl, rfl, rfl, rfl, rfl⟩

@[simp] theorem State.bump_frame (s : State) (a : Nat) :
    (s.bump a).pending = s.pending ∧ (s.bump a).free = s.free ∧ (s.bump a).reply = s.reply ∧ (s.bump a).win = s.win ∧
    (s.bump a).grade = s.grade ∧ (s.bump a).failed = s.failed ∧ (s.bump a).map = s.map ∧ (s.bump a).handovers = s.handovers ∧
    (s.bump a).lateSteps = s.lateSteps ∧ (s.bump a).rots = s.rots ∧ (s.bump a).cores = s.cores ∧ (s.bump a).dev = s.dev ∧
    (s.bump a).regions = s.regions ∧ (s.bump a).pools = s.pools ∧ (s.bump a).tlb = s.tlb ∧ (s.bump a).wcache = s.wcache ∧
    (s.bump a).walks = s.walks ∧ (s.bump a).walkFaults = s.walkFaults ∧ (s.bump a).inval = s.inval ∧ (s.bump a).dma = s.dma ∧
    (s.bump a).vlog = s.vlog ∧ (s.bump a).glog = s.glog ∧ (s.bump a).slog = s.slog ∧ (s.bump a).ifr = s.ifr ∧ (s.bump a).cnt = s.cnt ∧
    (s.bump a).crema = s.crema ∧ (s.bump a).cremaJobs = s.cremaJobs ∧ (s.bump a).tdi = s.tdi ∧ (s.bump a).spdm = s.spdm ∧
    (s.bump a).ide = s.ide ∧ (s.bump a).tdiStream = s.tdiStream ∧ (s.bump a).rasWin = s.rasWin ∧ (s.bump a).rasBins = s.rasBins ∧
    (s.bump a).rasCool = s.rasCool ∧ (s.bump a).escal = s.escal ∧ (s.bump a).fab = s.fab ∧ (s.bump a).fenceRecs = s.fenceRecs ∧
    (s.bump a).progImages = s.progImages ∧ (s.bump a).epochs = s.epochs ∧ (s.bump a).nextTable = s.nextTable ∧
    (s.bump a).hostOut = s.hostOut ∧ (s.bump a).islCopy = s.islCopy ∧ (s.bump a).mcIrq = s.mcIrq ∧ (s.bump a).cgl = s.cgl ∧
    (s.bump a).brs = s.brs ∧ (s.bump a).lnk = s.lnk ∧ (s.bump a).laneRecs = s.laneRecs ∧ (s.bump a).guards = s.guards ∧
    (s.bump a).grpPend = s.grpPend ∧ (s.bump a).fec = s.fec ∧ (s.bump a).cells = s.cells ∧ (s.bump a).maskRun = s.maskRun ∧
    (s.bump a).tm = s.tm ∧ (s.bump a).retiredQ = s.retiredQ ∧ (s.bump a).mbx = s.mbx ∧ (s.bump a).notices = s.notices ∧
    (s.bump a).epPtr = s.epPtr ∧ (s.bump a).msix = s.msix ∧ (s.bump a).msixOut = s.msixOut ∧ (s.bump a).lost = s.lost ∧
    (s.bump a).parts = s.parts ∧ (s.bump a).dying = s.dying ∧ (s.bump a).siloOut = s.siloOut ∧ (s.bump a).rampWait = s.rampWait ∧
    (s.bump a).repairs = s.repairs ∧ (s.bump a).repaired = s.repaired ∧ (s.bump a).testing = s.testing ∧ (s.bump a).witOrder = s.witOrder ∧
    (s.bump a).witRun = s.witRun ∧ (s.bump a).witAt = s.witAt ∧ (s.bump a).fatalAt = s.fatalAt ∧ (s.bump a).trip = s.trip ∧
    (s.bump a).fuses = s.fuses ∧ (s.bump a).flash = s.flash ∧ (s.bump a).bank0 = s.bank0 ∧ (s.bump a).bank1 = s.bank1 ∧
    (s.bump a).boot = s.boot :=
  ⟨rfl, rfl, rfl, rfl, rfl, rfl, rfl, rfl, rfl, rfl, rfl, rfl, rfl, rfl, rfl, rfl, rfl, rfl, rfl, rfl, rfl, rfl, rfl, rfl, rfl, rfl, rfl, rfl, rfl, rfl, rfl, rfl, rfl, rfl, rfl, rfl, rfl, rfl, rfl, rfl, rfl, rfl, rfl, rfl, rfl, rfl, rfl, rfl, rfl, rfl, rfl, rfl, rfl, rfl, rfl, rfl, rfl, rfl, rfl, rfl, rfl, rfl, rfl, rfl, rfl, rfl, rfl, rfl, rfl, rfl, rfl, rfl, rfl, rfl, rfl, rfl, rfl⟩

@[simp] theorem State.bump64_frame (s : State) (a n : Nat) :
    (s.bump64 a n).pending = s.pending ∧ (s.bump64 a n).free = s.free ∧ (s.bump64 a n).reply = s.reply ∧ (s.bump64 a n).win = s.win ∧
    (s.bump64 a n).grade = s.grade ∧ (s.bump64 a n).failed = s.failed ∧ (s.bump64 a n).map = s.map ∧
    (s.bump64 a n).handovers = s.handovers ∧ (s.bump64 a n).lateSteps = s.lateSteps ∧ (s.bump64 a n).rots = s.rots ∧
    (s.bump64 a n).cores = s.cores ∧ (s.bump64 a n).dev = s.dev ∧ (s.bump64 a n).regions = s.regions ∧ (s.bump64 a n).pools = s.pools ∧
    (s.bump64 a n).tlb = s.tlb ∧ (s.bump64 a n).wcache = s.wcache ∧ (s.bump64 a n).walks = s.walks ∧
    (s.bump64 a n).walkFaults = s.walkFaults ∧ (s.bump64 a n).inval = s.inval ∧ (s.bump64 a n).dma = s.dma ∧ (s.bump64 a n).vlog = s.vlog ∧
    (s.bump64 a n).glog = s.glog ∧ (s.bump64 a n).slog = s.slog ∧ (s.bump64 a n).ifr = s.ifr ∧ (s.bump64 a n).cnt = s.cnt ∧
    (s.bump64 a n).crema = s.crema ∧ (s.bump64 a n).cremaJobs = s.cremaJobs ∧ (s.bump64 a n).tdi = s.tdi ∧ (s.bump64 a n).spdm = s.spdm ∧
    (s.bump64 a n).ide = s.ide ∧ (s.bump64 a n).tdiStream = s.tdiStream ∧ (s.bump64 a n).rasWin = s.rasWin ∧
    (s.bump64 a n).rasBins = s.rasBins ∧ (s.bump64 a n).rasCool = s.rasCool ∧ (s.bump64 a n).escal = s.escal ∧ (s.bump64 a n).fab = s.fab ∧
    (s.bump64 a n).fenceRecs = s.fenceRecs ∧ (s.bump64 a n).progImages = s.progImages ∧ (s.bump64 a n).epochs = s.epochs ∧
    (s.bump64 a n).nextTable = s.nextTable ∧ (s.bump64 a n).hostOut = s.hostOut ∧ (s.bump64 a n).islCopy = s.islCopy ∧
    (s.bump64 a n).mcIrq = s.mcIrq ∧ (s.bump64 a n).cgl = s.cgl ∧ (s.bump64 a n).brs = s.brs ∧ (s.bump64 a n).lnk = s.lnk ∧
    (s.bump64 a n).laneRecs = s.laneRecs ∧ (s.bump64 a n).guards = s.guards ∧ (s.bump64 a n).grpPend = s.grpPend ∧
    (s.bump64 a n).fec = s.fec ∧ (s.bump64 a n).cells = s.cells ∧ (s.bump64 a n).maskRun = s.maskRun ∧ (s.bump64 a n).tm = s.tm ∧
    (s.bump64 a n).retiredQ = s.retiredQ ∧ (s.bump64 a n).mbx = s.mbx ∧ (s.bump64 a n).notices = s.notices ∧
    (s.bump64 a n).epPtr = s.epPtr ∧ (s.bump64 a n).msix = s.msix ∧ (s.bump64 a n).msixOut = s.msixOut ∧ (s.bump64 a n).lost = s.lost ∧
    (s.bump64 a n).parts = s.parts ∧ (s.bump64 a n).dying = s.dying ∧ (s.bump64 a n).siloOut = s.siloOut ∧
    (s.bump64 a n).rampWait = s.rampWait ∧ (s.bump64 a n).repairs = s.repairs ∧ (s.bump64 a n).repaired = s.repaired ∧
    (s.bump64 a n).testing = s.testing ∧ (s.bump64 a n).witOrder = s.witOrder ∧ (s.bump64 a n).witRun = s.witRun ∧
    (s.bump64 a n).witAt = s.witAt ∧ (s.bump64 a n).fatalAt = s.fatalAt ∧ (s.bump64 a n).trip = s.trip ∧ (s.bump64 a n).fuses = s.fuses ∧
    (s.bump64 a n).flash = s.flash ∧ (s.bump64 a n).bank0 = s.bank0 ∧ (s.bump64 a n).bank1 = s.bank1 ∧ (s.bump64 a n).boot = s.boot :=
  ⟨rfl, rfl, rfl, rfl, rfl, rfl, rfl, rfl, rfl, rfl, rfl, rfl, rfl, rfl, rfl, rfl, rfl, rfl, rfl, rfl, rfl, rfl, rfl, rfl, rfl, rfl, rfl, rfl, rfl, rfl, rfl, rfl, rfl, rfl, rfl, rfl, rfl, rfl, rfl, rfl, rfl, rfl, rfl, rfl, rfl, rfl, rfl, rfl, rfl, rfl, rfl, rfl, rfl, rfl, rfl, rfl, rfl, rfl, rfl, rfl, rfl, rfl, rfl, rfl, rfl, rfl, rfl, rfl, rfl, rfl, rfl, rfl, rfl, rfl, rfl, rfl, rfl⟩

@[simp] theorem State.event_frame (s : State) (a i : Nat) :
    (s.event a i).pending = s.pending ∧ (s.event a i).free = s.free ∧ (s.event a i).reply = s.reply ∧ (s.event a i).win = s.win ∧
    (s.event a i).grade = s.grade ∧ (s.event a i).failed = s.failed ∧ (s.event a i).map = s.map ∧ (s.event a i).handovers = s.handovers ∧
    (s.event a i).lateSteps = s.lateSteps ∧ (s.event a i).rots = s.rots ∧ (s.event a i).cores = s.cores ∧ (s.event a i).dev = s.dev ∧
    (s.event a i).regions = s.regions ∧ (s.event a i).pools = s.pools ∧ (s.event a i).tlb = s.tlb ∧ (s.event a i).wcache = s.wcache ∧
    (s.event a i).walks = s.walks ∧ (s.event a i).walkFaults = s.walkFaults ∧ (s.event a i).inval = s.inval ∧ (s.event a i).dma = s.dma ∧
    (s.event a i).vlog = s.vlog ∧ (s.event a i).glog = s.glog ∧ (s.event a i).slog = s.slog ∧ (s.event a i).ifr = s.ifr ∧
    (s.event a i).cnt = s.cnt ∧ (s.event a i).crema = s.crema ∧ (s.event a i).cremaJobs = s.cremaJobs ∧ (s.event a i).tdi = s.tdi ∧
    (s.event a i).spdm = s.spdm ∧ (s.event a i).ide = s.ide ∧ (s.event a i).tdiStream = s.tdiStream ∧ (s.event a i).rasWin = s.rasWin ∧
    (s.event a i).rasBins = s.rasBins ∧ (s.event a i).rasCool = s.rasCool ∧ (s.event a i).escal = s.escal ∧ (s.event a i).fab = s.fab ∧
    (s.event a i).fenceRecs = s.fenceRecs ∧ (s.event a i).progImages = s.progImages ∧ (s.event a i).epochs = s.epochs ∧
    (s.event a i).nextTable = s.nextTable ∧ (s.event a i).hostOut = s.hostOut ∧ (s.event a i).islCopy = s.islCopy ∧
    (s.event a i).mcIrq = s.mcIrq ∧ (s.event a i).cgl = s.cgl ∧ (s.event a i).brs = s.brs ∧ (s.event a i).lnk = s.lnk ∧
    (s.event a i).laneRecs = s.laneRecs ∧ (s.event a i).guards = s.guards ∧ (s.event a i).grpPend = s.grpPend ∧ (s.event a i).fec = s.fec ∧
    (s.event a i).cells = s.cells ∧ (s.event a i).maskRun = s.maskRun ∧ (s.event a i).tm = s.tm ∧ (s.event a i).retiredQ = s.retiredQ ∧
    (s.event a i).mbx = s.mbx ∧ (s.event a i).notices = s.notices ∧ (s.event a i).epPtr = s.epPtr ∧ (s.event a i).msix = s.msix ∧
    (s.event a i).msixOut = s.msixOut ∧ (s.event a i).lost = s.lost ∧ (s.event a i).parts = s.parts ∧ (s.event a i).dying = s.dying ∧
    (s.event a i).siloOut = s.siloOut ∧ (s.event a i).rampWait = s.rampWait ∧ (s.event a i).repairs = s.repairs ∧
    (s.event a i).repaired = s.repaired ∧ (s.event a i).testing = s.testing ∧ (s.event a i).witOrder = s.witOrder ∧
    (s.event a i).witRun = s.witRun ∧ (s.event a i).witAt = s.witAt ∧ (s.event a i).fatalAt = s.fatalAt ∧ (s.event a i).trip = s.trip ∧
    (s.event a i).fuses = s.fuses ∧ (s.event a i).flash = s.flash ∧ (s.event a i).bank0 = s.bank0 ∧ (s.event a i).bank1 = s.bank1 ∧
    (s.event a i).boot = s.boot :=
  ⟨rfl, rfl, rfl, rfl, rfl, rfl, rfl, rfl, rfl, rfl, rfl, rfl, rfl, rfl, rfl, rfl, rfl, rfl, rfl, rfl, rfl, rfl, rfl, rfl, rfl, rfl, rfl, rfl, rfl, rfl, rfl, rfl, rfl, rfl, rfl, rfl, rfl, rfl, rfl, rfl, rfl, rfl, rfl, rfl, rfl, rfl, rfl, rfl, rfl, rfl, rfl, rfl, rfl, rfl, rfl, rfl, rfl, rfl, rfl, rfl, rfl, rfl, rfl, rfl, rfl, rfl, rfl, rfl, rfl, rfl, rfl, rfl, rfl, rfl, rfl, rfl, rfl⟩

@[simp] theorem State.setWreg_frame (s : State) (i o v : Nat) :
    (s.setWreg i o v).pending = s.pending ∧ (s.setWreg i o v).free = s.free ∧ (s.setWreg i o v).reply = s.reply ∧
    (s.setWreg i o v).regs = s.regs ∧ (s.setWreg i o v).grade = s.grade ∧ (s.setWreg i o v).failed = s.failed ∧
    (s.setWreg i o v).map = s.map ∧ (s.setWreg i o v).handovers = s.handovers ∧ (s.setWreg i o v).lateSteps = s.lateSteps ∧
    (s.setWreg i o v).rots = s.rots ∧ (s.setWreg i o v).cores = s.cores ∧ (s.setWreg i o v).dev = s.dev ∧
    (s.setWreg i o v).regions = s.regions ∧ (s.setWreg i o v).pools = s.pools ∧ (s.setWreg i o v).tlb = s.tlb ∧
    (s.setWreg i o v).wcache = s.wcache ∧ (s.setWreg i o v).walks = s.walks ∧ (s.setWreg i o v).walkFaults = s.walkFaults ∧
    (s.setWreg i o v).inval = s.inval ∧ (s.setWreg i o v).dma = s.dma ∧ (s.setWreg i o v).vlog = s.vlog ∧ (s.setWreg i o v).glog = s.glog ∧
    (s.setWreg i o v).slog = s.slog ∧ (s.setWreg i o v).ifr = s.ifr ∧ (s.setWreg i o v).cnt = s.cnt ∧ (s.setWreg i o v).crema = s.crema ∧
    (s.setWreg i o v).cremaJobs = s.cremaJobs ∧ (s.setWreg i o v).tdi = s.tdi ∧ (s.setWreg i o v).spdm = s.spdm ∧
    (s.setWreg i o v).ide = s.ide ∧ (s.setWreg i o v).tdiStream = s.tdiStream ∧ (s.setWreg i o v).rasWin = s.rasWin ∧
    (s.setWreg i o v).rasBins = s.rasBins ∧ (s.setWreg i o v).rasCool = s.rasCool ∧ (s.setWreg i o v).escal = s.escal ∧
    (s.setWreg i o v).fab = s.fab ∧ (s.setWreg i o v).fenceRecs = s.fenceRecs ∧ (s.setWreg i o v).progImages = s.progImages ∧
    (s.setWreg i o v).epochs = s.epochs ∧ (s.setWreg i o v).nextTable = s.nextTable ∧ (s.setWreg i o v).hostOut = s.hostOut ∧
    (s.setWreg i o v).islCopy = s.islCopy ∧ (s.setWreg i o v).mcIrq = s.mcIrq ∧ (s.setWreg i o v).cgl = s.cgl ∧
    (s.setWreg i o v).brs = s.brs ∧ (s.setWreg i o v).lnk = s.lnk ∧ (s.setWreg i o v).laneRecs = s.laneRecs ∧
    (s.setWreg i o v).guards = s.guards ∧ (s.setWreg i o v).grpPend = s.grpPend ∧ (s.setWreg i o v).fec = s.fec ∧
    (s.setWreg i o v).cells = s.cells ∧ (s.setWreg i o v).maskRun = s.maskRun ∧ (s.setWreg i o v).tm = s.tm ∧
    (s.setWreg i o v).retiredQ = s.retiredQ ∧ (s.setWreg i o v).mbx = s.mbx ∧ (s.setWreg i o v).notices = s.notices ∧
    (s.setWreg i o v).epPtr = s.epPtr ∧ (s.setWreg i o v).msix = s.msix ∧ (s.setWreg i o v).msixOut = s.msixOut ∧
    (s.setWreg i o v).lost = s.lost ∧ (s.setWreg i o v).parts = s.parts ∧ (s.setWreg i o v).dying = s.dying ∧
    (s.setWreg i o v).siloOut = s.siloOut ∧ (s.setWreg i o v).rampWait = s.rampWait ∧ (s.setWreg i o v).repairs = s.repairs ∧
    (s.setWreg i o v).repaired = s.repaired ∧ (s.setWreg i o v).testing = s.testing ∧ (s.setWreg i o v).witOrder = s.witOrder ∧
    (s.setWreg i o v).witRun = s.witRun ∧ (s.setWreg i o v).witAt = s.witAt ∧ (s.setWreg i o v).fatalAt = s.fatalAt ∧
    (s.setWreg i o v).trip = s.trip ∧ (s.setWreg i o v).fuses = s.fuses ∧ (s.setWreg i o v).flash = s.flash ∧
    (s.setWreg i o v).bank0 = s.bank0 ∧ (s.setWreg i o v).bank1 = s.bank1 ∧ (s.setWreg i o v).boot = s.boot :=
  ⟨rfl, rfl, rfl, rfl, rfl, rfl, rfl, rfl, rfl, rfl, rfl, rfl, rfl, rfl, rfl, rfl, rfl, rfl, rfl, rfl, rfl, rfl, rfl, rfl, rfl, rfl, rfl, rfl, rfl, rfl, rfl, rfl, rfl, rfl, rfl, rfl, rfl, rfl, rfl, rfl, rfl, rfl, rfl, rfl, rfl, rfl, rfl, rfl, rfl, rfl, rfl, rfl, rfl, rfl, rfl, rfl, rfl, rfl, rfl, rfl, rfl, rfl, rfl, rfl, rfl, rfl, rfl, rfl, rfl, rfl, rfl, rfl, rfl, rfl, rfl, rfl, rfl⟩

@[simp] theorem State.answer_frame (s : State) (c : Nat) (k : Nat) (d : List Nat) :
    (s.answer c k d).pending = s.pending ∧ (s.answer c k d).free = s.free ∧ (s.answer c k d).regs = s.regs ∧ (s.answer c k d).win = s.win ∧
    (s.answer c k d).grade = s.grade ∧ (s.answer c k d).failed = s.failed ∧ (s.answer c k d).map = s.map ∧
    (s.answer c k d).handovers = s.handovers ∧ (s.answer c k d).lateSteps = s.lateSteps ∧ (s.answer c k d).rots = s.rots ∧
    (s.answer c k d).cores = s.cores ∧ (s.answer c k d).dev = s.dev ∧ (s.answer c k d).regions = s.regions ∧
    (s.answer c k d).pools = s.pools ∧ (s.answer c k d).tlb = s.tlb ∧ (s.answer c k d).wcache = s.wcache ∧
    (s.answer c k d).walks = s.walks ∧ (s.answer c k d).walkFaults = s.walkFaults ∧ (s.answer c k d).inval = s.inval ∧
    (s.answer c k d).dma = s.dma ∧ (s.answer c k d).vlog = s.vlog ∧ (s.answer c k d).glog = s.glog ∧ (s.answer c k d).slog = s.slog ∧
    (s.answer c k d).ifr = s.ifr ∧ (s.answer c k d).cnt = s.cnt ∧ (s.answer c k d).crema = s.crema ∧
    (s.answer c k d).cremaJobs = s.cremaJobs ∧ (s.answer c k d).tdi = s.tdi ∧ (s.answer c k d).spdm = s.spdm ∧
    (s.answer c k d).ide = s.ide ∧ (s.answer c k d).tdiStream = s.tdiStream ∧ (s.answer c k d).rasWin = s.rasWin ∧
    (s.answer c k d).rasBins = s.rasBins ∧ (s.answer c k d).rasCool = s.rasCool ∧ (s.answer c k d).escal = s.escal ∧
    (s.answer c k d).fab = s.fab ∧ (s.answer c k d).fenceRecs = s.fenceRecs ∧ (s.answer c k d).progImages = s.progImages ∧
    (s.answer c k d).epochs = s.epochs ∧ (s.answer c k d).nextTable = s.nextTable ∧ (s.answer c k d).hostOut = s.hostOut ∧
    (s.answer c k d).islCopy = s.islCopy ∧ (s.answer c k d).mcIrq = s.mcIrq ∧ (s.answer c k d).cgl = s.cgl ∧ (s.answer c k d).brs = s.brs ∧
    (s.answer c k d).lnk = s.lnk ∧ (s.answer c k d).laneRecs = s.laneRecs ∧ (s.answer c k d).guards = s.guards ∧
    (s.answer c k d).grpPend = s.grpPend ∧ (s.answer c k d).fec = s.fec ∧ (s.answer c k d).cells = s.cells ∧
    (s.answer c k d).maskRun = s.maskRun ∧ (s.answer c k d).tm = s.tm ∧ (s.answer c k d).retiredQ = s.retiredQ ∧
    (s.answer c k d).mbx = s.mbx ∧ (s.answer c k d).notices = s.notices ∧ (s.answer c k d).epPtr = s.epPtr ∧
    (s.answer c k d).msix = s.msix ∧ (s.answer c k d).msixOut = s.msixOut ∧ (s.answer c k d).lost = s.lost ∧
    (s.answer c k d).parts = s.parts ∧ (s.answer c k d).dying = s.dying ∧ (s.answer c k d).siloOut = s.siloOut ∧
    (s.answer c k d).rampWait = s.rampWait ∧ (s.answer c k d).repairs = s.repairs ∧ (s.answer c k d).repaired = s.repaired ∧
    (s.answer c k d).testing = s.testing ∧ (s.answer c k d).witOrder = s.witOrder ∧ (s.answer c k d).witRun = s.witRun ∧
    (s.answer c k d).witAt = s.witAt ∧ (s.answer c k d).fatalAt = s.fatalAt ∧ (s.answer c k d).trip = s.trip ∧
    (s.answer c k d).fuses = s.fuses ∧ (s.answer c k d).flash = s.flash ∧ (s.answer c k d).bank0 = s.bank0 ∧
    (s.answer c k d).bank1 = s.bank1 ∧ (s.answer c k d).boot = s.boot :=
  ⟨rfl, rfl, rfl, rfl, rfl, rfl, rfl, rfl, rfl, rfl, rfl, rfl, rfl, rfl, rfl, rfl, rfl, rfl, rfl, rfl, rfl, rfl, rfl, rfl, rfl, rfl, rfl, rfl, rfl, rfl, rfl, rfl, rfl, rfl, rfl, rfl, rfl, rfl, rfl, rfl, rfl, rfl, rfl, rfl, rfl, rfl, rfl, rfl, rfl, rfl, rfl, rfl, rfl, rfl, rfl, rfl, rfl, rfl, rfl, rfl, rfl, rfl, rfl, rfl, rfl, rfl, rfl, rfl, rfl, rfl, rfl, rfl, rfl, rfl, rfl, rfl, rfl⟩

@[simp] theorem State.setCore_frame (s : State) (p : Nat) (c : Core) :
    (s.setCore p c).pending = s.pending ∧ (s.setCore p c).free = s.free ∧ (s.setCore p c).reply = s.reply ∧ (s.setCore p c).regs = s.regs ∧
    (s.setCore p c).win = s.win ∧ (s.setCore p c).grade = s.grade ∧ (s.setCore p c).failed = s.failed ∧ (s.setCore p c).map = s.map ∧
    (s.setCore p c).handovers = s.handovers ∧ (s.setCore p c).lateSteps = s.lateSteps ∧ (s.setCore p c).rots = s.rots ∧
    (s.setCore p c).dev = s.dev ∧ (s.setCore p c).regions = s.regions ∧ (s.setCore p c).pools = s.pools ∧ (s.setCore p c).tlb = s.tlb ∧
    (s.setCore p c).wcache = s.wcache ∧ (s.setCore p c).walks = s.walks ∧ (s.setCore p c).walkFaults = s.walkFaults ∧
    (s.setCore p c).inval = s.inval ∧ (s.setCore p c).dma = s.dma ∧ (s.setCore p c).vlog = s.vlog ∧ (s.setCore p c).glog = s.glog ∧
    (s.setCore p c).slog = s.slog ∧ (s.setCore p c).ifr = s.ifr ∧ (s.setCore p c).cnt = s.cnt ∧ (s.setCore p c).crema = s.crema ∧
    (s.setCore p c).cremaJobs = s.cremaJobs ∧ (s.setCore p c).tdi = s.tdi ∧ (s.setCore p c).spdm = s.spdm ∧ (s.setCore p c).ide = s.ide ∧
    (s.setCore p c).tdiStream = s.tdiStream ∧ (s.setCore p c).rasWin = s.rasWin ∧ (s.setCore p c).rasBins = s.rasBins ∧
    (s.setCore p c).rasCool = s.rasCool ∧ (s.setCore p c).escal = s.escal ∧ (s.setCore p c).fab = s.fab ∧
    (s.setCore p c).fenceRecs = s.fenceRecs ∧ (s.setCore p c).progImages = s.progImages ∧ (s.setCore p c).epochs = s.epochs ∧
    (s.setCore p c).nextTable = s.nextTable ∧ (s.setCore p c).hostOut = s.hostOut ∧ (s.setCore p c).islCopy = s.islCopy ∧
    (s.setCore p c).mcIrq = s.mcIrq ∧ (s.setCore p c).cgl = s.cgl ∧ (s.setCore p c).brs = s.brs ∧ (s.setCore p c).lnk = s.lnk ∧
    (s.setCore p c).laneRecs = s.laneRecs ∧ (s.setCore p c).guards = s.guards ∧ (s.setCore p c).grpPend = s.grpPend ∧
    (s.setCore p c).fec = s.fec ∧ (s.setCore p c).cells = s.cells ∧ (s.setCore p c).maskRun = s.maskRun ∧ (s.setCore p c).tm = s.tm ∧
    (s.setCore p c).retiredQ = s.retiredQ ∧ (s.setCore p c).mbx = s.mbx ∧ (s.setCore p c).notices = s.notices ∧
    (s.setCore p c).epPtr = s.epPtr ∧ (s.setCore p c).msix = s.msix ∧ (s.setCore p c).msixOut = s.msixOut ∧ (s.setCore p c).lost = s.lost ∧
    (s.setCore p c).parts = s.parts ∧ (s.setCore p c).dying = s.dying ∧ (s.setCore p c).siloOut = s.siloOut ∧
    (s.setCore p c).rampWait = s.rampWait ∧ (s.setCore p c).repairs = s.repairs ∧ (s.setCore p c).repaired = s.repaired ∧
    (s.setCore p c).testing = s.testing ∧ (s.setCore p c).witOrder = s.witOrder ∧ (s.setCore p c).witRun = s.witRun ∧
    (s.setCore p c).witAt = s.witAt ∧ (s.setCore p c).fatalAt = s.fatalAt ∧ (s.setCore p c).trip = s.trip ∧
    (s.setCore p c).fuses = s.fuses ∧ (s.setCore p c).flash = s.flash ∧ (s.setCore p c).bank0 = s.bank0 ∧ (s.setCore p c).bank1 = s.bank1 ∧
    (s.setCore p c).boot = s.boot :=
  ⟨rfl, rfl, rfl, rfl, rfl, rfl, rfl, rfl, rfl, rfl, rfl, rfl, rfl, rfl, rfl, rfl, rfl, rfl, rfl, rfl, rfl, rfl, rfl, rfl, rfl, rfl, rfl, rfl, rfl, rfl, rfl, rfl, rfl, rfl, rfl, rfl, rfl, rfl, rfl, rfl, rfl, rfl, rfl, rfl, rfl, rfl, rfl, rfl, rfl, rfl, rfl, rfl, rfl, rfl, rfl, rfl, rfl, rfl, rfl, rfl, rfl, rfl, rfl, rfl, rfl, rfl, rfl, rfl, rfl, rfl, rfl, rfl, rfl, rfl, rfl, rfl, rfl⟩

@[simp] theorem State.setCtx_frame (s : State) (p : Nat) (x : Ctx) (v : CoreCtx) :
    (s.setCtx p x v).pending = s.pending ∧ (s.setCtx p x v).free = s.free ∧ (s.setCtx p x v).reply = s.reply ∧
    (s.setCtx p x v).regs = s.regs ∧ (s.setCtx p x v).win = s.win ∧ (s.setCtx p x v).grade = s.grade ∧ (s.setCtx p x v).failed = s.failed ∧
    (s.setCtx p x v).map = s.map ∧ (s.setCtx p x v).handovers = s.handovers ∧ (s.setCtx p x v).lateSteps = s.lateSteps ∧
    (s.setCtx p x v).rots = s.rots ∧ (s.setCtx p x v).dev = s.dev ∧ (s.setCtx p x v).regions = s.regions ∧
    (s.setCtx p x v).pools = s.pools ∧ (s.setCtx p x v).tlb = s.tlb ∧ (s.setCtx p x v).wcache = s.wcache ∧
    (s.setCtx p x v).walks = s.walks ∧ (s.setCtx p x v).walkFaults = s.walkFaults ∧ (s.setCtx p x v).inval = s.inval ∧
    (s.setCtx p x v).dma = s.dma ∧ (s.setCtx p x v).vlog = s.vlog ∧ (s.setCtx p x v).glog = s.glog ∧ (s.setCtx p x v).slog = s.slog ∧
    (s.setCtx p x v).ifr = s.ifr ∧ (s.setCtx p x v).cnt = s.cnt ∧ (s.setCtx p x v).crema = s.crema ∧
    (s.setCtx p x v).cremaJobs = s.cremaJobs ∧ (s.setCtx p x v).tdi = s.tdi ∧ (s.setCtx p x v).spdm = s.spdm ∧
    (s.setCtx p x v).ide = s.ide ∧ (s.setCtx p x v).tdiStream = s.tdiStream ∧ (s.setCtx p x v).rasWin = s.rasWin ∧
    (s.setCtx p x v).rasBins = s.rasBins ∧ (s.setCtx p x v).rasCool = s.rasCool ∧ (s.setCtx p x v).escal = s.escal ∧
    (s.setCtx p x v).fab = s.fab ∧ (s.setCtx p x v).fenceRecs = s.fenceRecs ∧ (s.setCtx p x v).progImages = s.progImages ∧
    (s.setCtx p x v).epochs = s.epochs ∧ (s.setCtx p x v).nextTable = s.nextTable ∧ (s.setCtx p x v).hostOut = s.hostOut ∧
    (s.setCtx p x v).islCopy = s.islCopy ∧ (s.setCtx p x v).mcIrq = s.mcIrq ∧ (s.setCtx p x v).cgl = s.cgl ∧ (s.setCtx p x v).brs = s.brs ∧
    (s.setCtx p x v).lnk = s.lnk ∧ (s.setCtx p x v).laneRecs = s.laneRecs ∧ (s.setCtx p x v).guards = s.guards ∧
    (s.setCtx p x v).grpPend = s.grpPend ∧ (s.setCtx p x v).fec = s.fec ∧ (s.setCtx p x v).cells = s.cells ∧
    (s.setCtx p x v).maskRun = s.maskRun ∧ (s.setCtx p x v).tm = s.tm ∧ (s.setCtx p x v).retiredQ = s.retiredQ ∧
    (s.setCtx p x v).mbx = s.mbx ∧ (s.setCtx p x v).notices = s.notices ∧ (s.setCtx p x v).epPtr = s.epPtr ∧
    (s.setCtx p x v).msix = s.msix ∧ (s.setCtx p x v).msixOut = s.msixOut ∧ (s.setCtx p x v).lost = s.lost ∧
    (s.setCtx p x v).parts = s.parts ∧ (s.setCtx p x v).dying = s.dying ∧ (s.setCtx p x v).siloOut = s.siloOut ∧
    (s.setCtx p x v).rampWait = s.rampWait ∧ (s.setCtx p x v).repairs = s.repairs ∧ (s.setCtx p x v).repaired = s.repaired ∧
    (s.setCtx p x v).testing = s.testing ∧ (s.setCtx p x v).witOrder = s.witOrder ∧ (s.setCtx p x v).witRun = s.witRun ∧
    (s.setCtx p x v).witAt = s.witAt ∧ (s.setCtx p x v).fatalAt = s.fatalAt ∧ (s.setCtx p x v).trip = s.trip ∧
    (s.setCtx p x v).fuses = s.fuses ∧ (s.setCtx p x v).flash = s.flash ∧ (s.setCtx p x v).bank0 = s.bank0 ∧
    (s.setCtx p x v).bank1 = s.bank1 ∧ (s.setCtx p x v).boot = s.boot :=
  ⟨rfl, rfl, rfl, rfl, rfl, rfl, rfl, rfl, rfl, rfl, rfl, rfl, rfl, rfl, rfl, rfl, rfl, rfl, rfl, rfl, rfl, rfl, rfl, rfl, rfl, rfl, rfl, rfl, rfl, rfl, rfl, rfl, rfl, rfl, rfl, rfl, rfl, rfl, rfl, rfl, rfl, rfl, rfl, rfl, rfl, rfl, rfl, rfl, rfl, rfl, rfl, rfl, rfl, rfl, rfl, rfl, rfl, rfl, rfl, rfl, rfl, rfl, rfl, rfl, rfl, rfl, rfl, rfl, rfl, rfl, rfl, rfl, rfl, rfl, rfl, rfl, rfl⟩

@[simp] theorem State.modCtx_frame (s : State) (p : Nat) (x : Ctx) (f : CoreCtx → CoreCtx) :
    (s.modCtx p x f).pending = s.pending ∧ (s.modCtx p x f).free = s.free ∧ (s.modCtx p x f).reply = s.reply ∧
    (s.modCtx p x f).regs = s.regs ∧ (s.modCtx p x f).win = s.win ∧ (s.modCtx p x f).grade = s.grade ∧ (s.modCtx p x f).failed = s.failed ∧
    (s.modCtx p x f).map = s.map ∧ (s.modCtx p x f).handovers = s.handovers ∧ (s.modCtx p x f).lateSteps = s.lateSteps ∧
    (s.modCtx p x f).rots = s.rots ∧ (s.modCtx p x f).dev = s.dev ∧ (s.modCtx p x f).regions = s.regions ∧
    (s.modCtx p x f).pools = s.pools ∧ (s.modCtx p x f).tlb = s.tlb ∧ (s.modCtx p x f).wcache = s.wcache ∧
    (s.modCtx p x f).walks = s.walks ∧ (s.modCtx p x f).walkFaults = s.walkFaults ∧ (s.modCtx p x f).inval = s.inval ∧
    (s.modCtx p x f).dma = s.dma ∧ (s.modCtx p x f).vlog = s.vlog ∧ (s.modCtx p x f).glog = s.glog ∧ (s.modCtx p x f).slog = s.slog ∧
    (s.modCtx p x f).ifr = s.ifr ∧ (s.modCtx p x f).cnt = s.cnt ∧ (s.modCtx p x f).crema = s.crema ∧
    (s.modCtx p x f).cremaJobs = s.cremaJobs ∧ (s.modCtx p x f).tdi = s.tdi ∧ (s.modCtx p x f).spdm = s.spdm ∧
    (s.modCtx p x f).ide = s.ide ∧ (s.modCtx p x f).tdiStream = s.tdiStream ∧ (s.modCtx p x f).rasWin = s.rasWin ∧
    (s.modCtx p x f).rasBins = s.rasBins ∧ (s.modCtx p x f).rasCool = s.rasCool ∧ (s.modCtx p x f).escal = s.escal ∧
    (s.modCtx p x f).fab = s.fab ∧ (s.modCtx p x f).fenceRecs = s.fenceRecs ∧ (s.modCtx p x f).progImages = s.progImages ∧
    (s.modCtx p x f).epochs = s.epochs ∧ (s.modCtx p x f).nextTable = s.nextTable ∧ (s.modCtx p x f).hostOut = s.hostOut ∧
    (s.modCtx p x f).islCopy = s.islCopy ∧ (s.modCtx p x f).mcIrq = s.mcIrq ∧ (s.modCtx p x f).cgl = s.cgl ∧ (s.modCtx p x f).brs = s.brs ∧
    (s.modCtx p x f).lnk = s.lnk ∧ (s.modCtx p x f).laneRecs = s.laneRecs ∧ (s.modCtx p x f).guards = s.guards ∧
    (s.modCtx p x f).grpPend = s.grpPend ∧ (s.modCtx p x f).fec = s.fec ∧ (s.modCtx p x f).cells = s.cells ∧
    (s.modCtx p x f).maskRun = s.maskRun ∧ (s.modCtx p x f).tm = s.tm ∧ (s.modCtx p x f).retiredQ = s.retiredQ ∧
    (s.modCtx p x f).mbx = s.mbx ∧ (s.modCtx p x f).notices = s.notices ∧ (s.modCtx p x f).epPtr = s.epPtr ∧
    (s.modCtx p x f).msix = s.msix ∧ (s.modCtx p x f).msixOut = s.msixOut ∧ (s.modCtx p x f).lost = s.lost ∧
    (s.modCtx p x f).parts = s.parts ∧ (s.modCtx p x f).dying = s.dying ∧ (s.modCtx p x f).siloOut = s.siloOut ∧
    (s.modCtx p x f).rampWait = s.rampWait ∧ (s.modCtx p x f).repairs = s.repairs ∧ (s.modCtx p x f).repaired = s.repaired ∧
    (s.modCtx p x f).testing = s.testing ∧ (s.modCtx p x f).witOrder = s.witOrder ∧ (s.modCtx p x f).witRun = s.witRun ∧
    (s.modCtx p x f).witAt = s.witAt ∧ (s.modCtx p x f).fatalAt = s.fatalAt ∧ (s.modCtx p x f).trip = s.trip ∧
    (s.modCtx p x f).fuses = s.fuses ∧ (s.modCtx p x f).flash = s.flash ∧ (s.modCtx p x f).bank0 = s.bank0 ∧
    (s.modCtx p x f).bank1 = s.bank1 ∧ (s.modCtx p x f).boot = s.boot :=
  ⟨rfl, rfl, rfl, rfl, rfl, rfl, rfl, rfl, rfl, rfl, rfl, rfl, rfl, rfl, rfl, rfl, rfl, rfl, rfl, rfl, rfl, rfl, rfl, rfl, rfl, rfl, rfl, rfl, rfl, rfl, rfl, rfl, rfl, rfl, rfl, rfl, rfl, rfl, rfl, rfl, rfl, rfl, rfl, rfl, rfl, rfl, rfl, rfl, rfl, rfl, rfl, rfl, rfl, rfl, rfl, rfl, rfl, rfl, rfl, rfl, rfl, rfl, rfl, rfl, rfl, rfl, rfl, rfl, rfl, rfl, rfl, rfl, rfl, rfl, rfl, rfl, rfl⟩

@[simp] theorem State.setThread_frame (s : State) (p : Nat) (x : Ctx) (t : Nat) (v : Thread) :
    (s.setThread p x t v).pending = s.pending ∧ (s.setThread p x t v).free = s.free ∧ (s.setThread p x t v).reply = s.reply ∧
    (s.setThread p x t v).regs = s.regs ∧ (s.setThread p x t v).win = s.win ∧ (s.setThread p x t v).grade = s.grade ∧
    (s.setThread p x t v).failed = s.failed ∧ (s.setThread p x t v).map = s.map ∧ (s.setThread p x t v).handovers = s.handovers ∧
    (s.setThread p x t v).lateSteps = s.lateSteps ∧ (s.setThread p x t v).rots = s.rots ∧ (s.setThread p x t v).dev = s.dev ∧
    (s.setThread p x t v).regions = s.regions ∧ (s.setThread p x t v).pools = s.pools ∧ (s.setThread p x t v).tlb = s.tlb ∧
    (s.setThread p x t v).wcache = s.wcache ∧ (s.setThread p x t v).walks = s.walks ∧ (s.setThread p x t v).walkFaults = s.walkFaults ∧
    (s.setThread p x t v).inval = s.inval ∧ (s.setThread p x t v).dma = s.dma ∧ (s.setThread p x t v).vlog = s.vlog ∧
    (s.setThread p x t v).glog = s.glog ∧ (s.setThread p x t v).slog = s.slog ∧ (s.setThread p x t v).ifr = s.ifr ∧
    (s.setThread p x t v).cnt = s.cnt ∧ (s.setThread p x t v).crema = s.crema ∧ (s.setThread p x t v).cremaJobs = s.cremaJobs ∧
    (s.setThread p x t v).tdi = s.tdi ∧ (s.setThread p x t v).spdm = s.spdm ∧ (s.setThread p x t v).ide = s.ide ∧
    (s.setThread p x t v).tdiStream = s.tdiStream ∧ (s.setThread p x t v).rasWin = s.rasWin ∧ (s.setThread p x t v).rasBins = s.rasBins ∧
    (s.setThread p x t v).rasCool = s.rasCool ∧ (s.setThread p x t v).escal = s.escal ∧ (s.setThread p x t v).fab = s.fab ∧
    (s.setThread p x t v).fenceRecs = s.fenceRecs ∧ (s.setThread p x t v).progImages = s.progImages ∧
    (s.setThread p x t v).epochs = s.epochs ∧ (s.setThread p x t v).nextTable = s.nextTable ∧ (s.setThread p x t v).hostOut = s.hostOut ∧
    (s.setThread p x t v).islCopy = s.islCopy ∧ (s.setThread p x t v).mcIrq = s.mcIrq ∧ (s.setThread p x t v).cgl = s.cgl ∧
    (s.setThread p x t v).brs = s.brs ∧ (s.setThread p x t v).lnk = s.lnk ∧ (s.setThread p x t v).laneRecs = s.laneRecs ∧
    (s.setThread p x t v).guards = s.guards ∧ (s.setThread p x t v).grpPend = s.grpPend ∧ (s.setThread p x t v).fec = s.fec ∧
    (s.setThread p x t v).cells = s.cells ∧ (s.setThread p x t v).maskRun = s.maskRun ∧ (s.setThread p x t v).tm = s.tm ∧
    (s.setThread p x t v).retiredQ = s.retiredQ ∧ (s.setThread p x t v).mbx = s.mbx ∧ (s.setThread p x t v).notices = s.notices ∧
    (s.setThread p x t v).epPtr = s.epPtr ∧ (s.setThread p x t v).msix = s.msix ∧ (s.setThread p x t v).msixOut = s.msixOut ∧
    (s.setThread p x t v).lost = s.lost ∧ (s.setThread p x t v).parts = s.parts ∧ (s.setThread p x t v).dying = s.dying ∧
    (s.setThread p x t v).siloOut = s.siloOut ∧ (s.setThread p x t v).rampWait = s.rampWait ∧ (s.setThread p x t v).repairs = s.repairs ∧
    (s.setThread p x t v).repaired = s.repaired ∧ (s.setThread p x t v).testing = s.testing ∧ (s.setThread p x t v).witOrder = s.witOrder ∧
    (s.setThread p x t v).witRun = s.witRun ∧ (s.setThread p x t v).witAt = s.witAt ∧ (s.setThread p x t v).fatalAt = s.fatalAt ∧
    (s.setThread p x t v).trip = s.trip ∧ (s.setThread p x t v).fuses = s.fuses ∧ (s.setThread p x t v).flash = s.flash ∧
    (s.setThread p x t v).bank0 = s.bank0 ∧ (s.setThread p x t v).bank1 = s.bank1 ∧ (s.setThread p x t v).boot = s.boot :=
  ⟨rfl, rfl, rfl, rfl, rfl, rfl, rfl, rfl, rfl, rfl, rfl, rfl, rfl, rfl, rfl, rfl, rfl, rfl, rfl, rfl, rfl, rfl, rfl, rfl, rfl, rfl, rfl, rfl, rfl, rfl, rfl, rfl, rfl, rfl, rfl, rfl, rfl, rfl, rfl, rfl, rfl, rfl, rfl, rfl, rfl, rfl, rfl, rfl, rfl, rfl, rfl, rfl, rfl, rfl, rfl, rfl, rfl, rfl, rfl, rfl, rfl, rfl, rfl, rfl, rfl, rfl, rfl, rfl, rfl, rfl, rfl, rfl, rfl, rfl, rfl, rfl, rfl⟩

@[simp] theorem State.elapse_frame (s : State) (n : Nat) :
    (s.elapse n).pending = s.pending ∧ (s.elapse n).free = s.free ∧ (s.elapse n).reply = s.reply ∧ (s.elapse n).regs = s.regs ∧
    (s.elapse n).win = s.win ∧ (s.elapse n).grade = s.grade ∧ (s.elapse n).failed = s.failed ∧ (s.elapse n).map = s.map ∧
    (s.elapse n).handovers = s.handovers ∧ (s.elapse n).lateSteps = s.lateSteps ∧ (s.elapse n).rots = s.rots ∧
    (s.elapse n).cores = s.cores ∧ (s.elapse n).dev = s.dev ∧ (s.elapse n).regions = s.regions ∧ (s.elapse n).pools = s.pools ∧
    (s.elapse n).tlb = s.tlb ∧ (s.elapse n).wcache = s.wcache ∧ (s.elapse n).walks = s.walks ∧ (s.elapse n).walkFaults = s.walkFaults ∧
    (s.elapse n).inval = s.inval ∧ (s.elapse n).dma = s.dma ∧ (s.elapse n).vlog = s.vlog ∧ (s.elapse n).glog = s.glog ∧
    (s.elapse n).slog = s.slog ∧ (s.elapse n).ifr = s.ifr ∧ (s.elapse n).crema = s.crema ∧ (s.elapse n).cremaJobs = s.cremaJobs ∧
    (s.elapse n).tdi = s.tdi ∧ (s.elapse n).spdm = s.spdm ∧ (s.elapse n).ide = s.ide ∧ (s.elapse n).tdiStream = s.tdiStream ∧
    (s.elapse n).rasWin = s.rasWin ∧ (s.elapse n).rasBins = s.rasBins ∧ (s.elapse n).rasCool = s.rasCool ∧ (s.elapse n).escal = s.escal ∧
    (s.elapse n).fab = s.fab ∧ (s.elapse n).fenceRecs = s.fenceRecs ∧ (s.elapse n).progImages = s.progImages ∧
    (s.elapse n).epochs = s.epochs ∧ (s.elapse n).nextTable = s.nextTable ∧ (s.elapse n).hostOut = s.hostOut ∧
    (s.elapse n).islCopy = s.islCopy ∧ (s.elapse n).mcIrq = s.mcIrq ∧ (s.elapse n).cgl = s.cgl ∧ (s.elapse n).brs = s.brs ∧
    (s.elapse n).lnk = s.lnk ∧ (s.elapse n).laneRecs = s.laneRecs ∧ (s.elapse n).guards = s.guards ∧ (s.elapse n).grpPend = s.grpPend ∧
    (s.elapse n).fec = s.fec ∧ (s.elapse n).cells = s.cells ∧ (s.elapse n).maskRun = s.maskRun ∧ (s.elapse n).tm = s.tm ∧
    (s.elapse n).retiredQ = s.retiredQ ∧ (s.elapse n).mbx = s.mbx ∧ (s.elapse n).notices = s.notices ∧ (s.elapse n).epPtr = s.epPtr ∧
    (s.elapse n).msix = s.msix ∧ (s.elapse n).msixOut = s.msixOut ∧ (s.elapse n).lost = s.lost ∧ (s.elapse n).parts = s.parts ∧
    (s.elapse n).dying = s.dying ∧ (s.elapse n).siloOut = s.siloOut ∧ (s.elapse n).rampWait = s.rampWait ∧
    (s.elapse n).repairs = s.repairs ∧ (s.elapse n).repaired = s.repaired ∧ (s.elapse n).testing = s.testing ∧
    (s.elapse n).witOrder = s.witOrder ∧ (s.elapse n).witRun = s.witRun ∧ (s.elapse n).witAt = s.witAt ∧ (s.elapse n).fatalAt = s.fatalAt ∧
    (s.elapse n).trip = s.trip ∧ (s.elapse n).fuses = s.fuses ∧ (s.elapse n).flash = s.flash ∧ (s.elapse n).bank0 = s.bank0 ∧
    (s.elapse n).bank1 = s.bank1 ∧ (s.elapse n).boot = s.boot :=
  ⟨rfl, rfl, rfl, rfl, rfl, rfl, rfl, rfl, rfl, rfl, rfl, rfl, rfl, rfl, rfl, rfl, rfl, rfl, rfl, rfl, rfl, rfl, rfl, rfl, rfl, rfl, rfl, rfl, rfl, rfl, rfl, rfl, rfl, rfl, rfl, rfl, rfl, rfl, rfl, rfl, rfl, rfl, rfl, rfl, rfl, rfl, rfl, rfl, rfl, rfl, rfl, rfl, rfl, rfl, rfl, rfl, rfl, rfl, rfl, rfl, rfl, rfl, rfl, rfl, rfl, rfl, rfl, rfl, rfl, rfl, rfl, rfl, rfl, rfl, rfl, rfl, rfl⟩

@[simp] theorem State.devZero_frame (s : State) (a n : Nat) :
    (s.devZero a n).pending = s.pending ∧ (s.devZero a n).free = s.free ∧ (s.devZero a n).reply = s.reply ∧ (s.devZero a n).regs = s.regs ∧
    (s.devZero a n).win = s.win ∧ (s.devZero a n).grade = s.grade ∧ (s.devZero a n).failed = s.failed ∧ (s.devZero a n).map = s.map ∧
    (s.devZero a n).handovers = s.handovers ∧ (s.devZero a n).lateSteps = s.lateSteps ∧ (s.devZero a n).rots = s.rots ∧
    (s.devZero a n).cores = s.cores ∧ (s.devZero a n).regions = s.regions ∧ (s.devZero a n).pools = s.pools ∧ (s.devZero a n).tlb = s.tlb ∧
    (s.devZero a n).wcache = s.wcache ∧ (s.devZero a n).walks = s.walks ∧ (s.devZero a n).walkFaults = s.walkFaults ∧
    (s.devZero a n).inval = s.inval ∧ (s.devZero a n).dma = s.dma ∧ (s.devZero a n).vlog = s.vlog ∧ (s.devZero a n).glog = s.glog ∧
    (s.devZero a n).slog = s.slog ∧ (s.devZero a n).ifr = s.ifr ∧ (s.devZero a n).cnt = s.cnt ∧ (s.devZero a n).crema = s.crema ∧
    (s.devZero a n).cremaJobs = s.cremaJobs ∧ (s.devZero a n).tdi = s.tdi ∧ (s.devZero a n).spdm = s.spdm ∧ (s.devZero a n).ide = s.ide ∧
    (s.devZero a n).tdiStream = s.tdiStream ∧ (s.devZero a n).rasWin = s.rasWin ∧ (s.devZero a n).rasBins = s.rasBins ∧
    (s.devZero a n).rasCool = s.rasCool ∧ (s.devZero a n).escal = s.escal ∧ (s.devZero a n).fab = s.fab ∧
    (s.devZero a n).fenceRecs = s.fenceRecs ∧ (s.devZero a n).progImages = s.progImages ∧ (s.devZero a n).epochs = s.epochs ∧
    (s.devZero a n).nextTable = s.nextTable ∧ (s.devZero a n).hostOut = s.hostOut ∧ (s.devZero a n).islCopy = s.islCopy ∧
    (s.devZero a n).mcIrq = s.mcIrq ∧ (s.devZero a n).cgl = s.cgl ∧ (s.devZero a n).brs = s.brs ∧ (s.devZero a n).lnk = s.lnk ∧
    (s.devZero a n).laneRecs = s.laneRecs ∧ (s.devZero a n).guards = s.guards ∧ (s.devZero a n).grpPend = s.grpPend ∧
    (s.devZero a n).fec = s.fec ∧ (s.devZero a n).cells = s.cells ∧ (s.devZero a n).maskRun = s.maskRun ∧ (s.devZero a n).tm = s.tm ∧
    (s.devZero a n).retiredQ = s.retiredQ ∧ (s.devZero a n).mbx = s.mbx ∧ (s.devZero a n).notices = s.notices ∧
    (s.devZero a n).epPtr = s.epPtr ∧ (s.devZero a n).msix = s.msix ∧ (s.devZero a n).msixOut = s.msixOut ∧
    (s.devZero a n).parts = s.parts ∧ (s.devZero a n).dying = s.dying ∧ (s.devZero a n).siloOut = s.siloOut ∧
    (s.devZero a n).rampWait = s.rampWait ∧ (s.devZero a n).repairs = s.repairs ∧ (s.devZero a n).repaired = s.repaired ∧
    (s.devZero a n).testing = s.testing ∧ (s.devZero a n).witOrder = s.witOrder ∧ (s.devZero a n).witRun = s.witRun ∧
    (s.devZero a n).witAt = s.witAt ∧ (s.devZero a n).fatalAt = s.fatalAt ∧ (s.devZero a n).trip = s.trip ∧
    (s.devZero a n).fuses = s.fuses ∧ (s.devZero a n).flash = s.flash ∧ (s.devZero a n).bank0 = s.bank0 ∧ (s.devZero a n).bank1 = s.bank1 ∧
    (s.devZero a n).boot = s.boot :=
  ⟨rfl, rfl, rfl, rfl, rfl, rfl, rfl, rfl, rfl, rfl, rfl, rfl, rfl, rfl, rfl, rfl, rfl, rfl, rfl, rfl, rfl, rfl, rfl, rfl, rfl, rfl, rfl, rfl, rfl, rfl, rfl, rfl, rfl, rfl, rfl, rfl, rfl, rfl, rfl, rfl, rfl, rfl, rfl, rfl, rfl, rfl, rfl, rfl, rfl, rfl, rfl, rfl, rfl, rfl, rfl, rfl, rfl, rfl, rfl, rfl, rfl, rfl, rfl, rfl, rfl, rfl, rfl, rfl, rfl, rfl, rfl, rfl, rfl, rfl, rfl, rfl⟩

@[simp] theorem State.lose_frame (s : State) (a n : Nat) :
    (s.lose a n).pending = s.pending ∧ (s.lose a n).reply = s.reply ∧ (s.lose a n).regs = s.regs ∧ (s.lose a n).win = s.win ∧
    (s.lose a n).grade = s.grade ∧ (s.lose a n).failed = s.failed ∧ (s.lose a n).map = s.map ∧ (s.lose a n).handovers = s.handovers ∧
    (s.lose a n).lateSteps = s.lateSteps ∧ (s.lose a n).rots = s.rots ∧ (s.lose a n).cores = s.cores ∧ (s.lose a n).dev = s.dev ∧
    (s.lose a n).regions = s.regions ∧ (s.lose a n).pools = s.pools ∧ (s.lose a n).tlb = s.tlb ∧ (s.lose a n).wcache = s.wcache ∧
    (s.lose a n).walks = s.walks ∧ (s.lose a n).walkFaults = s.walkFaults ∧ (s.lose a n).inval = s.inval ∧ (s.lose a n).dma = s.dma ∧
    (s.lose a n).vlog = s.vlog ∧ (s.lose a n).glog = s.glog ∧ (s.lose a n).slog = s.slog ∧ (s.lose a n).ifr = s.ifr ∧
    (s.lose a n).cnt = s.cnt ∧ (s.lose a n).crema = s.crema ∧ (s.lose a n).cremaJobs = s.cremaJobs ∧ (s.lose a n).tdi = s.tdi ∧
    (s.lose a n).spdm = s.spdm ∧ (s.lose a n).ide = s.ide ∧ (s.lose a n).tdiStream = s.tdiStream ∧ (s.lose a n).rasWin = s.rasWin ∧
    (s.lose a n).rasBins = s.rasBins ∧ (s.lose a n).rasCool = s.rasCool ∧ (s.lose a n).escal = s.escal ∧ (s.lose a n).fab = s.fab ∧
    (s.lose a n).fenceRecs = s.fenceRecs ∧ (s.lose a n).progImages = s.progImages ∧ (s.lose a n).epochs = s.epochs ∧
    (s.lose a n).nextTable = s.nextTable ∧ (s.lose a n).hostOut = s.hostOut ∧ (s.lose a n).islCopy = s.islCopy ∧
    (s.lose a n).mcIrq = s.mcIrq ∧ (s.lose a n).cgl = s.cgl ∧ (s.lose a n).brs = s.brs ∧ (s.lose a n).lnk = s.lnk ∧
    (s.lose a n).laneRecs = s.laneRecs ∧ (s.lose a n).guards = s.guards ∧ (s.lose a n).grpPend = s.grpPend ∧ (s.lose a n).fec = s.fec ∧
    (s.lose a n).cells = s.cells ∧ (s.lose a n).maskRun = s.maskRun ∧ (s.lose a n).tm = s.tm ∧ (s.lose a n).retiredQ = s.retiredQ ∧
    (s.lose a n).mbx = s.mbx ∧ (s.lose a n).notices = s.notices ∧ (s.lose a n).epPtr = s.epPtr ∧ (s.lose a n).msix = s.msix ∧
    (s.lose a n).msixOut = s.msixOut ∧ (s.lose a n).parts = s.parts ∧ (s.lose a n).dying = s.dying ∧ (s.lose a n).siloOut = s.siloOut ∧
    (s.lose a n).rampWait = s.rampWait ∧ (s.lose a n).repairs = s.repairs ∧ (s.lose a n).repaired = s.repaired ∧
    (s.lose a n).testing = s.testing ∧ (s.lose a n).witOrder = s.witOrder ∧ (s.lose a n).witRun = s.witRun ∧ (s.lose a n).witAt = s.witAt ∧
    (s.lose a n).fatalAt = s.fatalAt ∧ (s.lose a n).trip = s.trip ∧ (s.lose a n).fuses = s.fuses ∧ (s.lose a n).flash = s.flash ∧
    (s.lose a n).bank0 = s.bank0 ∧ (s.lose a n).bank1 = s.bank1 ∧ (s.lose a n).boot = s.boot :=
  ⟨rfl, rfl, rfl, rfl, rfl, rfl, rfl, rfl, rfl, rfl, rfl, rfl, rfl, rfl, rfl, rfl, rfl, rfl, rfl, rfl, rfl, rfl, rfl, rfl, rfl, rfl, rfl, rfl, rfl, rfl, rfl, rfl, rfl, rfl, rfl, rfl, rfl, rfl, rfl, rfl, rfl, rfl, rfl, rfl, rfl, rfl, rfl, rfl, rfl, rfl, rfl, rfl, rfl, rfl, rfl, rfl, rfl, rfl, rfl, rfl, rfl, rfl, rfl, rfl, rfl, rfl, rfl, rfl, rfl, rfl, rfl, rfl, rfl, rfl, rfl, rfl⟩

/-! ### What the reads give -/

/-- A register reads as it was last written, cut to 64 bits; every other register as before. -/
theorem State.reg_setReg (s : State) (a v b : Nat) : (s.setReg a v).reg b = if a = b then v % 2 ^ 64 else s.reg b := by
  unfold State.reg State.setReg
  by_cases h : a = b
  · subst h; rw [Tbl.get_put]
  · simp only [h, if_false]
    unfold Tbl.put
    split
    · rw [Tbl.get_drop, if_neg h]
    · rw [Tbl.get_insert, if_neg h]

@[simp] theorem State.reg_setReg_self (s : State) (a v : Nat) : (s.setReg a v).reg a = v % 2 ^ 64 := by rw [State.reg_setReg, if_pos rfl]

theorem State.reg_setReg_ne (s : State) {a b : Nat} (v : Nat) (h : a ≠ b) : (s.setReg a v).reg b = s.reg b := by
  rw [State.reg_setReg, if_neg h]

theorem State.reg_setFld (s : State) (a lo w v b : Nat) :
    (s.setFld a lo w v).reg b = if a = b then setBits (s.reg a) lo w v % 2 ^ 64 else s.reg b := State.reg_setReg ..

theorem State.reg_setFld_ne (s : State) {a b : Nat} (lo w v : Nat) (h : a ≠ b) : (s.setFld a lo w v).reg b = s.reg b := by
  rw [State.reg_setFld, if_neg h]

theorem State.fld_setReg_ne (s : State) {a b : Nat} (v l k : Nat) (h : a ≠ b) : (s.setReg a v).fld b l k = s.fld b l k := by
  unfold State.fld; rw [State.reg_setReg_ne _ _ h]

theorem State.fld_setReg_self (s : State) (a v l k : Nat) (h : l + k ≤ 64) : (s.setReg a v).fld a l k = bits v l k := by
  unfold State.fld; rw [State.reg_setReg_self, bits_mod _ _ _ _ h]

theorem State.fld_setFld_ne (s : State) {a b : Nat} (lo w v l k : Nat) (h : a ≠ b) : (s.setFld a lo w v).fld b l k = s.fld b l k := by
  unfold State.fld; rw [State.reg_setFld_ne _ _ _ _ h]

/-- A field of a register reads as it was set. -/
theorem State.fld_setFld_self (s : State) (a lo w v : Nat) (h : lo + w ≤ 64) : (s.setFld a lo w v).fld a lo w = v % 2 ^ w := by
  unfold State.fld; rw [State.reg_setFld, if_pos rfl, bits_mod _ _ _ _ h, bits_setBits]

/-- The other fields of a register read as before. -/
theorem State.fld_setFld_other (s : State) (a lo w v l k : Nat) (h : l + k ≤ lo ∨ lo + w ≤ l) (h64 : l + k ≤ 64) :
    (s.setFld a lo w v).fld a l k = s.fld a l k := by
  unfold State.fld
  rw [State.reg_setFld, if_pos rfl, bits_mod _ _ _ _ h64]
  rcases h with h | h
  · exact bits_setBits_below _ _ _ _ _ _ h
  · exact bits_setBits_above _ _ _ _ _ _ h

/-- An event bit that was set reads 1. -/
theorem State.fld_event_self (s : State) (a i : Nat) (h : i < 64) : (s.event a i).fld a i 1 = 1 :=
  State.fld_setFld_self s a i 1 1 (by omega)

/-- A counter that was bumped has gone up by one, or stays at its largest value. -/
theorem State.fld_bump_self (s : State) (a : Nat) : (s.bump a).fld a 0 32 = min (s.fld a 0 32 + 1) (2 ^ 32 - 1) := by
  unfold State.bump State.bumpFld
  rw [State.fld_setFld_self _ _ _ _ _ (by omega)]
  unfold satAdd
  exact Nat.mod_eq_of_lt (by omega)

theorem State.reg_answer (s : State) (c k : Nat) (d : List Nat) (a : Nat) : (s.answer c k d).reg a = s.reg a := rfl
theorem State.reg_setCore (s : State) (p : Nat) (c : Core) (a : Nat) : (s.setCore p c).reg a = s.reg a := rfl
theorem State.core_setReg (s : State) (a v p : Nat) : (s.setReg a v).core p = s.core p := rfl

@[simp] theorem State.reply_answer (s : State) (c k : Nat) (d : List Nat) : (s.answer c k d).reply = { code := c, cause := k, data := d } := rfl

theorem State.wreg_setWreg (s : State) (i o v j p : Nat) :
    (s.setWreg i o v).wreg j p = if 0x10000 * i + o = 0x10000 * j + p then v % 2 ^ 64 else s.wreg j p := by
  unfold State.wreg State.setWreg
  exact Tbl.get_put ..

theorem State.core_setCore (s : State) (p : Nat) (c : Core) (q : Nat) : (s.setCore p c).core q = if p = q then c else s.core q := by
  unfold State.core State.setCore
  exact Tbl.get_put ..

@[simp] theorem State.core_setCore_self (s : State) (p : Nat) (c : Core) : (s.setCore p c).core p = c := by
  rw [State.core_setCore, if_pos rfl]

@[simp] theorem Core.ctx_setCtx (c : Core) (x : Ctx) (v : CoreCtx) : (c.setCtx x v).ctx x = v := by cases x <;> rfl

theorem Core.ctx_setCtx_ne (c : Core) {x y : Ctx} (v : CoreCtx) (h : x ≠ y) : (c.setCtx x v).ctx y = c.ctx y := by
  cases x <;> cases y <;> first | rfl | exact absurd rfl h

@[simp] theorem State.ctx_setCtx_self (s : State) (p : Nat) (x : Ctx) (v : CoreCtx) : (s.setCtx p x v).ctx p x = v := by
  simp [State.ctx, State.setCtx]

theorem CoreCtx.thread_setThread (c : CoreCtx) (t : Nat) (v : Thread) (u : Nat) : (c.setThread t v).thread u = if t = u then v else c.thread u := by
  unfold CoreCtx.thread CoreCtx.setThread
  exact Tbl.get_put ..

@[simp] theorem State.thread_setThread_self (s : State) (p : Nat) (x : Ctx) (t : Nat) (v : Thread) : (s.setThread p x t v).thread p x t = v := by
  simp [State.thread, State.setThread, State.modCtx, CoreCtx.thread_setThread]

/-- x1 to x31 read as last written, cut to 64 bits; x0 reads 0 (R108). -/
theorem Thread.reg_setReg (t : Thread) (r v q : Nat) : (t.setReg r v).reg q = if r = q ∧ r ≠ 0 then v % 2 ^ 64 else t.reg q := by
  unfold Thread.reg Thread.setReg
  by_cases hr : r = 0
  · subst hr; simp
  · simp only [hr, if_false]
    rw [Tbl.get_put]
    by_cases hq : q = 0
    · subst hq; simp [hr]
    · simp [hq, hr]

end Sys2Proof.Machine
end

