-- ==== Sys2Proof/Tests/Slice0.lean ====
section
/-!
SUPPORT. Tests/Slice0.lean: small tests, the ill-formed terms that Instr.wf refuses, and for each statement with hypotheses states and
operands that meet them.
-/
namespace Sys2Proof.Tests

open Sys2Proof.Machine Sys2Proof.Safety

set_option Elab.async false

/-! ### States -/

/-- State.reset with registers set. -/
def regs (l : List (Nat × Nat)) : State := l.foldl (fun s p => s.setReg p.1 p.2) State.reset

/-- State.reset with core 0's elastic context c. -/
def ectx (c : CoreCtx) : State := State.reset.setCtx 0 .elastic c

/-- The elastic context of core 0, and of its VCE 0. -/
def u0 : CtxAt := { core := 0, ctx := .elastic }
def v0 : VceAt := { core := 0, ctx := .elastic, v := 0, fetch := .none }
/-- Thread 0 of it, at its first program word. -/
def th0 : ThreadAt := { core := 0, ctx := .elastic, t := 0, pc := 8192, fetch := .none, parity := false }

/-- A queue that holds one descriptor. -/
def one (d : Nat) : DescQ := { q := { items := [{ data := d }] } }

/-! ### Witnesses: the matrix engine -/

/-- An ME descriptor of opcode op: one row, one column, one element, in fast mode, E4M3 operands, FP32 output, all at 0x80000. -/
def meD (op : Nat) : Nat :=
  op + (if op = 2 then 1 <<< 14 else 0) + 2 <<< 16 + 2 <<< 24 + 13 <<< 32 + 1 <<< 64 + 1 <<< 80 + 1 <<< 96 + 0x80000 <<< 128 + 0x80000 <<< 160
    + 0x80000 <<< 192 + 4 <<< 224 + 4 <<< 240 + 4 <<< 256

theorem witness_meMma : MeHead (ectx { me := { dq := one (meD 1) } }) u0 1 { data := meD 1 } {} := by constructor <;> decide +kernel
theorem witness_meDrain : MeHead (ectx { me := { dq := one (meD 2) } }) u0 2 { data := meD 2 } {} := by constructor <;> decide +kernel
theorem witness_meLoadacc : MeHead (ectx { me := { dq := one (meD 3) } }) u0 3 { data := meD 3 } {} := by constructor <;> decide +kernel
theorem witness_meClear : MeHead (ectx { me := { dq := one (meD 4) } }) u0 4 { data := meD 4 } {} := by constructor <;> decide +kernel

/-- An accepted ME descriptor, with a row in the array. -/
def meBusy : State := ectx { me := { jobs := [{ id := 0, desc := meD 1 }], array := [{ job := 0, pass := 0, m := 0, row := 0, mode := 0, init := true, anchor := 0 }] } }

theorem witness_meRowReachesBank : ∃ r rest, (meBusy.meCtx 0 .elastic).array = r :: rest := ⟨_, _, rfl⟩
theorem witness_meComplete : let s := ectx { me := { jobs := [{ id := 0, desc := meD 1 }] } }
    (s.meCtx 0 .elastic).jobs = [{ id := 0, desc := meD 1 }] ∧ s.owns 0 .elastic = true ∧ (s.meCtx 0 .elastic).array = [] := by decide +kernel


theorem witness_meCtrlWrite : (State.reset.meCtx 0 .timed).jobs = [] ∧ (State.reset.meCtx 0 .elastic).jobs = [] := by decide +kernel
theorem witness_meDisabled : (meBusy.meCtx 0 .elastic).jobs ≠ [] ∧ (regs [(ME_CTRL 0, 0)]).fld (ME_CTRL 0) 0 1 = 0 := by decide +kernel
/-- Core 0's array at Tamp level n. -/
def tampAt (n : Nat) : State := State.reset.setCore 0 { tampLevel := n }
theorem witness_tamp : ((tampAt 0).core 0).tampLevel = 0 ∧ ((tampAt 8).core 0).tampLevel ≠ 0 ∧ ((tampAt 1).core 0).tampLevel ≠ 0 ∧
    ((tampAt 1).core 0).tampBallast = false := by decide +kernel

/-! ### Witnesses: the scalar controller -/

/-- Thread 0 of core 0's elastic context. -/
def withThread (t : Thread) : State := State.reset.setThread 0 .elastic 0 t
/-- It runs. -/
def thrRuns : State := withThread { st := .active, pc := 8192 }

theorem witness_threadIssues : ThreadIssues thrRuns th0 := by constructor <;> decide +kernel
/-- The last address of the elastic scratch partition, one address past scratch, and a posted store. -/
theorem witness_scratchAccess : inScratch .elastic 0x27FFF8 8 = true ∧ inScratch .elastic 0x80000 32 = true ∧
    scrClean thrRuns 0 0x27FFF8 8 ∧ scrClean thrRuns 0 0x80000 32 ∧ inScratch .elastic 0x27FFC0 64 = true ∧
    inScratch .elastic 0x27FFE0 32 = true := by
  unfold scrClean; decide +kernel
/-- A load that shows an error two bits wide, and one that does not. -/
theorem witness_scrRead : ((issued thrRuns th0).scrRead 0 0x27FFF8 8 .uncorrectable).1 = true ∧
    ((issued thrRuns th0).scrRead 0 0x27FFF8 8 .corrected).1 = false := by decide +kernel
theorem witness_stores : let t := thrRuns.thread 0 .elastic 0
    t.stores = [] ∧ t.stores.length < 8 ∧
      ThreadIssues (withThread { st := .active, stores := [{ kind := .store, addr := 0x400000, size := 8 }] }) th0 := by
  refine ⟨by decide +kernel, by decide +kernel, ?_⟩
  constructor <;> decide +kernel
theorem witness_events : let s := ectx { threads := [(0, { st := .active })], events := [(7, 255)] }
    ThreadIssues s th0 ∧ Tbl.get 0 (s.ctx 0 .elastic).events 7 ≠ 0 ∧ Tbl.get 0 (s.ctx 0 .elastic).events 255 = 0 := by
  refine ⟨?_, by decide +kernel, by decide +kernel⟩
  constructor <;> decide +kernel
/-- A completion record waits in the context's ME queue. -/
theorem witness_complQueue : let s := ectx { threads := [(0, { st := .active })], me := { dq := { compl := { items := [{ data := 1 }] } } } }
    ThreadIssues s th0 ∧ (((issued s th0).ctx 0 .elastic).complQueue (.eng .me)).compl.pop = some ({ data := 1 }, {}) := by
  refine ⟨?_, by decide +kernel⟩
  constructor <;> decide +kernel

theorem witness_queuedItemPush : let s := withThread { st := .waitEng, held := some { eng := some .me, item := { data := 5 } } }
    (s.thread 0 .elastic 0).held = some { eng := some .me, item := { data := 5 } } ∧
      ((s.ctx 0 .elastic).queue (some .me)).q.room queueDepth = true := by decide +kernel
/-- A load that waits for cluster SRAM; its reply; a posted store. -/
def remLd : RemReq := { kind := .load, addr := 0x400000, size := 8, rd := 31, target := some (.local 0x020000000000) }
def remSt : RemReq := { kind := .store, addr := 0x400000, size := 8, target := some (.local 0x020000000000) }
theorem witness_remoteArrived : let s := withThread { st := .waitRem, rem := some { remLd with arrived := some { status := stOk } } }
    (s.thread 0 .elastic 0).rem = some { remLd with arrived := some { status := stOk } } := by decide +kernel
theorem witness_remoteLocal : let s := withThread { st := .waitRem, rem := some remLd }
    (s.thread 0 .elastic 0).rem = some remLd ∧ (s.thread 0 .elastic 0).stores = [] ∧
      remLd.target = some (.local 0x020000000000) ∧ remLd.arrived = none := by decide +kernel
theorem witness_storeAck : let s := withThread { st := .active, stores := [remSt] }
    let r := { remSt with arrived := some { status := stOk } }
    (s.thread 0 .elastic 0).stores = remSt :: [] ∧ ((withThread { st := .active, stores := [r] }).thread 0 .elastic 0).stores = r :: [] := by
  decide +kernel

theorem witness_taskAccept : let s := ectx { tq := one (1 + 8192 <<< 64) }
    (s.core 0).fenced = false ∧ s.clocked 0 = true ∧ (s.ctx 0 .elastic).tq.canAccept = true ∧
      (s.ctx 0 .elastic).tq.q.pop = some ({ data := 1 + 8192 <<< 64 }, {}) ∧ (taskOf (1 + 8192 <<< 64)).gen = (s.ctx 0 .elastic).tq.gen ∧
      taskReserved (1 + 8192 <<< 64) = false ∧ inProgram .elastic (taskOf (1 + 8192 <<< 64)).entry = true ∧
      (taskOf (1 + 8192 <<< 64)).waits = false := by decide +kernel
theorem witness_taskDispatch : let s := ectx { tasks := [{ entry := 32767, prio := 3 }, { entry := 8192 }] }
    s.owns 0 .elastic = true ∧ s.held 0 .elastic = false ∧ (s.core 0).load = none ∧ readyTask (s.ctx 0 .elastic).tasks = some 1 ∧
      (s.ctx 0 .elastic).tasks[1]? = some { entry := 8192 } ∧
      (List.range 8).find? (fun j => ((s.ctx 0 .elastic).thread j).st == .free) = some 0 := by decide +kernel
/-- Core 0 whose elastic context is instance 0's, with the registers of a program load of the whole partition. -/
def pmReady : State := regs [(PRT_LC_INST 0, 0x1FF), (MEM_PM_DST 0, 0x10000), (MEM_PM_LEN 0, 0x30000)]
theorem witness_memPmGo : pmReady.writerOwns .mc 0 .elastic = true ∧ pmReady.fld (MEM_PM_LEN 0) 0 18 ≠ 0 ∧
    pmReady.fld (MEM_PM_LEN 0) 0 18 % 64 = 0 ∧ pmReady.fld (MEM_PM_DST 0) 0 18 % 64 = 0 ∧
    (pmBytes .elastic).1 ≤ pmReady.fld (MEM_PM_DST 0) 0 18 ∧
    pmReady.fld (MEM_PM_DST 0) 0 18 + pmReady.fld (MEM_PM_LEN 0) 0 18 ≤ (pmBytes .elastic).2 ∧ (pmReady.core 0).idle = true := by decide +kernel


/-- Instance 0, elastic, generation 1, of partition 0; its table maps the 1 GiB from address 0 to cluster SRAM, with every permission. -/
def mapped : State :=
  ((regs [(XLT_CTX 0 0, 1 + 1 <<< 16 + 0x100 <<< 32), (PRT_LC_INST 0, 0x1FF), (PRT_INST 0, 1)]).devStore 0x10000 8 (1 + 0x11000)).devStore 0x11000 8
    (1 + 1 <<< 1 + 0xF <<< 3 + 0x020000000000)

/-- A translation of core 0's elastic micro-TLB, of the hub's DMA TLB. -/
def cached : State := { mapped with tlb := [⟨.micro 0 .elastic, 0, 0, 30, 1 + 1 <<< 1 + 0xF <<< 3 + 0x020000000000, false⟩, ⟨.dma, 0, 0, 30, 1 + 1 <<< 1 + 0xF <<< 3 + 0x020000000000, false⟩] }

/-- The load's last 64 bytes. -/
theorem witness_programLoadEnd : let l : PmLoad := { ctx := .elastic, src := 0x400000, dst := 0x10000, len := 128, done := 64 }
    let s := cached.setCore 0 { load := some l }
    (s.core 0).load = some l ∧ l.done < l.len ∧ l.len ≤ l.done + 64 ∧
      ∃ a v e lv s1 s2, s.xlate (.micro 0 l.ctx) (s.instOf 0 l.ctx) (l.src + l.done) .read (l.ctx == .timed) = (.ok (.local a) e lv, s1) ∧
        s1.accRead a 64 (s.instOf 0 l.ctx) uProgLoad = ({ status := stOk, data := v }, s2) := by
  exact ⟨by decide +kernel, by decide +kernel, by decide +kernel, 0x020000400040, 0, false, 0, _, _, by rfl, by rfl⟩
theorem witness_fence : (State.reset.core 0).fenced = false ∧ (State.reset.core 511).fenced = false := by decide +kernel
/-- Core 0 has been fenced; logical number 0 waits for a spare, and then for the clearing of its scratch. -/
def fenced0 : State := { State.reset with handovers := [{ lc := 0, fromCore := 0 }] }
theorem witness_spareChoice : fenced0.handovers.find? (fun h => h.lc == 0 && h.spare.isNone) = some { lc := 0, fromCore := 0 } ∧
    fenced0.chooseSpare 0 = some 120 ∧ 0 < fenced0.grade.lcs := by decide +kernel
/-- Group 0 of Barista, of core 0 alone. -/
theorem witness_spareClear : let s := { regs [(BRS_GRP_STAT 0, 1), (BRS_GRP_CFG0 0, 1 <<< 9)] with
      handovers := [{ lc := 0, fromCore := 0, spare := some 120 }] }
    s.handovers.find? (fun h => h.lc == 0) = some { lc := 0, fromCore := 0, spare := some 120 } ∧ s.groupHolds 0 = true := by decide +kernel
theorem witness_spares : State.reset.chooseSpare 127 = some 120 ∧ (∃ r ∈ State.reset.spares 0, clusterOf r = clusterOf 127) ∧
    State.reset.chooseSpare 0 = some 120 ∧ (∀ r ∈ State.reset.spares 0, clusterOf r ≠ clusterOf 0) := by decide +kernel


/-! ### Witnesses: the vector engines -/

/-- Core 0's elastic context runs a kernel on VCE 0, at its first program word, which is w. -/
def vceAt (w : Nat) : State := State.reset.setCore 0 { pm := [(8192, w)], e := { vce0 := { job := some { tag := 0, gen := 0, evt := 0 }, pc := 8192 } } }

/-- Does the state meet what VceIssues asks for word w? -/
def issuesOk (w : Nat) : Bool :=
  let s := vceAt w
  s.vceMayIssue 0 0 .elastic && inProgram .elastic (s.vce 0 0 .elastic).pc && VWord.ofNat (Tbl.get 0 (s.core 0).pm (s.vce 0 0 .elastic).pc) == VWord.ofNat w
    && (VWord.ofNat w).rsvd == 0 && (vceFpOnly (VWord.ofNat w).op == false || (VWord.ofNat w).fp) && !(s.pmMarked 0 (s.vce 0 0 .elastic).pc)

theorem vceIssues_of {w : Nat} (h : issuesOk w = true) : VceIssues (vceAt w) v0 (VWord.ofNat w).op (VWord.ofNat w) := by
  simp only [issuesOk, Bool.and_eq_true, Bool.or_eq_true, beq_iff_eq, Bool.not_eq_true'] at h
  obtain ⟨⟨⟨⟨⟨a, b⟩, c⟩, d⟩, e⟩, f⟩ := h
  exact ⟨a, b, c, rfl, d, e, rfl, f⟩

/-- One word of each opcode with vector operands, on registers 0; FP32 where the opcode asks for it. -/
def vecWords : List Nat :=
  [0x01, 0x02, 0x10, 0x11, 0x12, 0x13, 0x14, 0x115, 0x16, 0x117, 0x18, 0x19, 0x11A, 0x1B, 0x1C, 0x1D, 0x120, 0x121, 0x122, 0x23, 0x1000000000124]

def runsOk (w : Nat) : Bool :=
  issuesOk w && ((vceAt w).vce 0 0 .elastic).checkOperands .elastic (VWord.ofNat w).operands == none
    && ((VWord.ofNat w).compute ((vceAt w).vce 0 0 .elastic) (vceSources (vceAt w) v0 (VWord.ofNat w))).isSome

theorem witness_vector : ∀ w ∈ vecWords, ∃ r, VceRuns (vceAt w) v0 (VWord.ofNat w).op (VWord.ofNat w) r := by
  intro w hw
  have h : runsOk w = true := (by decide +kernel : ∀ w ∈ vecWords, runsOk w = true) w hw
  simp only [runsOk, Bool.and_eq_true, beq_iff_eq, Option.isSome_iff_exists] at h
  obtain ⟨⟨a, b⟩, r, c⟩ := h
  exact ⟨r, vceIssues_of a, b, c⟩
/-- VADD and VSUB of CI16 registers 0 and 1 into 31. -/
theorem witness_vadd : ∀ w ∈ [0x10 + 31 <<< 9 + 1 <<< 21, 0x11 + 31 <<< 9 + 1 <<< 21],
    VceIssues (vceAt w) v0 (VWord.ofNat w).op (VWord.ofNat w) ∧ (VWord.ofNat w).fp = false ∧ (VWord.ofNat w).a < 32 ∧ (VWord.ofNat w).b < 32 ∧
      (VWord.ofNat w).d < 32 := by
  intro w hw
  have h := (by decide +kernel : ∀ w ∈ [0x10 + 31 <<< 9 + 1 <<< 21, 0x11 + 31 <<< 9 + 1 <<< 21], issuesOk w = true ∧ (VWord.ofNat w).fp = false ∧
    (VWord.ofNat w).a < 32 ∧ (VWord.ofNat w).b < 32 ∧ (VWord.ofNat w).d < 32) w hw
  exact ⟨vceIssues_of h.1, h.2⟩
/-- RPT and LOOP with count 0 and 65,535, and the other control words. -/
theorem witness_control : ∀ w ∈ [0x30, 0x30 + 65535 <<< 48, 0x31 + 1 <<< 9, 0x31 + 63 <<< 9 + 65535 <<< 48, 0x32, 0x33, 0x34, 0x35, 0x3F],
    VceIssues (vceAt w) v0 (VWord.ofNat w).op (VWord.ofNat w) := by
  intro w hw
  exact vceIssues_of ((by decide +kernel : ∀ w ∈ [0x30, 0x30 + 65535 <<< 48, 0x31 + 1 <<< 9, 0x31 + 63 <<< 9 + 65535 <<< 48, 0x32, 0x33, 0x34, 0x35,
    0x3F], issuesOk w = true) w hw)
/-- RPT of a VMOV. -/
def rptVmov : Core := { pm := [(8192, 0x30 + 1 <<< 48), (8193, 1)], e := { vce0 := { job := some { tag := 0, gen := 0, evt := 0 }, pc := 8192 } } }
theorem witness_rptNext : let s := State.reset.setCore 0 rptVmov
    VceIssues s v0 0x30 (VWord.ofNat (0x30 + 1 <<< 48)) ∧ bits (Tbl.get 0 (s.core 0).pm ((s.vce 0 0 .elastic).pc + 1)) 0 8 = 1 ∧
      (s.vce 0 0 .elastic).loopActive = false := by
  refine ⟨?_, by decide +kernel, by decide +kernel⟩
  constructor <;> decide +kernel
theorem witness_vceRun : let d := 1 + 8192 <<< 64
    let s := ectx { vce0 := { dq := one d } }
    s.owns 0 .elastic = true ∧ s.runBlocks 0 0 .elastic = false ∧ s.fld (VCE_CTRL 0 0) 0 1 ≠ 0 ∧ (s.vce 0 0 .elastic).job = none ∧
      (s.vce 0 0 .elastic).dq.canAccept = true ∧ (s.vce 0 0 .elastic).dq.q.pop = some ({ data := d }, {}) ∧
      bits d 32 16 = (s.vce 0 0 .elastic).dq.gen ∧ vceReserved d = false ∧ inProgram .elastic (bits d 64 15) = true := by decide +kernel
theorem witness_vceComplete : let j : VceJob := { tag := 0, gen := 0, evt := 255, stop := some stOk }
    let s := ectx { vce0 := { job := some j } }
    s.owns 0 .elastic = true ∧ (s.vce 0 0 .elastic).job = some j ∧ (s.vce 0 0 .elastic).runLeft = 0 ∧ j.flags = {} ∧ j.parked = false := by
  decide +kernel

/-! ### Witnesses: the tile mover -/

/-- A TME descriptor: COPY of 64 bytes of scratch, GATHER and SCATTER of one tile, SETCONV. -/
def tmeD (op : Nat) : Nat :=
  op + (if op = 2 ∨ op = 3 then 1 <<< 8 else 0) + 1 <<< 12 + (if op = 2 then 0x400000 else 0x80000) <<< 64
    + (if op = 2 then 0x80000 else 0x400000) <<< 128 + 64 <<< 192 + 32 <<< 224 + 1 <<< 240 + 128 <<< 256

theorem witness_tmeHead : ∀ op ∈ [1, 2, 3, 4], TmeHead (ectx { tme := { dq := one (tmeD op) } }) u0 op { data := tmeD op } {} := by
  intro op h
  simp only [List.mem_cons, List.not_mem_nil, or_false] at h
  rcases h with rfl | rfl | rfl | rfl <;> (constructor <;> decide +kernel)
theorem witness_setconv : ((ectx { tme := { dq := one (tmeD 4) } }).tme 0 .elastic).jobs = [] ∧ (TmeDesc.ofNat (tmeD 4)).spec = false := by
  decide +kernel
/-- A committed COPY is the oldest; one whose epoch is not decided by any group is discarded; one has ended. -/
theorem witness_tmeTransfer : let j : TmeJob := { desc := tmeD 1, committed := true }
    let s := ectx { tme := { jobs := [j] } }
    (s.tme 0 .elastic).head = some (0, j) ∧ s.tmeMoves 0 .elastic = true ∧ j.committed = true ∧ (TmeDesc.ofNat j.desc).op ≠ 4 ∧
      s.epochSays 0 (TmeDesc.ofNat j.desc) = some true := by decide +kernel
theorem witness_tmeDiscard : let j : TmeJob := { desc := tmeD 1 + 1 <<< 13 }
    let s := ectx { tme := { jobs := [j] } }
    (s.tme 0 .elastic).head = some (0, j) ∧ s.epochSays 0 (TmeDesc.ofNat j.desc) = some false := by decide +kernel
theorem witness_tmeComplete : let j : TmeJob := { desc := tmeD 1, ended := true }
    ((ectx { tme := { jobs := [j] } }).tme 0 .elastic).jobs = j :: [] ∧ j.ended = true ∧ j.staged = [] := by decide +kernel
theorem witness_tmeCtrl : (State.reset.tme 511 .timed).jobs = [] ∧ (State.reset.tme 511 .elastic).jobs = [] := by decide +kernel

/-- Behind a COPY that still runs, a GATHER from mapped cluster SRAM, with n of its pieces staged. -/
def aheadJobs (n : Nat) : List TmeJob :=
  [{ desc := tmeD 1, committed := true, staged := List.replicate n { piece := 0, buf := 0, data := [], poison := [] } },
   { desc := setBits (tmeD 2) 64 64 0x500000 }]
def ahead (n : Nat) : State := cached.setCtx 0 .elastic { tme := { jobs := aheadJobs n } }
theorem witness_runAhead : ∀ n ∈ [15, 16], let s := ahead n
    let j : TmeJob := { desc := setBits (tmeD 2) 64 64 0x500000 }
    (∃ j0, (s.tme 0 .elastic).head = some (0, j0)) ∧ (s.tme 0 .elastic).runAhead 0 = some (1, j) ∧ s.owns 0 .elastic = true ∧
      ((s.tme 0 .elastic).jobs.take 1).any (fun e => !e.ended &&
        overlapsDst ((TmeDesc.ofNat j.desc).source j.raNext).1 ((TmeDesc.ofNat j.desc).source j.raNext).2 (TmeDesc.ofNat e.desc)) = false ∧
      (s.tme 0 .elastic).held = n ∧
      (s.span (.micro 0 .elastic) (s.instOf 0 .elastic) .read false 3 ((TmeDesc.ofNat j.desc).source j.raNext).1
        ((TmeDesc.ofNat j.desc).source j.raNext).2).1 = .ok [(.local 0x020000500000, 4096)] 0 ∧
      (TmeDesc.ofNat j.desc).op = 2 ∧ s.poolCan 64 false = true := by
  intro n h
  simp only [List.mem_cons, List.not_mem_nil, or_false] at h
  rcases h with rfl | rfl <;> exact ⟨⟨_, rfl⟩, by decide +kernel⟩
theorem of_fst {α β : Type} {x : α × β} {a : α} (h : x.1 = a) : x = (a, x.2) := by rw [← h]
theorem witness_runAheadRead : ((ahead 0).readSegs 0 uTme none 0 [(.local 0x020000500000, 4096)]).1 = .ok 0 [] := by decide +kernel


/-! ### Witnesses: memory and translation -/

/-- Pool 0 of 4 KiB buffers in HBM, with 2 buffers. -/
def pooled : State := regs [(MEM_POOL_CFG 0, 1 + 2 <<< 7), (MEM_POOL_BASE 0, 0x100000)]
theorem witness_poolRequest : (pooled.poolCfg 0).1 = true ∧ (pooled.poolCfg 0).2.1 ≠ 0 ∧ pooled.poolCan 0 false = true ∧
    pooled.poolCan 0 true = true ∧ (pooled.pool 0).waiters = [] ∧ (State.reset.poolCfg 127).1 = true ∧ (State.reset.poolCfg 127).2.1 ≠ 0 ∧
    State.reset.poolCan 127 true = true := by decide +kernel
theorem witness_poolReturn : let o : PoolOwner := { port := 0, inst := 0, gen := 0, timed := false }
    let s := pooled.setPool 0 { owners := [(1, some o)] }
    (s.poolCfg 0).2.2.1 ≠ 0 ∧ 1 < (s.poolCfg 0).2.1 ∧ 0x101000 = (s.poolCfg 0).2.2.2.1 + 1 * (s.poolCfg 0).2.2.1 ∧
      Tbl.get none (s.pool 0).owners 1 = some o ∧ o.gen = s.instGen 0 := by decide +kernel
/-- Instance 0 of partition 0, whose Silo share is 1 GiB. -/
def siloShare : State := regs [(PRT_PART 0 1, 1 <<< 38)]
theorem witness_alloc : let req : AllocReq := { size := 16384, tier := 1, dieLocal := false, die := 0, lc := 0, page := 2 }
    siloShare.allocBad req = false ∧
      siloShare.shareUsed (siloShare.instPart 0) 1 false 0 + req.size.toNat * 65536 ≤ siloShare.share (siloShare.instPart 0) 1 false 0 ∧
      (siloShare.placeRegion 1 false 0 (req.size.toNat * 65536) 30).isSome = true ∧ siloShare.fld (PRT_PART (siloShare.instPart 0) 0) 1 1 = 0 := by
  decide +kernel
theorem witness_free : let r : Region := { inst := 0, va := 0x400000, size := 65536, tier := 1, local_ := false, unit := 0, base := 0x010000000000, lg := 16 }
    ({ State.reset with regions := [r] } : State).regions.find? (fun r => r.inst == 0 && r.va == 0x400000 && !r.brs) = some r := by decide +kernel

/-- A walk of the DMA TLB for instance 0: its page is mapped; it is not. -/
def walkAt (va : Nat) : Walk := { place := .dma, inst := 0, gen := 1, va := va, timed := false }
theorem witness_walkLeaf : let s := { mapped with walks := [walkAt 0x3FFFFFFF] }
    s.walks[0]? = some (walkAt 0x3FFFFFFF) ∧ s.inval = none ∧ (walkAt 0).gen = s.instGen 0 ∧ s.instValid 0 = true ∧
      ∃ e lg seen reads, s.walk 0 0x3FFFFFFF = .leaf e lg seen reads := by
  exact ⟨by decide +kernel, by decide +kernel, by decide +kernel, by decide +kernel, 1 + 1 <<< 1 + 0xF <<< 3 + 0x020000000000, 30,
    [⟨0, 0, 0, 1 + 0x11000⟩, ⟨0, 1, 0, 1 + 1 <<< 1 + 0xF <<< 3 + 0x020000000000⟩], [0x10000, 0x11000], by decide +kernel⟩
theorem witness_walkFault : let s := { mapped.devStore 0x11008 8 0 with walks := [walkAt 0x40000000] }
    s.walks[0]? = some (walkAt 0x40000000) ∧ s.inval = none ∧ (walkAt 0).gen = s.instGen 0 ∧ s.instValid 0 = true ∧
      s.walk 0 0x40000000 = .fault stFaultXlat cUnmapped 1 [⟨0, 0, 0, 1 + 0x11000⟩] [0x10000, 0x11008] := by decide +kernel
/-- A line of HBM shows a correctable error, a word of cluster SRAM too. -/
theorem witness_scrub : let s := (State.reset.devUpset 64 .corrected).devUpset 0x020000000000 .corrected
    s.dev.wf = true ∧ s.dev.marks.length = 2 ∧ (s.dev.marks.any (fun c => c.2 == 1 && s.tierOf c.1 == .hbm)) = true := by decide +kernel
theorem witness_inv : State.reset.fld XLT_INV_STATUS 0 1 = 0 ∧ (regs [(XLT_INV_SIZE, 1)]).fld XLT_INV_SIZE 0 32 ≠ 0 := by decide +kernel
theorem witness_invComplete : let v : Inval := { op := 1, inst := 0, addr := 0, size := 0 }
    let s := { cached with inval := some v }
    s.inval = some v ∧ s.inFlight v = false ∧ (∃ e ∈ s.tlb, v.covers e.inst e.base e.lg = true) := by decide +kernel
theorem witness_xltIfDone : let s := { State.reset with ifr := [(511, [0, 1])] }
    bits 2 0 5 ≠ 0 ∧ bits 2 0 5 ≤ (Tbl.get [] s.ifr 511).length := by decide +kernel

/-- A host DMA descriptor of opcode op: 64 bytes. -/
def dmaD (op : Nat) : Nat := op + 64 <<< 192
theorem witness_dmaAccept : ∀ op ∈ [1, 2], let s := State.reset.setDmaQ 0 { q := { items := [{ data := dmaD op }] } }
    (s.dmaQ 0).jobs = [] ∧ (s.dmaQ 0).q.pop = some ({ data := dmaD op }, {}) ∧ bits (dmaD op) 32 16 = (s.dmaQ 0).gen ∧
      dmaReserved (dmaD op) = false ∧ dmaLen (dmaD op) ≠ 0 ∧ dmaHost (dmaD op) % 64 = 0 ∧ dmaDev (dmaD op) % 64 = 0 ∧
      dmaLen (dmaD op) % 64 = 0 ∧ dmaCmpl (dmaD op) % 16 = 0 ∧ bits (dmaD op) 0 8 = op := by decide +kernel
theorem witness_dmaPiece : let s := State.reset.setDmaQ 511 { jobs := [{ desc := dmaD 1 }] }
    (s.dmaQ 511).jobs.find? (fun j => !j.ended) = some { desc := dmaD 1 } ∧ bits (dmaD 1) 32 16 = (s.dmaQ 511).gen := by decide +kernel
theorem witness_dmaComplete : let j : DmaJob := { desc := dmaD 1, ended := true, status := stOk }
    let s := State.reset.setDmaQ 511 { jobs := [j] }
    (s.dmaQ 511).jobs = [j] ∧ j.ended = true ∧ j.status = stOk ∧ s.detached 511 = false := by decide +kernel
theorem witness_gwComplete : let j : DmaJob := { desc := dmaD 1 + 0x400000 <<< 224, ended := true, status := stOk }
    let s := mapped.setGwQueue 0 { jobs := [j] }
    (s.gwQueue 0).jobs = [j] ∧ j.ended = true ∧ j.status = stOk ∧ bits j.desc 32 16 = (s.gwQueue 0).gen ∧
      (s.span .hub 0 .write (s.instTimed 0) 2 (gwCmpl j.desc) 16).1 = .ok [(.local 0x020000400000, 16)] 1 := by decide +kernel
theorem witness_memory : State.reset.devOk 0 64 = true ∧ State.reset.tierOf 0 = .hbm ∧ State.reset.devStorePoisoned 0 64 = false ∧
    State.reset.devOk 0x020000000000 1 = true ∧ State.reset.tierOf 0x020000000000 = .cluster 0 ∧
    State.reset.devStorePoisoned 0x020000000000 1 = false ∧ (State.reset.core 0).scr.writePoisoned 8 0x27FFFF 1 = false := by decide +kernel

/-! ### Witnesses: clocks, network time, compute gate lists -/

theorem witness_timePllLock : (regs [(CLK_STATUS, 1)]).fld CLK_STATUS 0 1 = 1 := by decide +kernel
theorem witness_glide : let s := regs [(CLK_ISL 63, 64 + 296 <<< 16 + 296 <<< 32)]
    State.reset.islMult 0 ≤ State.reset.islTarget 0 ∧ s.islTarget 63 < s.islMult 63 := by decide +kernel
theorem witness_clkTarget : (64 : BitVec 9).toNat = 64 ∧ (296 : BitVec 9).toNat = 296 ∧ (297 : BitVec 9).toNat = 297 := by decide
theorem witness_clkEn : State.reset.islIdle 0 = true ∧ State.reset.hubIdle 9 = true ∧ bit (State.reset.reg CLK_EN_ISL) 0 = true := by decide +kernel
theorem witness_timeStep : State.reset.fld TIME_SERVO_CFG 40 1 = 0 ∧ stepMin ≤ (879169497570 : BitVec 48).toNat ∧
    (880049106872 : BitVec 48).toNat ≤ stepMax ∧ (regs [(TIME_SERVO_CFG, 1 <<< 40)]).fld TIME_SERVO_CFG 40 1 = 1 := by decide +kernel
theorem witness_timeCmp : let s := regs [(TIME_CMP_CFG 15, 1)]
    s.fld (TIME_CMP_CFG 15) 0 1 = 1 ∧ s.fld (TIME_CMP_CFG 15) 2 1 = 0 ∧ s.fld (TIME_CMP_CFG 15) 1 1 = 0 ∧
      (s.elapse 0).reached (s.reg (TIME_CMP 15)) = true := by decide +kernel

/-- Compute gate list 0 runs one entry of 2,000 ns with a guard of 10 ns, from network time 0; reset state otherwise. -/
def cglRuns (stop : Bool) : State :=
  (regs [(CGL_STATUS, 1), (CGL_OPER_STAT 0, 1), (CGL_OPER_CYCLE 0, 2000), (CGL_OPER_ENT 0 0, 2000 + 10 <<< 48)]).setCgl 0 { stop := stop }
theorem witness_cglLast : ∀ b ∈ [false, true], (cglRuns b).running 0 = true ∧ ((cglRuns b).cglList 0).swap = none ∧
    ((cglRuns b).elapse 2500).reached (((cglRuns b).cglList 0).start + (cglRuns b).entEnd 0 ((cglRuns b).fld (CGL_OPER_STAT 0) 9 8)) = true ∧
    (cglRuns b).entEnd 0 ((cglRuns b).fld (CGL_OPER_STAT 0) 9 8) = (cglRuns b).fld (CGL_OPER_CYCLE 0) 0 24 ∧ ((cglRuns b).cglList 0).stop = b := by
  decide +kernel
theorem witness_cglNext : let s := regs [(CGL_STATUS, 1), (CGL_OPER_STAT 0, 2), (CGL_OPER_CYCLE 0, 2000), (CGL_OPER_ENT 0 0, 160), (CGL_OPER_ENT 0 1, 1840)]
    s.running 0 = true ∧ (s.cglList 0).swap = none ∧ (s.elapse 200).reached ((s.cglList 0).start + s.entEnd 0 (s.fld (CGL_OPER_STAT 0) 9 8)) = true ∧
      s.entEnd 0 (s.fld (CGL_OPER_STAT 0) 9 8) < s.fld (CGL_OPER_CYCLE 0) 0 24 := by decide +kernel
theorem witness_guardStart : (cglRuns false).running 0 = true ∧ bits ((cglRuns false).reg (CGL_OPER_ENT 0 ((cglRuns false).fld (CGL_OPER_STAT 0) 9 8))) 48 16 ≠ 0 ∧
    ((cglRuns false).elapse 2500).reached ((cglRuns false).guardAt 0) = true := by decide +kernel
theorem witness_cglSwap : let s := regs [(CGL_LIST_CFG 15, 1), (CGL_ADMIN_LEN 15, 1), (CGL_ADMIN_CYCLE 15, 2000), (CGL_ADMIN_ENT 15 0, 2000), (CGL_ADMIN_BASE 15, 20000)]
    s.fld (CGL_LIST_CFG 15) 0 1 = 1 ∧ (s.cglList 15).swap = none ∧ s.fld (CGL_ADMIN_LEN 15) 0 9 = 1 ∧ s.fld (CGL_ADMIN_CYCLE 15) 0 24 = 2000 ∧
      (∀ e < s.fld (CGL_ADMIN_LEN 15) 0 9, entBad 15 (s.reg (CGL_ADMIN_ENT 15 e)) = false) ∧ 20000 + s.nowNs = s.reg (CGL_ADMIN_BASE 15) := by decide +kernel
theorem witness_cglSwapApply : let w : CglSwap := { start := 0, base := 0, cycle := 2000, ents := [2000] }
    let s := State.reset.setCgl 15 { swap := some w }
    (s.cglList 15).swap = some w ∧ (s.elapse 0).reached w.start = true := by decide +kernel
/-- Core 0 belongs to the timed partition 0, and list 0 to that partition. -/
def timedPart : State := regs [(PRT_PART 0 0, 3 + 1 <<< 17), (PRT_PART_STAT 0, 2), (CGL_LIST_CFG 0, 1)]
theorem witness_lcGrpTimed : timedPart.lcPart 0 .timed = some (timedPart.fld (CGL_LIST_CFG 0) 1 4) := by decide +kernel
theorem witness_lcGrp : 479 < State.reset.grade.lcs ∧ State.reset.pendingGroup 479 = none ∧ (0x7F : BitVec 7).toNat = 0x7F := by decide +kernel
theorem witness_groupChange : let s := { State.reset with grpPend := [(479, 0x7F)] }
    s.pendingGroup 479 = some 0x7F ∧ s.changeWaits (s.lcGroup 479) 0x7F = none := by decide +kernel
theorem witness_starve : let s := State.reset.setCore 511 { owner := .timed, e := { tasks := [{}] } }
    (s.core 511).owner = .timed ∧ (s.core 511).fenced = false ∧ (s.core 511).e.holdsWork = true := by decide +kernel


/-! ### Witnesses: Barista -/

/-- Registers of a machine in which instance 0 of partition 0 runs and Barista is enabled: an elastic partition of core 0, a KV pool of one
buffer, a share of 1 GiB of HBM, a quota. -/
def brsRegs : List (Nat × Nat) :=
  [(XLT_CTX 0 0, 1), (PRT_INST 0, 1), (PRT_PART 0 0, 1 <<< 17), (PRT_PART 0 1, 1), (PRT_PART_STAT 0, 2), (BRS_CTRL, 1), (BRS_PART_QUOTA 0, 1),
   (MEM_POOL_CFG 0, 1 + 1 <<< 7)]
/-- Group 0 of it: one core, one sequence, pages of 16 tokens, a context of 16, a 6 MiB exchange area; its payload in three words. -/
def g0 : Nat := 1 <<< 9 + 1 <<< 18 + 1 <<< 34 + 1 <<< 47
def g1 : Nat := 1 + 0x7F <<< 26 + 1 <<< 33
def g2 : Nat := 16 + 3 <<< 20
def brsGrp : List (Nat × Nat) := [(BRS_GRP_STAT 0, 1), (BRS_GRP_CFG0 0, g0), (BRS_GRP_CFG1 0, g1), (BRS_GRP_CFG2 0, g2)]
/-- The channel to Barista holds one message, of tag 7. -/
def said (l : List (Nat × Nat)) (b : Brs) (code d : Nat) : State :=
  { (regs (brsRegs ++ l)).setChan 0 1 { q := { items := [{ data := code + 1 <<< 11 + 7 <<< 16 + d <<< 128 }] } } with brs := b }

/-- What BrsHead asks for. -/
def headOk (s : State) (code d : Nat) : Bool :=
  (s.chan 0 1).q.peek.map (fun x => bits x.2.data 0 8) == some code && (s.brsTake 0 code false).1 == some (7, d, false)

theorem brsHead_of {s : State} {code d : Nat} (h : headOk s code d = true) : BrsHead s 0 code 7 d (s.brsTake 0 code false).2 := by
  simp only [headOk, Bool.and_eq_true, beq_iff_eq, Option.map_eq_some_iff] at h
  obtain ⟨⟨⟨k, it⟩, hp, hb⟩, ht⟩ := h
  exact ⟨⟨k, it, hp, hb⟩, by rw [← ht]⟩

def brsWords : List (Nat × Nat) :=
  [(0x40, g0 + g1 <<< 64 + g2 <<< 128), (0x41, 0), (0x42, 1 <<< 8), (0x42, 0), (0x43, 1 <<< 16 + 1 <<< 48), (0x44, 0), (0x45, 0), (0x46, 3 <<< 32),
   (0x47, 0), (0x48, 1 <<< 16)]
theorem witness_brsHead : ∀ p ∈ brsWords, ∀ b ∈ [({} : Brs), { ents := [(0, { state := 1 })] }], ∀ l ∈ [[], brsGrp],
    BrsHead (said l b p.1 p.2) 0 p.1 7 p.2 ((said l b p.1 p.2).brsTake 0 p.1 false).2 := by
  intro p hp b hb l hl
  exact brsHead_of ((by decide +kernel : ∀ p ∈ brsWords, ∀ b ∈ [({} : Brs), { ents := [(0, { state := 1 })] }], ∀ l ∈ [[], brsGrp],
    headOk (said l b p.1 p.2) p.1 p.2 = true) p hp b hb l hl)

/-- The state that GRP_CREATE's message leaves, with what GRP_CREATE asks of it. -/
theorem witness_grpCreate : let d := g0 + g1 <<< 64 + g2 <<< 128
    let s1 := ((said [] {} 0x40 d).brsTake 0 0x40 false).2
    d < 2 ^ 192 ∧ bits d 0 64 = g0 ∧ bits d 64 64 = g1 ∧ bits d 128 64 = g2 ∧ s1.fld BRS_CTRL 0 1 ≠ 0 ∧ grpReserved g0 g1 g2 = false ∧
      s1.grpForeign 0 g0 g1 = false ∧ s1.grpBad g0 g1 g2 = false ∧ (List.range 64).find? (fun g => s1.grpState g == 0) = some 0 ∧
      bits g1 33 13 ≤ s1.quotaLeft (s1.instPart 0) ∧
      s1.shareUsed (s1.instPart 0) 0 false 0 + bits g2 20 12 * 0x200000 ≤ s1.share (s1.instPart 0) 0 false 0 ∧
      (s1.placeRegion 0 false 0 (bits g2 20 12 * 0x200000) 21).isSome = true ∧
      (s1.bindKey (s1.instPart 0) 0 0 0 (bits g2 20 12 * 0x200000)).isSome = true := by decide +kernel
/-- The state that a message about group 0 leaves: the group in its state, instance 0's, ADMIT's conditions. -/
theorem witness_admit : let d := 1 <<< 16 + 1 <<< 48
    let s1 := ((said brsGrp {} 0x43 d).brsTake 0 0x43 false).2
    d < 2 ^ 160 ∧ s1.fld BRS_CTRL 0 1 ≠ 0 ∧ s1.grpState 0 = 1 ∧ s1.grpInst 0 = 0 ∧ bits d 0 6 = 0 ∧ bits d 9 7 = 0 ∧ bits d 16 32 ≠ 0 ∧ bits d 48 32 ≠ 0 ∧
      bits d 80 32 % 64 = 0 ∧ bits d 128 32 % 8 = 0 ∧ bits d 80 32 + 4 * bits d 16 32 ≤ s1.grpXchSize 0 - s1.slabOff 0 ∧
      bits d 128 32 + 8 * bits d 112 16 ≤ s1.grpXchSize 0 - s1.slabOff 0 ∧ bits d 112 16 ≤ bits d 16 32 / s1.grpPageTok 0 ∧
      bits d 16 32 + bits d 48 32 ≤ s1.grpMaxCtx 0 ∧ s1.grpNb 0 ≤ (s1.poolCfg (s1.grpKvPool 0)).2.1 ∧ s1.grpUsed 0 < s1.grpQuota 0 ∧
      (s1.brsGrp 0).hold = false ∧ s1.grpState 0 ≠ 5 := by decide +kernel
theorem witness_hold : let s1 := ((said [(BRS_GRP_STAT 0, 2)] {} 0x42 0).brsTake 0 0x42 false).2
    s1.fld BRS_CTRL 0 1 ≠ 0 ∧ s1.grpState 0 = 2 ∧ s1.grpInst 0 = 0 := by decide +kernel
/-- The state that a message about sequence 0 leaves, generation 0. -/
theorem witness_seq : ∀ c ∈ [0x44, 0x45, 0x46, 0x47], let s1 := ((said brsGrp { ents := [(0, { state := 1 })] } c 0).brsTake 0 c false).2
    s1.fld BRS_CTRL 0 1 ≠ 0 ∧ (s1.brsEnt 0).state = 1 ∧ (s1.brsEnt 0).gen = 0 ∧ (s1.brsEnt 0).inst = 0 ∧ (s1.brsEnt 0).cancel = false ∧
      s1.grpState 0 ≠ 0 ∧ s1.grpInst 0 = 0 ∧ s1.grpPageTok 0 = s1.grpPageTok (s1.brsEnt 0).grp ∧ s1.grpUsed 0 < s1.grpQuota 0 := by decide +kernel
theorem witness_outDone : let s1 := ((said ((BRS_GRP_OUT 0, 1 <<< 32) :: brsGrp) {} 0x48 (1 <<< 16)).brsTake 0 0x48 false).2
    s1.fld BRS_CTRL 0 1 ≠ 0 ∧ s1.grpState 0 ≠ 0 ∧ s1.grpInst 0 = 0 ∧ bits (1 <<< 16) 16 13 ≠ 0 ∧ bits (1 <<< 16) 16 13 ≤ s1.fld (BRS_GRP_OUT 0) 32 14 := by
  decide +kernel
/-- Group 63 in its step, with a task that has ended, and with none. -/
def stepping (l : List BrsTask) (st : Bool) : State :=
  { regs [(BRS_GRP_STAT 63, 2)] with brs := { groups := [(63, { tasks := l, stalled := st })] } }
theorem witness_stepCommit : (stepping [] false).fld CLK_EN_HUB 19 1 = 1 ∧ (stepping [] false).grpState 63 ≠ 0 ∧ ((stepping [] false).brsGrp 63).stalled = false ∧
    (((stepping [] false).brsSend 63).brsGrp 63).tasks = [] ∧
    (let s := (stepping [{ pc := 0, desc := 0, ended := some stOk }] false).brsSend 63
     (s.brsGrp 63).tasks ≠ [] ∧ ∀ t ∈ (s.brsGrp 63).tasks, (s.taskStatus t).isSome) := by decide +kernel
theorem witness_outputRoom : ((stepping [] true).brsGrp 63).stalled = true ∧ (stepping [] true).outRoom 63 = true := by decide +kernel
theorem witness_blockMove : let s := { State.reset with brs := { moves := [5], blocks := [(5, some { grp := 0, place := 2 })] } }
    s.brs.moves[0]? = some 5 ∧ (s.brsBlk 5).place = 2 ∧ (∀ q, (s.brsEnt q).state ≠ 5) :=
  ⟨by decide +kernel, by decide +kernel, fun _ => (by decide : (0 : Nat) ≠ 5)⟩


/-! ### Witnesses: the fabric -/

/-- Partition 0 takes requests of its peer, of this card; its instance 0 owns cluster SRAM 0; inbox 0 with one slot there. -/
def fabRegs : List (Nat × Nat) :=
  [(PRT_PART_STAT 0, 2), (FAB_IN_CFG 0, 1), (FAB_PEER 0 0, 1 <<< 32), (FAB_XI_CFG 0, 1 + 1 <<< 25), (FAB_XI_BASE 0, 0x020000100000), (FAB_CTRL, 1)]
def fabOn (f : Fab) : State :=
  { regs fabRegs with
    regions := [{ inst := 0, va := 0x400000, size := 0x800000, tier := 2, local_ := false, unit := 0, base := 0x020000000000, lg := 21 }], fab := f }
/-- A request header: opcode, length, cluster SRAM 0. -/
def reqH (op len : Nat) : Nat := op + len <<< 16 + 0x020000000000 <<< 64
/-- Port 24 delivers v of n bytes. -/
def gets (f : Fab) (v n : Nat) : State := (fabOn f).setPort 24 { got := [(v, n, false)] }
def taken (f : Fab) (v n : Nat) : State := ((gets f v n).setPort 24 { (gets f v n).port 24 with got := [] }).bump64 FAB_RX_REQ_CNT 1

/-- Opcodes and a length of each. -/
def reqs : List (Nat × Nat) :=
  [(0x01, 8), (0x02, 8), (0x10, 8), (0x11, 16), (0x12, 8), (0x13, 8), (0x14, 32), (0x15, 4), (0x20, 192), (0x21, 96), (0x22, 16), (0x30, 64)]
theorem witness_fabHead : ∀ r ∈ reqs, FabHead (gets {} (reqH r.1 r.2) 32) 24 r.1 (reqH r.1 r.2) (taken {} (reqH r.1 r.2) 32) := by
  have h : ∀ r ∈ reqs, bits (reqH r.1 r.2) 0 8 = r.1 ∧
      (ReqHdr.ofNat (bits (reqH r.1 r.2) 0 256)).card = (taken {} (reqH r.1 r.2) 32).ownCard ∧
      ((taken {} (reqH r.1 r.2) 32).inboundStops (ReqHdr.ofNat (bits (reqH r.1 r.2) 0 256))).isNone = true ∧
      ((gets {} (reqH r.1 r.2) 32).port 24).got = [(reqH r.1 r.2, 32, false)] := by decide +kernel
  intro r hr
  obtain ⟨a, b, c, d⟩ := h r hr
  exact ⟨⟨32, [], d, rfl⟩, a, b, Option.isNone_iff_eq_none.1 c⟩
theorem witness_served : (∀ r ∈ reqs.take 8, ((taken {} (reqH r.1 r.2) 32).accessIn (ReqHdr.ofNat (bits (reqH r.1 r.2) 0 256)) 0).1.isSome = true) ∧
    ((taken {} (reqH 0x20 192) 32).dispatchIn (ReqHdr.ofNat (bits (reqH 0x20 192) 0 256)) 0).1.isSome = true := by decide +kernel
/-- A DISPATCH of ring 0, entry 0, under tag 0, whose output lies in cluster SRAM. -/
def req0 : FabReq := { op := 0x20, card := 0, part := 0, addr := 0, len := 192, owner := .dispatch 0 0, inst := noInst, gen := 0, timed := false }
def disp0 : Disp :=
  { ring := 0, entry := 0, inst := 0, req := req0, outGlobal := 0x020000000000, mode := 0, spec := false, epoch := 0, grp := 0, step := 0, outLen := 64, evt := 0,
    lc := 0 }
def dispFab (d : Disp) : Fab := { tags := [(0, some { req := req0 })], disp := [(0, some d)] }
theorem witness_combine : let v := reqH 0x21 96
    let h := ReqHdr.ofNat (bits v 0 256)
    let s2 := taken (dispFab disp0) v 32
    FabHead (gets (dispFab disp0) v 32) 24 0x21 v s2 ∧ Tbl.get none s2.fab.tags (bits (v >>> 256) 0 17) = some { req := req0 } ∧ s2.dispAt 0 0 = some disp0 ∧
      disp0.mode = bits (v >>> 256) 17 2 ∧ h.addr = disp0.outGlobal + bits (v >>> 256) 74 18 ∧ bits (v >>> 256) 74 18 + (h.len - 32) ≤ disp0.outLen := by
  refine ⟨⟨⟨32, [], by decide +kernel, rfl⟩, by decide +kernel, by decide +kernel, Option.isNone_iff_eq_none.1 (by decide +kernel)⟩, ?_⟩
  decide +kernel
/-- A frame of one LD and what its 64 bytes hold after it. -/
theorem witness_bulk : ((taken {} (reqH 0x30 64 + reqH 1 8 <<< 256) 96).frameRun false 256 (reqH 1 8) 64 (0, 0)).1.2 ≠ 0 := by decide +kernel

/-- A LD of a thread waits for a tag; it holds tag 0 and its reply has come to port 24. -/
def loadReq : FabReq := { op := 1, card := 0, part := 0, addr := 0x020000000000, len := 8, owner := .load 0 .elastic 0, inst := 0, gen := 0, timed := false }
theorem witness_fabricReply : let s := (fabOn { tags := [(0, some { req := loadReq })] }).setPort 24 { got := [(0x80 + 8 <<< 16, 24, false)] }
    (s.port 24).got = [(0x80 + 8 <<< 16, 24, false)] ∧ bits (0x80 + 8 <<< 16) 0 8 = 0x80 ∧
      Tbl.get none s.fab.tags (bits (0x80 + 8 <<< 16) 32 17) = some { req := loadReq } ∧ bits (0x80 + 8 <<< 16) 64 16 = loadReq.gen % 65536 ∧
      loadReq.gen = s.instGen 0 := by decide +kernel
theorem witness_tagGrant : let s := (fabOn { waiting := [loadReq] }).dropStale
    nextRequest s.fab.rr (·.unit) (fun r => !(s.throughGateway r.card) && s.tagOk r) s.fab.waiting = some (0, loadReq) ∧ s.unreachable 0 = false := by
  decide +kernel
/-- Card 1 lies behind gateway 1. -/
theorem witness_gwEntry : let r := { loadReq with card := 1 }
    let s := ({ regs ((FAB_ROUTE 1, 2 <<< 24) :: fabRegs) with fab := { waiting := [r] } } : State).dropStale
    (s.gateway 1).queue.length < 512 ∧
      nextRequest s.fab.rr (·.unit) (fun r => s.throughGateway r.card && gatewayOf r.card == 1) s.fab.waiting = some (0, r) := by decide +kernel
theorem witness_tags : let s := fabOn { tags := [(0, some { req := loadReq }), (131071, some { req := loadReq, quarantined := true })] }
    Tbl.get none s.fab.tags 0 = some { req := loadReq } ∧ Tbl.get none s.fab.tags 131071 = some { req := loadReq, quarantined := true } := by decide +kernel
theorem witness_xrTail : ((regs []).fld (FAB_XR_TAIL 63) 0 8 + 256 - (regs []).fld (FAB_XR_HEAD 63) 0 8) % 256 ≤
    ((255 : BitVec 8).toNat + 256 - (regs []).fld (FAB_XR_HEAD 63) 0 8) % 256 := by decide +kernel

/-- Ring 0 of instance 0 holds one entry: 64 bytes at 0x400000 to inbox directory entry 0, output at 0x500000. -/
def ringState : State :=
  { mapped with regs := (regs [(XLT_CTX 0 0, 1 + 1 <<< 16 + 0x100 <<< 32), (FAB_XR_CFG 0, 1), (FAB_XR_TAIL 0, 1), (FAB_XDIR 0 0, 1),
      (ringWord 0 0 2, 0x400000), (ringWord 0 0 3, 64 + 0x500000 <<< 32), (ringWord 0 0 5, 64 <<< 32)]).regs }
theorem witness_ringRead : let s := ringState
    let v := s.ringEnt 0 0
    s.nextRing = some 0 ∧ s.fld (FAB_XR_HEAD 0) 0 8 = 0 ∧ dispBad v (bit (s.reg (FAB_XR_CFG 0)) 20) = false ∧ bits v 192 16 = 64 ∧ bits v 352 24 = 64 ∧
      bits v 128 64 = 0x400000 ∧ bits v 224 64 = 0x500000 ∧ bit (s.reg (FAB_XDIR (bits v 0 16) 0)) 0 = true ∧
      bits (s.reg (FAB_XDIR (bits v 0 16) 0)) 20 4 = bits (s.reg (FAB_XR_CFG 0)) 10 4 ∧ bit v 48 = false ∧
      (let a := s.span .hub 0 .read false 3 0x400000 64
       let b := a.2.span .hub 0 .write false 4 0x500000 64
       let c := b.2.span .hub 0 .atom false 4 0x500000 64
       a.1 = .ok [(.local 0x020000400000, 64)] 1 ∧ b.1 = .ok [(.local 0x020000500000, 64)] 1 ∧ c.1 = .ok [(.local 0x020000500000, 64)] 1) := by decide +kernel
theorem witness_dispatchRetry : let s := fabOn (dispFab { disp0 with waiting := true })
    s.dispAt 0 0 = some { disp0 with waiting := true } ∧ s.dispTag 0 0 = some 0 ∧ s.unreachable 0 = false ∧ s.throughGateway 0 = false := by decide +kernel
theorem witness_dispatchEnd : let d := { disp0 with pieces := [{ off := 0, len := 64, status := some stOk }] }
    (fabOn (dispFab d)).dispAt 0 0 = some d ∧ d.outLen ≤ d.pieces.foldl (fun k p => k + p.len) 0 := by decide +kernel
theorem witness_inbox : let s := fabOn { arrived := [(63, [4094])], slots := [(slotKey 0 0, 4)], combining := [{ inbox := 0, slot := 0, left := 0 }] }
    let s' := fabOn { slots := [(slotKey 0 0, 2)] }
    Tbl.get [] s.fab.arrived 63 = [4094] ∧ 0 < s.fld (FAB_XI_CFG 0) 25 12 ∧ s.slotState 0 0 = 4 ∧ s'.slotState 0 0 = 2 ∧
      (s.fab.combining.any (fun c => c.inbox == 0 && c.slot == 0 && c.left == 0)) = true := by decide +kernel
theorem witness_gateway : ∀ op ∈ [1, 2], let s := State.reset.setGwQueue 511 { q := { items := [{ data := dmaD op }] } }
    (∀ j ∈ (s.gwQueue 511).jobs, j.ended = true) ∧ (s.gwQueue 511).q.pop = some ({ data := dmaD op }, {}) ∧ bits (dmaD op) 0 8 = op ∧
      bits (dmaD op) 32 16 = (s.gwQueue 511).gen ∧ gwReserved (dmaD op) = false ∧ gwLen (dmaD op) = 64 ∧ gwLocal (dmaD op) % 64 = 0 ∧
      gwRemote (dmaD op) % 64 = 0 ∧ gwCmpl (dmaD op) % 16 = 0 := by decide +kernel

/-! ### Witnesses: mailboxes -/

/-- Instance 511 runs. -/
def running : State := regs [(PRT_INST 511, 1)]
theorem witness_mbxSend : ∀ c ∈ [0, 1, 2], running.instState 511 ≠ 0 ∧ (running.chan 511 c).part < 4 ∧ (running.chan 511 c).used < mbxDepth := by decide +kernel
theorem witness_mbxMcSend : (running.chan 511 3).part < 4 ∧ (running.chan 511 3).q.items.length < mbxDepth := by decide +kernel
theorem witness_mbxEpSend : running.partFld (running.instPart 511) 49 9 = 0 ∧ running.partCtx (running.instPart 511) = .elastic ∧
    (running.chan 511 5).part < 4 ∧ (running.chan 511 5).q.items.length < mbxDepth ∧ running.dnRoom 511 5 = true := by decide +kernel
theorem witness_notice : let s := { running with notices := [(511, [3 <<< 512 + 0x23])] }
    Tbl.get [] s.notices 511 = [3 <<< 512 + 0x23] ∧ s.dnRoom 511 ((3 <<< 512 + 0x23) >>> 512) = true := by decide +kernel
theorem witness_mbxRecv : (running.chan 511 5).q.items = [] := by decide +kernel
/-- A message waits in the channel of instance 511 to the management cores; in the one to its endpoint. -/
theorem witness_mbxNext : ∀ c ∈ [0, 2], let s := running.setChan 511 c { q := { items := [{ data := 0x03 + 1 <<< 11 }] } }
    s.mbxNext (Tbl.get 511 s.epPtr 16) c (fun _ => true) = some 511 ∧ s.mbxNext (Tbl.get 511 s.epPtr 0) c (fun i => s.instPart i == 0) = some 511 ∧
      (s.mbxRead 511 c false).1 = some (0x03 + 1 <<< 11) := by decide +kernel
theorem witness_msix : Tbl.get 0 running.tdi 511 ≠ 1 ∧ Tbl.get 0 running.tdi 511 ≠ 2 ∧ 2 ∉ (running.msixOf 511).unmasked := by decide +kernel


/-! ### Witnesses: the links -/

/-- Port p in state st, with its link clock on, lane maps untouched and the spare usable. -/
def lnk (p st : Nat) (x : LnkPort := {}) : State :=
  (regs [(LNK_STATE p, st + 0xFF0 + 1 <<< 16)]).setPort p x
def copy1 : FlitCopy := { seq := 0, tc := false, hdr := 0 }
theorem witness_portCommands : ∀ p ∈ [(0 : Nat), 23], (∀ st ∈ [0, 3, 5, 7], (lnk p st).fld CLK_EN_HUB (linkEnBit p) 1 = 1 ∧ (lnk p st).portState p = st) ∧
    (let s := lnk p 3 { buf := [copy1] }
     s.fld CLK_EN_HUB (linkEnBit p) 1 = 1 ∧ s.portState p = 3 ∧ (s.port p).buf ≠ []) ∧
    (lnk p 3).swapPending p = false ∧ (lnk p 3).smap p false = 0xF ∧ (lnk p 3).spareOk p = true := by decide +kernel
theorem witness_announce : ∀ p ∈ [(0 : Nat), 23], (lnk p 1).portState p = 1 ∧ (0xFF00 : BitVec 72).toNat ≠ (lnk p 1).lnkKey p := by decide +kernel
theorem witness_arbitration : ∀ r ∈ [(0 : Nat), 71], let s := lnk 23 1 { bursts := 1, round := r }
    s.portState 23 = 1 ∧ isCopper 23 = true ∧ 1 ≤ (s.port 23).bursts ∧ (s.port 23).round < 72 := by decide +kernel
theorem witness_training : ∀ f ∈ [(0 : Nat), 3, 4, 5, 6], (lnk 23 2 { phase := f }).portState 23 = 2 ∧ ((lnk 23 2 { phase := f }).port 23).phase = f := by
  decide +kernel
theorem witness_trainingLanes : agreeLane (Tbl.get none (lnk 23 2 { phase := 5 }).laneRecs (2 * 23)) (some 7) = some 7 ∧
    agreeLane (Tbl.get none (lnk 23 2 { phase := 5 }).laneRecs (2 * 23 + 1)) none = some 0xF := by decide +kernel
theorem witness_recovery : (lnk 23 4).portState 23 = 4 ∧ ((lnk 23 4).port 23).disabling = false ∧ ((lnk 23 4).port 23).swaps = [] ∧
    ((lnk 23 4).port 23).dead = none := by decide +kernel
theorem witness_drainHold : let s := lnk 23 (5 + 1 <<< 18)
    s.portState 23 = 5 ∧ s.fld (LNK_STATE 23) 18 1 = 1 := by decide +kernel
theorem witness_downToArb : let s := (regs [(LNK_STATE 23, 5), (LNK_CFG 23, 8)]).setPort 23 { drainDone := true }
    s.portState 23 = 5 ∧ (s.port 23).drainDone = true ∧ s.fld (LNK_CFG 23) 3 1 = 1 ∧ s.fld CLK_STATUS 2 1 = 0 := by decide +kernel
theorem witness_replay : let s := lnk 23 3 { buf := [copy1] }
    s.portState 23 = 3 ∧ (s.port 23).buf ≠ [] := by decide +kernel
theorem witness_swapReq : (lnk 0 3).portState 0 = 3 ∧ isCopper 0 = false := by decide +kernel
theorem witness_swapAck : let w : LaneSwap := { lane := 7, tx := true, stage := 3 }
    let s := lnk 15 3 { swaps := [w] }
    s.portState 15 = 3 ∧ (s.port 15).swaps.find? (fun w => w.tx && w.stage == 3) = some w ∧ (s.port 15).swaps ≠ [] ∧ isCopper 15 = false := by decide +kernel
theorem witness_laneDriveOff : let w : LaneSwap := { lane := 7, tx := true, stage := 8 }
    ((lnk 15 3 { swaps := [w] }).port 15).swaps.find? (fun w => w.tx && w.stage == 8) = some w := by decide +kernel
theorem witness_laneLock : (lnk 15 3).portState 15 = 3 ∧ (lnk 15 4).portState 15 = 4 := by decide +kernel

/-! ### Witnesses: the FEC array and the cells -/

/-- Partition 0 owns pool 0, of 1 MiB buffers at the start of HBM region 1, with its first buffers granted. -/
def cellRegs (c mode mask : Nat) : List (Nat × Nat) :=
  -- mode, mu 1, 24 PRBs, FFT 512, port 0 sub 0, 4 antennas, 1 layer each way, weights 1
  [(FEC_CELL c 0, mode + 1 <<< 2 + 24 <<< 4 + 1 <<< 42 + 1 <<< 49 + 1 <<< 56 + 1 <<< 61),
   (FEC_CELL c 1, 1 <<< 2 + 1 <<< 7 + 1 <<< 28 + 1 <<< 38 + 2 <<< 48),
   (FEC_CELL c 2, 1 <<< 14 + 4 <<< 32 + mask <<< 52 + 4 <<< 54), (FEC_CELL c 3, 1 <<< 32 + 1 <<< 48), (FEC_CELL c 4, 1 + 1 <<< 8)]
/-- A pool of four 1 MiB buffers, all granted, of timed partition 0, which holds gate list 0; cell c has its buffers there. -/
def cellState (c mode mask : Nat) (more : List (Nat × Nat) := []) : State :=
  (regs ([(PRT_PART 0 0, 1), (PRT_PART_STAT 0, 2), (MEM_POOL_CFG 0, 1 + 8 <<< 3 + 4 <<< 7), (MEM_POOL_BASE 0, 0x1000000), (FH_CELLX c 0, 1),
    (FH_CELLX c 1, 0x1000000 <<< 16), (FH_CELLX c 2, 0x1100000)] ++ cellRegs c mode mask ++ more)).setPool 0
      { owners := (List.range 4).map (fun b => (b, some { port := 0, inst := 0, gen := 0, timed := true })) }
theorem witness_activate : ∀ c ∈ [(0 : Nat), 255], let s := cellState c 0 0
    s.fld CLK_EN_HUB 9 1 = 1 ∧ s.cellState c = 0 ∧ s.cellxBad c = false ∧ s.cellZero c = false ∧ s.cellBad3 c = false ∧ s.cellBad4 c = false ∧
      s.cellOver c = false := by decide +kernel
/-- Cell c in state st; what is kept of it. -/
def cellIn (c st : Nat) (x : CellSt := {}) (mode mask : Nat := 0) (more : List (Nat × Nat) := []) : State :=
  (cellState c mode mask ((FEC_CELL_STAT c, st) :: more)).setCellX c x
theorem witness_deactivate : (cellIn 255 2).cellState 255 ≠ 0 := by decide +kernel
theorem witness_cellFrame : let s := (cellIn 255 1 { actAt := 10000000 }).elapse 12500000
    s.cellState 255 = 1 ∧ s.reached (s.cellX 255).actAt = true := by decide +kernel
theorem witness_cellBack : ∀ st ∈ [3, 4], let s := (cellIn 255 st {} 0 0 [(TIME_STATUS, 1)]).elapse 0
    s.cellState 255 = st ∧ s.timeValid = true := by decide +kernel
theorem witness_holdover : let s := (cellIn 255 3 { since := 1 }).elapse 2500001
    s.cellState 255 = 3 ∧ s.timeValid = false ∧ s.cellFld 255 112 16 * 1250000 ≤ (2 ^ 64 + s.cnt - (s.cellX 255).since) % 2 ^ 64 := by decide +kernel
theorem witness_mapClear : let s := (cellIn 255 2).elapse 0
    s.cellState 255 ≠ 0 ∧ s.cellState 255 ≠ 1 ∧ (s.cellX 255).offNext = false ∧ ((cellIn 255 2 { offNext := true }).elapse 0).cellX 255 = { offNext := true } := by
  decide +kernel
theorem witness_symbolTime : ∀ v ∈ [(0 : Nat), 1], let s := ((cellIn 255 2).setSym (symKey 255 0 0 0 0) v).elapse 0
    s.cellOn 255 = true ∧ 0 < slotsOf (s.cellMu 255) ∧ s.symDue 255 0 0 0 0 = true ∧ s.symOf 255 0 0 0 0 = v := by decide +kernel
/-- A symbol of 512 bins, with power in the band and the same power beside it, where the mask allows 80·log10 of at most -80. -/
def maskState (mask : Nat) : State := cellIn 0 2 {} 2 mask [(FH_MASK_ENT 0 0, 0 + 10 <<< 13 + 0xFFB0 <<< 26 + 1 <<< 42)]
theorem witness_maskCheck : ∀ m ∈ [1, 2], let s := maskState m
    s.cellMode 0 = 2 ∧ s.cellFld 0 180 2 = m ∧ s.cellState 0 ≠ 0 ∧
      worst ((s.bump64 FH_MASK_CHK_CNT 1).maskFound 0 (List.replicate 11 0 ++ List.replicate 501 4)) = none ∧
      (worst ((s.bump64 FH_MASK_CHK_CNT 1).maskFound 0 (List.replicate 512 4))).isSome = true := by decide +kernel

/-- A job of opcode op for cell 0: 24 bits, one code block of 200 bits; decoders run 4 iterations, or a list of 1. -/
def fecD (op : Nat) : Nat :=
  op + (if op = 3 then 1 <<< 56 else 0) + 24 <<< 64 + 2 <<< 88 + 1 <<< 97 + 200 <<< 112 + 1 <<< 160 + (if op = 1 then 4 <<< 193 else 0)
    + 0x1000000 <<< 256 + 0x1100000 <<< 304 + 1000 <<< 352
theorem witness_fecPush : let s := regs [(FEC_QCFG 63, 1)]
    s.domOff 26 = false ∧ 63 ∉ s.retiredQ ∧ s.fld CLK_EN_HUB 9 1 = 1 ∧ s.fld (FEC_QCFG 63) 0 1 = 1 ∧
      ∀ op ∈ [1, 2, 3, 4], fecOp (fecD op) = op := by decide +kernel
def job (op : Nat) (started : Bool) (st : Nat) : FecJob :=
  { id := 0, q := 63, desc := fecD op, inst := 0, gen := 0, started := started, blocks := [{ st := st }] }
/-- Queue 63 with a job, and ring room. -/
def fecState (j : FecJob) (units : List (Nat × Option (Nat × Nat)) := []) : State :=
  { cellIn 0 2 {} 0 0 [(FEC_CTRL, 1)] with fec := { jobs := [j], next := 1, units := units } }
theorem witness_codeBlockStart : ∀ p ∈ [(1, 0), (2, 32), (3, 40), (4, 42)], let s := fecState (job p.1 false 0)
    (∀ j ∈ s.fec.jobs, s.fecLate j = false) ∧ s.fld FEC_CTRL 0 1 ≠ 0 ∧
      (List.range 44).findSome? (fun u => if s.unitFree u then (s.fecBest u).map (fun j => (u, j)) else none) = some (p.2, job p.1 false 0) := by
  decide +kernel
theorem witness_codeBlockEnd : let s := fecState (job 4 true 1) [(43, some (0, 0))]
    Tbl.get none s.fec.units 43 = some (0, 0) ∧ s.fec.jobs.find? (fun j => j.id == 0) = some (job 4 true 1) := by decide +kernel
theorem witness_fecJobComplete : let s := fecState (job 4 true 2)
    s.fec.jobs.find? (fun j => j.q == 63 && j.finished) = some (job 4 true 2) := by decide +kernel
theorem witness_fecDeadline : let s := (fecState (job 4 false 0)).elapse 1250
    s.fec.jobs.find? s.fecLate = some (job 4 false 0) := by decide +kernel
/-- And such a job is accepted: no row of Table 13.6 applies to it. -/
theorem test_fecJobAccepted : ∀ op ∈ [1, 2, 3, 4], ((fecState (job 1 true 2)).fecEnter 63 (fecD op) false).fec.jobs.length = 2 := by decide +kernel


/-! ### Witnesses: the traffic manager and the fronthaul ports -/

/-- Queue 0 of node 0 and class 0, of target t. -/
def tmRegs (t : Nat) : List (Nat × Nat) :=
  [(FH_PORT_STAT (t / 4), 2 <<< (2 * (t % 4))), (FH_PORT_STAT 0, 2), (TM_NODE 0, 1 + t <<< 1 + 1 <<< 10), (TM_QCFG 0, 1 + 200 <<< 41)]
def frame0 : TmFrame := { data := 0, len := 60, buf := 0 }
def tmState (t : Nat) (more : List (Nat × Nat)) (f : TmFrame) : State := (regs (tmRegs t ++ more)).tmEnqueue 0 f
theorem witness_tmPush : ∀ e ∈ [(0 : Nat), 63], let s := regs [(TM_ENQ_CFG e, 1)]
    0x100 + e ∉ s.retiredQ ∧ s.fld CLK_EN_HUB 0 1 = 1 ∧ s.fld (TM_ENQ_CFG e) 0 1 = 1 ∧ ∀ op ∈ [1, 2, 3], egOp op = op := by decide +kernel
theorem witness_frameTx : ∀ t ∈ [(0 : Nat), 28], let s := (tmState t [] frame0).elapse 1
    s.fhState t = 2 ∧ s.fld RAS_STATUS 1 1 = 0 ∧ (s.tmPick t 8).1 = some 0 ∧ (s.tmPick t 8).2.tmQ 0 = [frame0] := by decide +kernel
/-- A frame whose launch window has passed; one that waits for a target that is down; one longer than any opening of its gate. -/
theorem witness_headDrop :
    (let s := (tmState 0 [(TM_QCFG 0, 3 + 200 <<< 41)] frame0).elapse 1250
     s.tmQ 0 = [frame0] ∧ s.qTarget 0 < 32 ∧ s.tooLate 0 frame0 = true) ∧
    (let s := (tmState 0 [(FH_PORT_STAT 0, 1)] frame0).elapse 1
     s.tmQ 0 = [frame0] ∧ s.tooLate 0 frame0 = false ∧ s.fhState (s.qTarget 0) ≠ 2) ∧
    (let s0 := tmState 0 [(TM_GATE_OPER_STAT 0, 2 ^ 21 + 2), (TM_GATE_OPER_CYCLE 0, 1000), (TM_GATE_OPER_ENT 0 0, 20 + 1 <<< 24),
        (TM_GATE_OPER_ENT 0 1, 980)] { frame0 with len := 9000 }
     let s := (s0.setGate 0 { mask := 1 }).elapse 1
     s.tmQ 0 = [{ frame0 with len := 9000 }] ∧ s.tooLate 0 { frame0 with len := 9000 } = false ∧ s.fhState (s.qTarget 0) = 2 ∧
       s.gateNever (s.qTarget 0) (s.nodeClass (s.qNode 0)) 9004 = true) := by decide +kernel
theorem witness_egressComplete : let j : TmJob := { id := 0, win := 63, desc := 1, inst := 0, gen := 0, copies := [{ target := 0, queue := 0, left := 0 }] }
    let s : State := { regs [] with tm := { jobs := [j] } }
    s.tm.jobs.find? (fun j => j.win == 63 && j.copies.all (fun c => c.left == 0)) = some j := by decide +kernel
theorem witness_gateSwap : let s := regs [(TM_GATE_CFG 0, 1), (TM_GATE_ADMIN_LEN 0, 1), (TM_GATE_ADMIN_CYCLE 0, 1000), (TM_GATE_ADMIN_ENT 0 0, 1000 + 255 <<< 24)]
    s.fld CLK_EN_HUB 0 1 = 1 ∧ s.fld (TM_GATE_CFG 0) 0 1 ≠ 0 ∧ (s.gate 0).swap = none ∧ s.fhExists 0 = true ∧ s.fld (TM_GATE_ADMIN_LEN 0) 0 11 ≠ 0 ∧
      s.fld (TM_GATE_ADMIN_LEN 0) 0 11 ≤ s.gateShare 0 ∧ 1000 ≤ s.fld (TM_GATE_ADMIN_CYCLE 0) 0 24 ∧ s.fld (TM_GATE_ADMIN_CYCLE 0) 0 24 ≤ 10000000 ∧
      ∀ e ∈ s.gateAdmin 0, 20 ≤ gateDur e ∧ gateDur e ≤ 10000000 ∧ bits e 32 32 = 0 := by decide +kernel
theorem witness_gateStop : (regs [(TM_GATE_OPER_STAT 28, 2 ^ 21 + 1)]).gateRunning 28 = true := by decide +kernel
theorem witness_gateBoundary :
    (let w : CglSwap := { start := 0, base := 0, cycle := 1000, ents := [1000] }
     let s := ((regs []).setGate 28 { swap := some w }).elapse 1250
     (s.gate 28).swap = some w ∧ s.reached w.start = true ∧ s.gateRunning 28 = false) ∧
    (let s := (regs [(TM_GATE_OPER_STAT 28, 2 ^ 21 + 1), (TM_GATE_OPER_CYCLE 28, 1000)]).elapse 1250
     (s.gate 28).swap = none ∧ s.gateRunning 28 = true ∧
       s.reached ((s.gate 28).start + s.gateEnd 28 (s.fld (TM_GATE_OPER_STAT 28) 11 10)) = true) := by decide +kernel
theorem witness_hostRing : let s := (regs []).setWreg 511 0x3018 4096
    s.fld CLK_EN_HUB 0 1 = 1 ∧ (4096 : BitVec 13).toNat ≤ s.hrStat 511 ∧ (regs []).hrStat 511 = 0 ∧ (4096 : BitVec 13).toNat ≠ (regs []).hrSize 511 ∧
      hrSizeOk (4096 : BitVec 13).toNat = true := by decide +kernel
theorem witness_hostRingDeliver : let s := ((tmState 35 [] frame0).setWreg 0 0x3008 16).elapse 1
    (s.tmPick 35 1).1 = some 0 ∧ (s.tmPick 35 1).2.tmQ 0 = [frame0] := by decide +kernel
theorem witness_frameRx : let s := (regs [(FH_PORT_STAT 7, 2 <<< 6), (FH_CTRL, 1)]).elapse 1
    s.fhState 31 = 2 ∧ s.fld FH_CTRL 0 1 ≠ 0 := by decide +kernel
theorem witness_fhPort : ∀ st ∈ [(0 : Nat), 1, 2], let s := regs [(FH_PORT_STAT 7, st)]
    s.fld CLK_EN_HUB (1 + 7) 1 = 1 ∧ s.fhExists 28 = true ∧ s.fhState 28 = st := by decide +kernel


/-! ### Witnesses: partitions and instances -/

def prt (p : Fin 16) : PrtCmd := { wr := .mc, part := p, pgen := some 0 }
/-- Partition p, with one logical core, instance and host port, is in state st. -/
def partRegs (p st : Nat) : List (Nat × Nat) := [(PRT_PART p 0, 1 <<< 17 + 1 <<< 35 + 1 <<< 45), (PRT_PART_STAT p, st)]
theorem runs (p : Fin 16) (st : Nat) (l : List Nat) (h : (regs (partRegs p st)).fld PRT_CMD_STATUS 0 1 = 0)
    (h1 : (regs (partRegs p st)).pgen p.val = 0) (h2 : (regs (partRegs p st)).partState p.val ∈ l) : PrtRuns (regs (partRegs p st)) (prt p) l :=
  ⟨rfl, h, fun g hg => by cases hg; exact h1.symm, h2⟩
theorem witness_partCreate : PrtRuns (regs (partRegs 15 1)) (prt 15) [0, 1] ∧ (regs (partRegs 15 1)).partBad 15 = false ∧
    (regs (partRegs 15 1)).partClash 15 = false ∧ (regs (partRegs 15 1)).partShort 15 = false :=
  ⟨runs 15 1 _ (by decide +kernel) (by decide +kernel) (by decide +kernel), by decide +kernel⟩
theorem witness_partReset : PrtRuns (regs (partRegs 15 4)) (prt 15) [2, 4] ∧ PrtRuns (regs (partRegs 15 4)) (prt 15) [4] :=
  ⟨runs 15 4 _ (by decide +kernel) (by decide +kernel) (by decide +kernel), runs 15 4 _ (by decide +kernel) (by decide +kernel) (by decide +kernel)⟩
theorem witness_reclaim : PrtRuns (regs (partRegs 15 2)) (prt 15) [2] ∧ (regs (partRegs 15 2)).partTimed 15 = false :=
  ⟨runs 15 2 _ (by decide +kernel) (by decide +kernel) (by decide +kernel), by decide +kernel⟩
theorem witness_assign : PrtRuns (regs (partRegs 15 3)) (prt 15) [3] := runs 15 3 _ (by decide +kernel) (by decide +kernel) (by decide +kernel)
theorem witness_recover : PrtRuns (regs (partRegs 15 3)) (prt 15) [0, 2, 3] ∧ (regs (partRegs 15 3)).partInsts 15 = [] ∧
    (regs (partRegs 15 3)).partNamed 15 = false := ⟨runs 15 3 _ (by decide +kernel) (by decide +kernel) (by decide +kernel), by decide +kernel⟩
theorem witness_destroy : PrtRuns (regs (partRegs 15 1)) (prt 15) [1] ∧ (regs (partRegs 15 1)).partNamed 15 = false ∧
    (∀ g, g < 64 → (regs (partRegs 15 1)).grpState g = 0 ∨ (regs (partRegs 15 1)).grpPart g ≠ 15) :=
  ⟨runs 15 1 _ (by decide +kernel) (by decide +kernel) (by decide +kernel), by decide +kernel⟩
theorem witness_instCreate : PrtRuns (regs (partRegs 15 2)) (prt 15) [2] ∧ (regs (partRegs 15 2)).instCreatable 15 0 (1 <<< 2) = true ∧
    ((regs (partRegs 15 2)).setReg PRT_CMD_ARG (1 <<< 2)).instCreatable 15 0 (((regs (partRegs 15 2)).setReg PRT_CMD_ARG (1 <<< 2)).reg PRT_CMD_ARG) = true :=
  ⟨runs 15 2 _ (by decide +kernel) (by decide +kernel) (by decide +kernel), by decide +kernel⟩
/-- Instance 511 of partition 15 in state is, the partition in state st. -/
def inst511 (st is : Nat) (more : List (Nat × Nat) := []) : State :=
  regs (partRegs 15 st ++ [(PRT_INST 511, is + 15 <<< 2), (XLT_CTX 511 0, 1 + 30)] ++ more)
theorem witness_instCommands : (inst511 2 1).instState 511 = 1 ∧ (inst511 2 1).fld (PRT_INST 511) 2 4 = 15 ∧ (inst511 2 1).fld PRT_CMD_STATUS 0 1 = 0 ∧
    (inst511 2 1).pgen 15 = 0 ∧ (inst511 2 1).partState 15 ∈ [2, 4, 5] ∧ (inst511 2 1).partState 15 ∈ [1, 2, 4, 5] := by decide +kernel
theorem witness_instanceResetEnd : (inst511 2 2).instState 511 = 2 ∧ (inst511 2 2).instBusy 511 = false ∧ 511 ∉ (inst511 2 2).dying := by decide +kernel
theorem witness_instanceDestroyEnd : let s : State := { inst511 2 2 with dying := [511] }
    s.instState 511 = 2 ∧ s.instBusy 511 = false ∧ 511 ∈ s.dying := by decide +kernel
theorem witness_prtMode : (2 : BitVec 2).toNat ≠ (regs []).fld PRT_MODE 0 2 ∧ (regs []).locked = false ∧
    (let s := regs [(SEC_CFG_LOCK, 1), (PRT_MODE, 1)]
     (2 : BitVec 2).toNat ≠ s.fld PRT_MODE 0 2 ∧ s.locked = true ∧ ∀ p, p < 16 → s.partState p ∈ [0, 1, 3]) := by decide +kernel
theorem witness_lcInst : let s := (regs (partRegs 0 2 ++ [(PRT_INST 0, 1), (XLT_CTX 0 0, 1)]))
    s.tagAllowed 0 .timed (0x1FF : BitVec 9).toNat = true ∧ s.tagAllowed 0 .elastic (0 : BitVec 9).toNat = true ∧
      s.tagAllowed 479 .elastic (0x1FF : BitVec 9).toNat = true := by decide +kernel
theorem witness_reclaimInstant : let s := (regs (partRegs 15 4)).elapse 1
    s.partState 15 = 4 ∧ s.reached (s.reg (PRT_RECLAIM_AT 15)) = true := by decide +kernel
theorem witness_teardown : let s := (regs (partRegs 15 5)).elapse 1
    s.partState 15 = 5 ∧ (s.partSt 15).tearing = false ∧ s.tearReady 15 = true := by decide +kernel
theorem witness_zeroing : (regs (partRegs 15 6)).partState 15 = 6 := by decide +kernel

/-- Instance 0 of partition 0 in RUN, its cluster SRAM mapped at 0x400000; an operator's. -/
def sender (st : Nat) (more : List (Nat × Nat) := []) : State :=
  { mapped with regs := (regs ([(XLT_CTX 0 0, 1 + 1 <<< 16 + 0x100 <<< 32), (PRT_INST 0, 1 + 1 <<< 18)] ++ partRegs 0 st ++ more)).regs }
def progD : BitVec 384 := BitVec.ofNat 384 (1 <<< 9 + 0x400000 <<< 64 + 64 <<< 128)
theorem witness_progReg : let s := sender 2
    let v := progD.toNat
    s.instState 0 = 1 ∧ bits v 10 54 = 0 ∧ bits v 112 16 = 0 ∧ v < 2 ^ 146 ∧ bits v 128 18 = 64 ∧ 64 ≤ (pmBytes .elastic).2 - (pmBytes .elastic).1 ∧
      bits v 0 9 < s.grade.lcs ∧ s.lcPart (bits v 0 9) .elastic = some 0 ∧ (s.mcSpan 0 .read 5 (bits v 64 48) 64).toOption = some [(0x020000400000, 64)] ∧
      (s.spanBytes [(0x020000400000, 64)]).2 = false := by decide +kernel
def remoteD : BitVec 384 := BitVec.ofNat 384 (2 <<< 64 + 1 <<< 108)
theorem witness_mapRemote : let s := sender 2
    let v := remoteD.toNat
    bits v 0 48 = 0 ∧ bits v 50 14 = 0 ∧ v < 2 ^ 163 ∧ bits v 48 2 ≠ 3 ∧ bits v 64 32 ≠ 0 ∧ bits v 112 48 % 2 ^ pageLg (bits v 48 2) = 0 ∧
      s.freeVa 0 (bits v 64 32 * 2 ^ pageLg (bits v 48 2)) (pageLg (bits v 48 2)) + bits v 64 32 * 2 ^ pageLg (bits v 48 2) ≤ 2 ^ 48 := by decide +kernel
theorem witness_grantPeer : let s := sender 2 [(FAB_PEER 0 0, 1 <<< 32)]
    (BitVec.ofNat 384 (2 ^ 32 - 1)).toNat < 2 ^ 32 ∧ (List.range 64).find? (fun j => s.fld (FAB_PEER 0 j) 32 1 == 0) = some 1 := by decide +kernel
theorem witness_reclaimAck : ∀ st ∈ [4, 5], (sender st).instState 0 = 1 ∧ (sender st).partState 0 = st ∧ 0 ∉ ((sender st).partSt 0).acks := by decide +kernel
def partD : BitVec 384 := BitVec.ofNat 384 (5 + 1 <<< 17 + 0xFFFF <<< 32)
theorem witness_partCmd : let v := partD.toNat
    (sender 2).fld (PRT_INST 0) 18 1 ≠ 0 ∧ bits v 18 14 = 0 ∧ bits v 48 16 = 0 ∧ v < 2 ^ 128 := by decide +kernel


/-! ### Witnesses: hosts -/

/-- Port 3 is up, with functions 1 and 2; function 1 is instance 511 of partition 15, in RUN. -/
def hostState (more : List (Nat × Nat) := []) : State :=
  regs ([(PRT_PART 15 0, 1 <<< 17 + 1 <<< 35 + 1 <<< 45), (PRT_PART_STAT 15, 2), (PRT_INST 511, 1 + 15 <<< 2 + 3 <<< 6 + 1 <<< 8),
    (XLT_CTX 511 0, 1 + 30), (PRT_HPORT_STAT 3, 1 + 2 <<< 9 + 1 <<< 19)] ++ more)
def fn0 : FnAt := { port := 3, fn := 0 }
def fn1 : FnAt := { port := 3, fn := 1 }
theorem witness_hostLinkUp : (regs []).fld CLK_EN_HUB (11 + 3) 1 ≠ 0 ∧ bit (regs []).boot.hpEn 3 = true ∧ (6 : Fin 7).val ≠ 0 := by decide +kernel
theorem witness_flr : let s := hostState.bump (PRT_HPORT_FLR_CNT 3)
    (s.portInsts 3).find? (fun i => s.fld (PRT_INST i) 8 10 == 1) = some 511 := by decide +kernel
theorem witness_fn : hostState.fnAnswers fn0 = true ∧ hostState.fnAnswers fn1 = true ∧ hostState.fnInst fn1 = some 511 ∧ hostState.ideOk 511 none = true ∧
    hostState.fld (PRT_HPORT_STAT 3) 0 1 ≠ 0 := by decide +kernel
theorem witness_windows : winKind 0 = .push ∧ winKind 0x4000 = .push ∧ winKind 0x3020 = .write ∧ (0x4000 : BitVec 16).toNat % 64 = 0 ∧
    (0x81 * 128 : BitVec 17).toNat % 128 = 0 ∧ (0x80 : BitVec 17).toNat / 2 = 0x40 ∧ (0x180 : BitVec 17).toNat / 2 < 0x100 ∧
    (0x240 : BitVec 17).toNat % 16 = 0 ∧ 0x100 ≤ (0x240 : BitVec 17).toNat / 2 ∧ (0x10 : BitVec 17).toNat / 2 < 0x40 := by decide +kernel

/-! ### Witnesses: reset, start-up, images -/

def bootState (b : Boot) (more : List (Nat × Nat) := []) : State := { regs more with boot := b }
theorem witness_held : State.reset.boot.phase = .held := by decide +kernel
/-- An erased slot fails at its header. -/
theorem witness_rom : (bootState { phase := .rom 1 false false }).boot.phase = .rom 1 false false ∧ (bootState { phase := .rom 1 false false }).verify 1 ≠ 0 := by
  decide +kernel
theorem witness_fatalAutoReset : let s := (regs [(RAS_STATUS, 2), (RAS_FATAL_CFG, 3)]).elapse 2000000
    s.fld RAS_STATUS 1 1 = 1 ∧ s.fld RAS_FATAL_CFG 0 1 = 1 ∧ s.fatalAt + s.fld RAS_FATAL_CFG 1 16 * ticksMs ≤ s.cnt := by decide +kernel
theorem witness_recoveryWindow : (bootState { phase := .recovery }).boot.phase = .recovery ∧ (bootState { phase := .recovery }).fld SEC_RCV_STAT 0 1 ≠ 1 := by
  decide +kernel
theorem witness_imgRuns : ImgRuns (sender 2) 0 := by constructor <;> decide +kernel
def imgWriteD : BitVec 384 := BitVec.ofNat 384 (1 + 4095 <<< 12 + 0x400000 <<< 64 + 1 <<< 128)
theorem witness_imgWrite : let s := sender 2
    let v := imgWriteD.toNat
    bits v 1 11 = 0 ∧ bits v 24 40 = 0 ∧ bits v 112 16 = 0 ∧ v < 2 ^ 140 ∧ bits v 128 12 = 1 ∧ bits v 0 1 ≠ s.bootedSlot ∧ bits v 12 12 + 1 ≤ 4096 ∧
      (s.mcSpan 0 .read (1 / 16 + 2) (bits v 64 48) 4096).toOption = some [(0x020000400000, 4096)] ∧
      (s.spanBytes [(0x020000400000, 4096)]).2 = false := by decide +kernel
theorem witness_imgActivate : let s : State := { sender 2 with boot := { passed := [1] } }
    (1 : BitVec 384).toNat < 2 ∧ bits (1 : BitVec 384).toNat 0 1 ≠ s.bootedSlot ∧ bits (1 : BitVec 384).toNat 0 1 ∈ s.boot.passed := by decide +kernel
theorem witness_imgConfirm : (sender 2 [(SEC_BOOT_STAT, 2)]).fld SEC_BOOT_STAT 1 2 = 1 := by decide +kernel
theorem witness_psRestart : let s : State := { sender 2 with bank1 := { valid := true, seq := 0xFFFFFFFE } }
    s.newestBank = some 1 ∧ (s.bank 1).seq = 0xFFFFFFFE ∧ s.fld PRT_MODE 0 2 ≠ 1 ∧ s.boot.storeOp = none := by decide +kernel
theorem witness_psWrite : let s := (bootState { psDirty := true, psAt := some 0 }).elapse 1250000000
    s.boot.storeOp = none ∧ s.psPending = true ∧ s.boot.psAt = some 0 ∧ 0 + 1000 * ticksMs ≤ s.cnt ∧ s.newestBank = none := by decide +kernel
theorem witness_psWriteNext : let s := ({ bootState { psDirty := true } with bank0 := { valid := true, seq := 1 } } : State).elapse 1
    s.boot.storeOp = none ∧ s.psPending = true ∧ s.boot.psAt = none ∧ s.newestBank = some 0 ∧ (s.bank 0).seq ≠ 0xFFFFFFFE := by decide +kernel
theorem witness_flashOps : (bootState { storeOp := some (.store 0 1 {} false false) }).boot.storeOp = some (.store 0 1 {} false false) ∧
    (bootState { storeOp := some (.erase 1) }).boot.storeOp = some (.erase 1) ∧
    (bootState { imgOp := some (.units 1 4095 1 0 (some 0)) }).boot.imgOp = some (.units 1 4095 1 0 (some 0)) ∧
    (bootState { imgOp := some (.units 0 0 1 0 none) }).boot.imgOp = some (.units 0 0 1 0 none) := by decide +kernel
theorem witness_svn : let s : State := { bootState { phase := .rom 0 false true } with flash := [(6, 0), (7, 0)], fuses := { State.reset.fuses with svn := 1 } }
    s.boot.phase = .rom 0 false true ∧ s.imgSvn 0 < s.fuses.svn := by decide +kernel

/-! ### Witnesses: keys, sessions, Crema -/

theorem witness_lock : (regs []).locked = false ∧ (regs []).fld SEC_BOOT_STAT 20 1 ≠ 1 ∧ (regs []).fld PRT_MODE 0 2 = 0 ∧ (regs [(SEC_CFG_LOCK, 1)]).locked = true := by
  decide +kernel
def agreed : Spdm := { ver := true, caps := true, algs := true, sess := [(0x10000, true), (0x20000, false)] }
def spdmState : State := (hostState [(XLT_CTX 511 0, 1 + 30)]).setSpdm fn1 agreed
theorem witness_spdm : spdmState.fnAnswers fn1 = true ∧ (spdmState.spdmOf fn1).ver = true ∧ (spdmState.spdmOf fn1).caps = true ∧
    (spdmState.spdmOf fn1).algs = true ∧ (0 : BitVec 16).toNat = (spdmState.spdmOf fn1).chunkIn.getD 0 ∧
    (0 : BitVec 16).toNat = (spdmState.spdmOf fn1).chunkOut.getD 0 := by decide +kernel
theorem witness_session : InSpdm spdmState fn1 0x10000 true := by constructor <;> decide +kernel
theorem witness_newSession : InSpdm spdmState fn1 0x20000 false := by constructor <;> decide +kernel
theorem witness_ideGo : (spdmState.setStream 3 255 1).stream 3 255 ≠ 0 := by decide +kernel
theorem witness_tdi : spdmState.fnInst fn1 = some 511 ∧ spdmState.instState 511 = 1 ∧ spdmState.fld (PRT_INST 511) 6 2 = 3 ∧
    spdmState.fld (PRT_INST 511) 8 10 = 1 ∧ spdmState.tdiOf 511 = 0 := by decide +kernel
theorem witness_tdiStart : let s : State := { (spdmState.setTdi 511 1).setStream 3 0 2 with tdiStream := [(511, 0)] }
    s.tdiOf 511 = 1 ∧ s.stream 3 (Tbl.get 0x100 s.tdiStream 511) = 2 := by decide +kernel

def cremaState (x : CremaSlot) : State := (hostState [(SEC_CREMA_CTRL, 1)]).setCremaSlot 511 3 x
def cremaD (v : Nat) : BitVec 384 := BitVec.ofNat 384 (3 + v)
theorem witness_cremaOpen : (cremaState {}).instState 511 = 1 ∧ (∀ j ∈ (cremaState {}).cremaJobs, j.inst ≠ 511) ∧
    (cremaState {}).fld SEC_CREMA_CTRL 0 1 ≠ 0 ∧ cremaReserved 0x0A (cremaD 0).toNat = false ∧
    ((cremaState {}).cremaSlot 511 (bits (cremaD 0).toNat 0 2)).opened = false := by decide +kernel
theorem witness_cremaOthers : let s := cremaState { opened := true, nAdd := 1 }
    let add := (cremaD (1 <<< 4 + 2 ^ 40 <<< 64)).toNat
    let sl := (cremaD (64 <<< 64 + 0x400000 <<< 128 + 0x500000 <<< 192)).toNat
    (s.cremaSlot 511 3).opened = true ∧ (s.cremaSlot 511 3).nAdd ≠ 0 ∧ cremaReserved 0x0B add = false ∧ bits add 0 2 = 3 ∧ bits add 64 64 ≠ 0 ∧
      bits add 64 64 ≤ 2 ^ 40 ∧ cremaReserved 0x0C sl = false ∧ sealBad sl = false ∧ bits sl 64 64 ≠ 0 ∧ bits sl 0 2 = 3 ∧
      cremaReserved 0x0D (cremaD 0).toNat = false := by decide +kernel
theorem witness_cremaDone : let j : CremaJob := { inst := 511, op := 0x0C, pay := 0, begun := true }
    findIdx? (fun (j : CremaJob) => j.inst == 511 && j.begun) ({ hostState with cremaJobs := [j] } : State).cremaJobs = some (0, j) := by decide +kernel


/-! ### Witnesses: reliability, registers, power -/

theorem witness_escalation : let e : Escal := { row := 3, res := 5, count := 8 }
    (([] : List (Fin 8 × BitVec 16)).foldl (fun (s : State) b => s.countErr 22 b.1.val b.2.toNat) { regs [] with escal := [e] }).escal = [e] := by
  decide +kernel
theorem witness_thresholdWindow : let s := regs [(RAS_THR 22, 8 + 1 <<< 32)]
    s.cnt / (s.fld (RAS_THR 22) 32 16 * ticksMin) ≠ (s.elapse (60 * 1250000000)).cnt / (s.fld (RAS_THR 22) 32 16 * ticksMin) := by decide +kernel
theorem witness_rasIdle : (regs []).fld RAS_CMD_STATUS 0 1 ≠ 1 := by decide +kernel
theorem witness_fenceRecord : ∃ r ∈ ({ regs [] with fenceRecs := [(511, 0)] } : State).fenceRecs, r.1 = 511 := ⟨(511, 0), by decide +kernel, rfl⟩
def rot0 : Rot := { lc := 0, fromCore := 0, spare := 127 }
theorem witness_rotate : let s : State := { regs [] with rots := [rot0] }
    (0 : BitVec 9).toNat < s.grade.lcs ∧ (∃ r ∈ s.rots, r.lc = (0 : BitVec 9).toNat ∧ r.timedDone = false) ∧
      s.rots.find? (fun r => r.lc == 0 && !r.elasticDone) = some rot0 ∧ s.groupHolds 0 = false ∧ (s.ctx rot0.fromCore .elastic).busy = false :=
  ⟨by decide +kernel, ⟨rot0, by decide +kernel, rfl, rfl⟩, by decide +kernel, by decide +kernel, by decide +kernel⟩
theorem witness_rowRepair : let s := regs [(RAS_CMD_DETAIL, 4 * 2 ^ 30)]
    s.tierOf (s.fld RAS_CMD_DETAIL 0 48) = .hbm ∧ ({ s with repairs := [(0, true)] } : State).repairs = [(0, true)] := by decide +kernel
/-- The witness finds a suspect; in its period it takes the core that was tested longest ago. -/
theorem witness_suspect : let s := (regs [(RAS_CORE_HIST 5, 2 ^ 21)]).elapse 0
    (s.inService.filter (fun n => s.fld (RAS_CORE_HIST (s.phys n)) 21 1 == 1)).length = 1 := by decide +kernel
theorem witness_rotatePeriod : let s1 := (regs [(RAS_WIT_CFG, 1 + 1 <<< 1)]).elapse (60 * 60 * 1250000000)
    let s2 := { s1 with witAt := s1.cnt }
    s1.inService.filter (fun n => s1.fld (RAS_CORE_HIST (s1.phys n)) 21 1 == 1) = [] ∧ s1.fld RAS_WIT_CFG 0 1 ≠ 0 ∧
      s1.witAt + s1.fld RAS_WIT_CFG 1 8 * 60 * ticksMin / s1.grade.lcs ≤ s1.cnt ∧ (s2.oldestWitness s2.inService).isSome = true := by decide +kernel
theorem witness_suite : (regs []).suiteDue 511 = true := by decide +kernel
theorem witness_cardSwap : (regs []).unreachable (0 : BitVec 12).toNat = false ∧
    ∀ j, j < 16 → j ≠ 15 → (regs []).fld (RAS_CARD_SWAP j) 24 2 = 1 → (regs []).fld (RAS_CARD_SWAP j) 0 12 ≠ (7 : BitVec 12).toNat := by decide +kernel

/-- A register of the hub. -/
theorem witness_registerWrite : let s := regs []
    let a := MEM_POOL_BASE 63
    let v := 0x1000
    s.regAddr a = some a ∧ s.ownerReg .mc a v = none ∧ s.regGated a = false ∧ s.hubOwn .mc a v = none ∧
      ((regDesc? a).map (fun d => !(s.regBad d.base a (s.reg a) (d.apply s.locked (s.reg a) (regFix d.base a v)))
        && !(d.lockRefuses s.locked (s.reg a) (regFix d.base a v)))) = some true := by decide +kernel

theorem witness_powerOff : let s := regs [(CLK_EN_HUB, 0)]
    (20 : BitVec 5).toNat < 28 ∧ s.fld (PWR_DOM_STAT 20) 22 1 = 0 ∧ s.domState 20 = 0 ∧ s.mayPowerOff 20 = true := by decide +kernel
theorem witness_powerOn : let s := regs [(PWR_DOM_STAT 27, 2)]
    s.fld (PWR_DOM_STAT 27) 22 1 = 0 ∧ s.domState 27 = 2 ∧ s.ramping < 2 := by decide +kernel
theorem witness_powerWait : let s := regs [(PWR_DOM_STAT 27, 2), (PWR_DOM_STAT 0, 3), (PWR_DOM_STAT 1, 3)]
    s.domState 27 = 2 ∧ 2 ≤ s.ramping ∧ s.domState 0 = 3 := by decide +kernel
theorem witness_powerDrain : (regs [(PWR_DOM_STAT 27, 1)]).domState 27 = 1 ∧ (regs [(PWR_DOM_STAT 15, 3)]).domState 15 = 3 ∧
    (regs [(PWR_DOM_STAT 15, 3)]).rampWait = [] := by decide +kernel
theorem witness_cap : (450 : BitVec 12).toNat = 450 ∧ (2000 : BitVec 12).toNat = 2000 ∧ (449 : BitVec 12).toNat < 450 ∧
    (regs []).fld PWR_TIMED_BUDGET 0 12 + (regs []).fld PWR_CAP_CFG 20 12 ≤ 2000 ∧ (regs []).timedPower ≤ (0 : BitVec 12).toNat ∧
    (0 : BitVec 12).toNat + (regs []).fld PWR_CAP_CFG 20 12 ≤ (regs []).fld PWR_CAP 0 12 := by decide +kernel

/-! ### Witnesses: the machine as a whole -/

theorem witness_queue : let s : State := { regs [] with pending := [.rstNAssert, .lnkWindowEnd] }
    s.pending = [.rstNAssert, .lnkWindowEnd] ∧ (regs []).pending = [] := by decide +kernel
theorem witness_noSpare : ({ regs [] with failed := tabulate 128 (fun i => 384 + i) } : State).chooseSpare 511 = none := by decide +kernel
theorem witness_badBar : hostState.fld (PRT_HPORT_STAT 3) 0 1 ≠ 0 := by decide +kernel
theorem witness_hostsMayNot : (Instr.keyDestroy (.host 511) 1, SEC_KEY_CMD) ∈ [(Instr.keyGenerate (.host 511) 1 true, SEC_KEY_CMD), (.keyDestroy (.host 511) 1, SEC_KEY_CMD)] :=
  List.mem_cons_of_mem _ List.mem_cons_self
/-- A store that covers no poisoned word in part: to cluster SRAM, and to scratch. -/
theorem witness_store : (regs []).devOk 0x020000000001 8 = true ∧ (regs []).tierOf 0x020000000001 = .cluster 0 ∧
    (regs []).devStorePoisoned 0x020000000001 8 = false ∧ ((regs []).core 511).scr.writePoisoned 8 0x27FFF9 7 = false := by decide +kernel
/-- 1.5 on the grid of 1 becomes 2; 2^96 overflows. -/
theorem witness_anchored : (2 : Int) = ⌊(if false then -1 else 1 : ℚ) * (3 : Nat) * 2 ^ ((-1 : Int) - 0) + 1 / 2⌋ ∧ |(2 : Int)| < 2 ^ 96 ∧
    ((2 ^ 96 : Nat) : Int) = ⌊(if false then -1 else 1 : ℚ) * (2 ^ 96 : Nat) * 2 ^ ((0 : Int) - 0) + 1 / 2⌋ := by
  refine ⟨?_, by decide, ?_⟩
  · symm; rw [Int.floor_eq_iff]; norm_num
  · symm; rw [Int.floor_eq_iff]; norm_num
theorem witness_anchoredZero : (0 : Int) = ⌊(if true then -1 else 1 : ℚ) * (0 : Nat) * 2 ^ ((0 : Int) - 0) + 1 / 2⌋ := by
  symm; rw [Int.floor_eq_iff]; norm_num
/-- At width 2 the component 3 needs exponent 2: 3/2 + 1/2 is 2, and 3/4 + 1/2 rounds down to 1. Nothing makes 2^20 fit. -/
theorem witness_compression : (∀ x ∈ [(3 : Int)], -2 ^ (2 - 1) ≤ ⌊(x : ℚ) / 2 ^ 2 + 1 / 2⌋ ∧ ⌊(x : ℚ) / 2 ^ 2 + 1 / 2⌋ ≤ 2 ^ (2 - 1) - 1) ∧
    (∀ d < 2, ¬ ⌊((3 : Int) : ℚ) / 2 ^ d + 1 / 2⌋ ≤ 2 ^ (2 - 1) - 1) := by
  refine ⟨?_, ?_⟩
  · intro x hx
    have e : x = 3 := by simpa using hx
    subst e
    have : ⌊((3 : Int) : ℚ) / 2 ^ 2 + 1 / 2⌋ = 1 := by rw [Int.floor_eq_iff]; norm_num
    rw [this]; norm_num
  · intro d hd
    have : d = 0 ∨ d = 1 := by omega
    rcases this with rfl | rfl
    · have : ⌊((3 : Int) : ℚ) / 2 ^ 0 + 1 / 2⌋ = 3 := by rw [Int.floor_eq_iff]; norm_num
      rw [this]; norm_num
    · have : ⌊((3 : Int) : ℚ) / 2 ^ 1 + 1 / 2⌋ = 2 := by rw [Int.floor_eq_iff]; norm_num
      rw [this]; norm_num
theorem witness_compressionNone : ∀ e < 16, ¬ ⌊((2 ^ 20 : Int) : ℚ) / 2 ^ e + 1 / 2⌋ ≤ 2 ^ (2 - 1) - 1 := by
  intro e he h
  have h1 : ((2 ^ 20 : Int) : ℚ) / 2 ^ e + 1 / 2 < 2 := by
    have := Int.lt_floor_add_one (((2 ^ 20 : Int) : ℚ) / 2 ^ e + 1 / 2)
    have h2 : ((⌊((2 ^ 20 : Int) : ℚ) / 2 ^ e + 1 / 2⌋ : Int) : ℚ) ≤ 1 := by exact_mod_cast (by simpa using h)
    linarith
  have h3 : (2 : ℚ) ^ e ≤ 2 ^ 15 := pow_le_pow_right₀ (by norm_num) (by omega)
  have h4 : (2 : ℚ) ^ 20 / 2 ^ e ≥ 2 := by
    rw [ge_iff_le, le_div_iff₀ (by positivity)]
    calc (2 : ℚ) * 2 ^ e ≤ 2 * 2 ^ 15 := by linarith
      _ ≤ 2 ^ 20 := by norm_num
  push_cast at h1
  linarith


/-! ### Ill-formed commands that Instr.wf refuses -/

def bytes (n : Nat) : List Byte := List.replicate n 0
theorem bytes_length (n : Nat) : (bytes n).length = n := List.length_replicate
theorem test_wf_programLoadEnd : (Instr.programLoadEnd 0 (some (.ok (bytes 262145)))).wf = false := by
  change decide ((bytes 262145).length ≤ 262144) = false
  rw [bytes_length]; decide
theorem test_wf_tmeTransferDone : (Instr.tmeTransferDone u0 (some (.ok (bytes 4097)))).wf = false := by decide +kernel
theorem test_wf_scrub : (Instr.scrub [(0, .corrected), (0, .corrected)]).wf = false := by decide +kernel
theorem test_wf_dmaPieceDone : (Instr.dmaPieceDone 0 (.ok (bytes 4097))).wf = false := by decide +kernel
theorem test_wf_timeMarker : (Instr.timeMarker [(0, 1), (0, 2)] []).wf = false := by decide +kernel
theorem test_wf_stepCommit : (Instr.stepCommit 0 [3, 3]).wf = false := by decide +kernel
theorem test_wf_get : (Instr.get 0 false [.ok (bytes 4097)]).wf = false := by decide +kernel
theorem test_wf_put : (Instr.put 0 false [.poisoned, .ok (bytes 4097)]).wf = false := by decide +kernel
theorem test_wf_flitRx : (Instr.flitRx 0 0 0 [(1, 0), (1, 5)] false).wf = false := by decide +kernel
theorem test_wf_maskCheck : (Instr.maskCheck 0 0 0 0 (List.replicate 4097 0)).wf = false := by decide +kernel
theorem test_wf_frameRx : (Instr.frameRx 0 0 true (bytes 16384)).wf = false := by
  change decide ((bytes 16384).length < 16384) = false
  rw [bytes_length]; decide
theorem test_wf_instCreate : (Instr.instCreate { wr := .mc, part := 0, pgen := none } 0 true [{ va := 0, base := 0, page := 3, pages := 1 }]).wf = false := by
  decide +kernel
theorem test_wf_partCmd : (Instr.partCmd 0 0 true [{ va := 0, base := 0, page := 0, pages := 0 }]).wf = false := by decide +kernel
theorem test_wf_keyExchange : (Instr.keyExchange fn1 0 (2 ^ 768)).wf = false := by decide +kernel
theorem test_wf_escalation : (Instr.escalation [(0, 1), (0, 1)]).wf = false := by decide +kernel
theorem test_wf_witnessSuiteEnd : (Instr.witnessSuiteEnd 0 [(0, 0, 1), (0, 0, 2)]).wf = false := by decide +kernel
theorem test_wf_capPeriod : (Instr.capPeriod { pkg := 0, temps := [(0, 1), (0, 2)] }).wf = false := by decide +kernel
theorem test_wf_bar0Write : (Instr.bar0Write fn1 0 8 (2 ^ 64) 0 none).wf = false := by decide +kernel
theorem test_wf_hbmSiloTrainingDone : (Instr.hbmSiloTrainingDone [1, 1]).wf = false := by decide +kernel

/-! ### The spec's own worked values -/

/-- 02_numbers.md, Table 2.7. -/
theorem test_convert_bf16 : (FFmt.bf16.convert .rne false (fp32 0x3FC08000)).1 = 0x3FC0 ∧ (FFmt.bf16.convert .halfUp false (fp32 0x3FC08000)).1 = 0x3FC1 ∧
    (FFmt.bf16.convert .halfUp false (fp32 0xBFC08000)).1 = 0xBFC0 := by decide +kernel
theorem test_convert_e4m3 : (FFmt.e4m3.convert .rne false (fp32 0x41480000)).1 = 0x54 ∧ (FFmt.e4m3.convert .halfUp false (fp32 0x41480000)).1 = 0x55 ∧
    (FFmt.e4m3.convert .zero false (fp32 0x41480000)).1 = 0x54 := by decide +kernel
/-- The BX4 example of chapter 2: 0.375, 2.5 and −1.5. -/
theorem test_bx4 : let blk := 3 + 7 <<< 12 + 0xE <<< 80 + 0x7D <<< 128 + 0x48 <<< 136 + 0xC0 <<< 144 + 3 <<< 152 + 4 <<< 156
    (bx4Elem blk 0).same (.fin false 3 (-3)) = true ∧ (bx4Elem blk 3).same (.fin false 5 (-1)) = true ∧ (bx4Elem blk 20).same (.fin true 3 (-1)) = true := by
  decide +kernel
/-- The CI16 write-back example. -/
theorem test_ci16 : (ci16Component 98304 16).1 = 2 ∧ (ci16Component (-98304) 16).1 = 0xFFFF := by decide +kernel
/-- The block floating point example: exponent 2, 251 and −250, back to 1,004 and −1,000. -/
theorem test_bfp : bfpCompress 9 [1002, -1002] = (2, [251, 512 - 250]) ∧ (bfpDecompress 9 2 251).1 = 1004 ∧ (bfpDecompress 9 2 (512 - 250)).1 = 65536 - 1000 := by
  decide +kernel
/-- The anchored example of chapter 2, at A = −18, in two orders. -/
theorem test_anchored : let p1 : Machine.Num := .fin false 200704 0
    let p2 : Machine.Num := .fin true 200704 0
    let p3 : Machine.Num := .fin false 1 (-18)
    let r : Rec := { anchor := -18 }
    ([p1, p3, p2].foldl Rec.addTerm r) = ([p1, p2, p3].foldl Rec.addTerm r) ∧ ([p1, p3, p2].foldl Rec.addTerm r).sum = 1 ∧
      ([p1, p3, p2].foldl Rec.addTerm r).count = 3 ∧ (Rec.finishTo .fp32 .rne false ([p1, p3, p2].foldl Rec.addTerm r)).1 = 0x36800000 := by decide +kernel
/-- The interleave example of chapter 6: stack 5, then 4, pseudo-channel 8. -/
theorem test_interleave : hbmChannel 0x000102030400 = (5, 8) ∧ hbmChannel 0x000102030500 = (4, 8) := by decide +kernel
/-- The stamp example of chapter 8. -/
theorem test_stamp : extendStamp 0x17FFFFFF00 0x140 = 0x1800000140 ∧ extendStamp 0x17FFFFFF00 0xFFFFFE80 = 0x17FFFFFE80 := by decide +kernel
/-- The servo example of chapter 8: a sample of 37.5 ns. -/
theorem test_servo : ((regs []).servo 2457600).fld TIME_SERVO_ACC 0 48 = 4125 ∧ ((regs []).servo 2457600).fld TIME_STEP 0 48 = 879609232133 := by decide +kernel
/-- The spare of the example of chapter 1: LC170 on PC(1,6,2) goes to PC(1,15,0). -/
theorem test_spare : (regs []).phys 170 = 178 ∧ (regs []).chooseSpare 178 = some 248 := by decide +kernel
/-- The noise example of chapter 13 and the reference carriers of R361: a category B carrier weighs 16. -/
theorem test_weight : (regs [(FEC_CELL 0 0, 1 + 1 <<< 2 + 273 <<< 4 + 3 <<< 13 + 16 <<< 56 + 1 <<< 61)]).weightOf 0 = 16 := by decide +kernel
/-- MBX_STAT of the example of chapter 20: one entry of UP_MC held, one packet in DN_MC. -/
theorem test_mbxStat : let s := ((regs []).setChan 37 0 { held := [0] }).setChan 37 3 { q := { items := [{ data := 0 }] } }
    s.mbxStat 37 = 0xC20F := by decide +kernel
/-- The MXFP4 example of chapter 2. -/
theorem test_mxfp4 : mxEncode 11 .rne [.fin false 10 0, .fin true 3 (-2), .fin false 1 (-2)] = (0x80, [6, 9, 0], {}) := by decide +kernel

end Sys2Proof.Tests
end

section
/-!
PROOF. Steps: every command goes on, changes only the parts that `mayChange` names for it, and keeps the invariant (O2, O4).
-/
namespace Sys2Proof.Machine

open Sys2Proof.Safety

/-! ### Every command goes on -/

theorem execXltInvComplete_goes (s : State) : Goes (execXltInvComplete s) := by
  unfold execXltInvComplete Goes
  split
  · exact ⟨_, rfl⟩
  · split <;> exact ⟨_, rfl⟩

theorem execXltIfDone_goes (i : Fin 512) (v : Word) (s : State) : Goes (execXltIfDone i v s) := by
  simp only [execXltIfDone, Goes]
  split
  · exact ⟨_, rfl⟩
  · split <;> exact ⟨_, rfl⟩

/-- No command ends in a fault or a refusal: the meaning of each is a next state at once, but for the two that choose between next states. -/
theorem exec_goes (c : Instr) (s : State) : Goes (exec c s) := by
  cases c
  case xltInvComplete => exact execXltInvComplete_goes s
  case xltIfDone i v => exact execXltIfDone_goes i v s
  all_goals exact ⟨_, rfl⟩

/-! ### The parts that a list names, as the number that `foot` gives -/

/-- The number in which the bits of the listed parts are set. -/
def partsMask (l : List Field) : Nat := l.foldr (fun f m => 2 ^ f.bit ||| m) 0

theorem Field.bit_inj {f g : Field} (h : f.bit = g.bit) : f = g := by
  have left_inv : ∀ f : Field, allFields[f.bit]? = some f := by intro f; cases f <;> rfl
  exact Option.some_inj.1 (left_inv f ▸ left_inv g ▸ h ▸ rfl)

theorem mem_of_testBit_partsMask {l : List Field} {f : Field} (h : (partsMask l).testBit f.bit = true) : f ∈ l := by
  induction l with
  | nil => simp [partsMask] at h
  | cons g l ih =>
    simp only [partsMask, List.foldr_cons, Nat.testBit_or, Nat.testBit_two_pow, Bool.or_eq_true, decide_eq_true_eq] at h
    rcases h with h | h
    · exact Field.bit_inj h ▸ List.mem_cons_self
    · exact List.mem_cons_of_mem _ (ih h)

/-- The parts that `exec_keeps` lets a command change are those that `mayChange` names. -/
theorem foot_eq_partsMask_mayChange (c : Instr) : foot c = partsMask (mayChange c) := by cases c <;> rfl

/-- What a command's outcome is: a next state, with the queue as it was, the parts outside `mayChange` untouched, and a later state of the
same part. -/
theorem exec_next (c : Instr) (s : State) : ∃ t, exec c s = .next t ∧ t.pending = s.pending ∧ SameBut (mayChange c) s t ∧ Later s t := by
  obtain ⟨t, ht⟩ := exec_goes c s
  have k : Keeps (foot c) s t := exec_keeps c s t ht
  exact ⟨t, ht, k.pending, k.sameBut fun f hf => mem_of_testBit_partsMask (foot_eq_partsMask_mayChange c ▸ hf), k.later⟩

/-! ### A step -/

/-- A step goes on to a later state of the same part; the front command leaves the queue. -/
theorem step_next (s : State) : ∃ t, step s = .next t ∧ t.pending = s.pending.tail ∧ Later s t := by
  unfold step
  split
  case h_1 hp =>
    exact ⟨s.elapse 1, rfl, by simp [hp], ((Keeps.refl s).elapse (m := 2 ^ Field.bit .cnt) (.refl _)).later⟩
  case h_2 c rest hp =>
    obtain ⟨t, ht, pend, -, later⟩ := exec_next c { s with pending := rest }
    exact ⟨t, ht, by rw [pend, hp]; rfl, ⟨later.uid, later.grade, later.svn, fun h => later.inv ⟨h.dev, h.regs, h.svn⟩⟩⟩

/-- Settles O4: every command goes on, within the parts that `foot` numbers. -/
theorem commandsChangeOnlyTheirParts : Obligations.CommandsChangeOnlyTheirParts := by
  intro c s
  obtain ⟨t, ht, pend, same, -⟩ := exec_next c s
  exact ⟨t, ht, pend, same⟩

/-- Settles O2: a step goes on to a later state, and a later state keeps the invariant. -/
theorem everyStepGoesOnAndKeepsTheInvariant : Obligations.EveryStepGoesOnAndKeepsTheInvariant := by
  intro s inv wf
  obtain ⟨t, ht, pend, later⟩ := step_next s
  exact ⟨t, ht, later.inv inv, later, pend, fun c hc => wf c (List.mem_of_mem_tail (pend ▸ hc))⟩

end Sys2Proof.Machine
end

section
/-!
PROOF. Register writes: a write by the management cores to a register without a command of its own (O59).
-/
namespace Sys2Proof.Machine

/-- Fields that take a write without refusal: neither the register's rule nor a lock turns it away (R10, R11, R516). -/
theorem State.plainWrite_taken (s : State) (d : RegDesc) (a v : Nat)
    (bad : s.regBad d.base a (s.reg a) (d.apply s.locked (s.reg a) (regFix d.base a v)) = false)
    (free : d.lockRefuses s.locked (s.reg a) (regFix d.base a v) = false) :
    s.plainWrite d a v = (s.afterWrite (s.setReg a (d.apply s.locked (s.reg a) (regFix d.base a v))) d.base a (regFix d.base a v)).answer stOk := by
  simp [State.plainWrite, bad, free]

/-- A management core's write to a register that no owner, gate or command of its own takes is a plain write of its fields (R213, R514). -/
theorem State.regWrite_mc_plain (s : State) (d : RegDesc) (addr a v : Nat) (addrEq : s.regAddr addr = some a) (desc : regDesc? a = some d)
    (owner : s.ownerReg .mc a v = none) (on : s.regGated a = false)
    (own : (if 0x3200000 ≤ a then s.coreOwn .mc (Fin.ofNat 512 (a % 0x200000 / 0x1000)) (a % 0x1000) v else s.hubOwn .mc a v) = none) :
    s.regWrite .mc addr v = s.plainWrite d a v := by
  simp only [State.regWrite, addrEq, desc, owner, on, own, ne_eq, not_true, false_and, if_false, Bool.false_eq_true]

/-- Settles O59: nothing takes the write before its fields, and nothing refuses it there. -/
theorem registerWritesTakeEffect : Obligations.RegisterWritesTakeEffect := by
  intro s addr v a d addrEq desc owner on own bad free
  rw [exec_registerWrite, execRegisterWrite, s.regWrite_mc_plain d _ a _ addrEq desc owner on own, s.plainWrite_taken d a _ bad free]

end Sys2Proof.Machine
end

section
/-!
PROOF. Memory: a store word by word writes its bytes and no other, in a byte memory, behind the memory controllers and in scratch (O5).
-/
namespace Sys2Proof.Machine

open Sys2Proof.Safety

/-! ### A store word by word is the store of its bytes -/

theorem mem_tabulate {α : Type} {n : Nat} {f : Nat → α} {x : α} : x ∈ tabulate n f ↔ ∃ i < n, f i = x := by
  simp [tabulate]

theorem shiftRight_eight_mul (v k : Nat) : v >>> (8 * k) = v / 256 ^ k := by
  rw [Nat.shiftRight_eq_div_pow, Nat.pow_mul]

/-- The bytes after a store: little-endian within it (R7), as before outside. -/
theorem Mem.byte_store (m : Mem) (a n v b : Nat) :
    (m.store a n v).byte b = if a ≤ b ∧ b < a + n then v / 256 ^ (b - a) % 256 else m.byte b := by
  split
  case isTrue h =>
    obtain ⟨i, rfl⟩ := Nat.exists_eq_add_of_le h.1
    rw [Mem.byte_store_in _ _ _ _ _ (by omega), Nat.add_sub_cancel_left]
  case isFalse h => exact Mem.byte_store_out _ _ _ _ _ (by omega)

/-- The part of a store from byte lo to byte hi writes what the whole store does there. -/
theorem Mem.byte_store_part (m : Mem) {a n lo hi : Nat} (v b : Nat) (hlo : a ≤ lo) (hhi : hi ≤ a + n) :
    (m.store lo (hi - lo) (v >>> (8 * (lo - a)))).byte b = if lo ≤ b ∧ b < hi then (m.store a n v).byte b else m.byte b := by
  rw [Mem.byte_store, Mem.byte_store]
  by_cases h : lo ≤ b ∧ b < hi
  · rw [if_pos (by omega), if_pos h, if_pos (by omega), shiftRight_eight_mul, Nat.div_div_eq_div_mul, ← Nat.pow_add,
      show lo - a + (b - lo) = b - a by omega]
  · rw [if_neg (by omega), if_neg h]

/-- A store of n bytes at a may write word w: it covers the word whole, or the word is not poisoned (R152). -/
def Mem.Writable (m : Mem) (g a n w : Nat) : Prop := (a ≤ w ∧ w + g ≤ a + n) ∨ m.poisoned w = false

theorem Mem.writable_of_not_writePoisoned {m : Mem} {g a n : Nat} (h : m.writePoisoned g a n = false) :
    ∀ w ∈ granules g a n, m.Writable g a n w := by
  intro w hw
  have := List.any_eq_false.1 h w hw
  by_cases p : m.poisoned w = true
  · exact .inl (by simpa [p] using this)
  · exact .inr (by simpa using p)

/-- The bytes of a store that lie in word w, stored into a memory with the same bytes. -/
theorem Mem.byte_store_cut {m k : Mem} (same : ∀ c, k.byte c = m.byte c) (g a n v w b : Nat) :
    (k.store (max a w) (min (a + n) (w + g) - max a w) (v >>> (8 * (max a w - a)))).byte b =
      if w ≤ b ∧ b < w + g then (m.store a n v).byte b else m.byte b := by
  rw [Mem.byte_store_part k v b (Nat.le_max_left _ _) (Nat.min_le_left _ _), Mem.byte_store, Mem.byte_store, same]
  by_cases hb : a ≤ b ∧ b < a + n
  · simp only [hb, and_self, if_true, Nat.max_le, Nat.lt_min, true_and]
  · simp only [hb, if_false, ite_self]

/-- A word that may be written takes the bytes of the store that lie in it. -/
theorem Mem.byte_storeGranule {m : Mem} {g a n w : Nat} (v b : Nat) (h : m.Writable g a n w) :
    (m.storeGranule g a n v w).byte b = if w ≤ b ∧ b < w + g then (m.store a n v).byte b else m.byte b := by
  simp only [Mem.storeGranule]
  split
  case isTrue => exact Mem.byte_store_cut (fun c => Mem.byte_setPoison m w c false) ..
  case isFalse part =>
    have clean : m.poisoned w = false := h.resolve_left (by omega)
    rw [if_neg (by simp [clean])]
    exact Mem.byte_store_cut (fun _ => rfl) ..

/-- A word written poisons no word. -/
theorem Mem.writable_storeGranule {m : Mem} {g a n w u : Nat} (v : Nat) (h : m.Writable g a n w) (hu : m.Writable g a n u) :
    (m.storeGranule g a n v w).Writable g a n u := by
  refine hu.imp_right fun clean => ?_
  simp only [Mem.storeGranule]
  split
  case isTrue => simp [Mem.poisoned_setPoison, clean]
  case isFalse part =>
    have cleanW : m.poisoned w = false := h.resolve_left (by omega)
    simp [cleanW, clean]

/-- Writing a list of words, each of which may be written, stores the bytes that lie in them. -/
theorem Mem.byte_foldl_storeGranule {m : Mem} {g a n : Nat} {l : List Nat} (v b : Nat) (h : ∀ w ∈ l, m.Writable g a n w) :
    (l.foldl (fun m w => m.storeGranule g a n v w) m).byte b =
      if ∃ w ∈ l, w ≤ b ∧ b < w + g then (m.store a n v).byte b else m.byte b := by
  induction l generalizing m with
  | nil => simp
  | cons w l ih =>
    have hw : m.Writable g a n w := h w List.mem_cons_self
    rw [List.foldl_cons, ih fun u hu => Mem.writable_storeGranule v hw (h u (List.mem_cons_of_mem _ hu))]
    simp only [Mem.byte_store, Mem.byte_storeGranule v b hw, List.exists_mem_cons_iff]
    by_cases hb : a ≤ b ∧ b < a + n
    · by_cases inW : w ≤ b ∧ b < w + g
      · simp [hb, inW]
      · simp [hb, inW]
    · simp [hb]

/-- Every byte of an access lies in one of the words that it touches. -/
theorem exists_granule_of_mem {g a n b : Nat} (hg : 0 < g) (hb : a ≤ b ∧ b < a + n) : ∃ w ∈ granules g a n, w ≤ b ∧ b < w + g := by
  have first : a / g ≤ b / g := Nat.div_le_div_right hb.1
  have last : b / g ≤ (a + n - 1) / g := Nat.div_le_div_right (by omega)
  refine ⟨b / g * g, ?_, Nat.div_mul_le_self b g, Nat.lt_div_mul_add hg⟩
  rw [granules, if_neg (by omega), mem_tabulate]
  exact ⟨b / g - a / g, by omega, by rw [Nat.add_sub_cancel' first]⟩

/-- A store that meets no poisoned word it covers in part writes all its bytes and no other (R7, R152). -/
theorem Mem.byte_write {m : Mem} {g a n : Nat} (hg : 0 < g) (h : m.writePoisoned g a n = false) (v b : Nat) :
    (m.write g a n v).byte b = (m.store a n v).byte b := by
  rw [Mem.write, Mem.byte_foldl_storeGranule v b (Mem.writable_of_not_writePoisoned h)]
  by_cases hb : a ≤ b ∧ b < a + n
  · rw [if_pos (exists_granule_of_mem hg hb)]
  · rw [Mem.byte_store, if_neg hb, ite_self]

theorem Mem.load_congr {m k : Mem} {a n : Nat} (h : ∀ b, a ≤ b → b < a + n → m.byte b = k.byte b) : m.load a n = k.load a n := by
  induction n generalizing a with
  | zero => rfl
  | succ n ih => rw [Mem.load, Mem.load, h a (by omega) (by omega), ih fun b hl hh => h b (by omega) (by omega)]

theorem Mem.load_one (m : Mem) (a : Nat) : m.load a 1 = m.byte a := rfl

/-- What was stored word by word is read back. -/
theorem Mem.load_write {m : Mem} {g a n : Nat} (hg : 0 < g) (h : m.writePoisoned g a n = false) (v : Nat) :
    (m.write g a n v).load a n = v % 256 ^ n := by
  rw [Mem.load_congr fun b _ _ => Mem.byte_write hg h v b, Mem.load_store]

theorem Mem.byte_write_out {m : Mem} {g a n : Nat} (hg : 0 < g) (h : m.writePoisoned g a n = false) (v : Nat) {b : Nat} (out : b < a ∨ a + n ≤ b) :
    (m.write g a n v).byte b = m.byte b := by
  rw [Mem.byte_write hg h, Mem.byte_store_out _ _ _ _ _ out]

/-! ### Behind the memory controllers: ranges whose contents are lost (R450) -/

/-- Whose free contents a byte shows: the first of the lost ranges that holds it. -/
def lossAt (l : List (Nat × Nat × Nat)) (b : Nat) : Option Nat :=
  (l.find? (fun r => decide (r.1 ≤ b) && decide (b < r.1 + r.2.1))).map (·.2.2)

/-- The byte that a read behind the controllers shows. -/
def State.heldByte (s : State) (b : Nat) : Nat := (lossAt s.lost b).elim (s.dev.byte b) (fun k => Config.lostByte k b % 256)

theorem lossAt_append (l k : List (Nat × Nat × Nat)) (b : Nat) : lossAt (l ++ k) b = (lossAt l b).or (lossAt k b) := by
  rw [lossAt, List.find?_append, Option.map_or]
  rfl

theorem lossAt_cons (r : Nat × Nat × Nat) (l : List (Nat × Nat × Nat)) (b : Nat) :
    lossAt (r :: l) b = if r.1 ≤ b ∧ b < r.1 + r.2.1 then some r.2.2 else lossAt l b := by
  by_cases h : r.1 ≤ b ∧ b < r.1 + r.2.1 <;> simp [lossAt, h]

theorem lossAt_ite_singleton (c : Prop) [Decidable c] (r : Nat × Nat × Nat) (b : Nat) :
    lossAt (if c then [r] else []) b = if c ∧ r.1 ≤ b ∧ b < r.1 + r.2.1 then some r.2.2 else none := by
  by_cases h : c
  · simp only [h, if_true, true_and, lossAt_cons]
    rfl
  · simp only [h, if_false, false_and]
    rfl

/-- Of one lost range, the bytes outside those cut out stay lost: the pieces below and above them. -/
theorem lossAt_cutRanges_singleton (a n : Nat) (r : Nat × Nat × Nat) (b : Nat) :
    lossAt (cutRanges a n [r]) b = if ¬(a ≤ b ∧ b < a + n) ∧ r.1 ≤ b ∧ b < r.1 + r.2.1 then some r.2.2 else none := by
  have pieces : (¬(a ≤ b ∧ b < a + n) ∧ r.1 ≤ b ∧ b < r.1 + r.2.1) ↔
      (r.1 < a ∧ r.1 ≤ b ∧ b < r.1 + min r.2.1 (a - r.1)) ∨
      (a + n < r.1 + r.2.1 ∧ max r.1 (a + n) ≤ b ∧ b < max r.1 (a + n) + (r.1 + r.2.1 - max r.1 (a + n))) := by omega
  rw [cutRanges, List.flatMap_singleton, lossAt_append, lossAt_ite_singleton, lossAt_ite_singleton, if_congr pieces rfl rfl, ite_or]
  split <;> rfl

/-- Cutting a range out of the lost ones leaves the bytes outside it lost as before, and those in it not lost. -/
theorem lossAt_cutRanges (a n : Nat) (l : List (Nat × Nat × Nat)) (b : Nat) :
    lossAt (cutRanges a n l) b = if a ≤ b ∧ b < a + n then none else lossAt l b := by
  induction l with
  | nil => simp [cutRanges, lossAt]
  | cons r l ih =>
    have cut : cutRanges a n (r :: l) = cutRanges a n [r] ++ cutRanges a n l := by simp [cutRanges]
    rw [cut, lossAt_append, lossAt_cutRanges_singleton, ih, lossAt_cons]
    by_cases hb : a ≤ b ∧ b < a + n
    · simp [hb]
    · by_cases hr : r.1 ≤ b ∧ b < r.1 + r.2.1 <;> simp [hb, hr]

theorem State.lostLoad_succ (s : State) (a n : Nat) : s.lostLoad a (n + 1) = s.heldByte a + 256 * s.lostLoad (a + 1) n := by
  unfold State.heldByte lossAt
  rw [State.lostLoad]
  cases s.lost.find? (fun r => decide (r.1 ≤ a) && decide (a < r.1 + r.2.1)) <;> rfl

/-- A read behind the controllers is a memory's read of the bytes that they show. -/
theorem State.tierLoad_eq_load {s : State} {m : Mem} {a n : Nat} (h : ∀ b, a ≤ b → b < a + n → s.heldByte b = m.byte b) :
    s.tierLoad a n = m.load a n := by
  unfold State.tierLoad
  split
  case isTrue isNil =>
    refine Mem.load_congr fun b hl hh => ?_
    rw [← h b hl hh, State.heldByte, List.isEmpty_iff.1 isNil]
    rfl
  case isFalse =>
    induction n generalizing a with
    | zero => rfl
    | succ n ih =>
      rw [State.lostLoad_succ, Mem.load, h a (by omega) (by omega), ih fun b hl hh => h b (by omega) (by omega)]

theorem State.tierLoad_one (s : State) (b : Nat) : s.tierLoad b 1 = s.heldByte b := by
  unfold State.tierLoad
  split
  case isTrue isNil => rw [State.heldByte, List.isEmpty_iff.1 isNil]; rfl
  case isFalse => exact s.lostLoad_succ b 0

/-! ### Stores at a device-local address -/

theorem Tier.granule_pos (t : Tier) : 0 < t.granule := by cases t <;> simp [Tier.granule]

/-- Away from scratch, a read at a device-local address is one behind the controllers. -/
theorem State.devLoad_of_not_scratch {s : State} {a : Nat} (h : ∀ lc off, s.tierOf a ≠ .scratch lc off) (n : Nat) :
    (s.devLoad a n).1 = s.tierLoad a n := by
  unfold State.devLoad
  split
  case h_1 lc off e => exact absurd e (h lc off)
  case h_2 => rfl

/-- The state with another device memory and other lost ranges. -/
def State.withMem (s : State) (m : Mem) (l : List (Nat × Nat × Nat)) : State := { s with dev := m, lost := l }

@[simp] theorem State.tierOf_withMem (s : State) (m : Mem) (l : List (Nat × Nat × Nat)) (a : Nat) : (s.withMem m l).tierOf a = s.tierOf a := rfl

theorem State.withMem_frame (s : State) (m : Mem) (l : List (Nat × Nat × Nat)) : SameBut [.dev, .lost] s (s.withMem m l) := by
  intro f hf
  cases f
  case dev => exact absurd (by decide) hf
  case lost => exact absurd (by decide) hf
  all_goals rfl

/-- Away from scratch, a store changes the device memory, and nothing it wrote stays lost. -/
theorem State.devStore_of_not_scratch {s : State} {a : Nat} (h : ∀ lc off, s.tierOf a ≠ .scratch lc off) (n v : Nat) :
    s.devStore a n v = s.withMem (s.dev.write (s.tierOf a).granule a n v) (cutRanges a n s.lost) := by
  unfold State.devStore
  split
  case h_1 lc off e => exact absurd e (h lc off)
  case h_2 => rfl

theorem State.devStorePoisoned_of_not_scratch {s : State} {a : Nat} (h : ∀ lc off, s.tierOf a ≠ .scratch lc off) (n : Nat) :
    s.devStorePoisoned a n = s.dev.writePoisoned (s.tierOf a).granule a n := by
  unfold State.devStorePoisoned
  split
  case h_1 lc off e => exact absurd e (h lc off)
  case h_2 => rfl

/-- A byte's read depends, of the device memory and the lost ranges, on what the controllers show of it only. -/
theorem State.devLoad_one_congr (s : State) (m : Mem) (l : List (Nat × Nat × Nat)) (b : Nat)
    (h : (s.withMem m l).heldByte b = s.heldByte b) :
    ((s.withMem m l).devLoad b 1).1 = (s.devLoad b 1).1 := by
  by_cases scratch : ∃ lc off, s.tierOf b = .scratch lc off
  · obtain ⟨lc, off, e⟩ := scratch
    simp only [State.devLoad, State.tierOf_withMem, e]
    rfl
  · push Not at scratch
    rw [State.devLoad_of_not_scratch (s.tierOf_withMem m l b ▸ scratch), State.devLoad_of_not_scratch scratch, State.tierLoad_one, State.tierLoad_one, h]

/-- What the controllers show after a store. -/
theorem State.heldByte_write (s : State) {g a n : Nat} (hg : 0 < g) (clean : s.dev.writePoisoned g a n = false) (v b : Nat) :
    (s.withMem (s.dev.write g a n v) (cutRanges a n s.lost)).heldByte b =
      if a ≤ b ∧ b < a + n then (s.dev.store a n v).byte b else s.heldByte b := by
  simp only [State.heldByte, State.withMem, lossAt_cutRanges, Mem.byte_write hg clean]
  by_cases hb : a ≤ b ∧ b < a + n
  · simp [hb]
  · simp only [hb, if_false, Mem.byte_store]

/-- A store to HBM, to the Silo or to cluster SRAM is read back, leaves every other byte alone, and changes nothing else. -/
theorem State.devLoad_devStore {s : State} {a n : Nat} (v : Nat) (away : ∀ lc off, s.tierOf a ≠ .scratch lc off)
    (clean : s.devStorePoisoned a n = false) :
    ((s.devStore a n v).devLoad a n).1 = v % 256 ^ n ∧
    (∀ b, b < a ∨ a + n ≤ b → ((s.devStore a n v).devLoad b 1).1 = (s.devLoad b 1).1) ∧ SameBut [.dev, .lost] s (s.devStore a n v) := by
  rw [State.devStorePoisoned_of_not_scratch away] at clean
  have held := s.heldByte_write (Tier.granule_pos _) clean v
  rw [State.devStore_of_not_scratch away]
  have readBack := State.tierLoad_eq_load fun b hl hh => (held b).trans (if_pos ⟨hl, hh⟩)
  refine ⟨?_, fun b out => s.devLoad_one_congr _ _ b ((held b).trans (if_neg (by omega))), State.withMem_frame _ _ _⟩
  rw [State.devLoad_of_not_scratch (by simpa using away), readBack, Mem.load_store]

/-! ### Stores to scratch -/

/-- A byte that a store to another byte or another core does not write. -/
theorem State.scrLoad_scrStore_of_byte (s : State) (p a n v : Nat) {q b : Nat}
    (h : p = q → ((s.core p).scr.write 8 a n v).byte b = (s.core p).scr.byte b) :
    (s.scrStore p a n v).scrLoad q b 1 = s.scrLoad q b 1 := by
  simp only [State.scrLoad, State.scrStore, State.core_setCore, Mem.load_one]
  by_cases hq : p = q
  · rw [if_pos hq, h hq, hq]
  · rw [if_neg hq]

theorem State.scrStore_frame (s : State) (p a n v : Nat) : SameBut [.cores] s (s.scrStore p a n v) := by
  intro f hf
  cases f
  case cores => exact absurd (by decide) hf
  all_goals rfl

/-- A store to a core's scratch is read back. -/
theorem State.scrLoad_scrStore {s : State} {p a n : Nat} (v : Nat) (clean : (s.core p).scr.writePoisoned 8 a n = false) :
    (s.scrStore p a n v).scrLoad p a n = v % 256 ^ n := by
  simp only [State.scrLoad, State.scrStore, State.core_setCore, if_true]
  exact Mem.load_write (by decide) clean v

/-- Settles O5: a store writes its bytes word by word, none refused, and they show as written wherever they were lost before. -/
theorem memoryReadsBackWhatWasStored : Obligations.MemoryReadsBackWhatWasStored := by
  constructor
  · intro s a n v _ away clean
    exact State.devLoad_devStore v away clean
  · intro s p a n v clean
    exact ⟨State.scrLoad_scrStore v clean,
      fun b out => s.scrLoad_scrStore_of_byte p a n v fun _ => Mem.byte_write_out (by decide) clean v out,
      fun q b hq => s.scrLoad_scrStore_of_byte p a n v fun e => absurd e.symm hq, s.scrStore_frame p a n v⟩

end Sys2Proof.Machine
end

section
/-!
PROOF. Cores and their scratch: what the updates of a core's contexts and the reads of its scratch leave alone (used by O16, O21).
-/
namespace Sys2Proof.Machine

/-- An effect whose parts leave out the cores leaves every core alone. -/
theorem Keeps.core_eq {m : Nat} {s t : State} (h : Keeps m s t) (hm : m.testBit Safety.Field.cores.bit = false) (p : Nat) :
    t.core p = s.core p := by
  have same : t.cores = s.cores := h.same .cores hm
  rw [State.core, State.core, same]

@[simp] theorem Core.scr_setCtx (c : Core) (x : Ctx) (v : CoreCtx) : (c.setCtx x v).scr = c.scr := by cases x <;> rfl

/-- Scratch belongs to the core, not to its contexts: an update of a context leaves every scratch alone. -/
@[simp] theorem State.scr_setCtx (s : State) (p : Nat) (x : Ctx) (v : CoreCtx) (q : Nat) : ((s.setCtx p x v).core q).scr = (s.core q).scr := by
  rw [State.setCtx, State.core_setCore]
  split
  case isTrue h => rw [Core.scr_setCtx, h]
  case isFalse => rfl

@[simp] theorem State.scr_setThread (s : State) (p : Nat) (x : Ctx) (t : Nat) (v : Thread) (q : Nat) :
    ((s.setThread p x t v).core q).scr = (s.core q).scr := s.scr_setCtx ..

/-- A reset of a task queue leaves every scratch alone. -/
@[simp] theorem State.scr_tqReset (s : State) (p : Nat) (x : Ctx) (st q : Nat) : ((s.tqReset p x st).core q).scr = (s.core q).scr := by
  cases x <;> exact s.scr_setCtx ..

end Sys2Proof.Machine
end

section
/-!
PROOF. Loads and stores of the context's own scratch partition (O16).
-/
namespace Sys2Proof.Machine

open Sys2Proof.Safety

/-- The instruction that a thread issues takes its effect in the state in which it has been issued: none of the checks of the issue and of
the fetch stops it. -/
theorem State.issue_of_threadIssues {s : State} {th : ThreadAt} (h : ThreadIssues s th) (k : State → State) :
    s.issue th k = k (issued s th) := by
  simp [State.issue, h.owns, h.active, h.noLoad, h.noFault, h.inProg, h.fetch, h.unmarked, h.parity, State.fetchPm, issued]

theorem issued_thread (s : State) (th : ThreadAt) : (issued s th).thread th.core.val th.ctx th.t.val =
    { s.thread th.core.val th.ctx th.t.val with pc := th.pc.toNat + 1 } := State.thread_setThread_self ..

theorem issued_scr (s : State) (th : ThreadAt) (p : Nat) : ((issued s th).core p).scr = (s.core p).scr := State.scr_setThread ..

theorem scrClean_issued {s : State} {th : ThreadAt} {p off n : Nat} (h : scrClean s p off n) : scrClean (issued s th) p off n := by
  simpa only [scrClean, State.scrPoison, issued_scr] using h

/-- A read of words without errors carries no poison tag and counts nothing. -/
theorem State.scrRead_of_clean {s : State} {p off n : Nat} (h : scrClean s p off n) : s.scrRead p off n .none = (false, s) := by
  obtain ⟨untagged, unmarked⟩ := h
  simp [State.scrRead, State.scrUpset, State.scrChecked, untagged, unmarked]

@[simp] theorem Thread.pc_setReg (t : Thread) (r v : Nat) : (t.setReg r v).pc = t.pc := by
  rw [Thread.setReg]
  split <;> rfl

/-- A load from the context's scratch: what the read of its words answers decides between the fault and the value. -/
theorem execLd_scratch {s : State} {th : ThreadAt} (h : ThreadIssues s th) (rd : Fin 32) {addr : Word} {size : AccSize} (err : MemErr)
    (low : addr.toNat < 0x400000) (own : inScratch th.ctx addr.toNat (accBytes size) = true) {tagged : Bool} {t : State}
    (read : (issued s th).scrRead th.core.val addr.toNat (accBytes size) err = (tagged, t)) :
    execLd th rd addr size err s = .next (if tagged then t.threadFault th.core.val th.ctx th.t.val stPoison 0 addr.toNat 0 th.pc.toNat
      else t.setThread th.core.val th.ctx th.t.val
        ((t.thread th.core.val th.ctx th.t.val).setReg rd.val (t.scrLoad th.core.val addr.toNat (accBytes size)))) := by
  simp only [execLd, State.issue_of_threadIssues h, low, own, read, if_true]

/-- A store to the context's scratch. -/
theorem execSt_scratch {s : State} {th : ThreadAt} (h : ThreadIssues s th) {addr : Word} {size : AccSize} (data : Word) (err : MemErr)
    (low : addr.toNat < 0x400000) (own : inScratch th.ctx addr.toNat (accBytes size) = true) :
    execSt th addr size data err s =
      .next ((((issued s th).scrUpset th.core.val addr.toNat err).scrChecked th.core.val addr.toNat (accBytes size) true).scrStore
        th.core.val addr.toNat (accBytes size) data.toNat) := by
  simp only [execSt, State.issue_of_threadIssues h, low, own, if_true]

/-- A thread that has issued an instruction and takes a value into a register: of the state its core alone may differ. -/
theorem issued_setReg_sameBut (s : State) (th : ThreadAt) (v : Thread) :
    SameBut [.cores] s ((issued s th).setThread th.core.val th.ctx th.t.val v) := by
  have k : Keeps (partsMask [.cores]) s ((issued s th).setThread th.core.val th.ctx th.t.val v) :=
    ((Keeps.refl s).setThread (.refl _)).setThread (.refl _)
  exact k.sameBut fun f hf => mem_of_testBit_partsMask hf

/-- Settles O16: the thread issues, and the read of the words that the access touches decides the rest. -/
theorem scratchLoadsAndStores : Obligations.ScratchLoadsAndStores := by
  intro s th addr size issues low own
  simp only [exec_ld, exec_st]
  refine ⟨fun rd clean => ?_, fun rd err t read => ?_, fun rd err t read => ?_, fun data err => execSt_scratch issues data err low own⟩
  · refine ⟨_, execLd_scratch issues rd .none low own (State.scrRead_of_clean (scrClean_issued clean)), ?_, ?_, ?_, ?_, ?_⟩
    · intro hrd
      simp [Thread.reg_setReg, hrd, State.scrLoad, issued_scr]
    · intro r hr
      have other : ¬ (rd.val = r ∧ rd.val ≠ 0) := by omega
      simp only [Bool.false_eq_true, if_false, State.thread_setThread_self, Thread.reg_setReg, if_neg other, issued_thread]
      rfl
    · simp [issued_scr]
    · simp [issued_thread]
    · exact issued_setReg_sameBut s th _
  · exact execLd_scratch issues rd err low own read
  · exact execLd_scratch issues rd err low own read

end Sys2Proof.Machine
end

section
/-!
PROOF. The choice of a spare (O8), the fence of a core and the hand-over of its number to the spare (O21).
-/
namespace Sys2Proof.Machine

open Sys2Proof.Safety

/-! ### The choice of a spare -/

/-- A spare lies on the die it is a spare of, and carries no number. -/
theorem State.mem_spares {s : State} {d q : Nat} (h : q ∈ s.spares d) : q / 128 = d ∧ s.lcOf q = 0x1FF := by
  obtain ⟨onDie, free⟩ := List.mem_filter.1 (List.mem_of_mem_take h)
  obtain ⟨i, hi, rfl⟩ := mem_tabulate.1 onDie
  simp only [Bool.and_eq_true, beq_iff_eq] at free
  exact ⟨by omega, free.1.1.2⟩

/-- The spares of a die are listed in rising order. -/
theorem State.spares_pairwise (s : State) (d : Nat) : (s.spares d).Pairwise (· < ·) := by
  have rising : (tabulate 128 (fun i => 128 * d + i)).Pairwise (· < ·) :=
    List.pairwise_lt_range.map _ fun _ _ h => Nat.add_lt_add_left h _
  exact (rising.filter _).sublist (List.take_sublist _ _)

theorem State.head_spares_le {s : State} {d q r : Nat} (h : (s.spares d).head? = some q) (hr : r ∈ s.spares d) : q ≤ r := by
  obtain ⟨l, hl⟩ := List.head?_eq_some_iff.1 h
  have rising := hl ▸ s.spares_pairwise d
  rcases List.mem_cons.1 (hl ▸ hr) with rfl | later
  · exact Nat.le_refl _
  · exact Nat.le_of_lt (List.rel_of_pairwise_cons rising later)

/-- The choice: the first spare of the fenced core's cluster, else the first of its die. -/
theorem State.chooseSpare_eq (s : State) (p : Nat) : s.chooseSpare p =
    ((s.spares (p / 128)).find? (fun q => clusterOf q == clusterOf p)).or (s.spares (p / 128)).head? := by
  simp only [State.chooseSpare]
  split <;> simp [*]

/-- Settles O8: either the cluster holds a spare and the choice is one of them, or the choice is the head of the rising list. -/
theorem aSpareIsOfTheSameDie : Obligations.ASpareIsOfTheSameDie := by
  intro s p _
  rw [State.chooseSpare_eq]
  refine ⟨fun q hq => ?_, ?_⟩
  · rcases Option.or_eq_some_iff.1 hq with inCluster | ⟨noneInCluster, first⟩
    · have mem := List.mem_of_find?_eq_some inCluster
      have same : clusterOf q = clusterOf p := by simpa using List.find?_some inCluster
      obtain ⟨die, free⟩ := State.mem_spares mem
      exact ⟨mem, die, free, fun _ => same, fun away => absurd same (away q mem)⟩
    · have mem := List.mem_of_head? first
      obtain ⟨die, free⟩ := State.mem_spares mem
      have away : ∀ r ∈ s.spares (p / 128), clusterOf r ≠ clusterOf p := by simpa using List.find?_eq_none.1 noneInCluster
      exact ⟨mem, die, free, fun ⟨r, hr, same⟩ => absurd same (away r hr), fun _ r hr => State.head_spares_le first hr⟩
  · rw [Option.or_eq_none_iff, List.head?_eq_none_iff]
    exact ⟨And.right, fun h => ⟨by rw [h]; rfl, h⟩⟩

/-! ### A fence -/

theorem CoreCtx.thread_fence (c : CoreCtx) : ∀ j < 8, (c.fence.thread j).st = .fenced := by
  have table : ∀ j < 8, (Tbl.get ({} : Thread) (tabulate 8 (fun k => (k, ({ st := .fenced } : Thread)))) j).st = .fenced := by decide
  exact table

/-- What a fence leaves of the core: it is fenced, and the units of both its contexts are. -/
structure Core.IsFenced (c : Core) : Prop where
  fenced : c.fenced = true
  threads : ∀ x, ∀ j < 8, ((c.ctx x).thread j).st = .fenced

theorem State.fenceStop_isFenced (s : State) (p : Nat) : ((s.fenceStop p).core p).IsFenced := by
  simp only [State.fenceStop, State.core_setCore_self]
  exact ⟨rfl, fun x => by cases x <;> exact CoreCtx.thread_fence _⟩

/-- A fence of a core that is not fenced leaves it so; the log, the events and the hand-over that follow touch no core. -/
theorem State.fenceCore_isFenced {s : State} {p : Nat} (h : (s.core p).fenced = false) (kind : Nat) : ((s.fenceCore p kind).core p).IsFenced := by
  simp only [State.fenceCore, h, Bool.false_eq_true, if_false]
  rw [((Keeps.refl _).fenceHand (.refl _)).core_eq rfl, ((Keeps.refl _).fenceNote (.refl _)).core_eq rfl]
  exact State.fenceStop_isFenced _ _

theorem State.fenceCore_dev (s : State) (p kind : Nat) : (s.fenceCore p kind).dev = s.dev :=
  ((Keeps.refl s).fenceCore (.refl _)).same .dev rfl

/-! ### The spare takes the number -/

/-- The spare chosen for a number carries it, and follows the gate group of the core it replaces (R17, R19). -/
theorem execSpareChoice_next {s : State} {lc : Fin 512} {h : Handover} {p : Nat}
    (waits : s.handovers.find? (fun h => h.lc == lc.val && h.spare.isNone) = some h) (choice : s.chooseSpare h.fromCore = some p)
    (inUse : lc.val < s.grade.lcs) :
    ∃ t, execSpareChoice lc s = .next t ∧ t.phys lc.val = p ∧ (t.core p).group = (s.core h.fromCore).group := by
  simp only [execSpareChoice, waits, choice]
  refine ⟨_, rfl, ?_, ?_⟩
  · have mapped : Tbl.get (s.basePhys lc.val) (Tbl.put (s.basePhys lc.val) s.map lc.val p) lc.val = p := by rw [Tbl.get_put, if_pos rfl]
    exact (if_pos inUse).trans mapped
  · rw [((Keeps.refl _).set_handovers (.refl _)).core_eq rfl, State.core_setCore_self]

/-! ### The clearing of the spare -/

@[simp] theorem Core.scr_pmWrite (c : Core) (dst v : Nat) (mark : Bool) : (c.pmWrite dst v mark).scr = c.scr :=
  foldl_ind (P := fun d : Core => d.scr = c.scr) rfl fun _ h _ => h

/-- The core's scratch holds no byte but zeros and no mark. -/
def State.ScrEmpty (s : State) (p : Nat) : Prop := (s.core p).scr = {}

theorem State.ScrEmpty.of_core_eq {s t : State} {p : Nat} (h : s.ScrEmpty p) (e : t.core p = s.core p) : t.ScrEmpty p :=
  (congrArg Core.scr e).trans h

/-- An effect whose parts leave out the cores leaves an empty scratch empty. -/
theorem State.ScrEmpty.of_keeps {m : Nat} {s t : State} {p : Nat} (h : s.ScrEmpty p) (k : Keeps m s t)
    (hm : m.testBit Field.cores.bit = false) : t.ScrEmpty p := h.of_core_eq (k.core_eq hm p)

theorem State.ScrEmpty.ite {a b : State} {p : Nat} {c : Prop} [Decidable c] (ha : a.ScrEmpty p) (hb : b.ScrEmpty p) :
    (if c then a else b).ScrEmpty p := by
  split <;> assumption

theorem State.ScrEmpty.foldl {α : Type} {s : State} {p : Nat} {f : State → α → State} {l : List α} (h : s.ScrEmpty p)
    (hf : ∀ t a, t.ScrEmpty p → (f t a).ScrEmpty p) : (l.foldl f s).ScrEmpty p :=
  foldl_ind (P := fun t : State => t.ScrEmpty p) h fun t ht a => hf t a ht

theorem State.ScrEmpty.setCore {s : State} {p q : Nat} {c : Core} (h : s.ScrEmpty p) (hc : q = p → c.scr = {}) : (s.setCore q c).ScrEmpty p := by
  rw [State.ScrEmpty, State.core_setCore]
  split
  case isTrue e => exact hc e
  case isFalse => exact h

/-- A read of a marked word marks no word: a correction takes a mark away. -/
theorem State.ScrEmpty.scrWord {s : State} {p : Nat} (h : s.ScrEmpty p) (q w k : Nat) : (s.scrWord q w k).ScrEmpty p := by
  have counted (lo : Nat) : (s.scrErr q lo).ScrEmpty p := h.of_keeps ((Keeps.refl s).scrErr (.refl _)) rfl
  have corrected : q = p → (s.core q).scr.setMark w 0 = {} := fun e => by
    subst e
    rw [show (s.core q).scr = {} from h]
    rfl
  unfold State.scrWord
  split
  · exact h
  · exact ((counted 0).setCore corrected).of_keeps ((Keeps.refl _).countErr (.refl _)) rfl
  · exact (counted 16).of_keeps ((Keeps.refl _).countErr (.refl _)) rfl
  · exact h.of_keeps (((Keeps.refl s).bump (.refl _)).scrErr (.refl _)) rfl

theorem State.ScrEmpty.devChecked {s : State} {p : Nat} (h : s.ScrEmpty p) (a n : Nat) (store : Bool) : (s.devChecked a n store).ScrEmpty p := by
  unfold State.devChecked
  split
  · exact .ite h (h.foldl fun _ _ ht => ht.scrWord ..)
  · exact h.foldl fun t _ ht => ht.of_keeps ((Keeps.refl t).devWord (.refl _)) rfl

/-- The program images are read from device memory and written to program memory: an empty scratch stays empty. -/
theorem State.ScrEmpty.loadImages {s : State} {p : Nat} (h : s.ScrEmpty p) (q : Nat) : (s.loadImages q).ScrEmpty p := by
  unfold State.loadImages
  extract_lets one
  have region (t : State) (x : Ctx) (ht : t.ScrEmpty p) : (one t x).ScrEmpty p := by
    refine .ite ht (ht.foldl fun u k hu => ?_)
    have read (a : Nat) : (u.devRead a 64).2.ScrEmpty p := hu.devChecked a 64 false
    exact (read _).setCore fun e => by
      subst e
      rw [Core.scr_pmWrite]
      exact read _
  exact region _ _ (region _ _ h)

/-- What the clearing leaves: the spare's scratch empty, and every hand-over of the number marked cleared. -/
structure State.Cleared (s : State) (lc p : Nat) : Prop where
  scr : s.ScrEmpty p
  marked : ∀ g ∈ s.handovers, g.lc = lc → g.cleared = true

theorem State.Cleared.ite {a b : State} {lc p : Nat} {c : Prop} [Decidable c] (ha : a.Cleared lc p) (hb : b.Cleared lc p) :
    (if c then a else b).Cleared lc p := by
  split <;> assumption

theorem State.Cleared.tqReset {s : State} {lc p : Nat} (h : s.Cleared lc p) (q : Nat) (x : Ctx) (st : Nat) :
    (s.tqReset q x st).Cleared lc p := by
  have same : (s.tqReset q x st).handovers = s.handovers := ((Keeps.refl s).tqReset (.refl _)).same .handovers rfl
  exact ⟨(State.scr_tqReset ..).trans h.scr, same ▸ h.marked⟩

/-- A context that takes a number over undoes no clearing. -/
theorem State.Cleared.takeOver {s : State} {lc p : Nat} (h : s.Cleared lc p) (n : Nat) (x : Ctx) : (s.takeOver n x).Cleared lc p := by
  unfold State.takeOver
  split
  · exact h
  · split
    · exact h
    · refine .ite h ?_
      extract_lets s1 upd hs
      have reset : s1.Cleared lc p := .ite (h.tqReset ..) h
      have moved (g : Handover) : (upd g).lc = g.lc ∧ (upd g).cleared = g.cleared := by cases x <;> exact ⟨rfl, rfl⟩
      refine ⟨reset.scr, fun g hg same => ?_⟩
      obtain ⟨g0, hg0, rfl⟩ := List.mem_map.1 (List.mem_of_mem_filter hg)
      split at same
      case isTrue e => rw [if_pos e, (moved g0).2, reset.marked g0 hg0 ((moved g0).1 ▸ same)]
      case isFalse e => rw [if_neg e, reset.marked g0 hg0 same]

/-- The end of the clearing: the spare's scratch is empty, and its hand-over is marked. -/
theorem execSpareClearLoadEnd_next {s : State} {lc : Fin 512} {h : Handover} {p : Nat}
    (waits : s.handovers.find? (fun h => h.lc == lc.val) = some h) (chosen : h.spare = some p) :
    ∃ t, execSpareClearLoadEnd lc s = .next t ∧ t.Cleared lc.val p := by
  refine ⟨_, rfl, ?_⟩
  simp -zeta only [waits, chosen]
  extract_lets _ s1 s2 s3 s4
  have empty : s1.ScrEmpty p := congrArg Core.scr (State.core_setCore_self ..)
  have loaded : s2.ScrEmpty p := empty.loadImages p
  have marked : s3.Cleared lc.val p := by
    refine ⟨loaded.of_keeps ((Keeps.refl s2).set_handovers (.refl _)) rfl, fun g hg same => ?_⟩
    obtain ⟨g0, -, rfl⟩ := List.mem_map.1 hg
    split at same
    case isTrue e => rw [if_pos e]
    case isFalse e => exact absurd same e
  have elastic : s4.Cleared lc.val p := .ite marked (marked.takeOver ..)
  exact .ite elastic (.ite elastic (elastic.takeOver ..))

/-- Settles O21: what follows the fence touches no core, and what follows the clearing undoes it neither in scratch nor in the hand-over. -/
theorem coresAreFencedAndSparesTakeOver : Obligations.CoresAreFencedAndSparesTakeOver := by
  refine ⟨fun s core k free => ?_, fun s core free => ?_, fun s lc h p waits choice inUse => execSpareChoice_next waits choice inUse,
    fun s lc h p waits chosen _ => ?_⟩
  · have stopped := fun kind => State.fenceCore_isFenced free kind
    exact ⟨_, rfl, (stopped _).fenced, (stopped _).threads, State.fenceCore_dev ..⟩
  · exact ⟨_, rfl, (State.fenceCore_isFenced free 0x4A).fenced, rfl⟩
  · obtain ⟨t, ht, cleared⟩ := execSpareClearLoadEnd_next waits chosen
    exact ⟨t, ht, cleared.scr, cleared.marked⟩

end Sys2Proof.Machine
end

section
/-!
PROOF. Numbers: an anchored record takes its terms on the grid and in any order (O6); a block compresses at the smallest exponent that
fits (O7).
-/
namespace Sys2Proof.Machine

/-! ### Rounding half up, and two's complement -/

theorem floor_half : ⌊(2⁻¹ : ℚ)⌋ = 0 := by norm_num

theorem roundHalfUpShift_eq_floor (i : Int) (s : Nat) : roundHalfUpShift i s = ⌊(i : ℚ) / 2 ^ s + 1 / 2⌋ := by
  cases s with
  | zero =>
    simp [roundHalfUpShift, floor_half]
  | succ k =>
    have joined : (i : ℚ) / 2 ^ (k + 1) + 1 / 2 = ((i + (2 ^ k : Nat) : Int) : ℚ) / ((2 ^ (k + 1) : Nat) : ℚ) := by
      push_cast
      field_simp
      ring
    rw [joined, Rat.floor_intCast_div_natCast]
    rfl

theorem clampInt_eq_max_min {lo hi : Int} (h : lo ≤ hi) (i : Int) : clampInt lo hi i = max lo (min hi i) := by
  unfold clampInt
  split_ifs <;> omega

theorem toSigned_eq_bmod (w x : Nat) : toSigned w x = (x : Int).bmod (2 ^ w) := by
  simp only [toSigned, Int.bmod, ← Int.natCast_emod]
  split_ifs <;> omega

theorem ofSigned_intCast (w : Nat) (i : Int) : (ofSigned w i : Int) = i % (2 ^ w : Nat) :=
  Int.toNat_of_nonneg (Int.emod_nonneg _ (by positivity))

/-- A value in the signed range of w bits is read back from its code. -/
theorem toSigned_ofSigned {w : Nat} {i : Int} (pos : 0 < w) (low : -2 ^ (w - 1) ≤ i) (high : i ≤ 2 ^ (w - 1) - 1) :
    toSigned w (ofSigned w i) = i := by
  rw [toSigned_eq_bmod, ofSigned_intCast, Int.emod_bmod]
  have double : 2 ^ w = 2 * 2 ^ (w - 1) := (mul_pow_sub_one pos.ne' 2).symm
  apply Int.bmod_eq_of_le <;> push_cast [double] <;> omega

/-! ### Anchored records (O6) -/

/-- The integer that the term (−1)^neg × m × 2^e gives on the grid of 1 (R58). -/
def gridInt (neg : Bool) (m : Nat) (e : Int) : Int := ⌊(if neg then -1 else 1 : ℚ) * m * 2 ^ e + 1 / 2⌋

theorem gridInt_zero (neg : Bool) (e : Int) : gridInt neg 0 e = 0 := by
  simp [gridInt, floor_half]

theorem finRoundHalfUp_eq_gridInt (neg : Bool) (m : Nat) (e : Int) : finRoundHalfUp neg m e = gridInt neg m e := by
  unfold finRoundHalfUp gridInt
  split
  case isTrue nonneg =>
    obtain ⟨k, rfl⟩ := Int.eq_ofNat_of_zero_le nonneg
    refine (roundHalfUpShift_eq_floor (Num.units neg m k 0) 0).trans ?_
    cases neg <;> simp [Num.units, Nat.shiftLeft_eq]
  case isFalse fraction =>
    obtain ⟨k, rfl⟩ : ∃ k : Nat, e = -k := ⟨(-e).toNat, by omega⟩
    rw [roundHalfUpShift_eq_floor]
    cases neg <;> simp [div_eq_mul_inv]

/-- A record that counts a term which it does not add, and sets the markers given (R59, R60). -/
def Rec.mark (r : Rec) (pos neg nan : Bool) : Rec :=
  { r with count := satAdd 32 r.count 1, posOvf := r.posOvf || pos, negOvf := r.negOvf || neg, nan := r.nan || nan }

/-- A record that counts a term and adds its integer to the sum (R58, R60). -/
def Rec.plus (r : Rec) (g : Int) : Rec :=
  { r with count := satAdd 32 r.count 1, sum := (r.sum + ofSigned 128 g) % 2 ^ 128 }

@[simp] theorem Rec.mark_anchor (r : Rec) (pos neg nan : Bool) : (r.mark pos neg nan).anchor = r.anchor := rfl
@[simp] theorem Rec.plus_anchor (r : Rec) (g : Int) : (r.plus g).anchor = r.anchor := rfl

theorem Rec.addTerm_nan (r : Rec) : r.addTerm .nan = r.mark false false true := by simp [Rec.addTerm, Rec.mark]

theorem Rec.addTerm_inf (r : Rec) (neg : Bool) : r.addTerm (.inf neg) = r.mark (!neg) neg false := by
  cases neg <;> simp [Rec.addTerm, Rec.mark]

theorem Rec.addTerm_fin (r : Rec) {neg : Bool} {m : Nat} {e g : Int} (grid : g = gridInt neg m (e - r.anchor)) :
    r.addTerm (.fin neg m e) = if 2 ^ 96 ≤ |g| then r.mark (decide (0 < g)) (decide (g < 0)) false else r.plus g := by
  have rounded : (if m = 0 then 0 else finRoundHalfUp neg m (e - r.anchor)) = g := by
    split
    case isTrue zero => rw [grid, zero, gridInt_zero]
    case isFalse => rw [grid, finRoundHalfUp_eq_gridInt]
  have large : (2 ^ 96 : Nat) ≤ g.natAbs ↔ 2 ^ 96 ≤ |g| := by rw [Int.abs_eq_natAbs]; norm_cast
  simp only [Rec.addTerm, rounded, large]
  split
  case isTrue h =>
    rcases lt_or_ge g 0 with below | above
    · simp [Rec.mark, below, below.le]
    · have above : 0 < g := lt_of_le_of_ne above (by rintro rfl; simp at h)
      simp [Rec.mark, above, above.not_gt]
  case isFalse => rfl

/-- Under one anchor a term sets the same markers in every record, or adds the same integer to every record. -/
theorem Rec.addTerm_mark_or_plus (a : Int) (t : Num) :
    (∃ pos neg nan, ∀ r : Rec, r.anchor = a → r.addTerm t = r.mark pos neg nan) ∨ ∃ g, ∀ r : Rec, r.anchor = a → r.addTerm t = r.plus g := by
  cases t with
  | nan => exact .inl ⟨_, _, _, fun r _ => r.addTerm_nan⟩
  | inf neg => exact .inl ⟨_, _, _, fun r _ => r.addTerm_inf neg⟩
  | fin neg m e =>
    by_cases large : 2 ^ 96 ≤ |gridInt neg m (e - a)|
    · exact .inl ⟨_, _, _, fun r same => by rw [r.addTerm_fin rfl, same, if_pos large]⟩
    · exact .inr ⟨_, fun r same => by rw [r.addTerm_fin rfl, same, if_neg large]⟩

theorem Rec.addTerm_count (r : Rec) (t : Num) : (r.addTerm t).count = min (r.count + 1) (2 ^ 32 - 1) := by
  obtain ⟨_, _, _, marks⟩ | ⟨_, adds⟩ := Rec.addTerm_mark_or_plus r.anchor t
  · rw [marks r rfl]; rfl
  · rw [adds r rfl]; rfl

/-- Markers are joined by OR and integers added modulo 2^128, so two terms may change places. -/
theorem Rec.addTerm_right_comm (r : Rec) (t u : Num) : (r.addTerm t).addTerm u = (r.addTerm u).addTerm t := by
  obtain ⟨_, _, _, ht⟩ | ⟨_, ht⟩ := Rec.addTerm_mark_or_plus r.anchor t <;>
    obtain ⟨_, _, _, hu⟩ | ⟨_, hu⟩ := Rec.addTerm_mark_or_plus r.anchor u <;>
    rw [ht r rfl, hu r rfl]
  · rw [hu _ (r.mark_anchor ..), ht _ (r.mark_anchor ..)]
    simp only [Rec.mark, Bool.or_right_comm]
  · rw [hu _ (r.mark_anchor ..), ht _ (r.plus_anchor ..)]
    rfl
  · rw [hu _ (r.plus_anchor ..), ht _ (r.mark_anchor ..)]
    rfl
  · rw [hu _ (r.plus_anchor ..), ht _ (r.plus_anchor ..)]
    simp only [Rec.plus, Nat.mod_add_mod, Nat.add_right_comm]

theorem Rec.plus_sum_intCast (r : Rec) (g : Int) : ((r.plus g).sum : Int) = ((r.sum : Int) + g) % 2 ^ 128 := by
  rw [Rec.plus, Int.natCast_emod, Int.natCast_add, ofSigned_intCast]
  exact Int.add_emod_emod ..

/-- Settles O6: a term either sets markers or adds its integer, and both kinds of step commute. -/
theorem anchoredSumsAreOnTheGridAndOrderFree : Obligations.AnchoredSumsAreOnTheGridAndOrderFree := by
  refine ⟨fun r neg m e g grid => ?_, Rec.addTerm_count, fun r k hr hk same => ?_,
    fun r l k perm => perm.foldl_eq' (fun t _ u _ r => r.addTerm_right_comm t u) r⟩
  · rw [r.addTerm_fin grid]
    refine ⟨?_, fun small _ => ?_, fun large => ?_⟩
    · rintro rfl
      exact grid.trans (gridInt_zero ..)
    · rw [if_neg small.not_ge]
      exact ⟨Nat.mod_lt _ (by decide), r.plus_sum_intCast g, rfl, rfl⟩
    · rw [if_pos large]
      exact ⟨rfl, rfl, rfl⟩
  · simp [Rec.combine, hr, hk, same, satAdd]

/-! ### Block floating point (O7) -/

theorem bfpFits_iff (w e : Nat) (xs : List Int) : bfpFits w e xs = true ↔
    ∀ x ∈ xs, -2 ^ (w - 1) ≤ roundHalfUpShift x e ∧ roundHalfUpShift x e ≤ 2 ^ (w - 1) - 1 := by
  simp [bfpFits]

theorem bfpCompress_exponent_of_least {w e : Nat} {xs : List Int} (small : e < 16) (fit : bfpFits w e xs = true)
    (least : ∀ d < e, ¬ bfpFits w d xs = true) : (bfpCompress w xs).1 = e := by
  have found : (List.range 16).find? (fun e => bfpFits w e xs) = some e := by
    simpa [List.find?_range_eq_some, fit, small] using least
  simp [bfpCompress, found]

theorem bfpCompress_exponent_of_none {w : Nat} {xs : List Int} (unfit : ∀ e < 16, ¬ bfpFits w e xs = true) : (bfpCompress w xs).1 = 15 := by
  have missed : (List.range 16).find? (fun e => bfpFits w e xs) = none := by
    simpa [List.find?_eq_none] using unfit
  simp [bfpCompress, missed]

/-- Each mantissa is its component rounded at the chosen exponent and cut to the range of w bits. -/
theorem bfpCompress_mantissas {w : Nat} (pos : 0 < w) (xs : List Int) : (bfpCompress w xs).2.map (toSigned w) =
    xs.map (fun x => max (-2 ^ (w - 1)) (min (2 ^ (w - 1) - 1) (roundHalfUpShift x (bfpCompress w xs).1))) := by
  have one : (1 : Int) ≤ 2 ^ (w - 1) := one_le_pow₀ (by decide)
  have ordered : -(2 ^ (w - 1) : Int) ≤ 2 ^ (w - 1) - 1 := by omega
  refine (List.map_map ..).trans (List.map_congr_left fun x _ => ?_)
  simp only [Function.comp_apply, Nat.cast_pow, Nat.cast_ofNat, clampInt_eq_max_min ordered]
  exact toSigned_ofSigned pos (le_max_left ..) (max_le ordered (min_le_left ..))

/-- Settles O7: the search runs up the exponents, and a mantissa in range is not cut. -/
theorem compressionTakesTheSmallestExponent : Obligations.CompressionTakesTheSmallestExponent := by
  intro w xs pos
  simp only [List.pure_def, List.bind_eq_flatMap, ← List.map_eq_flatMap, List.map_map, Function.comp_def,
    ← roundHalfUpShift_eq_floor, ← bfpFits_iff]
  refine ⟨fun e small fit least => ?_, fun unfit => ?_⟩
  · have exponent := bfpCompress_exponent_of_least small fit least
    refine ⟨exponent, (bfpCompress_mantissas pos xs).trans (List.map_congr_left fun x hx => ?_)⟩
    obtain ⟨low, high⟩ := (bfpFits_iff w e xs).1 fit x hx
    rw [exponent, min_eq_right high, max_eq_right low]
  · have exponent := bfpCompress_exponent_of_none unfit
    exact ⟨exponent, by rw [bfpCompress_mantissas pos, exponent]⟩

end Sys2Proof.Machine
end

section
/-!
PROOF. The matrix engine: a head that passes every check is taken by the command of its opcode (O13); Tamp's level (O15).
-/
namespace Sys2Proof.Machine

open Sys2Proof.Safety

/-! ### Acceptance (O13) -/

/-- None of the checks of acceptance turns such a head away: its operation begins once it has been taken (R77 to R79). -/
theorem State.meAccept_of_meHead {s : State} {u : CtxAt} {op : Nat} {i : CItem} {q : Carafe} (h : MeHead s u op i q)
    (k : State → MeDesc → MeJob → State) :
    s.meAccept u.core.val u.ctx op k = k (meTaken s u i q) (MeDesc.ofNat i.data) (meJob s u i) := by
  simp [State.meAccept, h.owns, h.en, h.room, h.head, h.opc, h.gen, h.pass, h.free, meTaken, meJob]

/-- Settles O13: each command accepts the head of its opcode and begins the operation of that opcode. -/
theorem matrixOperationsBegin : Obligations.MatrixOperationsBegin := by
  intro s u i q
  simp only [exec_meMma, exec_meDrain, exec_meLoadacc, exec_meClear]
  exact ⟨fun err h => by rw [execMeMma, State.meAccept_of_meHead h],
    fun h => by rw [execMeDrain, State.meAccept_of_meHead h],
    fun h => by rw [execMeLoadacc, State.meAccept_of_meHead h],
    fun h => by rw [execMeClear, State.meAccept_of_meHead h]⟩

/-! ### Tamp (O15) -/

/-- The level after a step: one up with a row ready or with ballast, up to 8, else one down (R91, R251). -/
def Core.tampNext (c : Core) (ready : Bool) : Nat :=
  if ready || c.tampBallast then min 8 (c.tampLevel + 1) else c.tampLevel - 1

/-- A step of an array that is not gated moves its level; the count of ballast rows moves no core. -/
theorem execTampStepEnd_next {s : State} {core : Fin 512} (ready : Bool) (on : (s.core core.val).tampLevel ≠ 0) :
    ∃ t, execTampStepEnd core ready s = .next t ∧ (t.core core.val).tampLevel = (s.core core.val).tampNext ready := by
  simp only [execTampStepEnd, if_neg on]
  refine ⟨_, rfl, ?_⟩
  split
  case isTrue => rw [State.core_setCore_self, Core.tampNext]
  case isFalse => rw [((Keeps.refl _).bump64 (.refl _)).core_eq rfl, State.core_setCore_self, Core.tampNext]

/-- Settles O15: a gated array starts at level 1, and a step of another moves its level by one. -/
theorem tampMovesOneLevelAStep : Obligations.TampMovesOneLevelAStep := by
  intro s core
  simp only [exec_tampRampStart, exec_tampPrewarm, exec_tampStepEnd]
  refine ⟨fun gated => ?_, fun gated => ⟨_, rfl, ?_⟩, fun on => ?_, fun on noBallast => ?_⟩
  · rw [execTampRampStart, if_pos gated]
  · simp [gated]
  · simpa [Core.tampNext] using execTampStepEnd_next true on
  · obtain ⟨t, next, level⟩ := execTampStepEnd_next false on
    have down : (s.core core.val).tampNext false = (s.core core.val).tampLevel - 1 := by simp [Core.tampNext, noBallast]
    exact ⟨t, next, by omega⟩

end Sys2Proof.Machine
end

section
/-!
PROOF. Thread instructions other than loads and stores of scratch: atomics, remote accesses, the fence, the issue of descriptors and
tasks, events, and the read of a completion queue (O17).
-/
namespace Sys2Proof.Machine

open Sys2Proof.Safety

theorem issued_scrLoad (s : State) (th : ThreadAt) (p off n : Nat) : (issued s th).scrLoad p off n = s.scrLoad p off n := by
  rw [State.scrLoad, issued_scr, State.scrLoad]

theorem issued_scrPoison (s : State) (th : ThreadAt) (p off n : Nat) : (issued s th).scrPoison p off n = s.scrPoison p off n := by
  rw [State.scrPoison, issued_scr, State.scrPoison]

theorem issued_events (s : State) (th : ThreadAt) :
    ((issued s th).ctx th.core.val th.ctx).events = (s.ctx th.core.val th.ctx).events := by
  simp [issued, State.setThread, State.modCtx, CoreCtx.setThread]

/-! ### Atomics and remote accesses (R104) -/

/-- An atomic on words of the context's scratch without errors. -/
theorem execAtom_scratch {s : State} {th : ThreadAt} (h : ThreadIssues s th) (op : AtomOp) (rd : Fin 32) {addr : Word} (cmp : Word)
    (data : BitVec 256) (low : addr.toNat < 0x400000) (own : inScratch th.ctx addr.toNat (atomBytes op) = true)
    (clean : scrClean s th.core.val addr.toNat (atomBytes op)) :
    execAtom th op rd addr data cmp s =
      .next (let old := s.scrLoad th.core.val addr.toNat (atomBytes op)
        let s1 := (issued s th).scrStore th.core.val addr.toNat (atomBytes op)
          (atomApply op (atomBytes op) old data.toNat cmp.toNat).1;
        s1.setThread th.core.val th.ctx th.t.val ((s1.thread th.core.val th.ctx th.t.val).setReg rd.val old)) := by
  simp only [execAtom, State.issue_of_threadIssues h, low, own, if_true, State.scrRead_of_clean (scrClean_issued clean),
    Bool.false_eq_true, if_false, issued_scrLoad]

section
variable {s : State} {th : ThreadAt} (h : ThreadIssues s th) {addr : Word} (high : 0x400000 ≤ addr.toNat)
include h high

theorem execLd_remote (rd : Fin 32) (size : AccSize) (err : MemErr) :
    execLd th rd addr size err s = .next ((issued s th).startRemote th.core.val th.ctx th.t.val
      { kind := .load, addr := addr.toNat, size := accBytes size, rd := rd.val }) := by
  simp only [execLd, State.issue_of_threadIssues h, Nat.not_lt.2 high, if_false]

theorem execAtom_remote (op : AtomOp) (rd : Fin 32) (cmp : Word) (data : BitVec 256) :
    execAtom th op rd addr data cmp s = .next ((issued s th).startRemote th.core.val th.ctx th.t.val
      { kind := .atom op, addr := addr.toNat, size := atomBytes op, rd := rd.val, data := data.toNat, cmp := cmp.toNat }) := by
  simp only [execAtom, State.issue_of_threadIssues h, Nat.not_lt.2 high, if_false]

/-- A store above scratch is posted while fewer than 8 of the thread's are unacknowledged. -/
theorem execSt_remote (size : AccSize) (data : Word) (err : MemErr)
    (room : (s.thread th.core.val th.ctx th.t.val).stores.length < 8) :
    execSt th addr size data err s = .next ((issued s th).postStore th.core.val th.ctx th.t.val
      { kind := .store, addr := addr.toNat, size := accBytes size, data := data.toNat % 2 ^ (8 * accBytes size) }) := by
  simp only [execSt, State.issue_of_threadIssues h, Nat.not_lt.2 high, if_false, issued_thread, room, if_true]

end

section
variable {s : State} {th : ThreadAt} (h : ThreadIssues s th)
include h

/-- FENCE.REM: the thread goes on when none of its posted stores is unacknowledged, else it waits. -/
theorem execFenceRem_issued : execFenceRem th s =
    .next (if (s.thread th.core.val th.ctx th.t.val).stores = [] then issued s th
      else (issued s th).setThread th.core.val th.ctx th.t.val
        { (issued s th).thread th.core.val th.ctx th.t.val with st := .waitRem }) := by
  simp only [execFenceRem, State.issue_of_threadIssues h, issued_thread, List.isEmpty_iff]

/-! ### Descriptors and tasks (R112) -/

/-- An item that lies in the context's scratch is copied from there, as it stood before the issue, into the queue. -/
theorem State.issueItem_scratch {off n : Nat} (own : inScratch th.ctx off n = true) (e : Option Eng) (prio : Nat → Nat) :
    s.issueItem th off n e prio = ((issued s th).scrChecked th.core.val off n).pushOrHold th.core.val th.ctx th.t.val e
      { data := s.scrLoad th.core.val off n, prio := prio (s.scrLoad th.core.val off n), poison := s.scrPoison th.core.val off n } := by
  simp only [State.issueItem, State.issue_of_threadIssues h, own, if_true, issued_scrLoad, issued_scrPoison]

/-! ### Events (R110) -/

/-- WAITEVT of an event with a count takes one of it, and the thread stays ACTIVE. -/
theorem execWaitevt_takes {e : BitVec 8} (counted : Tbl.get 0 (s.ctx th.core.val th.ctx).events e.toNat ≠ 0) :
    ∃ t, execWaitevt th e s = .next t ∧ (t.thread th.core.val th.ctx th.t.val).st = .active ∧
      Tbl.get 0 (t.ctx th.core.val th.ctx).events e.toNat = Tbl.get 0 (s.ctx th.core.val th.ctx).events e.toNat - 1 := by
  have active : ((issued s th).thread th.core.val th.ctx th.t.val).st = .active := by rw [issued_thread, ← h.active]
  simp only [execWaitevt, State.issue_of_threadIssues h, issued_events, if_neg counted]
  refine ⟨_, rfl, ?_, ?_⟩
  · rw [State.thread, State.ctx_setCtx_self]
    exact active
  · rw [State.ctx_setCtx_self, Tbl.get_put, if_pos rfl]

/-- WAITEVT of an event without a count waits for it. -/
theorem execWaitevt_waits {e : BitVec 8} (spent : Tbl.get 0 (s.ctx th.core.val th.ctx).events e.toNat = 0) :
    ∃ t, execWaitevt th e s = .next t ∧ (t.thread th.core.val th.ctx th.t.val).st = .waitEvt ∧
      (t.thread th.core.val th.ctx th.t.val).evt = e.toNat := by
  simp only [execWaitevt, State.issue_of_threadIssues h, issued_events, if_pos spent]
  exact ⟨_, rfl, by simp [State.thread, CoreCtx.thread_setThread]⟩

/-! ### Completion queues (R78) -/

/-- A read of a completion queue that holds a record: the record leaves the queue for the register and the answer (R78, R425). -/
theorem execCompletionQueueRead_pop (q : ComplQ) (rd : Fin 32) (bad : Bool) {it : CItem} {rest : Carafe}
    (pop : (((issued s th).ctx th.core.val th.ctx).complQueue q).compl.pop = some (it, rest)) :
    let c := (issued s th).ctx th.core.val th.ctx
    let s2 := (issued s th).setCtx th.core.val th.ctx (c.setComplQueue q ({ c.complQueue q with compl := rest }.drainAborts))
    execCompletionQueueRead th q rd bad s = .next ((s2.setThread th.core.val th.ctx th.t.val
      ((s2.thread th.core.val th.ctx th.t.val).setReg rd.val it.data)).answer (if bad ∨ it.poison then stPoison else stOk) 0 [it.data]) := by
  simp only [execCompletionQueueRead, State.issue_of_threadIssues h, pop]

end

/-- Settles O17: the thread issues, and each instruction then takes its effect in the state so reached. -/
theorem threadInstructionsComplete : Obligations.ThreadInstructionsComplete := by
  refine ⟨fun s th issues => ?_, fun s th q rd bad it rest issues => execCompletionQueueRead_pop issues q rd bad⟩
  simp only [exec_atom, exec_ld, exec_st, exec_fenceRem, exec_issueMe, exec_issueVce, exec_issueTme, exec_spawn, exec_raise,
    exec_waitevt, exec_cancel, exec_done]
  refine ⟨fun op rd addr cmp data low own clean => execAtom_scratch issues op rd cmp data low own clean,
    fun rd addr size high => execLd_remote issues high rd size .none,
    fun addr size data high room => execSt_remote issues high size data .none room,
    fun op rd addr cmp data high => execAtom_remote issues high op rd cmp data,
    fun empty => ?fenceGoesOn, fun waiting => ?fenceWaits, fun off prio own => ⟨?issueMe, ?issueVce0, ?issueVce1, ?issueTme⟩,
    fun off own => ?spawn, fun e => ?raise, fun e counted => execWaitevt_takes issues counted,
    fun e spent => execWaitevt_waits issues spent, fun tag => ?cancel, fun st => ?done⟩
  case fenceGoesOn => rw [execFenceRem_issued issues, if_pos empty]
  case fenceWaits =>
    rw [execFenceRem_issued issues, if_neg waiting]
    exact ⟨_, rfl, by rw [State.thread_setThread_self]⟩
  case issueMe => rw [execIssueMe, State.issueItem_scratch issues own]
  case issueVce0 => rw [execIssueVce, State.issueItem_scratch issues own, if_pos rfl]
  case issueVce1 => rw [execIssueVce, State.issueItem_scratch issues own, if_neg (by decide)]
  case issueTme => rw [execIssueTme, State.issueItem_scratch issues own]
  case spawn => rw [execSpawn, State.issueItem_scratch issues own]
  case raise => rw [execRaise, State.issue_of_threadIssues issues]
  case cancel => rw [execCancel, State.issue_of_threadIssues issues]
  case done => rw [execDone, State.issue_of_threadIssues issues]

end Sys2Proof.Machine
end

section
/-!
PROOF. Replies, held items and acknowledgements (O18).
-/
namespace Sys2Proof.Machine

/-- R112: the held item of a thread in WAIT_ENG enters its queue, which has room, and the thread goes on. -/
theorem execQueuedItemPush_room {s : State} {u : CtxAt} {t : Fin 8} {h : Held} (held : (s.thread u.core.val u.ctx t.val).held = some h)
    (room : ((s.ctx u.core.val u.ctx).queue h.eng).q.room queueDepth = true) :
    execQueuedItemPush u t s = .next (s.setCtx u.core.val u.ctx
      (((s.ctx u.core.val u.ctx).setQueue h.eng
          { (s.ctx u.core.val u.ctx).queue h.eng with q := ((s.ctx u.core.val u.ctx).queue h.eng).q.push h.item }).setThread t.val
        { s.thread u.core.val u.ctx t.val with st := .active, held := none })) := by
  rw [State.thread] at held
  simp only [execQueuedItemPush, held, room, if_true, State.thread]

section
variable {s : State} {u : CtxAt} {t : Fin 8} {r : RemReq}

/-- A reply that has come is delivered (R104). -/
theorem execRemoteReply_arrived {a : Arrived} (err : MemErr) (waits : (s.thread u.core.val u.ctx t.val).rem = some r)
    (came : r.arrived = some a) : execRemoteReply u t err s = .next (s.deliver u.core.val u.ctx t.val r a) := by
  simp only [execRemoteReply, waits, came]

/-- An access to a device-local address is performed when its reply comes: of a thread without posted stores none comes before it (R309). -/
theorem execRemoteReply_local {a : Nat} (err : MemErr) (waits : (s.thread u.core.val u.ctx t.val).rem = some r)
    (unperformed : r.arrived = none) (target : r.target = some (.local a)) (noStores : (s.thread u.core.val u.ctx t.val).stores = []) :
    execRemoteReply u t err s =
      .next (((s.devUpset a err).perform r a (s.instOf u.core.val u.ctx)).2.deliver u.core.val u.ctx t.val r
        ((s.devUpset a err).perform r a (s.instOf u.core.val u.ctx)).1) := by
  simp only [execRemoteReply, waits, unperformed, target, noStores, State.flushStores]

/-- The acknowledgement of an oldest posted store that has been performed (R104). -/
theorem execStoreAck_arrived {rest : List RemReq} {a : Arrived} (oldest : (s.thread u.core.val u.ctx t.val).stores = r :: rest)
    (came : r.arrived = some a) : execStoreAck u t s = .next (s.ackStore u.core.val u.ctx t.val r a) := by
  simp only [execStoreAck, oldest, came]

/-- The acknowledgement of an oldest posted store that is still to be performed: it is, at its device-local address (R104). -/
theorem execStoreAck_local {rest : List RemReq} {a : Nat} (oldest : (s.thread u.core.val u.ctx t.val).stores = r :: rest)
    (unperformed : r.arrived = none) (target : r.target = some (.local a)) :
    execStoreAck u t s = .next ((s.perform r a (s.instOf u.core.val u.ctx)).2.ackStore u.core.val u.ctx t.val r
      (s.perform r a (s.instOf u.core.val u.ctx)).1) := by
  simp only [execStoreAck, oldest, unperformed, target]

end

/-- Settles O18: the push, and each way in which an access of the thread can have come to its end. -/
theorem repliesAndHeldItemsReachTheirThreads : Obligations.RepliesAndHeldItemsReachTheirThreads := by
  intro s u t
  simp only [exec_queuedItemPush, exec_remoteReply, exec_storeAck]
  exact ⟨fun h held room => execQueuedItemPush_room held room,
    fun r a err waits came => execRemoteReply_arrived err waits came,
    fun r a err waits unperformed target noStores => execRemoteReply_local err waits unperformed target noStores,
    fun r rest a oldest came => execStoreAck_arrived oldest came,
    fun r rest a oldest unperformed target => execStoreAck_local oldest unperformed target⟩

end Sys2Proof.Machine
end

section
/-!
PROOF. The life of a task: its acceptance, its dispatch, its cancel, and the reset of its queue (O19).
-/
namespace Sys2Proof.Machine

/-- R107: a task descriptor that passes every check of Table 4.4 and has no event to take a count of is accepted: a completion entry is
reserved for it, and it waits or is READY as its descriptor says. -/
theorem State.acceptTask_valid {s : State} {p : Nat} {x : Ctx} {i : CItem} {q : Carafe} (clocked : s.clocked p = true)
    (room : (s.ctx p x).tq.canAccept = true) (head : (s.ctx p x).tq.q.pop = some (i, q)) (gen : (taskOf i.data).gen = (s.ctx p x).tq.gen)
    (clean : i.poison = false) (opc : bits i.data 0 8 = 1) (noReserved : taskReserved i.data = false)
    (entry : inProgram x (taskOf i.data).entry = true)
    (noCount : (taskOf i.data).waits = false ∨ Tbl.get 0 (s.ctx p x).events (taskOf i.data).waitEvt = 0) :
    s.acceptTask p x = s.setCtx p x { s.ctx p x with
      tq := { (s.ctx p x).tq with q := q, reserved := (s.ctx p x).tq.reserved + 1 }, tasks := (s.ctx p x).tasks ++ [taskOf i.data] } := by
  have notTaken : ((taskOf i.data).waits && decide (0 < Tbl.get 0 (s.ctx p x).events (taskOf i.data).waitEvt)) = false := by
    rcases noCount with never | zero
    · rw [never, Bool.false_and]
    · rw [zero, decide_eq_false (by decide), Bool.and_false]
  have current : ¬ (taskOf i.data).gen ≠ (s.ctx p x).tq.gen := not_not_intro gen
  simp [State.acceptTask, clocked, room, head, if_neg current, clean, opc, noReserved, entry, notTaken]

/-- The head of the queue of a core that is not fenced is checked (R107). -/
theorem execTaskAccept_head {s : State} {u : CtxAt} (unfenced : (s.core u.core.val).fenced = false) :
    execTaskAccept u none s = .next (s.acceptTask u.core.val u.ctx) := by
  simp [execTaskAccept, unfenced]

@[simp] theorem Thread.st_setReg (t : Thread) (r v : Nat) : (t.setReg r v).st = t.st := by
  rw [Thread.setReg]
  split <;> rfl

@[simp] theorem Thread.task_setReg (t : Thread) (r v : Nat) : (t.setReg r v).task = t.task := by
  rw [Thread.setReg]
  split <;> rfl

/-- A thread at the entry of a task: ACTIVE, its registers cleared but for the task's arguments in x1 and x2 (R108). -/
def Thread.started (th : Thread) (task : Task) : Thread :=
  ({ th with st := .active, pc := task.entry, regs := [], task := some task }.setReg 1 task.arg0).setReg 2 task.arg1

/-- A task starts with x1 and x2 set and every other register 0 (R108). -/
theorem Thread.reg_started (th : Thread) (task : Task) (r : Nat) :
    (th.started task).reg r = if r = 1 then task.arg0 % 2 ^ 64 else if r = 2 then task.arg1 % 2 ^ 64 else 0 := by
  have cleared : ({ th with st := .active, pc := task.entry, regs := [], task := some task } : Thread).reg r = 0 := ite_self 0
  simp only [Thread.started, Thread.reg_setReg, cleared]
  split_ifs <;> omega

theorem Thread.started_at_entry (th : Thread) (task : Task) :
    (th.started task).st = .active ∧ (th.started task).pc = task.entry ∧ (th.started task).task = some task := by
  simp [Thread.started]

@[simp] theorem CoreCtx.tasks_setThread (c : CoreCtx) (t : Nat) (v : Thread) : (c.setThread t v).tasks = c.tasks := rfl

/-- R108: while no program load is in progress, the first READY task leaves the list for the lowest FREE thread. -/
theorem execTaskDispatch_ready {s : State} {u : CtxAt} {k t : Nat} {task : Task} (owns : s.owns u.core.val u.ctx = true)
    (go : s.held u.core.val u.ctx = false) (noLoad : (s.core u.core.val).load = none)
    (ready : readyTask (s.ctx u.core.val u.ctx).tasks = some k) (found : (s.ctx u.core.val u.ctx).tasks[k]? = some task)
    (free : (List.range 8).find? (fun j => ((s.ctx u.core.val u.ctx).thread j).st == .free) = some t) :
    execTaskDispatch u s = .next (s.setCtx u.core.val u.ctx
      ({ s.ctx u.core.val u.ctx with tasks := eraseAt (s.ctx u.core.val u.ctx).tasks k }.setThread t
        ((s.thread u.core.val u.ctx t).started task))) := by
  simp [execTaskDispatch, owns, go, noLoad, ready, found, free, Thread.started, State.thread]

/-- Settles O19: the head passes every check, and the thread that takes the task is the one read back; a cancel and a reset are one
operation each. -/
theorem tasksAreAcceptedDispatchedAndEnded : Obligations.TasksAreAcceptedDispatchedAndEnded := by
  simp only [Obligations.TasksAreAcceptedDispatchedAndEnded, exec_taskAccept, exec_taskDispatch, exec_prtTaskCancel, exec_prtTqReset]
  refine ⟨fun s u i q unfenced clocked room head gen clean opc noReserved entry noCount => ?_,
    fun s u k t task owns go noLoad ready found free => ?_, fun _ _ _ => rfl, fun _ _ => ⟨rfl, rfl⟩⟩
  · rw [execTaskAccept_head unfenced, State.acceptTask_valid clocked room head gen clean opc noReserved entry noCount]
  · refine ⟨_, execTaskDispatch_ready owns go noLoad ready found free, ?_⟩
    simp [State.thread, CoreCtx.thread_setThread, Thread.started_at_entry, Thread.reg_started]

end Sys2Proof.Machine
end

section
/-!
PROOF. Program loads: the write that begins one and the word that ends it (O20).
-/
namespace Sys2Proof.Machine

/-- R117: a write of 1 to MEM_PM_GO that passes the rows of Table 4.7 begins the load that the registers describe. -/
theorem execMemPmGo_begins {s : State} {core : Fin 512} {wr : Writer} {x : Ctx} (owner : s.writerOwns wr core.val x = true)
    (nonempty : s.fld (MEM_PM_LEN core.val) 0 18 ≠ 0) (lenWhole : s.fld (MEM_PM_LEN core.val) 0 18 % 64 = 0)
    (dstWhole : s.fld (MEM_PM_DST core.val) 0 18 % 64 = 0) (above : (pmBytes x).1 ≤ s.fld (MEM_PM_DST core.val) 0 18)
    (below : s.fld (MEM_PM_DST core.val) 0 18 + s.fld (MEM_PM_LEN core.val) 0 18 ≤ (pmBytes x).2) (idle : (s.core core.val).idle = true) :
    execMemPmGo core wr true x s = .next (((s.setCore core.val { s.core core.val with
      load := some { ctx := x, src := s.fld (MEM_PM_SRC core.val) 0 48, dst := s.fld (MEM_PM_DST core.val) 0 18,
                     len := s.fld (MEM_PM_LEN core.val) 0 18 } }).setPmStatus core.val stOk 0 true).answer stOk) := by
  simp [execMemPmGo, owner, nonempty, lenWhole, dstWhole, Nat.not_lt.2 above, Nat.not_lt.2 below, idle]

/-- A load whose words have all been written ends with OK. -/
theorem State.pmRun_ends {s : State} {p : Nat} {l : PmLoad} (load : (s.core p).load = some l) (whole : l.len ≤ l.done)
    (remote : Option PieceData) (fuel : Nat) : s.pmRun p remote (fuel + 1) = s.pmEnd p stOk l.len := by
  simp only [State.pmRun, load, if_pos whole]

/-- A load reads its next 64 bytes at a device-local address, writes them to program memory unmarked, and goes on (R118). -/
theorem State.pmRun_local {s s1 s2 : State} {p : Nat} {l : PmLoad} {a v lv : Nat} {e : Bool} (load : (s.core p).load = some l)
    (more : l.done < l.len)
    (walk : s.xlate (.micro p l.ctx) (s.instOf p l.ctx) (l.src + l.done) .read (l.ctx == .timed) = (.ok (.local a) e lv, s1))
    (read : s1.accRead a 64 (s.instOf p l.ctx) uProgLoad = ({ status := stOk, data := v }, s2)) (remote : Option PieceData) (fuel : Nat) :
    s.pmRun p remote (fuel + 1) = (s2.setCore p
      { (s2.core p).pmWrite (l.dst + l.done) v false with load := some { l with done := l.done + 64 } }).pmRun p remote fuel := by
  simp only [State.pmRun, load, if_neg (Nat.not_le.2 more), walk, read, if_true]

/-- Settles O20: the write passes every check; the load takes its last word, and then has them all. -/
theorem programLoadsBeginAndEnd : Obligations.ProgramLoadsBeginAndEnd := by
  simp only [Obligations.ProgramLoadsBeginAndEnd, exec_memPmGo, exec_programLoadEnd]
  refine ⟨fun s core wr x owner nonempty lenWhole dstWhole above below idle =>
      execMemPmGo_begins owner nonempty lenWhole dstWhole above below idle,
    fun s s1 s2 core l a v lv e load more last walk read => ?_⟩
  rw [execProgramLoadEnd, State.pmRun_local load more walk read, State.pmRun_ends (by rw [State.core_setCore_self]) last]

end Sys2Proof.Machine
end

section
/-!
PROOF. The vector engines: the word that a running kernel issues takes the effect of its opcode: the instructions with vector operands
(O22) and the control instructions (O24).
-/
namespace Sys2Proof.Machine

open Sys2Proof.Safety

/-! ### Issue (R134, R139, R145, R147) -/

/-- Counting an instruction changes a register alone: every core is as it was. -/
@[simp] theorem vceIssued_core (s : State) (u : VceAt) (p : Nat) : (vceIssued s u).core p = s.core p := State.core_setReg ..

@[simp] theorem vceIssued_vce (s : State) (u : VceAt) (p v : Nat) (x : Ctx) : (vceIssued s u).vce p v x = s.vce p v x := rfl

@[simp] theorem vceIssued_guards (s : State) (u : VceAt) : (vceIssued s u).guards = s.guards := by
  simp only [vceIssued, State.bump64_frame]

/-- Operands are read from the kernel's registers and its core's scratch, which the count leaves alone. -/
theorem vceIssued_vceSources (s : State) (u : VceAt) (w : VWord) : vceSources (vceIssued s u) u w = vceSources s u w := rfl

/-- The word that a kernel issues takes its effect in the state in which it has been issued: none of the checks of the issue and of the
fetch stops it. -/
theorem State.vceIssue_of_vceIssues {s : State} {u : VceAt} {op : Nat} {w : VWord} (h : VceIssues s u op w) (k : State → VWord → State) :
    s.vceIssue u op k = k (vceIssued s u) w := by
  obtain ⟨may, inProg, word, rfl, rsvd, form, fetch, unmarked⟩ := h
  have fpAllowed : ¬ (vceFpOnly w.op = true ∧ w.fp = false) := by
    rcases form with anyForm | fp
    · simp [anyForm]
    · simp [fp]
  simp [State.vceIssue, may, inProg, word, rsvd, fpAllowed, fetch, unmarked, State.fetchPm, vceIssued]

/-! ### Instructions with vector operands (O22) -/

/-- Operands that pass the checks of Table 5.5 are read, and the result computed from them is written. -/
theorem State.vceOp_of_result {s : State} {u : VceAt} {w : VWord} {r : VRes}
    (operands : (s.vce u.core.val u.v.val u.ctx).checkOperands u.ctx w.operands = none)
    (result : w.compute (s.vce u.core.val u.v.val u.ctx) (vceSources s u w) = some r) :
    s.vceOp u w = s.vceResult u w (vceSources s u w) r := by
  rw [vceSources] at result
  simp only [State.vceOp, operands, result, vceSources]

/-- What all instructions with vector operands have in common (R134): the word is issued, then writes its result. -/
theorem State.vceIssue_of_vceRuns {s : State} {u : VceAt} {op : Nat} {w : VWord} {r : VRes} (h : VceRuns s u op w r) :
    s.vceIssue u op (fun s w => s.vceOp u w) = vceRan s u w r := by
  have operands := h.operands
  have result := h.result
  rw [← vceIssued_vce] at operands
  rw [← vceIssued_vce, ← vceIssued_vceSources] at result
  rw [State.vceIssue_of_vceIssues h.issues, State.vceOp_of_result operands result, vceIssued_vceSources, vceRan]

/-- Settles O22: the 21 commands differ in the opcode they issue alone, and so share one argument. -/
theorem vectorInstructionsComplete : Obligations.VectorInstructionsComplete := by
  intro s u w r
  simp only [exec_vmov, exec_vperm, exec_vadd, exec_vsub, exec_cmul, exec_cfma, exec_cfms, exec_cmac, exec_cmaci, exec_accrd, exec_bfly,
    exec_rmul, exec_rfma, exec_vmax, exec_vmin, exec_vsum, exec_vexp, exec_vrcp, exec_vrsq, exec_cvt, exec_cvtn]
  and_intros <;> exact fun h => congrArg Host.Outcome.next (State.vceIssue_of_vceRuns h)

/-! ### Control instructions (O24) -/

section
variable {s : State} {u : VceAt} {w : VWord}

/-- RPT before a word of opcodes 0x01 to 0x24: the next word is to run imm times, and is skipped for imm 0 (R138). -/
theorem execRpt_issued (h : VceIssues s u 0x30 w)
    (lo : bits (Tbl.get 0 (s.core u.core.val).pm ((s.vce u.core.val u.v.val u.ctx).pc + 1)) 0 8 ≠ 0)
    (hi : bits (Tbl.get 0 (s.core u.core.val).pm ((s.vce u.core.val u.v.val u.ctx).pc + 1)) 0 8 ≤ 0x24) :
    execRpt u s = .next (if w.imm = 0 then (vceIssued s u).vceCtl u (fun c => c.goto (c.pc + 2))
      else (vceIssued s u).vceCtl u (fun c => { c with
        pc := c.pc + 1, rptActive := true, rptShort := List.contains s.guards (s.core u.core.val).group, rptLeft := w.imm,
        rptPc := c.pc + 1, runLeft := 0 })) := by
  simp only [execRpt, State.vceIssue_of_vceIssues h, vceIssued_vce, vceIssued_core, vceIssued_guards, lo, Nat.not_lt.2 hi, or_self, if_false]

/-- LOOP of a body outside a loop: the body is to run imm times, and is skipped for imm 0 (R140). -/
theorem execLoop_issued (h : VceIssues s u 0x31 w) (body : w.d ≠ 0) (outside : (s.vce u.core.val u.v.val u.ctx).loopActive = false) :
    execLoop u s = .next (if w.imm = 0 then (vceIssued s u).vceCtl u (fun c => { c with pc := c.pc + 1 + w.d })
      else (vceIssued s u).vceCtl u (fun c =>
        { c with pc := c.pc + 1, loopActive := true, loopLeft := w.imm, loopPc := c.pc + 1, loopLen := w.d })) := by
  simp only [execLoop, State.vceIssue_of_vceIssues h, vceIssued_vce, body, outside, Bool.false_eq_true, or_self, if_false]

end

/-- Settles O24: RPT and LOOP by their counts; each other word has one effect once it is issued. -/
theorem kernelControlInstructionsComplete : Obligations.KernelControlInstructionsComplete := by
  intro s u w
  simp only [exec_rpt, exec_loop, exec_seta, exec_seto, exec_setl, exec_setm, exec_endKernel]
  refine ⟨fun h lo hi repeats => ?rpt, fun h lo hi skips => ?rptSkip, fun h body outside runs => ?loop, fun h body outside skips => ?loopSkip,
    fun h => ?seta, fun h => ?seto, fun h => ?setl, fun h => ?setm, fun h => ?endKernel⟩
  case rpt => rw [execRpt_issued h lo hi, if_neg repeats]
  case rptSkip => rw [execRpt_issued h lo hi, if_pos skips]
  case loop => rw [execLoop_issued h body outside, if_neg runs]
  case loopSkip => rw [execLoop_issued h body outside, if_pos skips]
  case seta => rw [execSeta, State.vceIssue_of_vceIssues h]
  case seto => rw [execSeto, State.vceIssue_of_vceIssues h]
  case setl => rw [execSetl, State.vceIssue_of_vceIssues h]
  case setm => rw [execSetm, State.vceIssue_of_vceIssues h]
  case endKernel => rw [execEndKernel, State.vceIssue_of_vceIssues h]

end Sys2Proof.Machine
end

section
/-!
PROOF. Host DMA: acceptance, pieces and completion, and the completion of gateway descriptors (O29).
-/
namespace Sys2Proof.Machine

@[simp] theorem State.dmaQ_setDmaQ_self (s : State) (i : Nat) (q : DmaQ) : (s.setDmaQ i q).dmaQ i = q := by
  rw [State.dmaQ, State.setDmaQ, Tbl.get_put, if_pos rfl]

/-- An instance is detached by its register, which a DMA queue does not touch. -/
@[simp] theorem State.detached_setDmaQ (s : State) (k : Nat) (q : DmaQ) (i : Nat) : (s.setDmaQ k q).detached i = s.detached i := rfl

/-! ### Acceptance (R195) -/

/-- R195: the head of a queue that runs none passes every check, and the command of its opcode begins it. -/
theorem State.dmaAccept_valid {s : State} {i op : Nat} {it : CItem} {rest : Carafe} (idle : (s.dmaQ i).jobs = [])
    (head : (s.dmaQ i).q.pop = some (it, rest)) (gen : bits it.data 32 16 = (s.dmaQ i).gen) (noReserved : dmaReserved it.data = false)
    (nonempty : dmaLen it.data ≠ 0) (hostWhole : dmaHost it.data % 64 = 0) (devWhole : dmaDev it.data % 64 = 0)
    (lenWhole : dmaLen it.data % 64 = 0) (cmplWhole : dmaCmpl it.data % 16 = 0) (opc : bits it.data 0 8 = op) :
    s.dmaAccept i op false = s.setDmaQ i { s.dmaQ i with q := rest, jobs := [{ desc := it.data }] } := by
  simp [State.dmaAccept, idle, head, opc, gen, noReserved, nonempty, hostWhole, devWhole, lenWhole, cmplWhole]

/-! ### Pieces (R199) -/

/-- R199: the descriptor that runs moves its next piece while its generation lives. -/
theorem execDmaPieceDone_current {s : State} {i : Fin 512} {j : DmaJob} (runs : (s.dmaQ i.val).jobs.find? (fun j => !j.ended) = some j)
    (gen : bits j.desc 32 16 = (s.dmaQ i.val).gen) (host : PieceData) :
    execDmaPieceDone i host s = .next (s.dmaMove i.val j host) := by
  simp only [execDmaPieceDone, runs, if_neg (not_not_intro gen)]

/-! ### Completion records (R196, R302) -/

/-- The record of an ended descriptor: a fault of translation or access names its cause (R196). -/
def State.recordOf (s : State) (i : Nat) (j : DmaJob) : Nat :=
  dmaRecord j.desc j.status (if j.status = stFaultXlat ∨ j.status = stFaultAccess then j.cause else 0) (s.attn i) j.done

/-- A record that ends OK names no cause. -/
theorem State.recordOf_of_ok {j : DmaJob} (ok : j.status = stOk) (s : State) (i : Nat) :
    s.recordOf i j = dmaRecord j.desc stOk 0 (s.attn i) j.done := by
  have noFault : ¬ (stOk = stFaultXlat ∨ stOk = stFaultAccess) := by decide
  rw [State.recordOf, ok, if_neg noFault]

/-- R196: the ended descriptor of an attached instance leaves its queue, and its record is written where it says. -/
theorem execDmaComplete_ended {s : State} {i : Fin 512} {j : DmaJob} (ended : (s.dmaQ i.val).jobs.find? (fun j => j.ended) = some j)
    (attached : s.detached i.val = false) :
    execDmaComplete i s = .next { s.setDmaQ i.val { s.dmaQ i.val with jobs := [] } with
      hostOut := s.hostOut ++ [{ inst := i.val, addr := dmaCmpl j.desc, len := 16, data := s.recordOf i.val j }] } := by
  simp only [execDmaComplete, ended, State.detached_setDmaQ, attached, Bool.false_eq_true, if_false]
  rfl

/-- R302: an ended gateway descriptor of a living generation, whose record's address translates, leaves its queue, and its record is
written through the instance's translations. -/
theorem execGwComplete_translated {s s1 : State} {i : Fin 512} {j : DmaJob} {rest : List DmaJob} {segs : List (Target × Nat)} {lv : Nat}
    (head : (s.gwQueue i.val).jobs = j :: rest) (ended : j.ended = true) (gen : bits j.desc 32 16 = (s.gwQueue i.val).gen)
    (walk : s.span .hub i.val .write (s.instTimed i.val) 2 (gwCmpl j.desc) 16 = (.ok segs lv, s1)) :
    execGwComplete i s = .next ((s1.writeSegs i.val uGateway (s.instTimed i.val) [] 0 segs (s.recordOf i.val j)).2.setGwQueue i.val
      { s.gwQueue i.val with jobs := rest }) := by
  simp only [execGwComplete, head, ended, Bool.true_eq_false, if_false, if_neg (not_not_intro gen), walk]
  rfl

/-- Settles O29: the head passes every check, the piece is of a living generation, and an ended descriptor's record is the one that ends
OK. -/
theorem hostDmaCommandsComplete : Obligations.HostDmaCommandsComplete := by
  intro s i
  simp only [exec_toDev, exec_toHost, exec_dmaPieceDone, exec_dmaComplete, exec_gwComplete]
  refine ⟨fun it rest idle head gen noReserved nonempty hostWhole devWhole lenWhole cmplWhole => ?accept,
    fun host j runs gen => execDmaPieceDone_current runs gen host, fun j only ended ok attached => ?record,
    fun j rest segs lv s1 head ended ok gen walk => ?gateway⟩
  case accept =>
    have valid {op : Nat} := State.dmaAccept_valid (op := op) idle head gen noReserved nonempty hostWhole devWhole lenWhole cmplWhole
    exact ⟨fun toDev => congrArg Host.Outcome.next (valid toDev), fun toHost => congrArg Host.Outcome.next (valid toHost)⟩
  case record =>
    have found : (s.dmaQ i.val).jobs.find? (fun j => j.ended) = some j := by rw [only, List.find?_cons_of_pos ended]
    refine ⟨_, execDmaComplete_ended found attached, ?_, by rw [State.recordOf_of_ok ok]⟩
    exact congrArg DmaQ.jobs (s.dmaQ_setDmaQ_self i.val _)
  case gateway => rw [execGwComplete_translated head ended gen walk, State.recordOf_of_ok ok]

end Sys2Proof.Machine
end

section
/-!
PROOF. Network time: a change of the rate folds it, a phase step moves it, and both leave the counter alone (O31).
-/
namespace Sys2Proof.Machine

open Sys2Proof.Safety

@[simp] theorem State.mcOnly_mc (s : State) (a : Nat) (f : State → State) : s.mcOnly .mc a f = f s := rfl

/-- The registers that network time is computed from (R218). -/
def netTimeRegs : List Nat := [TIME_OFF0, TIME_OFF1, TIME_BASE, TIME_STEP]

theorem State.timeOff_congr {s t : State} (off0 : t.reg TIME_OFF0 = s.reg TIME_OFF0) (off1 : t.reg TIME_OFF1 = s.reg TIME_OFF1) :
    t.timeOff = s.timeOff := by
  unfold State.timeOff State.fld
  rw [off0, off1]

/-- Every other register leaves network time alone. -/
theorem State.netTime_setReg_ne (s : State) {a : Nat} (v : Nat) (h : a ∉ netTimeRegs) : (s.setReg a v).netTime = s.netTime := by
  simp only [netTimeRegs, List.mem_cons, List.not_mem_nil, or_false, not_or] at h
  obtain ⟨off0, off1, base, step⟩ := h
  have off : (s.setReg a v).timeOff = s.timeOff := State.timeOff_congr (s.reg_setReg_ne v off0) (s.reg_setReg_ne v off1)
  simp only [State.netTime, off, s.reg_setReg_ne v base, s.fld_setReg_ne v 0 48 step, State.setReg_frame]

theorem State.netTime_event (s : State) {a : Nat} (i : Nat) (h : a ∉ netTimeRegs) : (s.event a i).netTime = s.netTime :=
  s.netTime_setReg_ne _ h

theorem State.netTime_bump (s : State) {a : Nat} (h : a ∉ netTimeRegs) : (s.bump a).netTime = s.netTime :=
  s.netTime_setReg_ne _ h

/-- off reads as it was set, at its 104 bits (R218). -/
theorem State.timeOff_setTimeOff (s : State) {v : Nat} (h : v < 2 ^ 104) : (s.setTimeOff v).timeOff = v := by
  have low : (s.setTimeOff v).reg TIME_OFF0 = v % 2 ^ 64 := by
    rw [State.setTimeOff, State.reg_setReg_ne _ _ (by decide), State.reg_setReg_self, bits, Nat.shiftRight_zero, Nat.mod_mod]
  have high : (s.setTimeOff v).fld TIME_OFF1 0 40 = v / 2 ^ 64 := by
    rw [State.setTimeOff, State.fld_setReg_self _ _ _ _ _ (by decide), bits_eq, bits_eq]
    omega
  unfold State.timeOff
  rw [low, high, Nat.shiftLeft_eq, Nat.mod_add_div']

theorem State.netTime_lt (s : State) : s.netTime < 2 ^ 104 := Nat.mod_lt _ (by decide)

/-- Where the base is the counter's own value, no ticks have passed since it, and network time is off alone. -/
theorem State.netTime_of_base {s : State} (base : s.reg TIME_BASE = s.cnt % 2 ^ 64) : s.netTime = s.timeOff % 2 ^ 104 := by
  have noTicks : (2 ^ 64 + s.cnt - s.cnt % 2 ^ 64) % 2 ^ 64 = 0 := by omega
  rw [State.netTime, base, noTicks, Nat.zero_mul, Nat.add_zero]

/-! ### The rate (R219) -/

/-- A change of the rate starts the ticks anew at the counter's value. -/
theorem State.base_setStep (s : State) (v : Nat) : (s.setStep v).reg TIME_BASE = s.cnt % 2 ^ 64 := by
  rw [State.setStep, State.reg_setFld_ne _ _ _ _ (by decide), State.foldTime, State.reg_setReg_self]

/-- What the ticks had added by then stands in off (R219). -/
theorem State.timeOff_setStep (s : State) (v : Nat) : (s.setStep v).timeOff = s.netTime := by
  have off {a : Nat} (step : TIME_STEP ≠ a) (base : TIME_BASE ≠ a) : (s.setStep v).reg a = (s.setTimeOff s.netTime).reg a := by
    rw [State.setStep, State.reg_setFld_ne _ _ _ _ step, State.foldTime, State.reg_setReg_ne _ _ base]
  rw [State.timeOff_congr (off (by decide) (by decide)) (off (by decide) (by decide)), s.timeOff_setTimeOff s.netTime_lt]

/-- R219: setting the rate folds network time into off first, and so does not move it. -/
theorem State.netTime_setStep (s : State) (v : Nat) : (s.setStep v).netTime = s.netTime := by
  rw [State.netTime_of_base (s.base_setStep v), s.timeOff_setStep]
  exact Nat.mod_eq_of_lt s.netTime_lt

theorem State.step_setStep (s : State) (v : Nat) : (s.setStep v).fld TIME_STEP 0 48 = v % 2 ^ 48 :=
  State.fld_setFld_self _ _ _ _ _ (by decide)

theorem State.cnt_setStep (s : State) (v : Nat) : (s.setStep v).cnt = s.cnt := ((Keeps.refl s).setStep (.refl _)).same .cnt rfl

/-! ### The phase (R219) -/

/-- R219: network time moves by e units of 2^-16 ns. -/
theorem State.netTime_phaseStep (s : State) (e : Int) :
    ((s.phaseStep e).netTime : Int) = ((s.netTime : Int) + e * 2 ^ 24) % 2 ^ 104 := by
  have nonneg : 0 ≤ ((s.timeOff : Int) + e * 2 ^ 24) % 2 ^ 104 := Int.emod_nonneg _ (by decide)
  have lt : ((s.timeOff : Int) + e * 2 ^ 24) % 2 ^ 104 < 2 ^ 104 := Int.emod_lt_of_pos _ (by decide)
  have off : (s.phaseStep e).timeOff = (((s.timeOff : Int) + e * 2 ^ 24) % 2 ^ 104).toNat := s.timeOff_setTimeOff (by omega)
  have base : (s.phaseStep e).reg TIME_BASE = s.reg TIME_BASE := by
    rw [State.phaseStep, State.setTimeOff, State.reg_setReg_ne _ _ (by decide), State.reg_setReg_ne _ _ (by decide)]
  have step : (s.phaseStep e).fld TIME_STEP 0 48 = s.fld TIME_STEP 0 48 := by
    rw [State.phaseStep, State.setTimeOff, State.fld_setReg_ne _ _ _ _ (by decide), State.fld_setReg_ne _ _ _ _ (by decide)]
  have cnt : (s.phaseStep e).cnt = s.cnt := rfl
  rw [State.netTime, State.netTime, off, base, step, cnt]
  omega

/-- R219: the events of a phase step and the count of the lists' steps (R243) leave network time where the step has put it. -/
theorem State.netTime_stepPhase (s : State) (e : Int) :
    ((s.stepPhase e).netTime : Int) = ((s.netTime : Int) + e * 2 ^ 24) % 2 ^ 104 := by
  have event : ((s.phaseStep e).event TIME_EVENT 1).netTime = (s.phaseStep e).netTime := State.netTime_event _ _ (by decide)
  rw [State.stepPhase]
  split
  · rw [event, s.netTime_phaseStep]
  · rw [State.netTime_event _ _ (by decide), State.netTime_bump _ (by decide), event, s.netTime_phaseStep]

/-- A phase step changes off, its event, and the lists' event and count. -/
theorem State.fld_stepPhase_ne (s : State) (e : Int) {a : Nat} (lo w : Nat)
    (h : a ∉ [TIME_OFF0, TIME_OFF1, TIME_EVENT, CGL_PHASE_CNT, CGL_EVENT]) : (s.stepPhase e).fld a lo w = s.fld a lo w := by
  simp only [List.mem_cons, List.not_mem_nil, or_false, not_or, ne_comm (a := a)] at h
  obtain ⟨off0, off1, event, count, lists⟩ := h
  have phase : ((s.phaseStep e).event TIME_EVENT 1).fld a lo w = s.fld a lo w := by
    rw [State.event, State.fld_setFld_ne _ _ _ _ _ _ event, State.phaseStep, State.setTimeOff, State.fld_setReg_ne _ _ _ _ off1,
      State.fld_setReg_ne _ _ _ _ off0]
  rw [State.stepPhase]
  split
  · exact phase
  · rw [State.event, State.fld_setFld_ne _ _ _ _ _ _ lists, State.bump, State.bumpFld, State.fld_setFld_ne _ _ _ _ _ _ count, phase]

theorem State.cnt_stepPhase (s : State) (e : Int) : (s.stepPhase e).cnt = s.cnt := ((Keeps.refl s).stepPhase (.refl _)).same .cnt rfl

/-! ### The commands -/

/-- R219, R227: a rate in range is taken while the servo is disabled. -/
theorem execTimeStepWrite_inRange {s : State} {v : BitVec 48} (disabled : s.fld TIME_SERVO_CFG 40 1 = 0) (low : stepMin ≤ v.toNat)
    (high : v.toNat ≤ stepMax) : execTimeStepWrite .mc v s = .next ((s.setStep v.toNat).answer stOk) := by
  have taken : ¬ (s.fld TIME_SERVO_CFG 40 1 = 1 ∨ v.toNat < stepMin ∨ stepMax < v.toNat) := by omega
  rw [execTimeStepWrite, State.mcOnly_mc, if_neg taken]

theorem toSigned_toNat (e : Word) : toSigned 64 e.toNat = e.toInt := by
  rw [toSigned_eq_bmod, BitVec.toInt_eq_toNat_bmod]

/-- R219, R227: a step other than 0 is taken while the servo is disabled. -/
theorem execTimeAdj_nonzero {s : State} {e : Word} (disabled : s.fld TIME_SERVO_CFG 40 1 = 0) (nonzero : e ≠ 0) :
    execTimeAdj .mc e s = .next ((s.stepPhase e.toInt).answer stOk) := by
  have moves : e.toNat ≠ 0 := mt (fun zero => BitVec.eq_of_toNat_eq zero) nonzero
  have taken : ¬ s.fld TIME_SERVO_CFG 40 1 = 1 := by omega
  rw [execTimeAdj, State.mcOnly_mc, if_neg moves, if_neg taken, toSigned_toNat]

theorem State.netTime_answer (s : State) (code cause : Nat) (data : List Nat) : (s.answer code cause data).netTime = s.netTime := rfl

theorem State.fld_answer (s : State) (code cause : Nat) (data : List Nat) (a lo w : Nat) :
    (s.answer code cause data).fld a lo w = s.fld a lo w := rfl

theorem State.cnt_answer (s : State) (code cause : Nat) (data : List Nat) : (s.answer code cause data).cnt = s.cnt := rfl

/-- Settles O31: a fold comes before the new rate, and a phase step moves off alone; both keep to the registers. -/
theorem rateAndPhaseOfNetworkTime : Obligations.RateAndPhaseOfNetworkTime := by
  simp only [Obligations.RateAndPhaseOfNetworkTime, exec_timeStepWrite, exec_timeAdj]
  refine ⟨fun s v disabled low high => ⟨_, execTimeStepWrite_inRange disabled low high, ?rate⟩,
    fun s e disabled nonzero => ⟨_, execTimeAdj_nonzero disabled nonzero, ?phase⟩⟩
  case rate =>
    rw [State.netTime_answer, State.fld_answer, State.cnt_answer, s.netTime_setStep, s.step_setStep, s.cnt_setStep]
    exact ⟨rfl, Nat.mod_eq_of_lt v.isLt, rfl⟩
  case phase =>
    rw [State.netTime_answer, State.fld_answer, State.cnt_answer, s.cnt_stepPhase]
    exact ⟨s.fld_stepPhase_ne _ _ _ (by decide), rfl, s.netTime_stepPhase _⟩

end Sys2Proof.Machine
end

section
/-!
PROOF. Clocks: the source, glides, targets and enables (O30).
-/
namespace Sys2Proof.Machine

/-! ### Islands (R211) -/

theorem State.islMult_glideFlag (s : State) (n : Nat) : (s.glideFlag n).islMult n = s.islMult n :=
  State.fld_setFld_other _ _ _ _ _ _ _ (by decide) (by decide)

/-- R211: a step of a glide goes toward the effective target, by at most step_max. -/
theorem State.islMult_glide (s : State) (n : Nat) :
    (s.glide n).islMult n = (if s.islMult n ≤ s.islTarget n then min (s.islTarget n) (s.islMult n + s.fld CLK_GLIDE_CFG 0 6)
      else max (s.islTarget n) (s.islMult n - s.fld CLK_GLIDE_CFG 0 6)) % 2 ^ 9 := by
  rw [State.glide, State.islMult_glideFlag]
  exact State.fld_setFld_self _ _ _ _ _ (by decide)

theorem execClkIslTargetWrite_mc (s : State) (n : Fin 64) (v : BitVec 9) : execClkIslTargetWrite .mc n v s =
    .next (if v.toNat < 64 ∨ 296 < v.toNat then s.refuseReg (CLK_ISL n.val) else (s.setTarget n.val v.toNat).answer stOk) := rfl

/-! ### The time PLL (R216) -/

/-- R216: coast ends with the time PLL's lock when XCLK is there. -/
theorem execTimePllLock_xclk {s : State} (xclk : s.fld CLK_STATUS 0 1 = 1) : execTimePllLock s =
    .next (((((s.setFld CLK_STATUS 1 1 1).setFld CLK_STATUS 2 1 0).setReg CLK_PLL_LOCK (2 ^ 64 - 1)).setReg CLK_PLL_LOCK_HUB
      (2 ^ 52 - 1)).glideFlags.timeCheck) := by
  have still : (s.setFld CLK_STATUS 1 1 1).fld CLK_STATUS 0 1 = 1 := by
    rw [State.fld_setFld_other _ _ _ _ _ _ _ (by decide) (by decide), xclk]
  rw [execTimePllLock, if_pos still]

/-! ### Clock enables (R214) -/

/-- R214: enables are stored as written when every block that the write turns off is idle. -/
theorem State.writeEnables_of_idle {s : State} {a w v : Nat} {idle : Nat → Bool}
    (h : ∀ n < w, bit (s.reg a) n = true → bit v n = false → idle n = true) :
    s.writeEnables a w v idle = (s.setReg a (bits v 0 w)).answer stOk := by
  have noneBusy : ((List.range w).filter (fun b => bit (s.reg a) b && !(bit v b))).filter (fun b => !(idle b)) = [] := by
    simp only [List.filter_eq_nil_iff, List.mem_filter, List.mem_range, Bool.and_eq_true, Bool.not_eq_true', Bool.not_eq_false, and_imp]
    exact h
  simp only [State.writeEnables, noneBusy, List.foldl_nil, List.isEmpty_nil, if_true]

/-- Settles O30: the commands of the source say what they do; a glide, a target and the enables by the lemmas above. -/
theorem clockCommandsComplete : Obligations.ClockCommandsComplete := by
  simp only [Obligations.ClockCommandsComplete, exec_xclkLost, exec_xclkRestored, exec_timePllLock, exec_glideStep, exec_clkIslTargetWrite,
    exec_clkEnWrite, execClkIslTargetWrite_mc]
  refine ⟨fun s => rfl, fun s => rfl, fun s xclk => execTimePllLock_xclk xclk, fun s n => ⟨_, rfl, fun up => ?up, fun down => ?down⟩,
    fun s n v low high => ?inRange, fun s n v out => by rw [if_pos out], fun s v idle => ?islands, fun s v idle => ?hubBlocks⟩
  case up => rw [s.islMult_glide n.val, if_pos up]
  case down => rw [s.islMult_glide n.val, if_neg (Nat.not_le.2 down)]
  case inRange => rw [if_neg (by omega)]
  case islands => exact congrArg Host.Outcome.next (State.writeEnables_of_idle idle)
  case hubBlocks => exact congrArg Host.Outcome.next (State.writeEnables_of_idle idle)

end Sys2Proof.Machine
end

section
/-!
PROOF. Time commands: markers, servo samples, the latched read, the declaration of lock, and the comparators (O32).
-/
namespace Sys2Proof.Machine

open Sys2Proof.Safety

/-! ### Markers (R221, R222) -/

/-- The parts that a marker may change beside the counter: bit errors reach memories, and copies that have drifted are counted. -/
def markerParts : List Field := [.regs, .cores, .dev, .rasWin, .rasBins, .rasCool, .escal, .islCopy]

/-- A marker lets the counter run to the next multiple of 1,024; what else it does leaves the counter alone (R222). -/
theorem execTimeMarker_keeps_elapse (drift : List (Fin 64 × Int)) (upsets : List (UpsetAt × MemErr)) (s : State) :
    OutP (partsMask markerParts) (s.elapse (1024 - s.cnt % 1024)) (execTimeMarker drift upsets s) := by
  have upset : Keeps (partsMask markerParts) (s.elapse (1024 - s.cnt % 1024))
      (upsets.foldl (fun (s : State) u => s.upsetAt u.1 u.2) (s.elapse (1024 - s.cnt % 1024))) :=
    .foldl (.refl _) fun _ h _ => h.upsetAt ⟨rfl⟩
  exact .next (.foldl (upset.set_islCopy ⟨rfl⟩) fun _ h _ => h.markIsland ⟨rfl⟩)

theorem execTimeMarker_cnt (drift : List (Fin 64 × Int)) (upsets : List (UpsetAt × MemErr)) (s : State) :
    ∃ t, execTimeMarker drift upsets s = .next t ∧ t.cnt = (s.cnt + (1024 - s.cnt % 1024)) % 2 ^ 64 :=
  ⟨_, rfl, (execTimeMarker_keeps_elapse drift upsets s _ rfl).same .cnt rfl⟩

/-- Copies that differ by one tick at most slew, which nothing shows (R222). -/
theorem State.foldl_markIsland_of_slew (s : State) {copies : List (Nat × Int)} (slew : ∀ p ∈ copies, p.2.natAbs ≤ 1) :
    copies.foldl (fun (s : State) p => s.markIsland p.1 p.2) s = s := by
  refine List.foldlRecOn (motive := (· = s)) copies _ rfl fun t same p mem => ?_
  rw [State.markIsland, if_pos (slew p mem), same]

theorem execTimeMarker_slew {s : State} (slew : ∀ p ∈ s.islCopy, p.2.natAbs ≤ 1) :
    execTimeMarker [] [] s = .next { s.elapse (1024 - s.cnt % 1024) with islCopy := [] } :=
  congrArg Host.Outcome.next (State.foldl_markIsland_of_slew _ slew)

/-! ### The servo and lock (R226, R227) -/

theorem execTimeServoOfs_enabled {s : State} (e : Word) (on : s.fld TIME_SERVO_CFG 40 1 = 1) :
    execTimeServoOfs .mc e s = .next (((s.servo (toSigned 64 e.toNat)).timeCheck).answer stOk) := by
  rw [execTimeServoOfs, State.mcOnly_mc, if_neg (by omega)]

/-- R226: a sample that comes while the servo is disabled is counted alone. -/
theorem execTimeServoOfs_disabled {s : State} (e : Word) (off : s.fld TIME_SERVO_CFG 40 1 = 0) :
    execTimeServoOfs .mc e s = .next ((s.bumpFld TIME_SERVO_CNT 32 32 1).answer stOk) := by
  rw [execTimeServoOfs, State.mcOnly_mc, if_pos off]

/-- R227: while the servo is disabled, the management cores declare lock. -/
theorem execDeclareLock_disabled {s : State} (lock : Bool) (off : s.fld TIME_SERVO_CFG 40 1 = 0) :
    execDeclareLock .mc lock s =
      .next ((((s.setFld TIME_CTRL 0 1 (b2n lock)).setFld TIME_STATUS 1 1 (b2n lock)).timeCheck).answer stOk) := by
  have still : (s.setFld TIME_CTRL 0 1 (b2n lock)).fld TIME_SERVO_CFG 40 1 = 0 := by rw [State.fld_setFld_ne _ _ _ _ _ _ (by decide), off]
  simp only [execDeclareLock, State.mcOnly_mc, if_pos still]

/-! ### The latched read (R220) -/

theorem b2n_le_one (b : Bool) : b2n b ≤ 1 := by cases b <;> decide

theorem State.nowSub_lt (s : State) : s.nowSub < 2 ^ 64 := by
  have valid := b2n_le_one s.timeValid
  unfold State.nowSub
  rw [Nat.shiftLeft_eq (b2n s.timeValid)]
  omega

/-- R220: a management core's read latches the sub-ns part in TIME_NOW_SUB. -/
theorem execTimeNowNsRead_mc (s : State) : ∃ t, execTimeNowNsRead .mc s = .next t ∧ t.reply.data = [s.nowNs] ∧
    t.reg TIME_NOW_SUB = s.nowSub ∧ SameBut [.regs, .reply] s t := by
  have keeps : Keeps (partsMask [.regs, .reply]) s ((s.setReg TIME_NOW_SUB s.nowSub).answer stOk 0 [s.nowNs]) :=
    ((Keeps.refl s).setReg ⟨rfl⟩).answer ⟨rfl⟩
  refine ⟨(s.setReg TIME_NOW_SUB s.nowSub).answer stOk 0 [s.nowNs], rfl, rfl, ?_, keeps.sameBut fun f hf => mem_of_testBit_partsMask hf⟩
  rw [State.reg_answer, State.reg_setReg_self, Nat.mod_eq_of_lt s.nowSub_lt]

theorem State.wreg_reply (s : State) (r : Reply) (i off : Nat) : ({ s with reply := r } : State).wreg i off = s.wreg i off := rfl

/-- R220: a host's read latches it in the reader's own window. -/
theorem execTimeNowNsRead_host (s : State) (i : Fin 512) : ∃ t, execTimeNowNsRead (.host i) s = .next t ∧ t.reply.data = [s.nowNs] ∧
    t.wreg i.val 0x2008 = s.nowSub ∧ SameBut [.win, .reply] s t := by
  have keeps (r : Reply) : Keeps (partsMask [.win, .reply]) s { s.setWreg i.val 0x2008 s.nowSub with reply := r } :=
    ((Keeps.refl s).setWreg ⟨rfl⟩).set_reply ⟨rfl⟩
  refine ⟨{ s.setWreg i.val 0x2008 s.nowSub with reply := { code := stOk, attn := s.attn i.val, data := [s.nowNs] } }, rfl, rfl, ?_,
    (keeps _).sameBut fun f hf => mem_of_testBit_partsMask hf⟩
  rw [State.wreg_reply, State.wreg_setWreg, if_pos rfl, Nat.mod_eq_of_lt s.nowSub_lt]

/-! ### Comparators (R224) -/

/-- R224: an armed comparator of mode 0 whose target network time has reached fires: its flag, and its line to the management cores. -/
theorem execTimeCmpFire_due {s : State} {n : Fin 16} {k : BitVec 64} (armed : s.fld (TIME_CMP_CFG n.val) 0 1 = 1)
    (unfired : s.fld (TIME_CMP_CFG n.val) 2 1 = 0) (mode : s.fld (TIME_CMP_CFG n.val) 1 1 = 0)
    (due : (s.elapse k.toNat).reached (s.reg (TIME_CMP n.val)) = true) :
    execTimeCmpFire n k s = .next { (s.elapse k.toNat).event (TIME_CMP_CFG n.val) 2 with
      mcIrq := s.mcIrq ||| 2 ^ s.fld (TIME_CMP_CFG n.val) 3 2 } := by
  have fires : ¬ (s.fld (TIME_CMP_CFG n.val) 0 1 = 0 ∨ s.fld (TIME_CMP_CFG n.val) 2 1 = 1 ∨
      (if s.fld (TIME_CMP_CFG n.val) 1 1 = 1 then (s.elapse k.toNat).reached32 (s.reg (TIME_CMP n.val) % 2 ^ 32)
        else (s.elapse k.toNat).reached (s.reg (TIME_CMP n.val))) = false) := by
    simp only [armed, unfired, mode, due, one_ne_zero, zero_ne_one, if_false, Bool.true_eq_false, or_self, not_false_iff]
  exact congrArg Host.Outcome.next (if_neg fires)

/-- Settles O32: each command by the lemma that says what it does; a fired comparator's flag is the event bit it sets. -/
theorem timeCommandsComplete : Obligations.TimeCommandsComplete := by
  simp only [Obligations.TimeCommandsComplete, exec_timeMarker, exec_timeServoOfs, exec_timeNowNsRead, exec_declareLock, exec_timeCmpFire]
  exact ⟨fun s drift upsets => execTimeMarker_cnt drift upsets s, fun s slew => ⟨_, execTimeMarker_slew slew, rfl, rfl, rfl⟩,
    fun s e on => execTimeServoOfs_enabled e on, fun s e off => execTimeServoOfs_disabled e off, execTimeNowNsRead_mc,
    execTimeNowNsRead_host, fun s lock off => execDeclareLock_disabled lock off,
    fun s n k armed unfired mode due => ⟨_, execTimeCmpFire_due armed unfired mode due,
      (s.elapse k.toNat).fld_event_self (TIME_CMP_CFG n.val) 2 (by decide), rfl⟩⟩

end Sys2Proof.Machine
end

section
/-!
PROOF. Compute gate lists: boundaries, guard intervals, swaps, stops, group changes, and the end of starved elastic work (O33).
-/
namespace Sys2Proof.Machine

open Sys2Proof.Safety

/-! ### The passing of time leaves a list's schedule alone -/

@[simp] theorem State.reg_elapse (s : State) (n a : Nat) : (s.elapse n).reg a = s.reg a := rfl

@[simp] theorem State.fld_elapse (s : State) (n a lo w : Nat) : (s.elapse n).fld a lo w = s.fld a lo w := rfl

@[simp] theorem State.running_elapse (s : State) (n l : Nat) : (s.elapse n).running l = s.running l := rfl

@[simp] theorem State.cglList_elapse (s : State) (n l : Nat) : (s.elapse n).cglList l = s.cglList l := rfl

@[simp] theorem State.entEnd_elapse (s : State) (n l e : Nat) : (s.elapse n).entEnd l e = s.entEnd l e := rfl

@[simp] theorem State.guardAt_elapse (s : State) (n l : Nat) : (s.elapse n).guardAt l = s.guardAt l := rfl

/-! ### Boundaries (R239, R240, R247) -/

/-- What the end of the entry in force leads to in a list that runs: the next entry within the cycle; at the cycle's end a stop that
waits, else the next cycle from its entry 0. -/
theorem execCglBoundary_due {s : State} {l : Fin 16} {k : BitVec 64} (ex : Option (Fin 64)) (sel : Option (Fin 512))
    (runs : s.running l.val = true) (uncut : (s.cglList l.val).swap = none)
    (due : (s.elapse k.toNat).reached ((s.cglList l.val).start + s.entEnd l.val (s.fld (CGL_OPER_STAT l.val) 9 8)) = true) :
    execCglBoundary l k ex sel s = .next
      (if s.entEnd l.val (s.fld (CGL_OPER_STAT l.val) 9 8) < s.fld (CGL_OPER_CYCLE l.val) 0 24 then
        (s.elapse k.toNat).enterEntry l.val (s.fld (CGL_OPER_STAT l.val) 9 8 + 1) ex sel
      else if (s.cglList l.val).stop then (s.elapse k.toNat).stopList l.val
      else ((s.elapse k.toNat).cycleStart l.val
        ((s.cglList l.val).start + s.entEnd l.val (s.fld (CGL_OPER_STAT l.val) 9 8))).enterEntry l.val 0 ex sel) := by
  refine congrArg Host.Outcome.next (if_neg ?_)
  simp only [State.running_elapse, State.cglList_elapse, State.fld_elapse, State.entEnd_elapse, runs, uncut, due, Bool.true_eq_false,
    Bool.false_eq_true, or_self, not_false_iff]

/-! ### Guard intervals (R249) -/

theorem mem_append_filter_not_contains {l m : List Nat} {x : Nat} : x ∈ l ++ m.filter (fun y => !(l.contains y)) ↔ x ∈ l ∨ x ∈ m := by
  by_cases mem : x ∈ l <;> simp [mem]

/-- R249: once network time has reached its start, the groups that lose at the entry's end are in the guard interval. -/
theorem execGuardStart_due {s : State} {l : Fin 16} {k : BitVec 64} (runs : s.running l.val = true)
    (guarded : bits (s.reg (CGL_OPER_ENT l.val (s.fld (CGL_OPER_STAT l.val) 9 8))) 48 16 ≠ 0)
    (due : (s.elapse k.toNat).reached (s.guardAt l.val) = true) :
    execGuardStart l k s = .next { s.elapse k.toNat with
      guards := s.guards ++ (s.guardLosers l.val).filter (fun g => !(s.guards.contains g)) } := by
  refine congrArg Host.Outcome.next (if_neg ?_)
  simp only [State.running_elapse, State.reg_elapse, State.fld_elapse, State.guardAt_elapse, runs, guarded, due, Bool.true_eq_false,
    or_self, not_false_iff]

theorem State.elapse_guards_sameBut (s : State) (n : Nat) (gs : List Nat) : SameBut [.cnt, .guards] s { s.elapse n with guards := gs } := by
  have keeps : Keeps (partsMask [.cnt, .guards]) s { s.elapse n with guards := gs } := ((Keeps.refl s).elapse ⟨rfl⟩).set_guards ⟨rfl⟩
  exact keeps.sameBut fun f hf => mem_of_testBit_partsMask hf

/-! ### Swaps and stops (R245 to R247) -/

theorem any_tabulate_eq_false {α : Type} {n : Nat} {f : Nat → α} {p : α → Bool} (h : ∀ i < n, p (f i) = false) : (tabulate n f).any p = false := by
  simpa [mem_tabulate] using h

/-- R246: a base time that lies far enough ahead is the new start itself. -/
theorem firstCycle_of_le {base cycle t : Nat} (h : t ≤ base) : firstCycle base cycle t = 0 := if_pos h

/-- R245: a swap that no row of Table 9.2 before the last applies to waits for its base time, when that lies far enough ahead. -/
theorem execCglSwap_accepted {s : State} {l : Fin 16} (on : s.fld (CGL_LIST_CFG l.val) 0 1 = 1) (free : (s.cglList l.val).swap = none)
    (nonempty : s.fld (CGL_ADMIN_LEN l.val) 0 9 ≠ 0) (short : s.fld (CGL_ADMIN_LEN l.val) 0 9 ≤ 256)
    (low : 2000 ≤ s.fld (CGL_ADMIN_CYCLE l.val) 0 24) (high : s.fld (CGL_ADMIN_CYCLE l.val) 0 24 ≤ 10000000)
    (good : ∀ e < s.fld (CGL_ADMIN_LEN l.val) 0 9, entBad l.val (s.reg (CGL_ADMIN_ENT l.val e)) = false)
    (ahead : 20000 + s.nowNs ≤ s.reg (CGL_ADMIN_BASE l.val)) :
    execCglSwap .mc l false s = .next (((s.setCgl l.val { s.cglList l.val with
      swap := some { start := s.reg (CGL_ADMIN_BASE l.val), base := s.reg (CGL_ADMIN_BASE l.val),
                     cycle := s.fld (CGL_ADMIN_CYCLE l.val) 0 24,
                     ents := tabulate (s.fld (CGL_ADMIN_LEN l.val) 0 9) (fun e => s.reg (CGL_ADMIN_ENT l.val e)) } }).setFld
      (CGL_OPER_STAT l.val) 18 1 1).answer stOk) := by
  simp only [execCglSwap, State.mcOnly_mc, on, free, nonempty, short.not_gt, low.not_gt, high.not_gt, any_tabulate_eq_false good,
    firstCycle_of_le ahead, Nat.zero_mul, Nat.add_zero, Option.isSome_none, Bool.false_eq_true, one_ne_zero, or_self, if_false, if_true]

/-- R247: a stop of a running list takes its cycle's end, and cancels the swap that waits. -/
theorem execCglStop_running {s : State} {l : Fin 16} (runs : s.running l.val = true) :
    execCglStop .mc l s = .next (((s.setCgl l.val { s.cglList l.val with swap := none, stop := true }).setFld
      (CGL_OPER_STAT l.val) 18 1 0).answer stOk) := by
  simp only [execCglStop, State.mcOnly_mc, runs, Bool.true_eq_false, false_and, if_false]

/-- R246: at the new start the operational list is replaced, and its first cycle begins. -/
theorem execCglSwapApply_due {s : State} {l : Fin 16} {k : BitVec 64} {w : CglSwap} (waits : (s.cglList l.val).swap = some w)
    (due : (s.elapse k.toNat).reached w.start = true) :
    execCglSwapApply l k s = .next ((((s.elapse k.toNat).putList l.val w).cycleStart l.val w.start).enterEntry l.val 0 none none) := by
  simp only [execCglSwapApply, State.cglList_elapse, waits, due, Bool.true_eq_false, if_false]

/-! ### Group changes (R236) -/

/-- R236: a change to no group, or to a group of the partition that owns the core's timed context, is stored. -/
theorem execCglLcGrpWrite_stored {s : State} {n : Fin 480} {g : BitVec 7} (there : n.val < s.grade.lcs) (settled : s.pendingGroup n.val = none)
    (own : g.toNat = 0x7F ∨ s.lcPart n.val .timed = some (s.fld (CGL_LIST_CFG (g.toNat / 8)) 1 4)) :
    execCglLcGrpWrite .mc n g s = .next
      (({ s with grpPend := Tbl.put 0x80 s.grpPend n.val g.toNat }.setReg (CGL_LC_GRP n.val) (g.toNat + 0x80)).answer stOk) := by
  have allowed : ¬ (g.toNat ≠ 0x7F ∧ s.lcPart n.val .timed ≠ some (s.fld (CGL_LIST_CFG (g.toNat / 8)) 1 4)) := by
    rw [not_and_or, not_not, not_not]
    exact own
  simp only [execCglLcGrpWrite, State.mcOnly_mc, there.not_ge, allowed, settled, Option.isSome_none, Bool.false_eq_true, or_self, if_false]

/-- R236, step 3: a change that waits for no running list takes effect. -/
theorem execGroupChangeApply_free {s : State} {n : Fin 480} {b : Nat} (pending : s.pendingGroup n.val = some b)
    (free : s.changeWaits (s.lcGroup n.val) b = none) :
    execGroupChangeApply n s = .next (((s.applyChange n.val b).syncOwners).refreshTEntry) := by
  simp only [execGroupChangeApply, pending, free, Option.isSome_none, Bool.false_eq_true, if_false]

/-! ### Starvation (R254) -/

/-- R254: the elastic work of a core that the timed context owns ends as preempted, queue by queue and engine by engine. -/
theorem execStarve_parked {s : State} {core : Fin 512} (parked : (s.core core.val).owner = .timed)
    (unfenced : (s.core core.val).fenced = false) (works : (s.core core.val).e.holdsWork = true) :
    execStarve core s = .next
      ((((((((s.tqReset core.val .elastic stPreempted).meReset core.val .elastic stPreempted).vceReset core.val 0 .elastic
        stPreempted).vceReset core.val 1 .elastic stPreempted).tmeReset core.val .elastic stPreempted).bump CGL_STARVE_CNT).event
        CGL_EVENT 5)) := by
  refine congrArg Host.Outcome.next (if_neg ?_)
  simp only [parked, unfenced, works, reduceCtorEq, or_self, not_false_iff]

/-- Settles O33: a boundary by its three outcomes, and each other command by the lemma that says what it does when it falls due. -/
theorem computeGateCommandsComplete : Obligations.ComputeGateCommandsComplete := by
  simp only [Obligations.ComputeGateCommandsComplete, exec_cglBoundary, exec_guardStart, exec_cglSwap, exec_cglStop, exec_cglSwapApply,
    exec_cglLcGrpWrite, exec_groupChangeApply, exec_starve]
  refine ⟨⟨fun s l k runs uncut due => ?boundary,
    fun s l k runs guarded due => ⟨_, execGuardStart_due runs guarded due, s.elapse_guards_sameBut k.toNat _, fun g => mem_append_filter_not_contains⟩,
    fun s l on free nonempty short low high good ahead => execCglSwap_accepted on free nonempty short low high good ahead,
    fun s l runs => execCglStop_running runs, fun s l k w waits due => execCglSwapApply_due waits due,
    fun s n g there settled own => execCglLcGrpWrite_stored there settled own,
    fun s n b pending free => execGroupChangeApply_free pending free⟩,
    fun s core parked unfenced works => execStarve_parked parked unfenced works⟩
  case boundary =>
    rw [execCglBoundary_due none none runs uncut due]
    exact ⟨fun within => by rw [if_pos within], fun atEnd goesOn => by rw [if_neg atEnd.not_lt, goesOn, if_neg Bool.false_ne_true],
      fun atEnd stops => by rw [if_neg atEnd.not_lt, if_pos stops]⟩

end Sys2Proof.Machine
end

section
/-!
PROOF. Barista's commands: each is taken from its channel, has its effect and is answered (O34).
-/
namespace Sys2Proof.Machine

open Sys2Proof.Safety

/-! ### The channel to Barista (R263, R417) -/

section

variable {s s1 : State} {i code tag d w : Nat}

/-- R263: a code below 0x49 at the head of the channel is one that Barista knows. -/
theorem State.brsUnknown_of_brsHead (head : BrsHead s i code tag d s1) (known : code ≤ 0x48) : s.brsUnknown i false = s := by
  obtain ⟨k, it, first, opc⟩ := head.first
  simp only [State.brsUnknown, first, opc, known.not_gt, if_false]

/-- R263: the command that heads the channel is taken, has its effect f, and is answered. -/
theorem State.brsCommand_of_brsHead (head : BrsHead s i code tag d s1) (f : State → Nat → State) :
    s.brsCommand i code false f = (f s1 d).brsReply i code tag := by
  simp only [State.brsCommand, head.take, Bool.false_eq_true, if_false]

/-- R509: a payload without reserved bits above its w bits reaches the command. -/
theorem State.brsRun_of_brsHead (head : BrsHead s i code tag d s1) (known : code ≤ 0x48) (width : d < 2 ^ w) (f : State → Nat → State) :
    s.brsRun i code w false f = (f s1 d).brsReply i code tag := by
  rw [State.brsRun, State.brsUnknown_of_brsHead head known, State.brsCommand_of_brsHead head, if_neg width.not_ge]

/-- R261: a handle with its reserved bit clear reaches the command. -/
theorem State.seqCommand_of_brsHead (head : BrsHead s i code tag d s1) (known : code ≤ 0x48) (width : d < 2 ^ w) (seq : bit d 15 = false)
    (f : State → Nat → State) : s.seqCommand i code w false f = (f s1 d).brsReply i code tag := by
  rw [State.seqCommand, State.brsRun_of_brsHead head known width, seq, if_neg Bool.false_ne_true]

/-- R261: a command on a group that the sender owns has its effect. -/
theorem State.onGroup_of_brsOwn {g : Nat} (own : BrsOwn s i g) (code : Nat) (f : State → State) : s.onGroup code i g f = f s := by
  simp only [State.onGroup, own.en, own.used, own.mine, ne_eq, not_true, or_self, if_false]

/-- R261: a command on a sequence that its handle names, and that the sender owns, has its effect. -/
theorem State.onSeq_of_brsSeq {q gen : Nat} (seq : BrsSeq s i q gen) (code : Nat) (f : State → BrsEntry → State) :
    s.onSeq code i q gen f = f s (s.brsEnt q) := by
  simp only [State.onSeq, seq.en, seq.used, seq.same, seq.mine, ne_eq, not_true, or_self, if_false]

end

/-! ### Groups (R264) -/

section

variable {s : State} {i g : Nat}

/-- R264: a group that no row of Table 10.5 refuses takes the lowest free place, its exchange area and its key. -/
theorem State.grpCreate_allowed {s2 : State} {g0 g1 g2 base : Nat} (plain : grpReserved g0 g1 g2 = false) (own : s.grpForeign i g0 g1 = false)
    (good : s.grpBad g0 g1 g2 = false) (free : (List.range 64).find? (fun g => s.grpState g == 0) = some g)
    (quota : bits g1 33 13 ≤ s.quotaLeft (s.instPart i))
    (share : s.shareUsed (s.instPart i) 0 false 0 + bits g2 20 12 * 0x200000 ≤ s.share (s.instPart i) 0 false 0)
    (place : s.placeRegion 0 false 0 (bits g2 20 12 * 0x200000) 21 = some base)
    (key : s.bindKey (s.instPart i) i 0 base (bits g2 20 12 * 0x200000) = some s2) :
    s.grpCreate i g0 g1 g2 = s2.grpMake i g base g0 g1 g2 := by
  simp only [State.grpCreate, plain, own, good, free, quota.not_gt, share.not_gt, place, key, Bool.false_eq_true, or_self, if_false]

theorem State.grpDestroy_live (own : BrsOwn s i g) (live : s.grpState g ≠ 5) : s.grpDestroy i g = (s.setGrpState g 5).answer stOk := by
  rw [State.grpDestroy, State.onGroup_of_brsOwn own, if_neg live]

theorem State.grpHold_running (own : BrsOwn s i g) (runs : s.grpState g = 1) (fresh : (s.brsGrp g).hold = false) :
    s.grpHold i g true = (s.setBrsGrp g { s.brsGrp g with hold := true }).answer stOk := by
  rw [State.grpHold, State.onGroup_of_brsOwn own, if_pos rfl, if_pos ⟨runs, fresh⟩]

theorem State.grpHold_release (own : BrsOwn s i g) (held : s.grpState g = 2 ∨ s.grpState g = 3) :
    s.grpHold i g false = ((s.setGrpState g 1).setFld (BRS_GRP_STAT g) 23 2 0).answer stOk := by
  rw [State.grpHold, State.onGroup_of_brsOwn own, if_neg Bool.false_ne_true, if_pos held]

/-- R266: output records that the ring holds are consumed. -/
theorem State.outDone_held {n : Nat} (own : BrsOwn s i g) (nonzero : n ≠ 0) (held : n ≤ s.fld (BRS_GRP_OUT g) 32 14) :
    s.outDone i g n = ((s.setFld (BRS_GRP_OUT g) 0 13 (s.fld (BRS_GRP_OUT g) 0 13 + n)).setFld (BRS_GRP_OUT g) 32 14
      (s.fld (BRS_GRP_OUT g) 32 14 - n)).answer stOk := by
  rw [State.outDone, State.onGroup_of_brsOwn own, if_neg nonzero, if_neg held.not_gt]

/-! ### Sequences (R265, R266) -/

/-- A number below 2 ^ lo has nothing from bit lo on. -/
theorem bits_eq_zero_of_lt {x lo w : Nat} (h : x < 2 ^ lo) : bits x lo w = 0 := by
  rw [bits_eq, Nat.div_eq_of_lt h, Nat.zero_mod]

/-- R265: a request that no row of Table 10.7 refuses or delays takes an entry of the active sequence table. -/
theorem State.admitSeq_room {d : Nat} (own : BrsOwn s i (bits d 0 6)) (width : d < 2 ^ 160) (plain : bits d 9 7 = 0)
    (prompt : bits d 16 32 ≠ 0) (new : bits d 48 32 ≠ 0) (promptWhole : bits d 80 32 % 64 = 0) (keysWhole : bits d 128 32 % 8 = 0)
    (promptIn : bits d 80 32 + 4 * bits d 16 32 ≤ s.grpXchSize (bits d 0 6) - s.slabOff (bits d 0 6))
    (keysIn : bits d 128 32 + 8 * bits d 112 16 ≤ s.grpXchSize (bits d 0 6) - s.slabOff (bits d 0 6))
    (keysFew : bits d 112 16 ≤ bits d 16 32 / s.grpPageTok (bits d 0 6)) (serves : s.grpState (bits d 0 6) = 1 ∨ s.grpState (bits d 0 6) = 2)
    (short : bits d 16 32 + bits d 48 32 ≤ s.grpMaxCtx (bits d 0 6))
    (blocks : s.grpNb (bits d 0 6) ≤ (s.poolCfg (s.grpKvPool (bits d 0 6))).2.1) (room : s.grpUsed (bits d 0 6) < s.grpQuota (bits d 0 6))
    {q : Nat} {s2 : State} (taken : s.takeEntry (bits d 0 6)
      { cls := bits d 6 2, promptLen := bits d 16 32, maxNew := bits d 48 32, promptOff := bits d 80 32, nKeys := bits d 112 16,
        keyOff := bits d 128 32 } = (q, s2)) :
    s.admitSeq i d = (s2.bump BRS_ADMIT_CNT).answer stOk 0 [q + (s.brsEnt q).gen <<< 16] := by
  have upper : bits d 160 96 = 0 := bits_eq_zero_of_lt width
  have serving : s.grpState (bits d 0 6) ≠ 3 ∧ s.grpState (bits d 0 6) ≠ 4 ∧ s.grpState (bits d 0 6) ≠ 5 := by omega
  obtain ⟨not3, not4, not5⟩ := serving
  rw [State.admitSeq, State.onGroup_of_brsOwn own]
  simp only [upper, plain, prompt, new, promptWhole, keysWhole, promptIn.not_gt, keysIn.not_gt, keysFew.not_gt, not3, not4, not5,
    short.not_gt, blocks.not_gt, room.not_ge, taken, ne_eq, not_true, or_self, if_false]

variable {q gen : Nat}

theorem State.cancelSeq_live (seq : BrsSeq s i q gen) (live : (s.brsEnt q).state ≠ 6) (fresh : (s.brsEnt q).cancel = false) :
    s.cancelSeq i q gen = (s.setBrsEnt q { s.brsEnt q with cancel := true }).answer stOk := by
  rw [State.cancelSeq, State.onSeq_of_brsSeq seq, if_neg]
  simp only [live, fresh, Bool.false_eq_true, or_self, not_false_iff]

theorem State.querySeq_named (seq : BrsSeq s i q gen) : s.querySeq i q gen = s.answer stOk 0
    [(s.brsEnt q).state, (s.brsEnt q).cls, (s.brsEnt q).ctxLen, (s.brsEnt q).generated, (s.brsEnt q).delay] :=
  State.onSeq_of_brsSeq seq _ _

theorem State.setClass_named (seq : BrsSeq s i q gen) (cls : Nat) :
    s.setClass i q gen cls = (s.setBrsEnt q { s.brsEnt q with cls := cls }).answer stOk :=
  State.onSeq_of_brsSeq seq _ _

/-- R266: the move to another group of the sender, of the same pages and pool and with a free slot, is noted for its boundary. -/
theorem State.migrate_fits (seq : BrsSeq s i q gen) (target : BrsOwn s i g) (page : s.grpPageTok g = s.grpPageTok (s.brsEnt q).grp)
    (pool : s.grpKvPool g = s.grpKvPool (s.brsEnt q).grp) (room : s.grpUsed g < s.grpQuota g) (live : (s.brsEnt q).state ≠ 6) :
    s.migrate i q gen g = (s.setBrsEnt q { s.brsEnt q with mig := some g }).answer stOk := by
  rw [State.migrate, State.onSeq_of_brsSeq seq, if_neg]
  simp only [target.used, target.mine, page, pool, room.not_ge, live, ne_eq, not_true, or_self, not_false_iff]

end

/-! ### The commands as they come -/

/-- R263: GRP_DESTROY leaves its tag with the group, whose boundary sends the answer. -/
theorem execGrpDestroy_of_brsHead {s s1 : State} {i : Fin 512} {tag g : Nat} (head : BrsHead s i.val 0x41 tag g s1) (width : g < 64)
    (own : BrsOwn s1 i.val g) (live : s1.grpState g ≠ 5) :
    execGrpDestroy i false s = .next (((s1.setGrpState g 5).answer stOk).setBrsGrp g
      { ((s1.setGrpState g 5).answer stOk).brsGrp g with destroyTag := some tag }) := by
  have accepted : ((s1.setGrpState g 5).answer stOk).reply.code = stOk := rfl
  simp only [execGrpDestroy, State.brsUnknown_of_brsHead head (by decide), head.take, width.not_ge, State.grpDestroy_live own live, accepted,
    Bool.false_eq_true, if_false, if_true]

/-- Settles O34: each command reaches its effect through its channel, by the lemma of that effect. -/
theorem baristaCommandsComplete : Obligations.BaristaCommandsComplete := by
  simp only [Obligations.BaristaCommandsComplete, exec_grpCreate, exec_grpDestroy, exec_grpHold, exec_admitSeq, exec_cancelSeq, exec_querySeq,
    exec_setClass, exec_migrate, exec_outDone]
  intro s s1 i tag d
  refine ⟨fun s2 g base head width en plain own good free quota share place key => ?create,
    fun head width own live => execGrpDestroy_of_brsHead head width own live,
    fun head width plain own => ⟨fun hold runs fresh => ?hold, fun release held => ?release⟩,
    fun head width own plain prompt new promptWhole keysWhole promptIn keysIn keysFew serves short blocks room q s2 taken => ?entry,
    fun head width plain seq live fresh => ?cancel, fun head width plain seq => ?query, fun head width plain seq => ?setClass,
    fun head width plain seq target page pool room live => ?migrate, fun head width plain own nonzero held => ?outDone⟩
  case create =>
    rw [execGrpCreate, State.brsRun_of_brsHead head (by decide) width, if_neg en,
      State.grpCreate_allowed plain own good free quota share place key]
  case hold =>
    rw [execGrpHold, State.brsRun_of_brsHead head (by decide) width, if_neg (not_not_intro plain), hold, State.grpHold_running own runs fresh]
  case release =>
    rw [execGrpHold, State.brsRun_of_brsHead head (by decide) width, if_neg (not_not_intro plain), release, State.grpHold_release own held]
  case entry =>
    rw [execAdmitSeq, State.brsRun_of_brsHead head (by decide) (width.trans (by decide)), State.admitSeq_room own width plain prompt new promptWhole
      keysWhole promptIn keysIn keysFew serves short blocks room taken]
  case cancel =>
    rw [execCancelSeq, State.seqCommand_of_brsHead head (by decide) width plain, State.cancelSeq_live seq live fresh]
  case query =>
    rw [execQuerySeq, State.seqCommand_of_brsHead head (by decide) width plain, State.querySeq_named seq]
  case setClass =>
    rw [execSetClass, State.seqCommand_of_brsHead head (by decide) width plain, State.setClass_named seq]
  case migrate =>
    rw [execMigrate, State.seqCommand_of_brsHead head (by decide) width plain, State.migrate_fits seq target page pool room live]
  case outDone =>
    rw [execOutDone, State.brsRun_of_brsHead head (by decide) width, if_neg (not_not_intro plain), State.outDone_held own nonzero held]

end Sys2Proof.Machine
end

section
/-!
PROOF. Barista's steps and their boundaries, the wait for output room, and the moves of blocks (O35).
-/
namespace Sys2Proof.Machine

open Sys2Proof.Safety

/-! ### Steps (R278, R282) -/

section

variable {s : State} {g : Fin 64} (clocked : s.fld CLK_EN_HUB 19 1 = 1) (used : s.grpState g.val ≠ 0) (going : (s.brsGrp g.val).stalled = false)

include clocked used going

/-- R282: a group with no step in flight goes to its boundary at once. -/
theorem execStepCommit_noTasks (late : List (Fin 512)) (idle : ((s.brsSend g.val).brsGrp g.val).tasks = []) :
    execStepCommit g late s = .next ((s.brsSend g.val).boundary g.val) := by
  simp only [execStepCommit, clocked, used, going, idle, one_ne_zero, Bool.false_eq_true, or_self, if_false, List.isEmpty_nil, if_true]

/-- R278: a step all of whose tasks have ended leaves no status out; it commits, and its boundary follows. -/
theorem execStepCommit_ended (late : List (Fin 512)) (tasked : ((s.brsSend g.val).brsGrp g.val).tasks ≠ [])
    (ended : ∀ t ∈ ((s.brsSend g.val).brsGrp g.val).tasks, ((s.brsSend g.val).taskStatus t).isSome) :
    execStepCommit g late s = .next ((((s.brsSend g.val).commitStep g.val
      (((s.brsSend g.val).brsGrp g.val).tasks.filterMap (s.brsSend g.val).taskStatus)).stragglers g.val (late.map (·.val))).boundary g.val) := by
  have all : ¬ (((s.brsSend g.val).brsGrp g.val).tasks.filterMap (s.brsSend g.val).taskStatus).length
      < ((s.brsSend g.val).brsGrp g.val).tasks.length := (List.filterMap_length_eq_length.2 ended).not_lt
  simp only [execStepCommit, clocked, used, going, List.isEmpty_iff, tasked, all, one_ne_zero, Bool.false_eq_true, or_self, if_false]

end

/-- R282, step 7: a group that waits builds and dispatches once its output ring has room. -/
theorem execOutputRoomWaitEnd_room {s : State} {g : Fin 64} (clocked : s.fld CLK_EN_HUB 19 1 = 1) (used : s.grpState g.val ≠ 0)
    (waits : (s.brsGrp g.val).stalled = true) (room : s.outRoom g.val = true) :
    execOutputRoomWaitEnd g s = .next ((s.setBrsGrp g.val { s.brsGrp g.val with stalled := false }).buildAndDispatch g.val) := by
  simp only [execOutputRoomWaitEnd, clocked, used, waits, room, one_ne_zero, Bool.true_eq_false, or_self, if_false]

/-! ### The check of a read does not look at Barista -/

/-- The state with other tables of Barista. -/
def State.withBrs (s : State) (b : Brs) : State := { s with brs := b }

section

variable (s : State) (b : Brs)

/-! Reads. They are proved by (rfl), so that simp carries the decision of a condition along when it rewrites the condition with them. -/

@[simp] theorem State.reg_withBrs (a : Nat) : (s.withBrs b).reg a = s.reg a := (rfl)
@[simp] theorem State.fld_withBrs (a lo w : Nat) : (s.withBrs b).fld a lo w = s.fld a lo w := (rfl)
@[simp] theorem State.core_withBrs (p : Nat) : (s.withBrs b).core p = s.core p := (rfl)
@[simp] theorem State.dev_withBrs : (s.withBrs b).dev = s.dev := (rfl)
@[simp] theorem State.physCtx_withBrs (n : Nat) (x : Ctx) : (s.withBrs b).physCtx n x = s.physCtx n x := (rfl)
@[simp] theorem State.tierOf_withBrs (a : Nat) : (s.withBrs b).tierOf a = s.tierOf a := (rfl)
@[simp] theorem State.rasCount_withBrs (row res : Nat) : (s.withBrs b).rasCount row res = s.rasCount row res := (rfl)
@[simp] theorem State.clusterErrs_withBrs (row n : Nat) : (s.withBrs b).clusterErrs row n = s.clusterErrs row n := (rfl)
@[simp] theorem State.onlyTampErrors_withBrs (p : Nat) : (s.withBrs b).onlyTampErrors p = s.onlyTampErrors p := (rfl)
@[simp] theorem State.logBits_withBrs (r : LogRec) : (s.withBrs b).logBits r = s.logBits r := (rfl)
@[simp] theorem State.lcOf_withBrs (p : Nat) : (s.withBrs b).lcOf p = s.lcOf p := (rfl)

/-! Updates. -/

@[simp] theorem State.ite_withBrs (c : Prop) {i : Decidable c} [Decidable c] (s t : State) :
    @ite _ c i (s.withBrs b) (t.withBrs b) = (if c then s else t).withBrs b := by
  split <;> rfl

@[simp] theorem State.foldl_withBrs {α : Type} {f : State → α → State} (h : ∀ (s : State) a, f (s.withBrs b) a = (f s a).withBrs b)
    (l : List α) : l.foldl f (s.withBrs b) = (l.foldl f s).withBrs b :=
  List.foldl_hom (State.withBrs · b) h

@[simp] theorem State.setReg_withBrs (a v : Nat) : (s.withBrs b).setReg a v = (s.setReg a v).withBrs b := (rfl)
@[simp] theorem State.setFld_withBrs (a lo w v : Nat) : (s.withBrs b).setFld a lo w v = (s.setFld a lo w v).withBrs b := (rfl)
@[simp] theorem State.event_withBrs (a i : Nat) : (s.withBrs b).event a i = (s.event a i).withBrs b := (rfl)
@[simp] theorem State.bumpFld_withBrs (a lo w n : Nat) : (s.withBrs b).bumpFld a lo w n = (s.bumpFld a lo w n).withBrs b := (rfl)
@[simp] theorem State.bump_withBrs (a : Nat) : (s.withBrs b).bump a = (s.bump a).withBrs b := (rfl)
@[simp] theorem State.setRasCount_withBrs (row res n : Nat) : (s.withBrs b).setRasCount row res n = (s.setRasCount row res n).withBrs b := (rfl)
@[simp] theorem State.escalate_withBrs (row res n : Nat) : (s.withBrs b).escalate row res n = (s.escalate row res n).withBrs b := (rfl)
@[simp] theorem State.setCore_withBrs (p : Nat) (c : Core) : (s.withBrs b).setCore p c = (s.setCore p c).withBrs b := (rfl)

@[simp] theorem State.errLog_withBrs (r : LogRec) : (s.withBrs b).errLog r = (s.errLog r).withBrs b := by
  simp [State.errLog]

@[simp] theorem State.coreHist_withBrs (row p c : Nat) : (s.withBrs b).coreHist row p c = (s.coreHist row p c).withBrs b := by
  unfold State.coreHist
  rw [apply_ite (State.withBrs · b)]
  rfl

@[simp] theorem State.threshold_withBrs (row res c : Nat) : (s.withBrs b).threshold row res c = (s.threshold row res c).withBrs b := by
  simp [State.threshold]

@[simp] theorem State.countErr_withBrs (row res n : Nat) : (s.withBrs b).countErr row res n = (s.countErr row res n).withBrs b := by
  simp [State.countErr]

@[simp] theorem State.scrErr_withBrs (p lo : Nat) : (s.withBrs b).scrErr p lo = (s.scrErr p lo).withBrs b := by
  simp [State.scrErr]

@[simp] theorem State.scrWord_withBrs (p w k : Nat) : (s.withBrs b).scrWord p w k = (s.scrWord p w k).withBrs b := by
  unfold State.scrWord
  split <;> simp

@[simp] theorem State.devWord_withBrs (w k : Nat) : (s.withBrs b).devWord w k = (s.devWord w k).withBrs b := by
  unfold State.devWord
  rw [State.tierOf_withBrs]
  split <;> simp <;> rfl

/-- R152, R154: what a read of device memory finds and corrects does not depend on Barista's tables. -/
theorem State.devChecked_withBrs (a n : Nat) (store : Bool) : (s.withBrs b).devChecked a n store = (s.devChecked a n store).withBrs b := by
  unfold State.devChecked
  rw [State.tierOf_withBrs]
  split
  · simp [State.scrChecked]
  · simp

end

/-! ### Block moves (R271) -/

/-- The state in which block b, of n bytes at address h, has been read and has left the list of moves. -/
def State.spillRead (s : State) (b h n : Nat) : State :=
  (s.devChecked h n).withBrs { s.brs with moves := s.brs.moves.filter (fun m => m != b) }

/-- The state after block b, of record k, has moved to its Silo buffer. -/
def State.spilled (s : State) (b : Nat) (k : BrsBlock) : State :=
  let kv := s.grpKvPool k.grp
  let h := s.bufAddr kv k.hbm
  let n := (s.poolCfg kv).2.2.1
  let t := s.spillRead b h n
  (({ t with dev := t.dev.copy h (s.bufAddr (s.grpSpillPool k.grp) k.silo) n }.setBrsBlk b (some { k with place := 1 })).poolGive kv
    k.hbm).bump BRS_SPILL_CNT

/-- R271: what a spill leaves of Barista's tables: the move is over and the block lies in Silo. -/
theorem State.spilled_brs (s : State) (b : Nat) (k : BrsBlock) : (s.spilled b k).brs =
    { s.brs with moves := s.brs.moves.filter (fun m => m != b), blocks := Tbl.put none s.brs.blocks b (some { k with place := 1 }) } :=
  (((Keeps.refl _).poolGive (.refl _)).bump (.of (.refl _) rfl)).same .brs rfl

theorem State.spilled_brsEnt (s : State) (b : Nat) (k : BrsBlock) (q : Nat) : (s.spilled b k).brsEnt q = s.brsEnt q := by
  rw [State.brsEnt, State.spilled_brs, State.brsEnt]

theorem State.spilled_brsBlk (s : State) (b : Nat) (k : BrsBlock) : (s.spilled b k).brsBlk b = { k with place := 1 } := by
  rw [State.brsBlk, State.spilled_brs, Tbl.get_put, if_pos rfl, Option.getD_some]

/-- R271: the block's bytes lie in its Silo buffer, in the memory that the read has checked. -/
theorem State.spilled_dev (s : State) (b : Nat) (k : BrsBlock) : (s.spilled b k).dev =
    (s.devChecked (s.bufAddr (s.grpKvPool k.grp) k.hbm) (s.poolCfg (s.grpKvPool k.grp)).2.2.1).dev.copy
      (s.bufAddr (s.grpKvPool k.grp) k.hbm) (s.bufAddr (s.grpSpillPool k.grp) k.silo) (s.poolCfg (s.grpKvPool k.grp)).2.2.1 :=
  (((Keeps.refl _).poolGive (.refl _)).bump (.of (.refl _) rfl)).same .dev rfl

/-- R271: a spill completes; no sequence that waits for its blocks is left to note it. -/
theorem execBlockMoveDone_spilled {s : State} {n : Fin 4} {b : Nat} (moving : s.brs.moves[n.val]? = some b) (out : (s.brsBlk b).place = 2)
    (noneWaits : ∀ q, (s.brsEnt q).state ≠ 5) : execBlockMoveDone n s = .next (s.spilled b (s.brsBlk b)) := by
  have checked (h m : Nat) : ({ s with brs := { s.brs with moves := s.brs.moves.filter (fun m => m != b) } } : State).devChecked h m =
      s.spillRead b h m := State.devChecked_withBrs ..
  have unnoted : ((s.spilled b (s.brsBlk b)).grpEnts (s.brsBlk b).grp).filter (fun q => ((s.spilled b (s.brsBlk b)).brsEnt q).state == 5
      && ((s.spilled b (s.brsBlk b)).brsEnt q).blocks.contains b) = [] := by
    simp [State.spilled_brsEnt, noneWaits]
  simp only [execBlockMoveDone, moving, out, if_true, checked]
  exact congrArg (fun l => Host.Outcome.next (List.foldl _ (s.spilled b (s.brsBlk b)) l)) unnoted

/-- Settles O35: the boundary with and without tasks, the end of a wait for output room, and a spill by what it leaves of Barista's tables
and of the memory. -/
theorem baristaStepsAndMovesComplete : Obligations.BaristaStepsAndMovesComplete := by
  simp only [Obligations.BaristaStepsAndMovesComplete, exec_stepCommit, exec_outputRoomWaitEnd, exec_blockMoveDone]
  refine ⟨fun s g clocked used going => ⟨fun idle => execStepCommit_noTasks clocked used going [] idle,
      fun tasked ended late => execStepCommit_ended clocked used going late tasked ended⟩,
    fun s g clocked used waits room => execOutputRoomWaitEnd_room clocked used waits room,
    fun s n b moving out noneWaits => ⟨_, execBlockMoveDone_spilled moving out noneWaits, ?moves, ?place, s.spilled_dev b _⟩⟩
  case moves => rw [State.spilled_brs]
  case place => rw [State.spilled_brsBlk]

end Sys2Proof.Machine
end

section
/-!
PROOF. The fabric as the target of requests: what a port delivers, how it is performed, and what goes back (O36).
-/
namespace Sys2Proof.Machine

open Sys2Proof.Safety

/-! ### What a port delivers (R288, R294) -/

/-- The header's opcode field is the request's low byte. -/
theorem ReqHdr.op_ofNat (v : Nat) : (ReqHdr.ofNat (bits v 0 256)).op = bits v 0 8 := bits_mod v 256 0 8 (by decide)

/-- Table 11.1, row 3: a request that no row stops has a known opcode, no reserved bit set and its opcode's shape. -/
theorem State.wellFormed_of_inboundStops {s : State} {h : ReqHdr} (pass : s.inboundStops h = none) :
    fabOpcodes.contains h.op = true ∧ h.rsvd = false ∧ opShape h.op h.len h.addr = true := by
  have wellFormed : ¬ (!(fabOpcodes.contains h.op) || h.rsvd || !(opShape h.op h.len h.addr)) = true := by
    intro malformed
    simp only [State.inboundStops, if_pos malformed, reduceCtorEq] at pass
  simpa [and_assoc] using wellFormed

section

variable {s s2 : State} {p op v : Nat} (head : FabHead s p op v s2)

include head

theorem ReqHdr.op_of_fabHead : (ReqHdr.ofNat (bits v 0 256)).op = op := (ReqHdr.op_ofNat v).trans head.opc

/-- The request is what the port delivers next, without poison. -/
theorem State.rxTake_of_fabHead : ∃ n, s.rxTake p = (some (v, n, false), (s.rxTake p).2) ∧ (s.rxTake p).2.bump64 FAB_RX_REQ_CNT 1 = s2 := by
  obtain ⟨n, rest, got, rfl⟩ := head.taken
  exact ⟨n, by simp only [State.rxTake, got], by simp only [State.rxTake, got]⟩

/-- R288: a delivered request is taken and counted, then served. -/
theorem State.inbound_of_fabHead : s.inbound p op = s2.serveAndReply v false := by
  obtain ⟨n, take, counted⟩ := State.rxTake_of_fabHead head
  rw [State.inbound, take]
  simp only [head.opc, counted, true_or, if_true]

/-- Table 11.1: past the rows that stop a request, its opcode says who performs it. -/
theorem State.serve_of_fabHead : s2.serve v false =
    if op = 0x20 then s2.dispatchIn (ReqHdr.ofNat (bits v 0 256)) (v >>> 256)
    else if op = 0x21 then s2.combineIn (ReqHdr.ofNat (bits v 0 256)) (v >>> 256)
    else if op = 0x22 then (none, s2.epochNote (ReqHdr.ofNat (bits v 0 256)) (v >>> 256))
    else s2.accessIn (ReqHdr.ofNat (bits v 0 256)) (v >>> 256) := by
  simp only [State.serve, head.mine, head.pass, ReqHdr.op_of_fabHead head, ne_eq, not_true, if_false, Bool.false_eq_true]

/-- R294: the reply of a request that was served goes back to its sender. -/
theorem State.inbound_answered {a : Served} {s3 : State} (served : s2.serve v false = (some a, s3)) :
    s.inbound p op = fabAnswered s3 v a := by
  rw [State.inbound_of_fabHead head, State.serveAndReply, served, fabAnswered]

end

/-! ### Accesses and atomics (R293) -/

/-- The opcodes of the plain accesses and of the atomics (Table 11.5). -/
def accessOpcodes : List Nat := [0x01, 0x02, 0x10, 0x11, 0x12, 0x13, 0x14, 0x15]

/-- The commands of the plain accesses and of the atomics, with their opcodes. -/
def accessCommands (p : Fin 25) : List (Instr × Nat) :=
  [(.ldRequest p, 0x01), (.stRequest p, 0x02), (.swap p, 0x10), (.cas p, 0x11), (.faddI64 p, 0x12), (.addI64 p, 0x13), (.addRec p, 0x14),
   (.addF32 p, 0x15)]

theorem exec_of_mem_accessCommands {p : Fin 25} {c : Instr} {op : Nat} (mem : (c, op) ∈ accessCommands p) (s : State) :
    exec c s = .next (s.inbound p.val op) := by
  have each : ∀ q ∈ accessCommands p, exec q.1 s = .next (s.inbound p.val q.2) := by
    simp only [accessCommands, List.forall_mem_cons, List.not_mem_nil, false_imp_iff, implies_true, and_true]
    exact ⟨rfl, rfl, rfl, rfl, rfl, rfl, rfl, rfl⟩
  exact each _ mem

theorem op_of_mem_accessCommands {p : Fin 25} {c : Instr} {op : Nat} (mem : (c, op) ∈ accessCommands p) :
    op ∈ accessOpcodes :=
  List.mem_map_of_mem (f := Prod.snd) mem

/-- Rows 8 and 9 of Table 11.1: an access or an atomic is answered. -/
theorem State.accessIn_answers (s : State) {h : ReqHdr} (pay : Nat) (access : h.op ∈ accessOpcodes) :
    ∃ a s3, s.accessIn h pay = (some a, s3) := by
  by_cases load : h.op = 1
  · exact ⟨_, _, by rw [State.accessIn, if_pos load]⟩
  by_cases store : h.op = 2
  · exact ⟨_, _, by rw [State.accessIn, if_neg load, if_pos store]⟩
  have atomic : (atomOfCode h.op).isSome := by
    have all : ∀ c ∈ accessOpcodes, c ≠ 1 → c ≠ 2 → (atomOfCode c).isSome := by decide
    exact all _ access load store
  obtain ⟨operation, code⟩ := Option.isSome_iff_exists.1 atomic
  exact ⟨_, _, by rw [State.accessIn, if_neg load, if_neg store, code]⟩

/-- R293: a delivered access or atomic is performed and its reply sent. -/
theorem exec_access_answered {s s2 : State} {p : Fin 25} {v op : Nat} {c : Instr} (mem : (c, op) ∈ accessCommands p)
    (head : FabHead s p.val op v s2) : ∃ a s3, s2.accessIn (ReqHdr.ofNat (bits v 0 256)) (v >>> 256) = (some a, s3) ∧
      exec c s = .next (fabAnswered s3 v a) := by
  have code := op_of_mem_accessCommands mem
  obtain ⟨a, s3, performed⟩ := s2.accessIn_answers (v >>> 256) ((ReqHdr.op_of_fabHead head).symm ▸ code)
  have others : ∀ o ∈ accessOpcodes, o ≠ 0x20 ∧ o ≠ 0x21 ∧ o ≠ 0x22 := by decide
  obtain ⟨notDispatch, notCombine, notNote⟩ := others op code
  refine ⟨a, s3, performed, ?_⟩
  have served : s2.serve v false = (some a, s3) := by
    rw [State.serve_of_fabHead head, if_neg notDispatch, if_neg notCombine, if_neg notNote, performed]
  rw [exec_of_mem_accessCommands mem, State.inbound_answered head served]

/-! ### COMBINEs at the requester (R307, R308) -/

/-- The atomic of a dispatch's mode (Table 11.7). -/
def combineOp (mode : Nat) : AtomOp := if mode = 0 then .addF32 else if mode = 1 then .addI64 else .addRec

/-- The state in which piece q of dispatch d, of entry e of ring r, has been performed: the entry completes once its pieces cover its
output. -/
def State.pieceDone (s : State) (r e : Nat) (d : Disp) (q : Piece) : State :=
  let t := s.setDisp r e (some { d with pieces := d.pieces ++ [q] })
  if d.outLen ≤ (d.pieces ++ [q]).foldl (fun k p => k + p.len) 0 then t.dispEnd r e (piecesStatus (d.pieces ++ [q])) else t

/-- R307: a COMBINE of a live dispatch, of its mode and within its output, is performed. -/
theorem State.combineIn_live {s s3 : State} {h : ReqHdr} {pay r e st : Nat} {u : TagUse} {d : Disp}
    (held : Tbl.get none s.fab.tags (bits pay 0 17) = some u) (owner : u.req.owner = .dispatch r e) (live : u.quarantined = false)
    (entry : s.dispAt r e = some d)
    (fresh : d.spec = true → Tbl.get 0 s.epochs (epochKey d.grp d.epoch) % 4 ∉ [0, 3] ∧ bits pay 42 32 = d.step)
    (mode : d.mode = bits pay 17 2) (addr : h.addr = d.outGlobal + bits pay 74 18) (fits : bits pay 74 18 + (h.len - 32) ≤ d.outLen)
    (run : s.combineRun (combineOp d.mode) d.inst 32 h.addr (h.len - 32) (bits pay 256 (8 * (h.len - 32))) = (st, s3)) :
    s.combineIn h pay = (some { status := st }, s3.pieceDone r e d { off := bits pay 74 18, len := h.len - 32, status := some st }) := by
  have matching : ¬ (d.mode ≠ bits pay 17 2 ∨ h.addr ≠ d.outGlobal + bits pay 74 18 ∨ d.outLen < bits pay 74 18 + (h.len - 32)) := by
    omega
  have current : ¬ (d.spec = true ∧ (Tbl.get 0 s.epochs (epochKey d.grp d.epoch) % 4 = 3 ∨
      Tbl.get 0 s.epochs (epochKey d.grp d.epoch) % 4 = 0 ∨ bits pay 42 32 ≠ d.step)) := by
    rintro ⟨spec, stale⟩
    obtain ⟨unresolved, step⟩ := fresh spec
    simp only [List.mem_cons, List.not_mem_nil, or_false, not_or] at unresolved
    omega
  rw [mode, combineOp] at run
  simp only [State.combineIn, held, owner, live, entry, if_neg matching, if_neg current, run, State.pieceDone, decide_eq_true_eq]

/-! ### Frames (R301) -/

/-- The frame in which m bytes of replies go back to the sender of request h. -/
def replyFrame (h : ReqHdr) (m : Nat) : FabReq :=
  { op := 0x30, card := h.srcCard, part := 0, addr := 0, len := m, owner := .note, inst := noInst, gen := 0, timed := h.tc, srcPart := some 0 }

/-- R301: the requests of a frame are served in order, and their replies go back in one frame. -/
theorem execBulk_answered {s s2 s3 : State} {p : Fin 25} {v w m : Nat} (head : FabHead s p.val 0x30 v s2)
    (run : s2.frameRun false 256 (v >>> 256) (ReqHdr.ofNat (bits v 0 256)).len (0, 0) = ((w, m), s3)) (replies : m ≠ 0) :
    execBulk p s = .next (s3.sendTo (ReqHdr.ofNat (bits v 0 256)).srcCard 0 (ReqHdr.ofNat (bits v 0 256)).tc
      (s3.reqHeader 0 (replyFrame (ReqHdr.ofNat (bits v 0 256)) m) + w <<< 256) (32 + m) []) := by
  obtain ⟨n, take, counted⟩ := State.rxTake_of_fabHead head
  obtain ⟨-, plain, shape⟩ := State.wellFormed_of_inboundStops head.pass
  rw [ReqHdr.op_of_fabHead head] at shape
  rw [execBulk, take]
  simp only [counted, ReqHdr.op_of_fabHead head, head.mine, plain, shape, run, replies, replyFrame, ne_eq, not_true, if_false,
    Bool.false_eq_true, Bool.true_eq_false, or_self]

/-- Settles O36: each request by the lemma of what performs it; an epoch notice leaves no reply. -/
theorem inboundRequestsAreServed : Obligations.InboundRequestsAreServed := by
  simp only [Obligations.InboundRequestsAreServed, exec_dispatch, exec_combine, exec_epochNote, exec_bulk]
  intro s s2 p v
  refine ⟨fun c op mem head => exec_access_answered mem head, fun head a s3 served => ?dispatch,
    fun head u r e d st s3 held owner live entry fresh mode addr fits run => ?combine, fun head => ?epochNote,
    fun head s3 w m run replies => execBulk_answered head run replies⟩
  case dispatch => rw [execDispatch, State.inbound_answered head ((State.serve_of_fabHead head).trans served)]
  case combine =>
    have served := State.combineIn_live held owner live entry fresh mode addr fits run
    rw [execCombine, State.inbound_answered head ((State.serve_of_fabHead head).trans served)]
    rfl
  case epochNote =>
    rw [execEpochNote, State.inbound_of_fabHead head, State.serveAndReply, State.serve_of_fabHead head]
    rfl

end Sys2Proof.Machine
end

section
/-!
PROOF. The fabric as a requester: replies, grants, timeouts and open frames (O37).
-/
namespace Sys2Proof.Machine

open Sys2Proof.Safety

/-! ### Replies (R298 to R300) -/

/-- R298: a reply to a held tag, of the generation that the request was sent under, frees the tag and completes the request. -/
theorem State.reply1_answers {s : State} {v : Nat} {u : TagUse} (held : Tbl.get none s.fab.tags (bits v 32 17) = some u)
    (live : u.quarantined = false) (sent : bits v 64 16 = u.req.gen % 65536) (current : u.req.inst ≠ noInst → u.req.gen = s.instGen u.req.inst)
    (other : ∀ r e, u.req.owner ≠ .dispatch r e) :
    s.reply1 v false = ((s.holdTag (bits v 32 17) none).hubRefused u.req (bits v 8 8)).fabDone u.req.owner
      { status := bits v 8 8, cause := if bits v 8 8 = stFaultAccess then cRemoteRefused else 0, data := bits (v >>> 128) 0 (8 * bits v 16 15) } := by
  have fresh : ¬ (u.req.inst ≠ noInst ∧ u.req.gen ≠ s.instGen u.req.inst) := fun stale => stale.2 (current stale.1)
  -- What a DISPATCH's reply keeps is a match on the owner, which falls through by `other`.
  simp only [State.reply1, held, live, sent, if_neg fresh, Bool.false_eq_true, ne_eq, not_true, or_self, if_false]

/-- R294, R298: a port's reply reaches the requester. -/
theorem execFabricReply_got {s : State} {p : Fin 25} {v n : Nat} {bad : Bool} {rest : List (Nat × Nat × Bool)}
    (got : (s.port p.val).got = (v, n, bad) :: rest) (reply : bits v 0 8 = 0x80) :
    execFabricReply p s = .next ((s.setPort p.val { s.port p.val with got := rest }).reply1 v bad) := by
  simp only [execFabricReply, State.rxTake, got, reply, if_true]

/-! ### Grants (R297) -/

/-- The state in which waiting request k, which is r, has been taken; the round robin goes on after its unit. -/
def State.takeWaiting (s : State) (k : Nat) (r : FabReq) : State :=
  { s with fab := { s.fab with waiting := eraseAt s.fab.waiting k, rr := (r.unit + 1) % 70 } }

/-- R297: the next waiting request of a card that is reached directly takes a free tag and is sent. -/
theorem execTagGrant_granted {s : State} {k : Nat} {r : FabReq}
    (turn : nextRequest s.dropStale.fab.rr (·.unit) (fun r => !(s.dropStale.throughGateway r.card) && s.dropStale.tagOk r)
      s.dropStale.fab.waiting = some (k, r)) (reached : (s.dropStale.takeWaiting k r).unreachable r.card = false) :
    execTagGrant s = .next (((s.dropStale.takeWaiting k r).fabSend (s.dropStale.takeWaiting k r).fab.freeTag r).noteTag r.owner
      (s.dropStale.takeWaiting k r).fab.freeTag) := by
  rw [State.takeWaiting] at reached
  simp only [execTagGrant, turn, reached, Bool.false_eq_true, if_false, State.takeWaiting]

/-- R301: the next waiting request of a gateway with room enters the gateway's input queue. -/
theorem execGwEntryGrant_granted {s : State} {gw : Fin 4} {k : Nat} {r : FabReq} (room : (s.dropStale.gateway gw.val).queue.length < 512)
    (turn : nextRequest s.dropStale.fab.rr (·.unit) (fun r => s.dropStale.throughGateway r.card && gatewayOf r.card == gw.val)
      s.dropStale.fab.waiting = some (k, r)) : execGwEntryGrant gw s = .next ((s.dropStale.takeWaiting k r).gwEnter r) := by
  simp only [execGwEntryGrant, room.not_ge, if_false, turn, State.takeWaiting]

/-! ### Timeouts and quarantine (R298) -/

section

variable {s : State} {t : Fin 131072} {u : TagUse} (held : Tbl.get none s.fab.tags t.val = some u)

include held

theorem execFabricTimeout_late (live : u.quarantined = false) : execFabricTimeout t s = .next ((((s.holdTag t.val
    (some { u with quarantined := true })).bump FAB_TIMEOUT_CNT).event FAB_EVENT 0).fabDone u.req.owner { status := stRetired }) := by
  simp only [execFabricTimeout, held, live, Bool.false_eq_true, if_false]

theorem execTagQuarantineEnd_quarantined (late : u.quarantined = true) : execTagQuarantineEnd t s = .next (s.holdTag t.val none) := by
  simp only [execTagQuarantineEnd, held, late, if_true]

end

/-- Settles O37: the reply, the two grants and the two ends of a tag's wait; sending an open frame is the command itself. -/
theorem requestersCommandsComplete : Obligations.RequestersCommandsComplete := by
  simp only [Obligations.RequestersCommandsComplete, exec_fabricReply, exec_tagGrant, exec_gwEntryGrant, exec_fabricTimeout,
    exec_tagQuarantineEnd, exec_gwFrameSend]
  exact ⟨fun s p v n rest u got reply held live sent current other =>
      (execFabricReply_got got reply).trans (congrArg Host.Outcome.next (State.reply1_answers held live sent current other)),
    fun s k r turn reached => execTagGrant_granted turn reached,
    fun s gw k r room turn => execGwEntryGrant_granted room turn,
    fun s t u held => ⟨execFabricTimeout_late held, execTagQuarantineEnd_quarantined held⟩, fun s gw card => rfl⟩

end Sys2Proof.Machine
end

section
/-!
PROOF. The dispatch unit and the inboxes (O38).
-/
namespace Sys2Proof.Machine

open Sys2Proof.Safety

@[simp] theorem State.mapped_mc (s : State) (owner a : Nat) (f : State → State) : s.mapped .mc owner a f = f s := rfl

@[simp] theorem State.inboxPage_mc (s : State) (i a : Nat) (f : State → State) : s.inboxPage .mc i a f = f s := rfl

/-! ### The dispatch unit (R305, R306) -/

/-- R305: a tail that takes back no posted entry is taken. -/
theorem execFabXrTailWrite_forward {s : State} {r : Fin 64} {tail : BitVec 8}
    (forward : (s.fld (FAB_XR_TAIL r.val) 0 8 + 256 - s.fld (FAB_XR_HEAD r.val) 0 8) % 256 ≤
      (tail.toNat + 256 - s.fld (FAB_XR_HEAD r.val) 0 8) % 256) :
    execFabXrTailWrite .mc r tail s = .next ((s.setFld (FAB_XR_TAIL r.val) 0 8 tail.toNat).answer stOk) := by
  simp only [execFabXrTailWrite, State.mapped_mc, forward.not_gt, if_false]

/-- R306: an entry that passes every check of its ring, its directory entry, its addresses and its epoch has its DISPATCH sent. -/
theorem execDispatchRingRead_sends {s s1 s2 s3 : State} {r o n l1 l2 l3 : Nat} {segs outs ats : List (Target × Nat)} {v cfg dir : Nat}
    (next : s.nextRing = some r) (entry : s.ringEnt r (s.fld (FAB_XR_HEAD r) 0 8) = v) (config : s.reg (FAB_XR_CFG r) = cfg)
    (target : s.reg (FAB_XDIR (bits v 0 16) 0) = dir) (plain : dispBad v (bit cfg 20) = false) (act : bits v 192 16 ≠ 0)
    (out : bits v 352 24 ≠ 0) (known : bit dir 0 = true) (own : bits dir 20 4 = bits cfg 10 4)
    (reads : s.span .hub (bits cfg 1 9) .read (bit cfg 21) 3 (bits v 128 64) (bits v 192 16) = (.ok segs l1, s1))
    (writes : s1.span .hub (bits cfg 1 9) .write (bit cfg 21) 4 (bits v 224 64) (bits v 352 24) = (.ok ((.local o, n) :: outs) l2, s2))
    (atoms : s2.span .hub (bits cfg 1 9) .atom (bit cfg 21) 4 (bits v 224 64) (bits v 352 24) = (.ok ats l3, s3))
    (fresh : bit v 48 = true → Tbl.get 0 s3.epochs (epochKey (bits cfg 14 6) (bits v 32 16)) % 4 ∉ [0, 3]) :
    execDispatchRingRead s = .next (s3.sendDispatch r (s.fld (FAB_XR_HEAD r) 0 8) v o segs l1) := by
  have nonempty : ¬ (bits v 192 16 = 0 ∨ bits v 352 24 = 0) := not_or_intro act out
  have current : ¬ (bit v 48 = true ∧ (Tbl.get 0 s3.epochs (epochKey (bits cfg 14 6) (bits v 32 16)) % 4 = 3 ∨
      Tbl.get 0 s3.epochs (epochKey (bits cfg 14 6) (bits v 32 16)) % 4 = 0)) := by
    rintro ⟨spec, closed⟩
    exact fresh spec (by simpa [or_comm] using closed)
  simp only [execDispatchRingRead, next, entry, config, target, plain, if_neg nonempty, known, own, reads, writes, atoms, if_neg current,
    ne_eq, not_true, Bool.false_eq_true, Bool.true_eq_false, if_false]

/-- The state in which the refused DISPATCH d of entry e of ring r goes out again. -/
def State.retried (s : State) (r e : Nat) (d : Disp) : State :=
  (s.setDisp r e (some { d with waiting := false, retries := d.retries + 1 })).bump FAB_XD_RETRY_CNT

/-- R306: a refused DISPATCH of a card that is reached directly is sent again under its tag. -/
theorem execDispatchRetry_sends {s : State} {r : Fin 64} {e : Fin 256} {d : Disp} {t : Nat} (entry : s.dispAt r.val e.val = some d)
    (tag : s.dispTag r.val e.val = some t) (refused : d.waiting = true) (reached : (s.retried r.val e.val d).unreachable d.req.card = false)
    (direct : (s.retried r.val e.val d).throughGateway d.req.card = false) :
    execDispatchRetry r e s = .next ((s.retried r.val e.val d).fabSend t d.req) := by
  rw [State.retried] at reached direct
  simp only [execDispatchRetry, entry, tag, refused, reached, direct, if_true, Bool.false_eq_true, if_false, State.retried]

/-- R306: an entry whose pieces cover its output completes. -/
theorem execDispatchEntryComplete_covered {s : State} {r : Fin 64} {e : Fin 256} {d : Disp} (entry : s.dispAt r.val e.val = some d)
    (covered : d.outLen ≤ d.pieces.foldl (fun k p => k + p.len) 0) :
    execDispatchEntryComplete r e s = .next (s.dispEnd r.val e.val (piecesStatus d.pieces)) := by
  simp only [execDispatchEntryComplete, entry, if_pos covered]

/-! ### Inboxes (R307) -/

/-- R307: the oldest READY slot is handed out. -/
theorem execFabXiNext_ready {s : State} {i : Fin 64} {k : Nat} {rest : List Nat} (ready : Tbl.get [] s.fab.arrived i.val = k :: rest) :
    execFabXiNext .mc i s = .next (({ s with fab := { s.fab with arrived := Tbl.put [] s.fab.arrived i.val rest } }.setSlot i.val k 2).answer
      stOk 0 [k]) := by
  simp only [execFabXiNext, State.inboxPage_mc, ready]

section

variable {s : State} {i : Fin 64} {slot : BitVec 16} (there : slot.toNat < s.fld (FAB_XI_CFG i.val) 25 12)

include there

/-- R307, R308: a CANCELLED slot is freed. -/
theorem execFabXiDone_cancelled (cancelled : s.slotState i.val slot.toNat = 4) :
    execFabXiDone .mc i slot s = .next ((s.slotFree i.val slot.toNat).answer stOk) := by
  simp only [execFabXiDone, State.inboxPage_mc, if_pos there, if_pos cancelled]

/-- R307: the result of a TAKEN slot is sent. -/
theorem execFabXiDone_taken (taken : s.slotState i.val slot.toNat = 2) :
    execFabXiDone .mc i slot s = .next ((s.xiSend i.val slot.toNat).answer stOk) := by
  have live : ¬ (2 : Nat) = 4 := by decide
  simp only [execFabXiDone, State.inboxPage_mc, if_pos there, taken, if_neg live, ne_eq, not_true, if_false]

end

/-- Settles O38: each command of the dispatch unit and of the inboxes by the lemma of its case. -/
theorem dispatchCommandsComplete : Obligations.DispatchCommandsComplete := by
  simp only [Obligations.DispatchCommandsComplete, exec_fabXrTailWrite, exec_dispatchRingRead, exec_dispatchRetry,
    exec_dispatchEntryComplete, exec_fabXiNext, exec_fabXiDone, exec_inboxSlotFree]
  exact ⟨fun s r tail forward => execFabXrTailWrite_forward forward,
    fun s s1 s2 s3 r o n segs l1 outs l2 ats l3 next plain act out known own reads writes atoms fresh =>
      execDispatchRingRead_sends next rfl rfl rfl plain act out known own reads writes atoms fresh,
    fun s r e d t entry tag refused reached direct => execDispatchRetry_sends entry tag refused reached direct,
    fun s r e d entry covered => execDispatchEntryComplete_covered entry covered, fun s i k rest ready => execFabXiNext_ready ready,
    fun s i slot there => ⟨execFabXiDone_cancelled there, execFabXiDone_taken there⟩,
    fun s i k completed => congrArg Host.Outcome.next (if_pos completed)⟩

end Sys2Proof.Machine
end

section
/-!
PROOF. Fabric ports: the management cores' commands (O41), bring-up and recovery (O42).
-/
namespace Sys2Proof.Machine

/-- A hub block with its clock on takes the write (R213). -/
theorem State.ungated_on {s : State} {b : Nat} (on : s.fld CLK_EN_HUB b 1 = 1) (a inst : Nat) (f : State → State) :
    s.ungated b a inst f = f s := if_pos on

theorem State.lnkCmd_mc_on {s : State} {p : Nat} (on : s.fld CLK_EN_HUB (linkEnBit p) 1 = 1) (f : State → State) :
    s.lnkCmd .mc p f = f s := by
  rw [State.lnkCmd, State.mcOnly_mc, State.ungated_on on]

/-! ### Commands to a port (O41) -/

section
variable {s : State} {p : Fin 24} (on : s.fld CLK_EN_HUB (linkEnBit p.val) 1 = 1)
include on

theorem execEnable_disabled (disabled : s.portState p.val = 0) : execEnable .mc p s = .next ((s.startArb p.val).answer stOk) := by
  simp only [execEnable, State.lnkCmd_mc_on on, if_pos disabled]

/-- R332: a port that holds unacknowledged flits leaves the masks at once and waits for them; another is DISABLED now. -/
theorem execDisable_used (enabled : s.portState p.val ≠ 0) (inService : s.portState p.val ≠ 7) :
    execDisable .mc p s = .next
      ((if (s.portState p.val = 3 ∨ s.portState p.val = 4) ∧ (s.port p.val).buf ≠ []
        then (s.setPort p.val { s.port p.val with disabling := true, masked := true }).rehashAll p.val else s.linkOff p.val).answer stOk) := by
  have used : ¬ (s.portState p.val = 0 ∨ s.portState p.val = 7) := not_or.2 ⟨enabled, inService⟩
  simp only [execDisable, State.lnkCmd_mc_on on, if_neg used, List.isEmpty_eq_false_iff, apply_ite (State.answer · stOk)]

theorem execRetrain_active (active : s.portState p.val = 3) : execRetrain .mc p s = .next ((s.linkDown p.val).answer stOk) := by
  simp only [execRetrain, State.lnkCmd_mc_on on, if_pos active]

/-- R331: a swap is requested for a lane of an ACTIVE port with an unused good spare and no swap pending. -/
theorem execSwapCommand_spare {l : Fin 16} (active : s.portState p.val = 3) (idle : s.swapPending p.val = false)
    (unused : s.smap p.val false = 0xF) (good : s.spareOk p.val = true) (lane : l.val < 8) :
    execSwapCommand .mc p l s = .next ((s.requestSwap p.val l.val).answer stOk) := by
  have inRange : ¬ 7 < l.val := by omega
  simp only [execSwapCommand, State.lnkCmd_mc_on on, active, idle, unused, good, inRange, ne_eq, not_true, Bool.false_eq_true,
    Bool.true_eq_false, or_self, if_false]

theorem execUnretire_retired (retired : s.portState p.val = 7) :
    execUnretire .mc p s = .next (((s.linkDown p.val).portCause).answer stOk) := by
  simp only [execUnretire, State.lnkCmd_mc_on on, if_pos retired]

end

/-- Settles O41: each command by the lemma of the states in which Table 12.6 has it act. -/
theorem portCommandsComplete : Obligations.PortCommandsComplete := by
  intro s p on
  simp only [exec_enable, exec_disable, exec_retrain, exec_swapCommand, exec_unretire]
  exact ⟨execEnable_disabled on, execDisable_used on, execRetrain_active on,
    fun _ active idle unused good lane => execSwapCommand_spare on active idle unused good lane, execUnretire_retired on⟩

/-! ### Bring-up and recovery (O42) -/

section
variable {s : State} {p : Fin 24}

/-- R322: a key of the partner's sends an ARB port to TRAIN; the lower key's end follows. -/
theorem execAnnounce_partner {key : BitVec 72} (arb : s.portState p.val = 1) (other : key.toNat ≠ s.lnkKey p.val) :
    execAnnounce p key s = .next (((((s.setPort p.val
      { s.port p.val with key := some key.toNat, bursts := if isCopper p.val then max 1 (s.port p.val).bursts else (s.port p.val).bursts,
                          phase := if isCopper p.val then 1 else 3 }).setReg (LNK_PARTNER_ID p.val) (key.toNat >>> 8)).setReg
        (LNK_PARTNER_PORT p.val) (key.toNat % 256 + 256)).setFld (LNK_STATE p.val) 3 1 (b2n (decide (key.toNat < s.lnkKey p.val)))).setLink
          p.val 2) := by
  have inArb : ¬ s.portState p.val ≠ 1 := not_not_intro arb
  simp only [execAnnounce, if_neg inArb, if_neg other]

theorem execArbListenEnd_copper (arb : s.portState p.val = 1) (copper : isCopper p.val = true) :
    execArbListenEnd p s = .next (s.setPort p.val { s.port p.val with bursts := (s.port p.val).bursts + 1 }) := by
  simp only [execArbListenEnd, arb, copper, and_self, if_true]

/-- R322: in a round that hears nothing the wait is by the next bit of this end's key. -/
theorem execCollisionRound_copper (arb : s.portState p.val = 1) (copper : isCopper p.val = true) (burst : 1 ≤ (s.port p.val).bursts)
    (more : (s.port p.val).round < 72) :
    execCollisionRound p s = .next ((s.setPort p.val
      { s.port p.val with round := (s.port p.val).round + 1, bursts := (s.port p.val).bursts + 1,
                          backoffUs := if bit (s.lnkKey p.val) (71 - (s.port p.val).round) then 12 else 4 }).bumpFld
        (LNK_ARB_CNT p.val) 16 16 1) := by
  simp only [execCollisionRound, arb, copper, burst, more, and_self, if_true]

section
variable (train : s.portState p.val = 2)
include train

/-- Table 12.7: the phases before the spare's pattern only lead on. -/
theorem execTrainingPhaseEnd_early (spare : Bool) (tx rx : Option (Fin 8)) (early : (s.port p.val).phase < 4) :
    execTrainingPhaseEnd p spare tx rx s = .next (s.setPort p.val { s.port p.val with phase := (s.port p.val).phase + 1 }) := by
  have goes : ¬ (s.portState p.val ≠ 2 ∨ 6 ≤ (s.port p.val).phase) := by omega
  have notSpare : ¬ (s.port p.val).phase = 4 := by omega
  have notLanes : ¬ (s.port p.val).phase = 5 := by omega
  simp only [execTrainingPhaseEnd, if_neg goes, if_neg notSpare, if_neg notLanes]

/-- Table 12.7, step 4: is the spare good? -/
theorem execTrainingPhaseEnd_spare (spare : Bool) (tx rx : Option (Fin 8)) (phase : (s.port p.val).phase = 4) :
    execTrainingPhaseEnd p spare tx rx s = .next
      ((s.setFld (LNK_STATE p.val) 16 1 (b2n (spare && !(s.port p.val).spareBad))).setPort p.val { s.port p.val with phase := 5 }) := by
  have goes : ¬ (s.portState p.val ≠ 2 ∨ 6 ≤ (s.port p.val).phase) := by omega
  rw [execTrainingPhaseEnd, if_neg goes, if_pos phase, phase]
  rfl

/-- Table 12.7, step 5: the two ends' lane records agree, and give the lane maps. -/
theorem execTrainingPhaseEnd_lanes (spare : Bool) {tx rx : Option (Fin 8)} {a b : Nat} (phase : (s.port p.val).phase = 5)
    (txLane : agreeLane (Tbl.get none s.laneRecs (2 * p.val)) (tx.map (·.val)) = some a)
    (rxLane : agreeLane (Tbl.get none s.laneRecs (2 * p.val + 1)) (rx.map (·.val)) = some b) :
    execTrainingPhaseEnd p spare tx rx s = .next ((((s.setFld (LNK_STATE p.val) 4 4 a).setFld (LNK_STATE p.val) 8 4 b).setFld LNK_STATUS
      (24 + p.val) 1 (b2n (a != 0xF || b != 0xF))).setPort p.val { s.port p.val with phase := 6 }) := by
  have goes : ¬ (s.portState p.val ≠ 2 ∨ 6 ≤ (s.port p.val).phase) := by omega
  have notSpare : ¬ (s.port p.val).phase = 4 := by omega
  rw [execTrainingPhaseEnd, if_neg goes, if_neg notSpare, if_pos phase, txLane, rxLane, phase]
  rfl

theorem execReady_trained (phase : (s.port p.val).phase = 6) :
    execReady p s = .next ((((s.setPort p.val
      { s.port p.val with phase := 0, buf := [], replays := 0, nakOut := false, ackV := false, cred0 := 224, cred1 := 32, freed0 := 0,
                          freed1 := 0, part0 := [], part1 := [], ready := true, masked := false }).setReg (LNK_SEQ p.val) 0).setLink
        p.val 3).lnkPump p.val 1024) :=
  congrArg Host.Outcome.next (if_pos ⟨train, phase⟩)

theorem execTrainTimeout_train : execTrainTimeout p s = .next (s.linkDown p.val) := congrArg Host.Outcome.next (if_pos train)

end

section
variable (recovery : s.portState p.val = 4)
include recovery

theorem execRecoveryTimeout_recovery (enabled : (s.port p.val).disabling = false) :
    execRecoveryTimeout p s = .next ((s.linkDown p.val).bumpFld (LNK_RECOV_CNT p.val) 32 32 1) := by
  simp only [execRecoveryTimeout, enabled, Bool.false_eq_true, if_false, if_pos recovery]

/-- R326: a fast retrain without a swap or a dead lane on its way leads back to ACTIVE, with every held flit replayed. -/
theorem execFastRetrainDone_noSwap (spare : Bool) (noSwap : (s.port p.val).swaps = []) (noDead : (s.port p.val).dead = none) :
    execFastRetrainDone p spare s = .next
      (((((s.setFld (LNK_STATE p.val) 16 1 (b2n (spare && !(s.port p.val).spareBad))).setPort p.val
        { s.port p.val with recWin := (s.port p.val).recWin + 1, replays := 0 }).bumpFld (LNK_RECOV_CNT p.val) 0 32 1).bumpFld
          (LNK_REPLAY_CNT p.val) 0 32 (s.port p.val).buf.length).setLink p.val 3 |>.lnkPump p.val 1024) := by
  have kept (v : Nat) : (s.setFld (LNK_STATE p.val) 16 1 v).port p.val = s.port p.val := rfl
  simp only [execFastRetrainDone, if_neg (not_not_intro recovery), kept, noSwap, noDead, List.foldl_nil]

end

theorem State.toRecovery_active {p : Nat} (active : s.portState p = 3) : s.toRecovery p = s.setLink p 4 := if_pos active

theorem execDrainHoldEnd_held (down : s.portState p.val = 5) (hold : s.fld (LNK_STATE p.val) 18 1 = 1) :
    execDrainHoldEnd p s = .next
      (((s.setFld (LNK_STATE p.val) 18 1 0).setPort p.val { s.port p.val with drainDone := true }).rehashAll p.val) :=
  congrArg Host.Outcome.next (if_pos ⟨down, hold⟩)

theorem execDownToArb_auto (down : s.portState p.val = 5) (drained : (s.port p.val).drainDone = true)
    (auto : s.fld (LNK_CFG p.val) 3 1 = 1) (noCoast : s.fld CLK_STATUS 2 1 = 0) : execDownToArb p s = .next (s.startArb p.val) :=
  congrArg Host.Outcome.next (if_pos ⟨down, drained, auto, noCoast⟩)

end

/-- Settles O42: each step of Tables 12.6 and 12.7 by the lemma of its event. -/
theorem portsBringUpAndRecover : Obligations.PortsBringUpAndRecover := by
  intro s p
  simp only [exec_announce, exec_arbListenEnd, exec_collisionRound, exec_trainingPhaseEnd, exec_ready, exec_trainTimeout,
    exec_recoveryTimeout, exec_codewordLockLoss, exec_fastRetrainDone, exec_drainHoldEnd, exec_downToArb]
  exact ⟨fun _ arb other => execAnnounce_partner arb other,
    fun arb copper => ⟨execArbListenEnd_copper arb copper, execCollisionRound_copper arb copper⟩,
    fun spare tx rx train => ⟨execTrainingPhaseEnd_early train spare tx rx, execTrainingPhaseEnd_spare train spare tx rx,
      fun phase _ _ txLane rxLane => execTrainingPhaseEnd_lanes train spare phase txLane rxLane⟩,
    execReady_trained, execTrainTimeout_train, execRecoveryTimeout_recovery,
    fun active => congrArg Host.Outcome.next (State.toRecovery_active active),
    fun recovery noSwap noDead spare => execFastRetrainDone_noSwap recovery spare noSwap noDead, execDrainHoldEnd_held, execDownToArb_auto⟩

end Sys2Proof.Machine
end

section
/-!
PROOF. Fabric ports: flits, replay, the swap to the spare lane, and lanes that fail (O43).
-/
namespace Sys2Proof.Machine

section
variable {s : State} {p : Fin 24}

@[simp] theorem State.port_setFld (s : State) (a lo w v q : Nat) : (s.setFld a lo w v).port q = s.port q := rfl

/-! ### Flits (R325, R326) -/

section
variable (ctl : BitVec 20) (flit : BitVec 5120) (sym : List (Fin 9 × Nat)) (active : s.portState p.val = 3)
include active

/-- R325: an uncorrectable codeword is counted, and asked for again. -/
theorem execFlitRx_uncorrectable : execFlitRx p ctl flit sym true s = .next
    ((((s.bump64 (LNK_CW_CNT p.val) 1).setPort p.val
      { (s.bump64 (LNK_CW_CNT p.val) 1).port p.val with uncWin := (s.port p.val).uncWin + 1 }).bump
        (LNK_CW_UNCORR_CNT p.val)).sendNak p.val) := by
  rw [execFlitRx, if_neg (not_not_intro active), if_pos rfl]
  rfl

/-- R325: a codeword that was decoded gives its control field; its flit is taken, or asked for again when its CRC is wrong. -/
theorem execFlitRx_decoded : execFlitRx p ctl flit sym false s = .next
    (if crc64 flit.toNat 624 ≠ bits flit.toNat 4992 64
      then ((((if sym.isEmpty then s.bump64 (LNK_CW_CNT p.val) 1
          else ((s.bump64 (LNK_CW_CNT p.val) 1).bump64 (LNK_CW_CORR_CNT p.val) 1).laneSyms p.val sym).cwControl p.val ctl.toNat).bump
            (LNK_CRC_ERR_CNT p.val)).sendNak p.val)
      else ((if sym.isEmpty then s.bump64 (LNK_CW_CNT p.val) 1
          else ((s.bump64 (LNK_CW_CNT p.val) 1).bump64 (LNK_CW_CORR_CNT p.val) 1).laneSyms p.val sym).cwControl p.val ctl.toNat).flitIn
            p.val flit.toNat) := by
  simp only [execFlitRx, if_neg (not_not_intro active), Bool.false_eq_true, if_false]

theorem execReplayTimer_held (held : (s.port p.val).buf ≠ []) :
    execReplayTimer p s = .next ((s.bumpFld (LNK_REPLAY_CNT p.val) 32 32 1).replay p.val) :=
  congrArg Host.Outcome.next (if_pos ⟨active, List.isEmpty_eq_false_iff.2 held⟩)

end

/-! ### The swap to the spare lane (R330, R331) -/

/-- Only on copper can the requests of the two ends meet; an optical port mirrors the lane onto its spare at once. -/
theorem execSwapReq_optical {l : Fin 8} (active : s.portState p.val = 3) (optical : isCopper p.val = false) :
    execSwapReq p l s = .next (((s.setPort p.val { s.port p.val with
      swaps := (s.port p.val).swaps ++ [{ lane := l.val, tx := true, stage := 3 }] }).setFld (LNK_STATE p.val) 12 4 l.val).setFld
        (LNK_STATE p.val) 17 1 1) := by
  simp only [execSwapReq, if_neg (not_not_intro active), optical, Bool.false_and, Bool.false_eq_true, false_and, if_false]

theorem execSwapAck_mirrored {w : LaneSwap} (active : s.portState p.val = 3)
    (mirrored : (s.port p.val).swaps.find? (fun w => w.tx && w.stage == 3) = some w) :
    execSwapAck p s = .next (s.switchLane p.val w.lane true) := by
  simp only [execSwapAck, mirrored, if_pos active]

/-- A rejected swap of an optical port ends, and its spare counts as bad. -/
theorem execSwapRej_optical (pending : (s.port p.val).swaps ≠ []) (optical : isCopper p.val = false) :
    execSwapRej p s = .next (((((s.setPort p.val { s.port p.val with swaps := [], spareBad := true }).setFld
      (LNK_STATE p.val) 16 1 0).setFld (LNK_STATE p.val) 12 4 0xF).setFld (LNK_STATE p.val) 17 1 0).bumpFld (LNK_SWAP_CNT p.val) 16 16 1) := by
  have swaps : (s.port p.val).swaps.isEmpty = false := List.isEmpty_eq_false_iff.2 pending
  simp only [execSwapRej, swaps, optical, Bool.false_and, Bool.false_eq_true, if_false, Bool.not_false, Bool.or_true, List.any_nil, b2n]

theorem execLaneDriveOff_switched {w : LaneSwap} (switched : (s.port p.val).swaps.find? (fun w => w.tx && w.stage == 8) = some w) :
    execLaneDriveOff p s = .next (s.setPort p.val
      { s.port p.val with swaps := (s.port p.val).swaps.filter (fun v => v != w), off := (s.port p.val).off ++ [w.lane] }) := by
  simp only [execLaneDriveOff, switched]

/-! ### A lane that has lost lock (R329, R331) -/

/-- The lane's lock is off, and the window notes its loss. -/
def State.lockLost (s : State) (p l : Nat) : State :=
  (s.setFld (LNK_EC_STAT p l) 16 1 0).setPort p { s.port p with lockWin := (s.port p).lockWin ++ [l] }

/-- The event and the record of the lane that has failed (R472). -/
def State.lockLogged (s : State) (p l : Nat) : State :=
  ((s.lockLost p l).event RAS_EVENT 1).errLog { level := 4, kind := 17, action := 2, res := p, detail := l, count := 1 }

/-- The spare that loses lock unused is bad; a lane that does so goes to the spare, or takes the port with it where there is none. -/
theorem execLaneLockLoss_trained {l : Fin 9} (trained : s.portState p.val = 3 ∨ s.portState p.val = 4) :
    execLaneLockLoss p l s = .next
      (if l.val = 8 ∧ (s.lockLost p.val l.val).smap p.val false = 0xF
        then ((s.lockLost p.val l.val).setPort p.val { (s.lockLost p.val l.val).port p.val with spareBad := true }).setFld
          (LNK_STATE p.val) 16 1 0
        else if (s.lockLogged p.val l.val).smap p.val false ≠ 0xF ∨ (s.lockLogged p.val l.val).spareOk p.val = false
          then (s.lockLogged p.val l.val).retirePort p.val
        else ((s.lockLogged p.val l.val).setPort p.val { (s.lockLogged p.val l.val).port p.val with dead := some l.val }).toRecovery p.val) := by
  have watched : ¬ (s.portState p.val ≠ 3 ∧ s.portState p.val ≠ 4) := by omega
  rw [execLaneLockLoss, if_neg watched]
  rfl

end

/-- Settles O43: each event of a port by the lemma of its case; the end of a window is one pass over the ports. -/
theorem flitsAndLanesAreServed : Obligations.FlitsAndLanesAreServed := by
  intro s p
  simp only [exec_flitRx, exec_replayTimer, exec_swapReq, exec_swapAck, exec_swapRej, exec_laneDriveOff, exec_lnkWindowEnd, exec_laneLockLoss]
  exact ⟨fun ctl flit sym active => ⟨execFlitRx_uncorrectable ctl flit sym active, execFlitRx_decoded ctl flit sym active⟩,
    execReplayTimer_held, fun _ active optical => execSwapReq_optical active optical, fun _ active mirrored => execSwapAck_mirrored active mirrored,
    execSwapRej_optical, fun _ switched => execLaneDriveOff_switched switched, rfl, fun _ trained => execLaneLockLoss_trained trained⟩

end Sys2Proof.Machine
end

section
/-!
PROOF. The FEC array: pushes, code blocks, completion, deadlines, cancel and reset (O44).
-/
namespace Sys2Proof.Machine

@[simp] theorem State.ownerOnly_mc (s : State) (a owner : Nat) (f : State → State) : s.ownerOnly .mc a owner f = f s := rfl

/-- A push goes through to a queue in service whose domain has power and whose block has its clock (R213, R471, R489). -/
theorem State.pushInto_open {s : State} {res b : Nat} {dom : Option Nat} (powered : dom.any s.domOff = false) (kept : res ∉ s.retiredQ)
    (on : s.fld CLK_EN_HUB b 1 = 1) (a inst : Nat) (f : State → State) : s.pushInto res dom b a inst f = f s := by
  simp [State.pushInto, powered, kept, State.ungated_on on]

/-- R350: the management cores' push into an enabled window joins the held pushes, and the queue goes on. -/
theorem State.fecPush_mc {s : State} {q job op : Nat} (opc : fecOp job = op) (known : op ≠ 0 ∧ op ≤ 4) (powered : s.domOff 26 = false)
    (kept : q ∉ s.retiredQ) (on : s.fld CLK_EN_HUB 9 1 = 1) (enabled : s.fld (FEC_QCFG q) 0 1 = 1) (poison : Bool) :
    s.fecPush op .mc q job poison = ({ s with fec := { s.fec with
      held := Tbl.put [] s.fec.held q (Tbl.get [] s.fec.held q ++ [(setBits job 0 8 op, poison)]) } }.fecServe q).answer stOk := by
  have unreserved : ¬ (fecOp job = 0 ∨ 4 < fecOp job) := by omega
  have taken : ¬ s.fld (FEC_QCFG q) 0 1 = 0 := by omega
  have open_ {inst : Nat} (f : State → State) : s.pushInto q (some 26) 9 (FEC_QWIN q 0) inst f = f s :=
    State.pushInto_open (dom := some 26) powered kept on _ _ f
  simp only [State.fecPush, State.ownerOnly_mc, open_, if_neg unreserved, if_neg taken]

/-- The four pushes of a FEC job, with their opcodes (Table 13.5). -/
def fecPushes (q : Fin 64) (job : BitVec 512) (poison : Bool) : List (Instr × Nat) :=
  [(.ldpcDec .mc q job poison, 1), (.ldpcEnc .mc q job poison, 2), (.polarDec .mc q job poison, 3), (.polarEnc .mc q job poison, 4)]

theorem exec_of_mem_fecPushes {q : Fin 64} {job : BitVec 512} {poison : Bool} {c : Instr} {op : Nat} (mem : (c, op) ∈ fecPushes q job poison)
    (s : State) : (op ≠ 0 ∧ op ≤ 4) ∧ exec c s = .next (s.fecPush op .mc q.val job.toNat poison) := by
  simp only [fecPushes, List.mem_cons, Prod.mk.injEq, List.not_mem_nil, or_false] at mem
  rcases mem with ⟨rfl, rfl⟩ | ⟨rfl, rfl⟩ | ⟨rfl, rfl⟩ | ⟨rfl, rfl⟩ <;> exact ⟨by decide, rfl⟩

/-! ### Code blocks and completion (R352, R353, R356) -/

/-- R352: while no job is late, the first free unit with an eligible job takes its next code block. -/
theorem execCodeBlockStart_eligible {s : State} {u : Nat} {j : FecJob} (punctual : ∀ j ∈ s.fec.jobs, s.fecLate j = false)
    (enabled : s.fld FEC_CTRL 0 1 ≠ 0)
    (found : (List.range 44).findSome? (fun u => if s.unitFree u then (s.fecBest u).map (fun j => (u, j)) else none) = some (u, j)) :
    execCodeBlockStart s = .next (s.fecTake u j) := by
  have noneLate : s.fec.jobs.find? s.fecLate = none := by simpa [List.find?_eq_none] using punctual
  simp only [execCodeBlockStart, noneLate, if_neg enabled, found]

theorem execCodeBlockEnd_running {s : State} {u : Fin 44} {id i : Nat} {j : FecJob} (error : Bool)
    (runs : Tbl.get none s.fec.units u.val = some (id, i)) (found : s.fec.jobs.find? (fun j => j.id == id) = some j) :
    execCodeBlockEnd u error s = .next
      ({ s with fec := { s.fec with units := Tbl.put none s.fec.units u.val none } }.fecBlockEnd u.val j i error) := by
  simp only [execCodeBlockEnd, runs, found]

theorem execFecJobComplete_finished {s : State} {q : Fin 64} {j : FecJob}
    (found : s.fec.jobs.find? (fun j => j.q == q.val && j.finished) = some j) : execFecJobComplete q s = .next (s.fecComplete j) := by
  simp only [execFecJobComplete, found]

theorem execFecDeadline_late {s : State} {ticks : BitVec 64} {j : FecJob}
    (found : (s.elapse ticks.toNat).fec.jobs.find? (s.elapse ticks.toNat).fecLate = some j) :
    execFecDeadline ticks s = .next ((s.elapse ticks.toNat).fecTooLate j) := by
  simp only [execFecDeadline, found]

/-! ### Cancel and reset (R357) -/

theorem execFecQctlCancel_mc {s : State} {q : Fin 64} (on : s.fld CLK_EN_HUB 9 1 = 1) (tag : BitVec 16) :
    execFecQctlCancel .mc q tag s = .next (((((s.fec.jobs.filter (fun j => j.q == q.val && fecTag j.desc == tag.toNat)).foldl
      (fun s j => s.fecStop j stCancelled) s)).fecServe q.val).answer stOk) := by
  simp only [execFecQctlCancel, State.ownerOnly_mc, State.ungated_on on]

theorem execFecQctlReset_mc {s : State} {q : Fin 64} (on : s.fld CLK_EN_HUB 9 1 = 1) :
    execFecQctlReset .mc q s = .next ((s.fecQueueReset q.val).answer stOk) := by
  simp only [execFecQctlReset, State.ownerOnly_mc, State.ungated_on on]

/-- Settles O44: the four pushes share one lemma; each other event is the lemma of its case. -/
theorem fecCommandsComplete : Obligations.FecCommandsComplete := by
  simp only [Obligations.FecCommandsComplete, exec_codeBlockStart, exec_codeBlockEnd, exec_fecJobComplete, exec_fecDeadline,
    exec_fecQctlCancel, exec_fecQctlReset]
  refine ⟨fun s q job poison c op mem opc powered kept on enabled => ?push,
    fun s punctual enabled u j found => execCodeBlockStart_eligible punctual enabled found,
    fun s u error id i j runs found => execCodeBlockEnd_running error runs found, fun s q j found => execFecJobComplete_finished found,
    fun s ticks j found => execFecDeadline_late found, fun s q on => ⟨execFecQctlCancel_mc on, execFecQctlReset_mc on⟩⟩
  case push =>
    obtain ⟨known, pushes⟩ := exec_of_mem_fecPushes mem s
    rw [pushes, State.fecPush_mc opc known powered kept on enabled]

end Sys2Proof.Machine
end

section
/-!
PROOF. Cells: activation and deactivation, frame and slot boundaries, holdover, symbols, and the spectral-mask monitor (O45).
-/
namespace Sys2Proof.Machine

/-! ### Activation and deactivation (R361, R362) -/

section
variable {s : State} {c : Fin 256} (on : s.fld CLK_EN_HUB 9 1 = 1)
include on

/-- R362: a cell that passes the rows of Table 13.9 is activated with its weight, from its next frame on. -/
theorem execActivate_passes (off : s.cellState c.val = 0) (extension : s.cellxBad c.val = false) (nonzero : s.cellZero c.val = false)
    (row3 : s.cellBad3 c.val = false) (row4 : s.cellBad4 c.val = false) (fits : s.cellOver c.val = false) :
    execActivate .mc c s = .next ((((s.setCellX c.val { actAt := s.nextFrame c.val }).setFld (FEC_CELL_STAT c.val) 3 10
      ((s.setCellX c.val { actAt := s.nextFrame c.val }).weightOf c.val)).setCell c.val 1).answer stOk) := by
  simp only [execActivate, State.mcOnly_mc, State.ungated_on on, off, extension, nonzero, row3, row4, fits, ne_eq, not_true,
    Bool.false_eq_true, or_self, if_false]

theorem execDeactivate_used (used : s.cellState c.val ≠ 0) :
    execDeactivate .mc c s = .next ((s.setCellX c.val { s.cellX c.val with offNext := true }).answer stOk) := by
  simp only [execDeactivate, State.mcOnly_mc, State.ungated_on on, if_neg used]

end

/-! ### Boundaries and holdover (R362, R363, R374) -/

section
variable {s s1 : State} {c : Fin 256} {ticks : BitVec 64} (now : s1 = s.elapse ticks.toNat)
include now

theorem execCellFrameBoundary_activates (starting : s1.cellState c.val = 1) (due : s1.reached (s1.cellX c.val).actAt = true) :
    execCellFrameBoundary c ticks s = .next (s1.setCell c.val 2) := by
  subst now
  exact congrArg Host.Outcome.next (if_pos ⟨starting, due⟩)

/-- R363: with valid time again a cell in holdover or muted is ACTIVE. -/
theorem execCellFrameBoundary_recovers (without : s1.cellState c.val = 3 ∨ s1.cellState c.val = 4) (valid : s1.timeValid = true) :
    execCellFrameBoundary c ticks s = .next (s1.setCell c.val 2) := by
  subst now
  have started : ¬ ((s.elapse ticks.toNat).cellState c.val = 1 ∧
      (s.elapse ticks.toNat).reached ((s.elapse ticks.toNat).cellX c.val).actAt = true) := by omega
  simp only [execCellFrameBoundary, if_neg started, if_pos (And.intro without valid)]

theorem execHoldoverExpiry_expired (holdover : s1.cellState c.val = 3) (invalid : s1.timeValid = false)
    (expired : s1.cellFld c.val 112 16 * 1250000 ≤ (2 ^ 64 + s1.cnt - (s1.cellX c.val).since) % 2 ^ 64) :
    execHoldoverExpiry c ticks s = .next ((s1.setCell c.val 4).event FEC_EVENT 4) := by
  subst now
  exact congrArg Host.Outcome.next (if_pos ⟨holdover, invalid, expired⟩)

theorem execUlMapClear_deactivates (used : s1.cellState c.val ≠ 0) (leaves : (s1.cellX c.val).offNext = true) :
    execUlMapClear c ticks s = .next (s1.cellGone c.val) := by
  subst now
  simp only [execUlMapClear, if_neg used, if_pos leaves]

/-- R363, R374: at its air start a slot's map is cleared but for a muted cell; a slot that is muted, or whose sub-port is not UP, is
counted as missed. -/
theorem execUlMapClear_clears (used : s1.cellState c.val ≠ 0) (started : s1.cellState c.val ≠ 1) (stays : (s1.cellX c.val).offNext = false)
    {s2 : State} (cleared : s2 = if s1.cellState c.val = 4 then s1
      else s1.devWrite (s1.ulBase c.val + 256 * (s1.cellNow c.val / slotNs (s1.cellMu c.val) % 4)) 256 0) :
    execUlMapClear c ticks s = .next
      (if s1.cellState c.val = 4 ∨ s1.fhState (s1.cellTarget c.val) ≠ 2 then s2.bumpFld (FEC_CELL_MISS c.val) 0 16 1 else s2) := by
  subst now cleared
  simp only [execUlMapClear, if_neg used, if_neg started, stays, Bool.false_eq_true, if_false]

/-! ### Symbols (R364) -/

section
variable {f : BitVec 8} {sub : Fin 10} {slot : Fin 8} {sym : Fin 14} (on : s1.cellOn c.val = true) (inFrame : slot.val < slotsOf (s1.cellMu c.val))
  (due : s1.symDue c.val f.toNat sub.val slot.val sym.val = true)
include on inFrame due

omit now in
theorem symbol_watched : ¬ (s1.cellOn c.val = false ∨ slotsOf (s1.cellMu c.val) ≤ slot.val ∨
    s1.symDue c.val f.toNat sub.val slot.val sym.val = false) := by
  simp [on, due, inFrame]

theorem execSymbolSendTime_missing (missing : s1.symOf c.val f.toNat sub.val slot.val sym.val = 0) :
    execSymbolSendTime c f sub slot sym ticks s = .next
      ((s1.setSym (symKey c.val f.toNat sub.val slot.val sym.val) 3).lateSym c.val) := by
  subst now
  simp only [execSymbolSendTime, if_neg (symbol_watched on inFrame due), missing]

theorem execSymbolSendTime_queued (queued : s1.symOf c.val f.toNat sub.val slot.val sym.val = 1) :
    execSymbolSendTime c f sub slot sym ticks s = .next (s1.setSym (symKey c.val f.toNat sub.val slot.val sym.val) 2) := by
  subst now
  simp only [execSymbolSendTime, if_neg (symbol_watched on inFrame due), queued]

end

end

/-! ### The spectral-mask monitor (R340, R341) -/

section
variable {s : State} {i : Fin 128} {c : Fin 256} {ant : Fin 64} {sym : Fin 14} {pk : List Nat} (timeDomain : s.cellMode c.val = 2)
  (monitored : s.cellFld c.val 180 2 = 1 ∨ s.cellFld c.val 180 2 = 2) (used : s.cellState c.val ≠ 0)
include timeDomain monitored used

theorem monitor_watches : ¬ (s.cellMode c.val ≠ 2 ∨ (s.cellFld c.val 180 2 ≠ 1 ∧ s.cellFld c.val 180 2 ≠ 2) ∨ s.cellState c.val = 0) := by
  omega

/-- A symbol inside its mask ends the stream's run of violations; one of a muted stream is still sent as zeros. -/
theorem execMaskCheck_inside (inside : worst ((s.bump64 FH_MASK_CHK_CNT 1).maskFound c.val pk) = none) :
    execMaskCheck i c ant sym pk s = .next
      ({ s.bump64 FH_MASK_CHK_CNT 1 with maskRun := Tbl.put 0 (s.bump64 FH_MASK_CHK_CNT 1).maskRun i.val 0 }.answer stOk 0
        [if s.cellFld c.val 180 2 = 2 ∧ (s.bump64 FH_MASK_CHK_CNT 1).muted i.val then 1 else 0]) := by
  simp only [execMaskCheck, if_neg (monitor_watches timeDomain monitored used), inside]

theorem execMaskCheck_violates {v : Nat × Nat × (Nat × Nat)} (violated : worst ((s.bump64 FH_MASK_CHK_CNT 1).maskFound c.val pk) = some v) :
    execMaskCheck i c ant sym pk s = .next ((s.bump64 FH_MASK_CHK_CNT 1).maskHit i.val c.val ant.val sym.val v) := by
  simp only [execMaskCheck, if_neg (monitor_watches timeDomain monitored used), violated]

end

/-- Settles O45: each event of a cell by the lemma of its case. -/
theorem cellCommandsComplete : Obligations.CellCommandsComplete := by
  simp only [Obligations.CellCommandsComplete, exec_activate, exec_deactivate, exec_cellFrameBoundary, exec_holdoverExpiry, exec_ulMapClear,
    exec_symbolSendTime, exec_maskCheck, exec_fhMaskUnmute]
  exact ⟨fun s c on => ⟨execActivate_passes on, execDeactivate_used on⟩,
    fun s c ticks => ⟨execCellFrameBoundary_activates rfl, execCellFrameBoundary_recovers rfl, execHoldoverExpiry_expired rfl,
      execUlMapClear_deactivates rfl, fun used started stays => execUlMapClear_clears rfl used started stays rfl,
      fun f sub slot sym on inFrame due => ⟨execSymbolSendTime_missing rfl on inFrame due, execSymbolSendTime_queued rfl on inFrame due⟩⟩,
    fun s i c ant sym pk timeDomain monitored used => ⟨execMaskCheck_inside timeDomain monitored used,
      fun _ violated => execMaskCheck_violates timeDomain monitored used violated⟩,
    fun s i => rfl⟩

end Sys2Proof.Machine
end

section
/-!
PROOF. The traffic manager: windows, transmission and drops, gate lists, host rings (O46).
-/
namespace Sys2Proof.Machine

/-! ### Windows (R377 to R381, R393) -/

/-- R377: the management cores' push into an enabled window joins the held pushes, and the window goes on. -/
theorem State.tmPush_mc {s : State} {e desc op : Nat} (opc : egOp desc = op) (known : op ≠ 0 ∧ op ≤ 3) (kept : 0x100 + e ∉ s.retiredQ)
    (on : s.fld CLK_EN_HUB 0 1 = 1) (enabled : s.fld (TM_ENQ_CFG e) 0 1 = 1) (poison : Bool) {d : Nat} (data : d = setBits desc 0 8 op) :
    s.tmPush op .mc e desc poison = ({ s with tm := { s.tm with
      heldIn := Tbl.put [] s.tm.heldIn e (Tbl.get [] s.tm.heldIn e ++ [({ data := d, prio := bits d 10 2, poison := poison } : CItem)]) } }.tmRun
        e).answer stOk := by
  subst data
  have unreserved : ¬ (egOp desc = 0 ∨ 3 < egOp desc) := by omega
  have taken : ¬ s.fld (TM_ENQ_CFG e) 0 1 = 0 := by omega
  have open_ {inst : Nat} (f : State → State) : s.pushInto (0x100 + e) none 0 (TM_ENQ_WIN e 0) inst f = f s :=
    State.pushInto_open (dom := none) rfl kept on _ _ f
  simp only [State.tmPush, State.ownerOnly_mc, open_, if_neg unreserved, if_neg taken]

/-- The three pushes of an egress descriptor, with their opcodes (Table 14.4). -/
def egressPushes (e : Fin 64) (desc : BitVec 512) (poison : Bool) : List (Instr × Nat) :=
  [(.uplane .mc e desc poison, 1), (.cplane .mc e desc poison, 2), (.raw .mc e desc poison, 3)]

theorem exec_of_mem_egressPushes {e : Fin 64} {desc : BitVec 512} {poison : Bool} {c : Instr} {op : Nat}
    (mem : (c, op) ∈ egressPushes e desc poison) (s : State) :
    (op ≠ 0 ∧ op ≤ 3) ∧ exec c s = .next (s.tmPush op .mc e.val desc.toNat poison) := by
  simp only [egressPushes, List.mem_cons, Prod.mk.injEq, List.not_mem_nil, or_false] at mem
  rcases mem with ⟨rfl, rfl⟩ | ⟨rfl, rfl⟩ | ⟨rfl, rfl⟩ <;> exact ⟨by decide, rfl⟩

/-- R379, R381: a descriptor without a copy left is recorded, and one that was sent in part is counted. -/
theorem execEgressComplete_ended {s : State} {e : Fin 64} {j : TmJob}
    (found : s.tm.jobs.find? (fun j => j.win == e.val && j.copies.all (fun c => c.left == 0)) = some j) {s1 s2 : State}
    (dropped : s1 = { s with tm := { s.tm with jobs := s.tm.jobs.filter (fun k => k.id != j.id) } })
    (counted : s2 = if j.outcome.1 = stPartial then s1.bump TM_MC_PARTIAL_CNT else s1) :
    execEgressComplete e s = .next ((s2.tmRecord j.win j.inst j.gen j.desc j.outcome.1 j.outcome.2.1 j.outcome.2.2.1 j.outcome.2.2.2
      (j.tSent.getD 0)).tmRun j.win) := by
  subst dropped counted
  simp only [execEgressComplete, found]

theorem execTmEnqCtlReset_mc {s : State} {e : Fin 64} (on : s.fld CLK_EN_HUB 0 1 = 1) :
    execTmEnqCtlReset .mc e s = .next ((s.tmWinReset e.val).answer stOk) := by
  simp only [execTmEnqCtlReset, State.ownerOnly_mc, State.ungated_on on]

/-! ### Transmission and drops (R380, R383 to R385, R390, R394) -/

section
variable {s s1 : State} {ticks : BitVec 64} {f : TmFrame} {rest : List TmFrame} (now : s1 = s.elapse ticks.toNat)
include now

theorem execFrameTx_picked {t : Fin 32} {crcBad : Bool} {q : Nat} (up : s1.fhState t.val = 2) (running : s1.fld RAS_STATUS 1 1 = 0)
    (picked : (s1.tmPick t.val 8).1 = some q) (head : (s1.tmPick t.val 8).2.tmQ q = f :: rest) :
    execFrameTx t ticks crcBad s = .next (((s1.tmPick t.val 8).2.tmSend t.val q f crcBad).countHeld t.val) := by
  subst now
  have sends : ¬ ((s.elapse ticks.toNat).fhState t.val ≠ 2 ∨ (s.elapse ticks.toNat).fld RAS_STATUS 1 1 = 1) := by omega
  simp only [execFrameTx, if_neg sends, picked, head]

theorem execHostRingDeliver_picked {p : Fin 4} {q : Nat} (picked : (s1.tmPick (32 + p.val) 1).1 = some q)
    (head : (s1.tmPick (32 + p.val) 1).2.tmQ q = f :: rest) :
    execHostRingDeliver p ticks s = .next (((s1.tmPick (32 + p.val) 1).2.hrSend q f).countHeld (32 + p.val)) := by
  subst now
  simp only [execHostRingDeliver, picked, head]

section
variable {q : Fin 16384} (head : s1.tmQ q.val = f :: rest) (fronthaul : s1.qTarget q.val < 32)
include head fronthaul

/-- R380: a frame past its window is dropped; one of an UPLANE counts as a late symbol of its cell. -/
theorem execHeadDrop_late (late : s1.tooLate q.val f = true) {s2 : State} (counted : s2 = (s1.bump TM_DROP_LATE).event TM_EVENT 0) :
    execHeadDrop q ticks s = .next
      ((match s1.tmUplaneCell f with | some c => s2.lateSym c | none => s2).tmDropHead q.val f true false) := by
  subst now counted
  simp only [execHeadDrop, head, if_neg (Nat.not_le.2 fronthaul), if_pos late] <;> rfl

theorem execHeadDrop_down (inTime : s1.tooLate q.val f = false) (down : s1.fhState (s1.qTarget q.val) ≠ 2) :
    execHeadDrop q ticks s = .next (((s1.bump TM_DROP_DOWN).event TM_EVENT 4).tmDropHead q.val f false true) := by
  subst now
  simp only [execHeadDrop, head, if_neg (Nat.not_le.2 fronthaul), inTime, Bool.false_eq_true, if_false, if_pos down]

/-- R390: a frame longer than every open interval of its gate is dropped. -/
theorem execHeadDrop_gate (inTime : s1.tooLate q.val f = false) (up : s1.fhState (s1.qTarget q.val) = 2)
    (never : s1.gateNever (s1.qTarget q.val) (s1.nodeClass (s1.qNode q.val)) (f.len + 4) = true) :
    execHeadDrop q ticks s = .next ((s1.bump TM_DROP_GATE).tmDropHead q.val f false false) := by
  subst now
  simp only [execHeadDrop, head, if_neg (Nat.not_le.2 fronthaul), inTime, Bool.false_eq_true, if_false, if_neg (not_not_intro up),
    if_pos never]

end

end

/-! ### Gate lists (R389, R390) -/

section
variable {s : State} {t : Fin 32} (on : s.fld CLK_EN_HUB 0 1 = 1)
include on

/-- R390: an administrative list that passes every check is to come into force. -/
theorem execTmGateSwap_accepted (enabled : s.fld (TM_GATE_CFG t.val) 0 1 ≠ 0) (free : (s.gate t.val).swap = none)
    (there : s.fhExists t.val = true) (nonempty : s.fld (TM_GATE_ADMIN_LEN t.val) 0 11 ≠ 0)
    (room : s.fld (TM_GATE_ADMIN_LEN t.val) 0 11 ≤ s.gateShare t.val) (long : 1000 ≤ s.fld (TM_GATE_ADMIN_CYCLE t.val) 0 24)
    (short : s.fld (TM_GATE_ADMIN_CYCLE t.val) 0 24 ≤ 10000000)
    (entries : ∀ e ∈ s.gateAdmin t.val, 20 ≤ gateDur e ∧ gateDur e ≤ 10000000 ∧ bits e 32 32 = 0) :
    execTmGateSwap .mc t false s = .next ((s.gateSwapSet t.val (s.reg (TM_GATE_ADMIN_BASE t.val)) (s.fld (TM_GATE_ADMIN_CYCLE t.val) 0 24)
      (s.gateAdmin t.val)).answer stOk) := by
  have noneBad : (s.gateAdmin t.val).any (fun e => decide (gateDur e < 20) || decide (10000000 < gateDur e) || bits e 32 32 != 0) = false := by
    simpa [and_assoc] using entries
  simp only [execTmGateSwap, State.mcOnly_mc, State.ungated_on on, enabled, free, there, nonempty, noneBad, Nat.not_lt.2 room,
    Nat.not_lt.2 long, Nat.not_lt.2 short, Option.isSome_none, Bool.false_eq_true, Bool.true_eq_false, or_self, if_false]

theorem execTmGateStop_stops (stops : s.gateRunning t.val = true ∨ (s.gate t.val).swap ≠ none) :
    execTmGateStop .mc t s = .next (((s.setGate t.val { s.gate t.val with swap := none, stop := s.gateRunning t.val }).setFld
      (TM_GATE_OPER_STAT t.val) 22 1 0).answer stOk) := by
  have busy : ¬ (s.gateRunning t.val = false ∧ (s.gate t.val).swap.isNone) := by
    simpa only [not_and_or, Bool.not_eq_false, Option.isNone_iff_eq_none] using stops
  simp only [execTmGateStop, State.mcOnly_mc, State.ungated_on on, if_neg busy]

end

section
variable {s s1 : State} {t : Fin 32} {ticks : BitVec 64} (now : s1 = s.elapse ticks.toNat)
include now

/-- R390: a list whose start has come takes a target whose gates stand open. -/
theorem execGateBoundary_starts {w : CglSwap} (waits : (s1.gate t.val).swap = some w) (due : s1.reached w.start = true)
    (halted : s1.gateRunning t.val = false) : execGateBoundary t ticks s = .next (s1.gateApply t.val w) := by
  subst now
  simp only [execGateBoundary, waits, Option.bind_some, due, if_true, halted, Bool.not_false, Bool.true_or]

/-- R389: at the end of an entry the next one comes, or the next cycle, or a stop. -/
theorem execGateBoundary_next {e : Nat} (entry : e = s1.fld (TM_GATE_OPER_STAT t.val) 11 10) (noSwap : (s1.gate t.val).swap = none)
    (runs : s1.gateRunning t.val = true) (due : s1.reached ((s1.gate t.val).start + s1.gateEnd t.val e) = true) :
    execGateBoundary t ticks s = .next
      (if s1.gateEnd t.val e < s1.fld (TM_GATE_OPER_CYCLE t.val) 0 24 then s1.gateEnter t.val (e + 1)
       else if (s1.gate t.val).stop then s1.gateHalt t.val
       else (s1.setGate t.val { s1.gate t.val with start := (s1.gate t.val).start + s1.gateEnd t.val e }).gateEnter t.val 0) := by
  subst now entry
  simp only [execGateBoundary, noSwap, Option.bind_none, runs, due, Bool.false_eq_true, Bool.true_eq_false, or_self, if_false]

end

/-! ### Host rings (R394) -/

section
variable {s : State} {i : Fin 512} {n : BitVec 13} (on : s.fld CLK_EN_HUB 0 1 = 1)
include on

theorem execTmHrDone_held (nonzero : n.toNat ≠ 0) (held : n.toNat ≤ s.hrStat i.val) :
    execTmHrDone i n s = .next ((s.setWreg i.val 0x3018 (s.hrStat i.val - n.toNat)).answer stOk) := by
  simp only [execTmHrDone, State.ungated_on on, if_neg nonzero, if_neg (Nat.not_lt.2 held)]

theorem execTmHrSizeWrite_empty (size : hrSizeOk n.toNat = true) (changes : n.toNat ≠ s.hrSize i.val) (empty : s.hrStat i.val = 0) :
    execTmHrSizeWrite i n s = .next (((s.setWreg i.val 0x3008 n.toNat).setWreg i.val 0x3010 0).answer stOk) := by
  simp only [execTmHrSizeWrite, State.ungated_on on, size, changes, empty, ne_eq, not_true, and_false, Bool.true_eq_false, or_self, if_false]

end

/-- Settles O46: the three pushes share one lemma; each other event is the lemma of its case. -/
theorem trafficManagerCommandsComplete : Obligations.TrafficManagerCommandsComplete := by
  simp only [Obligations.TrafficManagerCommandsComplete, exec_frameTx, exec_headDrop, exec_egressComplete, exec_tmGateSwap, exec_tmGateStop,
    exec_gateBoundary, exec_tmEnqCtlReset, exec_tmHrDone, exec_tmHrSizeWrite, exec_hostRingDeliver]
  refine ⟨fun s e desc poison c op mem opc kept on enabled => ?push,
    fun s t ticks crcBad q f rest up running picked head => execFrameTx_picked rfl up running picked head,
    fun s q ticks f rest head fronthaul => ⟨fun late => execHeadDrop_late rfl head fronthaul late rfl,
      execHeadDrop_down rfl head fronthaul, execHeadDrop_gate rfl head fronthaul⟩,
    fun s e j found => execEgressComplete_ended found rfl rfl,
    fun s t on => ⟨execTmGateSwap_accepted on, execTmGateStop_stops on⟩,
    fun s t ticks => ⟨fun w waits due halted => execGateBoundary_starts rfl waits due halted, execGateBoundary_next rfl rfl⟩,
    fun s e on => execTmEnqCtlReset_mc on, fun s i n on => ⟨execTmHrDone_held on, execTmHrSizeWrite_empty on⟩,
    fun s p ticks q f rest picked head => execHostRingDeliver_picked rfl picked head⟩
  case push =>
    obtain ⟨known, pushes⟩ := exec_of_mem_egressPushes mem s
    rw [pushes, State.tmPush_mc opc known kept on enabled poison rfl]

end Sys2Proof.Machine
end

section
/-!
PROOF. Fronthaul ports: frames received, and the states of the sub-ports (O47).
-/
namespace Sys2Proof.Machine

section
variable {s s1 : State} {t : Fin 32} {ticks : BitVec 64} {frame : List Byte} (now : s1 = s.elapse ticks.toNat) (up : s1.fhState t.val = 2)
  (enabled : s1.fld FH_CTRL 0 1 ≠ 0)
include now up enabled

theorem execFrameRx_up (fcsOk : Bool) : execFrameRx t ticks fcsOk frame s = .next (s1.frameIn t.val fcsOk (frame.map BitVec.toNat)) := by
  subst now
  have received : ¬ ((s.elapse ticks.toNat).fhState t.val ≠ 2 ∨ (s.elapse ticks.toNat).fld FH_CTRL 0 1 = 0) := by omega
  exact congrArg Host.Outcome.next (if_neg received)

/-- Table 14.2: a frame whose FCS fails is counted, and goes no further. -/
theorem execFrameRx_badFcs : execFrameRx t ticks false frame s = .next
    ((s1.bump64 (FH_RX_FRAMES (t.val / 4)) 1).bump (FH_RX_FCS (t.val / 4))) := by
  rw [execFrameRx_up now up enabled]
  rfl

end

section
variable {s : State} {p : Fin 8} {sub : Fin 4} (on : s.fld CLK_EN_HUB (1 + p.val) 1 = 1) (there : s.fhExists (4 * p.val + sub.val) = true)
include on there

/-- R368: a command to a sub-port that the split has takes effect. -/
theorem State.fhCmd_there (f : State → State) : s.fhCmd .mc p.val sub.val f = f s := by
  simp only [State.fhCmd, State.mcOnly_mc, State.ungated_on on, if_pos there]

theorem execFhPortCmdEnable_disabled (disabled : s.fhState (4 * p.val + sub.val) = 0) :
    execFhPortCmdEnable .mc p sub s = .next ((s.setFh (4 * p.val + sub.val) 1).answer stOk) := by
  simp only [execFhPortCmdEnable, State.fhCmd_there on there, if_pos disabled]

theorem execFhPortCmdDisable_enabled (enabled : s.fhState (4 * p.val + sub.val) ≠ 0) :
    execFhPortCmdDisable .mc p sub s = .next ((s.setFh (4 * p.val + sub.val) 0).answer stOk) := by
  simp only [execFhPortCmdDisable, State.fhCmd_there on there, if_neg enabled]

end

/-- Settles O47: a frame of a sub-port that is UP, the two commands, and the change of block lock. -/
theorem fronthaulPortCommandsComplete : Obligations.FronthaulPortCommandsComplete := by
  simp only [Obligations.FronthaulPortCommandsComplete, exec_frameRx, exec_fhPortCmdEnable, exec_fhPortCmdDisable, exec_subportLinkChange]
  refine ⟨fun s t ticks fcsOk frame up enabled => ⟨execFrameRx_up rfl up enabled fcsOk, fun bad => ?badFcs⟩,
    fun s p sub on there => ⟨execFhPortCmdEnable_disabled on there, execFhPortCmdDisable_enabled on there⟩,
    fun s t up enabled => congrArg Host.Outcome.next (if_neg enabled)⟩
  case badFcs => exact bad ▸ execFrameRx_badFcs rfl up enabled

end Sys2Proof.Machine
end

section
/-!
PROOF. Mailboxes: sends, notices, reads, and the vectors of MSI-X (O40).
-/
namespace Sys2Proof.Machine

/-! ### Sends (R417 to R420) -/

/-- R417 to R420: a host's message enters the channel of its code, stamped with its sender; a request to the part holds its reply's room. -/
theorem execMbxSend_room {s : State} {i : Fin 512} {rid : BitVec 16} {msg : BitVec 512} {c m : Nat} (route : c = mbxRoute (bits msg.toNat 0 8))
    (used : s.instState i.val ≠ 0) (short : (s.chan i.val c).part < 4) (room : (s.chan i.val c).used < mbxDepth)
    (stamped : m = mbxStamp msg.toNat 0 (s.fld (PRT_INST i.val) 6 2) i.val 0 (s.instGen i.val) rid.toNat) :
    execMbxSend i rid msg s = .next ((if c = 2 then s.upEp i.val m
      else s.setChan i.val c ((s.chan i.val c).push (setBits m 12 1 1))).answer stOk) := by
  subst route stamped
  simp only [execMbxSend, State.mbxHostSend, if_neg used, if_neg (Nat.not_le.2 short), if_neg (Nat.not_le.2 room)]

section
variable {s : State} {i c m off : Nat} {wait : Bool} (short : (s.chan i c).part < 4)
include short

/-- R420: a reply enters the entry that its request holds. -/
theorem State.dnSend_reply (reply : bit m 10 = true) (room : (s.chan i c).q.items.length < mbxDepth) :
    s.dnSend i c m off wait = (s.setChan i c ((s.chan i c).push m)).answer stOk := by
  simp only [State.dnSend, if_neg (Nat.not_le.2 short), if_pos reply, if_pos room]

theorem State.dnSend_notice (notice : bit m 10 = false) : s.dnSend i c m off true = (s.mbxNotice i c m).answer stOk := by
  simp only [State.dnSend, if_neg (Nat.not_le.2 short), notice, Bool.false_eq_true, if_false, if_true]

/-- R420: a message that answers no request and does not wait needs room that no reply is owed. -/
theorem State.dnSend_room (notice : bit m 10 = false) (room : s.dnRoom i c = true) :
    s.dnSend i c m off false = (s.setChan i c ((s.chan i c).push m)).answer stOk := by
  simp only [State.dnSend, if_neg (Nat.not_le.2 short), notice, room, Bool.false_eq_true, if_false, if_true]

end

section
variable {s : State} {mc : Fin 4} {i : Fin 512} {msg : BitVec 512} {m : Nat} (used : s.instState i.val ≠ 0) (short : (s.chan i.val 3).part < 4)
  (stamped : m = mbxStamp msg.toNat 1 0 i.val 0 (s.instGen i.val) mc.val)
include used short stamped

theorem execMbxMcSend_reply (reply : bit m 10 = true) (room : (s.chan i.val 3).q.items.length < mbxDepth) :
    execMbxMcSend mc i msg s = .next ((s.setChan i.val 3 ((s.chan i.val 3).push m)).answer stOk) := by
  subst stamped
  simp only [execMbxMcSend, if_neg used, State.dnSend_reply short reply room]

theorem execMbxMcSend_notice (notice : bit m 10 = false) : execMbxMcSend mc i msg s = .next ((s.mbxNotice i.val 3 m).answer stOk) := by
  subst stamped
  simp only [execMbxMcSend, if_neg used, State.dnSend_notice short notice]

end

/-- R417: the endpoint of the instance's partition sends, in the context of the partition's class. -/
theorem execMbxEpSend_own {s : State} {lc : Fin 480} {ctx : Ctx} {i : Fin 512} {msg : BitVec 512} {own m : Nat}
    (used : s.instState i.val ≠ 0) (endpoint : s.partFld (s.instPart i.val) 49 9 = lc.val) (class_ : s.partCtx (s.instPart i.val) = ctx)
    (short : (s.chan i.val 5).part < 4)
    (sender : own = instTag (if ctx = .timed then s.fld (PRT_LC_INST lc.val) 0 9 else s.fld (PRT_LC_INST lc.val) 9 9))
    (stamped : m = mbxStamp msg.toNat 3 0 own (b2n (ctx == .elastic)) (s.instGen own) lc.val)
    (room : if bit m 10 then (s.chan i.val 5).q.items.length < mbxDepth else s.dnRoom i.val 5 = true) :
    execMbxEpSend lc ctx i msg s = .next ((s.setChan i.val 5 ((s.chan i.val 5).push m)).answer stOk) := by
  have allowed : ¬ (s.instState i.val = 0 ∨ s.partFld (s.instPart i.val) 49 9 ≠ lc.val ∨ s.partCtx (s.instPart i.val) ≠ ctx) := by
    simp only [used, endpoint, class_, ne_eq, not_true, or_self, not_false_iff]
  simp only [execMbxEpSend, if_neg allowed, ← sender, ← stamped]
  cases kind : bit m 10 with
  | true => rw [kind, if_pos rfl] at room; rw [State.dnSend_reply short kind room]
  | false => rw [kind, if_neg Bool.false_ne_true] at room; rw [State.dnSend_room short kind room]

/-! ### Notices and reads (R420, R421, R424) -/

/-- R420: the oldest waiting notice that finds room is delivered, and those behind it are tried. -/
theorem execNoticeSend_room {s : State} {i : Fin 512} {m : Nat} {rest : List Nat} (waiting : Tbl.get [] s.notices i.val = m :: rest)
    (room : s.dnRoom i.val (m >>> 512) = true) :
    execNoticeSend i s = .next (({ s with notices := Tbl.put [] s.notices i.val rest }.setChan i.val (m >>> 512)
      ((s.chan i.val (m >>> 512)).push (m % 2 ^ 512))).noticePump i.val rest.length) := by
  simp only [execNoticeSend, waiting, List.length_cons, State.noticePump, if_pos room]

/-- A read of an empty channel takes nothing. -/
theorem State.mbxRead_empty {s : State} {i c : Nat} (empty : (s.chan i c).q.items = []) (bad : Bool) : s.mbxRead i c bad = (none, s) := by
  simp only [State.mbxRead, empty, List.length_nil, State.mbxPop]

/-- R421: a host's read of an empty channel gives the idle item. -/
theorem State.mbxHostRead_empty {s : State} {i c : Nat} (empty : (s.chan i c).q.items = []) (bad : Bool) :
    s.mbxHostRead i c bad = { s with reply := { code := stOk, attn := s.attn i, data := mbxWords (mbxIdle (s.attn i)) } } := by
  simp only [State.mbxHostRead, State.mbxRead_empty empty bad]

theorem execMbxRecv_used {s : State} {i : Fin 512} {ch : Fin 3} {bad : Bool} (used : s.instState i.val ≠ 0) :
    execMbxRecv i ch bad s = .next (s.mbxHostRead i.val (ch.val + 3) bad) := congrArg Host.Outcome.next (if_neg used)

/-- R424: a reader of many channels takes the message of the instance whose turn it is, and remembers it. -/
theorem State.mbxReadMany_next {s s2 : State} {key c i m : Nat} {mine : Nat → Bool} {bad : Bool}
    (turn : s.mbxNext (Tbl.get 511 s.epPtr key) c mine = some i) (read : s.mbxRead i c bad = (some m, s2)) (fuel : Nat) :
    s.mbxReadMany key c mine bad (fuel + 1) = (some m, { s2 with epPtr := Tbl.put 511 s2.epPtr key i }) := by
  simp only [State.mbxReadMany, turn, read]

theorem State.mbxAnswer_message (m : Nat) (s : State) : State.mbxAnswer (some m, s) = s.answer stOk 0 (mbxWords m) := rfl

/-! ### MSI-X (R512) -/

/-- R512: while the interface is not locked a masked vector is unmasked, and sent if it is pending. -/
theorem execMsixUnmask_masked {s : State} {i : Fin 512} {v : Fin 3} (unlocked : Tbl.get 0 s.tdi i.val ≠ 1) (stopped : Tbl.get 0 s.tdi i.val ≠ 2)
    (masked : v.val ∉ (s.msixOf i.val).unmasked) :
    execMsixUnmask i v s = .next ((s.setMsix i.val { s.msixOf i.val with unmasked := (s.msixOf i.val).unmasked ++ [v.val] }).msixSend
      i.val v.val) := by
  have open_ : ¬ (Tbl.get 0 s.tdi i.val = 1 ∨ Tbl.get 0 s.tdi i.val = 2) := not_or.2 ⟨unlocked, stopped⟩
  simp only [execMsixUnmask, if_neg open_, List.contains_iff_mem, if_neg masked]

/-- Settles O40: sends, notices, reads and vectors by the lemmas of their cases. -/
theorem mailboxCommandsComplete : Obligations.MailboxCommandsComplete := by
  simp only [Obligations.MailboxCommandsComplete, exec_mbxSend, exec_mbxMcSend, exec_mbxEpSend, exec_noticeSend, exec_mbxRecv, exec_mbxMcRecv,
    exec_mbxEpRecv, exec_msixUnmask]
  refine ⟨fun s i rid msg used short room => execMbxSend_room rfl used short room rfl,
    fun s mc i msg used short => ⟨execMbxMcSend_reply used short rfl, execMbxMcSend_notice used short rfl⟩,
    fun s lc ctx i msg used endpoint class_ short room => execMbxEpSend_own used endpoint class_ short rfl rfl room,
    fun s i m rest waiting room => execNoticeSend_room waiting room,
    fun s i ch bad used => ⟨execMbxRecv_used used, fun empty => ⟨_, execMbxRecv_used used, ?_⟩⟩,
    fun s bad i m s2 turn read => ?mc, fun s p bad i m s2 turn read => ?endpoint,
    fun s i v unlocked stopped masked => execMsixUnmask_masked unlocked stopped masked⟩
  · rw [State.mbxHostRead_empty empty bad]
    exact ⟨rfl, rfl⟩
  case mc => rw [execMbxMcRecv, State.mbxReadMany_next turn read, State.mbxAnswer_message]
  case endpoint => rw [execMbxEpRecv, State.mbxReadMany_next turn read, State.mbxAnswer_message]

end Sys2Proof.Machine
end

section
/-!
PROOF. Partitions and instances: the partition commands (O48), and what ends resets, reclaims and teardowns (O49).
-/
namespace Sys2Proof.Machine

open Sys2Proof.Safety

/-! ### Partition commands (O48) -/

section
variable {s : State} {c : PrtCmd} {states : List Nat}

/-- R403: a command that runs passes the checks that every command has in common. -/
theorem State.prtCommand_of_prtRuns (h : PrtRuns s c states) (f : State → State) :
    s.prtCommand c.part.val (c.pgen.map (·.toNat)) states f = f s := by
  obtain ⟨-, idle, gen, state⟩ := h
  have current : (c.pgen.map (·.toNat)).any (fun g => g != s.pgen c.part.val) = false := by
    cases named : c.pgen with
    | none => rfl
    | some g => simp [gen g named]
  have allowed : states.contains (s.partState c.part.val) = true := List.contains_iff_mem.2 state
  simp only [State.prtCommand, idle, current, allowed, zero_ne_one, Bool.false_eq_true, Bool.true_eq_false, if_false]

theorem State.prtWrite_of_prtRuns (h : PrtRuns s c states) (op i : Nat) (rng : Bool) (grants : List Grant) :
    s.prtWrite c op i rng grants = s.partCommand op c.part.val i (c.pgen.map (·.toNat)) (s.reg PRT_CMD_ARG) rng grants := by
  rw [State.prtWrite, h.mc, State.mcOnly_mc]

/-- A key is made while the generator passes its health test (R450). -/
theorem State.withKey_healthy (s : State) (k : Nat) (f : State → State) : s.withKey true k f = f (s.keyMake k) := if_pos rfl

theorem execCreate_runs (h : PrtRuns s c [0, 1]) (wellFormed : s.partBad c.part.val = false) (noClash : s.partClash c.part.val = false)
    (fits : s.partShort c.part.val = false) {s1 : State} (keyed : s1 = s.keyMake (513 + c.part.val)) :
    execCreate c true s = .next (((((s1.bumpPgen c.part.val).setPartState c.part.val (if s1.partTimed c.part.val then 2 else 3)).startMeas5
      c.part.val).setPartSt c.part.val {}).prtDone stOk) := by
  subst keyed
  simp only [execCreate, State.prtWrite_of_prtRuns h, State.partCommand, State.prtCommand_of_prtRuns h, State.partCreate, wellFormed,
    noClash, fits, State.withKey_healthy, Bool.false_eq_true, or_self, if_false]

theorem execReset_runs (h : PrtRuns s c [2, 4]) :
    execReset c s = .next (((((s.partInsts c.part.val).filter (fun i => s.instState i == 1)).foldl (fun s i => s.instReset i false) s).bumpPgen
      c.part.val).prtDone stOk) := by
  simp only [execReset, State.prtWrite_of_prtRuns h, State.partCommand, State.prtCommand_of_prtRuns h, State.partReset]

theorem execReclaim_runs (h : PrtRuns s c [2]) : execReclaim c s = .next (s.partReclaim c.part.val) := by
  simp only [execReclaim, State.prtWrite_of_prtRuns h, State.partCommand, State.prtCommand_of_prtRuns h]

theorem execPartCancel_runs (h : PrtRuns s c [4]) : execPartCancel c s = .next (s.partCancel c.part.val) := by
  simp only [execPartCancel, State.prtWrite_of_prtRuns h, State.partCommand, State.prtCommand_of_prtRuns h]

theorem execAssign_runs (h : PrtRuns s c [3]) :
    execAssign c true s = .next ((((s.keyMake (513 + c.part.val)).setPartState c.part.val 2).startMeas5 c.part.val).prtDone stOk) := by
  simp only [execAssign, State.prtWrite_of_prtRuns h, State.partCommand, State.prtCommand_of_prtRuns h, State.partAssign,
    State.withKey_healthy]

/-- Table 15.4: a partition without an instance, which no enabled configuration names, is recovered. -/
theorem execRecover_runs (h : PrtRuns s c [0, 2, 3]) (noInstance : s.partInsts c.part.val = []) (unnamed : s.partNamed c.part.val = false) :
    execRecover c s = .next ((s.setPartState c.part.val 1).prtDone stOk) := by
  simp only [execRecover, State.prtWrite_of_prtRuns h, State.partCommand, State.prtCommand_of_prtRuns h, State.partRecover, noInstance,
    unnamed, List.isEmpty_nil, Bool.false_eq_true, Bool.true_eq_false, or_self, if_false]

theorem execDestroy_runs (h : PrtRuns s c [1]) (unnamed : s.partNamed c.part.val = false)
    (noGroup : ∀ g, g < 64 → s.grpState g = 0 ∨ s.grpPart g ≠ c.part.val) :
    execDestroy c s = .next (((((s.setPartSt c.part.val { s.partSt c.part.val with destroying := true }).setPartState c.part.val 6).bumpPgen
      c.part.val).setMeas5 c.part.val 0).prtDone stOk) := by
  have noneLeft : (List.range 64).any (fun g => s.grpState g != 0 && s.grpPart g == c.part.val) = false := by
    simpa [or_iff_not_imp_left] using noGroup
  simp only [execDestroy, State.prtWrite_of_prtRuns h, State.partCommand, State.prtCommand_of_prtRuns h, State.partDestroy, noneLeft,
    unnamed, Bool.false_eq_true, or_self, if_false]

theorem execInstCreate_runs (h : PrtRuns s c [2]) {i : Fin 512} (creatable : s.instCreatable c.part.val i.val (s.reg PRT_CMD_ARG) = true)
    (grants : List Grant) : execInstCreate c i true grants s = .next
      ((((s.keyMake (i.val + 1)).instMake c.part.val i.val (s.reg PRT_CMD_ARG) grants).countRun c.part.val).prtDone stOk) := by
  simp only [execInstCreate, State.prtWrite_of_prtRuns h, State.partCommand, State.prtCommand_of_prtRuns h, State.instCreate, creatable,
    State.withKey_healthy, Bool.true_eq_false, if_false]

/-- Table 15.4: an instance in RUN that belongs to the partition is reset. -/
theorem State.instCommand_own {p i : Nat} (run : s.instState i = 1) (own : s.fld (PRT_INST i) 2 4 = p) (destroy : Bool) :
    s.instCommand p i destroy = (s.instReset i destroy).prtDone stOk := by
  have reset : ¬ (s.instState i ≠ 1 ∨ s.fld (PRT_INST i) 2 4 ≠ p) := by omega
  rw [State.instCommand, if_neg reset]

section
variable {i : Fin 512} (run : s.instState i.val = 1) (own : s.fld (PRT_INST i.val) 2 4 = c.part.val)
include run own

theorem execInstReset_runs (h : PrtRuns s c [2, 4, 5]) : execInstReset c i s = .next ((s.instReset i.val false).prtDone stOk) := by
  simp only [execInstReset, State.prtWrite_of_prtRuns h, State.partCommand, State.prtCommand_of_prtRuns h, State.instCommand_own run own]

theorem execInstDestroy_runs (h : PrtRuns s c [1, 2, 4, 5]) : execInstDestroy c i s = .next ((s.instReset i.val true).prtDone stOk) := by
  simp only [execInstDestroy, State.prtWrite_of_prtRuns h, State.partCommand, State.prtCommand_of_prtRuns h, State.instCommand_own run own]

end

end

/-- Settles O48: each command passes the common checks, and then its own. -/
theorem partitionCommandsComplete : Obligations.PartitionCommandsComplete := by
  intro s c
  simp only [exec_create, exec_reset, exec_reclaim, exec_partCancel, exec_assign, exec_recover, exec_destroy, exec_instCreate, exec_instReset,
    exec_instDestroy]
  exact ⟨fun h wellFormed noClash fits => execCreate_runs h wellFormed noClash fits rfl, execReset_runs, fun h _ => execReclaim_runs h,
    execPartCancel_runs, execAssign_runs, execRecover_runs, execDestroy_runs, fun i grants h creatable => execInstCreate_runs h creatable grants,
    fun i run own => ⟨execInstReset_runs run own, execInstDestroy_runs run own⟩⟩

/-! ### Resets, tags, reclaim and zeroing (O49) -/

section
variable {s : State} {i : Fin 512} (resetting : s.instState i.val = 2) (drained : s.instBusy i.val = false)
include resetting drained

theorem instReset_ends : ¬ (s.instState i.val ≠ 2 ∨ s.instBusy i.val = true) := by simp [resetting, drained]

theorem execInstanceResetEnd_dying (dying : i.val ∈ s.dying) : execInstanceResetEnd i s = .next (s.instFree i.val) := by
  simp only [execInstanceResetEnd, if_neg (instReset_ends resetting drained), List.contains_iff_mem, if_pos dying]

theorem execInstanceResetEnd_stays (stays : i.val ∉ s.dying) : execInstanceResetEnd i s = .next
    (((s.setFld (PRT_INST i.val) 0 2 1).countRun (s.fld (PRT_INST i.val) 2 4)).notify i.val 0x23 (s.instGen i.val)) := by
  simp only [execInstanceResetEnd, if_neg (instReset_ends resetting drained), List.contains_iff_mem, if_neg stays]

end

section
variable {s : State} {m : BitVec 2} (changes : m.toNat ≠ s.fld PRT_MODE 0 2)
include changes

/-- R403: before the lock the mode is 0 or 2 as written. -/
theorem execPrtModeWrite_unlocked (unlocked : s.locked = false) (mode : m.toNat = 0 ∨ m.toNat = 2) :
    execPrtModeWrite .mc m s = .next ((s.setFld PRT_MODE 0 2 m.toNat).answer stOk) := by
  have not3 : ¬ m.toNat = 3 := by omega
  have not1 : ¬ m.toNat = 1 := by omega
  simp only [execPrtModeWrite, State.mcOnly_mc, if_neg not3, if_neg changes, if_pos unlocked, if_neg not1]

/-- R403: after the lock the part turns to mode 2 while no partition holds work. -/
theorem execPrtModeWrite_locked (locked : s.locked = true) (mode : m.toNat = 2) (quiet : ∀ p, p < 16 → s.partState p ∈ [0, 1, 3]) :
    execPrtModeWrite .mc m s = .next ((s.setFld PRT_MODE 0 2 2).answer stOk) := by
  have noneUp : (List.range 16).any (fun p => !([0, 1, 3].contains (s.partState p))) = false := by
    simpa only [List.any_eq_false, List.mem_range, Bool.not_eq_true', Bool.not_eq_false, List.contains_iff_mem] using quiet
  rw [mode] at changes
  simp only [execPrtModeWrite, State.mcOnly_mc, mode, if_neg changes, locked, noneUp, Bool.true_eq_false, Bool.false_eq_true, and_false,
    if_false, OfNat.ofNat_ne_zero, Nat.reduceEqDiff]

end

/-- R410: tags that the two contexts of a logical core may carry are written. -/
theorem execPrtLcInstWrite_allowed {s : State} {n : Fin 480} {t e : BitVec 9} (timed : s.tagAllowed n.val .timed t.toNat = true)
    (elastic : s.tagAllowed n.val .elastic e.toNat = true) :
    execPrtLcInstWrite .mc n t e s = .next ((s.setFld (PRT_LC_INST n.val) 0 18 (t.toNat + e.toNat <<< 9)).answer stOk) := by
  simp only [execPrtLcInstWrite, State.mcOnly_mc, timed, elastic, Bool.true_eq_false, and_false, or_self, if_false]

section
variable {s s1 : State} {p : Fin 16} {ticks : BitVec 64} (now : s1 = s.elapse ticks.toNat)
include now

theorem execReclaimInstant_due {s2 : State} (notice : s1.partState p.val = 4) (due : s1.reached (s1.reg (PRT_RECLAIM_AT p.val)) = true)
    (draining : s2 = s1.setPartState p.val 5) :
    execReclaimInstant p ticks s = .next (((List.range 64).filter (fun g => s2.grpState g != 0 && s2.grpPart g == p.val)).foldl
      (fun s g => s.setBrsGrp g { s.brsGrp g with reclaim := true }) s2) := by
  subst now draining
  simp only [execReclaimInstant, notice, due, ne_eq, not_true, Bool.true_eq_false, or_self, if_false]

theorem execTeardown_ready (draining : s1.partState p.val = 5) (first : (s1.partSt p.val).tearing = false)
    (ready : s1.tearReady p.val = true) : execTeardown p ticks s = .next (s1.tearStart p.val) := by
  subst now
  simp only [execTeardown, draining, first, ready, ne_eq, not_true, Bool.false_eq_true, Bool.true_eq_false, or_self, if_false]

end

/-- R414: a partition whose shares are zeroed is VACANT, or ABSENT where it was destroyed. -/
theorem execZeroingDone_zeroing {s : State} {p : Fin 16} (zeroing : s.partState p.val = 6) :
    execZeroingDone p s = .next
      ((((s.zeroShares p.val).setPartSt p.val {}).setPartState p.val (if (s.partSt p.val).destroying then 0 else 3)).event PRT_EVENT 16) := by
  simp only [execZeroingDone, if_neg (not_not_intro zeroing)]

/-- Settles O49: each step of a reset or a reclaim by the lemma of its condition. -/
theorem instancesAndReclaimComplete : Obligations.InstancesAndReclaimComplete := by
  simp only [Obligations.InstancesAndReclaimComplete, exec_instanceResetEnd, exec_prtModeWrite, exec_prtLcInstWrite, exec_reclaimInstant,
    exec_teardown, exec_zeroingDone]
  exact ⟨fun s i resetting drained => ⟨execInstanceResetEnd_dying resetting drained, execInstanceResetEnd_stays resetting drained⟩,
    fun s m changes => ⟨execPrtModeWrite_unlocked changes, execPrtModeWrite_locked changes⟩,
    fun s n t e timed elastic => execPrtLcInstWrite_allowed timed elastic,
    fun s p ticks => ⟨fun notice due => execReclaimInstant_due rfl notice due rfl, execTeardown_ready rfl⟩,
    fun s p zeroing => execZeroingDone_zeroing zeroing⟩

end Sys2Proof.Machine
end

section
/-!
PROOF. Message codes that the management cores carry out for an instance (O50).
-/
namespace Sys2Proof.Machine

section
variable {s : State} {i : Fin 512} (run : s.instState i.val = 1)
include run

theorem State.fromInst_run (f : State → State) : s.fromInst i.val f = f s := if_pos run

/-- R448: an image of a logical core of the instance's partition, read without poison, is registered. -/
theorem execProgReg_clean {d : BitVec 384} {v : Nat} {x : Ctx} {l : List (Nat × Nat)} (payload : v = d.toNat)
    (class_ : x = if bit v 9 then .elastic else .timed) (low : bits v 10 54 = 0) (mid : bits v 112 16 = 0) (high : v < 2 ^ 146)
    (nonempty : bits v 128 18 ≠ 0) (whole : bits v 128 18 % 64 = 0) (room : bits v 128 18 ≤ (pmBytes x).2 - (pmBytes x).1)
    (core : bits v 0 9 < s.grade.lcs) (own : s.lcPart (bits v 0 9) x = some (s.instPart i.val))
    (span : s.mcSpan i.val .read 5 (bits v 64 48) (bits v 128 18) = .ok l) (clean : (s.spanBytes l).2 = false) :
    execProgReg i d s = .next ((s.spanChecked l).progNote (s.instPart i.val) (bits v 0 9) (bit v 9) ((l.head?.map (·.1)).getD 0)
      (bits v 128 18) (s.spanBytes l).1) := by
  subst payload class_
  have defined : ¬ (bits d.toNat 10 54 ≠ 0 ∨ bits d.toNat 112 16 ≠ 0 ∨ d.toNat >>> 146 ≠ 0) := by
    simp [low, mid, Nat.shiftRight_eq_zero _ _ high]
  have inRange : ¬ (bits d.toNat 128 18 % 64 ≠ 0 ∨ (pmBytes (if bit d.toNat 9 then .elastic else .timed)).2
      - (pmBytes (if bit d.toNat 9 then .elastic else .timed)).1 < bits d.toNat 128 18 ∨ s.grade.lcs ≤ bits d.toNat 0 9) := by omega
  simp only [execProgReg, State.fromInst_run run, if_neg defined, if_neg nonempty, if_neg inRange, if_neg (not_not_intro own), span, clean,
    Bool.false_eq_true, if_false]

/-- R184: pages of another card are mapped at a free address, by fabric leaves. -/
theorem execMapRemote_fits {d : BitVec 384} {v lg va : Nat} (payload : v = d.toNat) (page : lg = pageLg (bits v 48 2))
    (free : va = s.freeVa i.val (bits v 64 32 * 2 ^ lg) lg) (low : bits v 0 48 = 0) (mid : bits v 50 14 = 0) (high : v < 2 ^ 163)
    (size : bits v 48 2 ≠ 3) (nonempty : bits v 64 32 ≠ 0) (aligned : bits v 112 48 % 2 ^ lg = 0)
    (room : va + bits v 64 32 * 2 ^ lg ≤ 2 ^ 48) {s1 : State} (mapped : s1 = s.mapPages i.val va lg
      (fun k => fabricLeaf (bits v 112 48 + k * 2 ^ lg) (bits v 96 12) (bits v 108 4) (bit v 160) (bit v 161) (bit v 162)) (bits v 64 32)) :
    execMapRemote i d s = .next
      (({ s1 with
            regions := s1.regions ++ [({ inst := i.val, va := va, size := bits v 64 32 * 2 ^ lg, tier := 4, local_ := false, unit := 0,
                                         base := bits v 112 48, lg := lg } : Region)] } : State).answer stOk 0 [va]) := by
  subst payload page free mapped
  have defined : ¬ (bits d.toNat 0 48 ≠ 0 ∨ bits d.toNat 50 14 ≠ 0 ∨ d.toNat >>> 163 ≠ 0 ∨ bits d.toNat 48 2 = 3) := by
    simp [low, mid, size, Nat.shiftRight_eq_zero _ _ high]
  simp only [execMapRemote, State.fromInst_run run, if_neg defined, if_neg nonempty, if_neg (not_not_intro aligned), if_neg (Nat.not_lt.2 room)]

/-- R288: a peer takes the lowest free entry of the partition. -/
theorem execGrantPeer_free {d : BitVec 384} {j : Nat} (width : d.toNat < 2 ^ 32)
    (free : (List.range 64).find? (fun j => s.fld (FAB_PEER (s.instPart i.val) j) 32 1 == 0) = some j) :
    execGrantPeer i d s = .next ((s.setReg (FAB_PEER (s.instPart i.val) j) (d.toNat + 1 <<< 32)).answer stOk 0 [j]) := by
  have defined : ¬ d.toNat >>> 32 ≠ 0 := not_not_intro (Nat.shiftRight_eq_zero _ _ width)
  simp only [execGrantPeer, State.fromInst_run run, if_neg defined, free]

theorem execRevokePeer_entry {d : BitVec 384} (entry : d.toNat < 64) :
    execRevokePeer i d s = .next ((s.setReg (FAB_PEER (s.instPart i.val) d.toNat) 0).answer stOk) := by
  simp only [execRevokePeer, State.fromInst_run run, if_neg (Nat.not_le.2 entry)]

/-- R413: an instance acknowledges the reclaim of its partition, once. -/
theorem execReclaimAck_first (reclaimed : s.partState (s.instPart i.val) = 4 ∨ s.partState (s.instPart i.val) = 5)
    (first : i.val ∉ (s.partSt (s.instPart i.val)).acks) :
    execReclaimAck i s = .next ((s.setPartSt (s.instPart i.val)
      { s.partSt (s.instPart i.val) with acks := (s.partSt (s.instPart i.val)).acks ++ [i.val] }).answer stOk) := by
  have asked : ¬ (s.partState (s.instPart i.val) ≠ 4 ∧ s.partState (s.instPart i.val) ≠ 5) := by omega
  simp only [execReclaimAck, State.fromInst_run run, if_neg asked, List.contains_iff_mem, if_neg first]

/-- R403: an operator's instance gives a partition command. -/
theorem execPartCmd_operator {d : BitVec 384} {v : Nat} (payload : v = d.toNat) (rng : Bool) (grants : List Grant)
    (operator : s.fld (PRT_INST i.val) 18 1 ≠ 0) (low : bits v 18 14 = 0) (mid : bits v 48 16 = 0) (high : v < 2 ^ 128) :
    execPartCmd i d rng grants s = .next (s.partCommand (bits v 0 4) (bits v 4 4) (bits v 8 9)
      (if bit v 17 then some (bits v 32 16) else none) (bits v 64 64) rng grants) := by
  subst payload
  have defined : ¬ (bits d.toNat 18 14 ≠ 0 ∨ bits d.toNat 48 16 ≠ 0 ∨ d.toNat >>> 128 ≠ 0) := by
    simp [low, mid, Nat.shiftRight_eq_zero _ _ high]
  simp only [execPartCmd, State.fromInst_run run, if_neg operator, if_neg defined]

end

/-- Settles O50: each code of an instance in RUN by the lemma of its payload. -/
theorem messageCodesComplete : Obligations.MessageCodesComplete := by
  intro s i run
  simp only [exec_mbxInstReset, exec_instQuery, exec_progReg, exec_mapRemote, exec_grantPeer, exec_revokePeer, exec_reclaimAck, exec_partCmd]
  exact ⟨congrArg Host.Outcome.next (State.fromInst_run run _), congrArg Host.Outcome.next (State.fromInst_run run _),
    fun d l low mid high nonempty whole room core own span clean =>
      execProgReg_clean run rfl rfl low mid high nonempty whole room core own span clean,
    fun d low mid high size nonempty aligned room s1 mapped => execMapRemote_fits run rfl rfl rfl low mid high size nonempty aligned room mapped,
    fun d j width free => execGrantPeer_free run width free, fun d entry => execRevokePeer_entry run entry, execReclaimAck_first run,
    fun d rng grants operator low mid high => execPartCmd_operator run rfl rng grants operator low mid high⟩

end Sys2Proof.Machine
end

section
/-!
PROOF. Host ports: links, functions, windows and configuration space (O51); accesses to the wrong window (O11).
-/
namespace Sys2Proof.Machine

open Sys2Proof.Safety

/-! ### Links and functions (R408, R416, R501, R522) -/

theorem execHostLinkUp_starts {s : State} {h : Fin 4} {rate : Fin 7} {width : BitVec 5} {flit : Bool}
    (clocked : s.fld CLK_EN_HUB (11 + h.val) 1 ≠ 0) (rated : rate.val ≠ 0) (strapped : bit s.boot.hpEn h.val = true) :
    execHostLinkUp h rate width flit s = .next ((s.setReg (PRT_HPORT_STAT h.val)
      (bits (s.reg (PRT_HPORT_STAT h.val)) 9 11 <<< 9 + 1 + rate.val <<< 1 + width.toNat <<< 4 + (b2n flit) <<< 20)).attach h.val) := by
  simp only [execHostLinkUp, clocked, rated, strapped, Bool.true_eq_false, or_self, if_false]

/-- R408, R501: the reset of a function resets its instance, if that runs, and puts its vectors and its TDI back. -/
theorem execFunctionLevelReset_bound {s s1 s2 : State} {h : Fin 4} {fn : BitVec 10} {i : Nat} (virtual : fn.toNat ≠ 0) (there : fn.toNat ≤ 512)
    (counted : s1 = s.bump (PRT_HPORT_FLR_CNT h.val))
    (bound : (s1.portInsts h.val).find? (fun i => s1.fld (PRT_INST i) 8 10 == fn.toNat) = some i)
    (reset : s2 = if s1.instState i = 1 then s1.instReset i false else s1) :
    execFunctionLevelReset h fn s = .next ((s2.setMsix i {}).setTdi i 0) := by
  subst counted reset
  have named : ¬ (fn.toNat = 0 ∨ 512 < fn.toNat) := by omega
  simp only [execFunctionLevelReset, if_neg named, bound]

/-! ### Windows (R503, R505) -/

section
variable {s : State} {f : FnAt} {i : Nat} (answers : s.fnAnswers f = true) (virtual : f.fn.val ≠ 0) (bound : s.fnInst f = some i)
include answers virtual bound

theorem execBar0Write_bound (off : BitVec 16) (len : BitVec 13) (data : Nat) (rid : BitVec 16) (ide : Option (BitVec 8)) :
    execBar0Write f off len data rid ide s = .next (s.bar0Inst i rid.toNat off.toNat len.toNat data ide) := by
  simp only [execBar0Write, answers, Bool.true_eq_false, if_false, if_neg virtual, bound]

theorem execBar2Read_bound (off : BitVec 17) (len : BitVec 13) (ide : Option (BitVec 8)) (bad : Bool) :
    execBar2Read f off len ide bad s = .next (s.bar2Inst f.port.val i off.toNat len.toNat ide bad) := by
  simp only [execBar2Read, answers, Bool.true_eq_false, if_false, if_neg virtual, bound]

end

section
variable {s : State} {i : Nat} {ide : Option (BitVec 8)} (allowed : s.ideOk i ide = true)
include allowed

/-- R505: a write of the size and alignment of its register takes effect, and an outcome other than OK is recorded. -/
theorem State.bar0Inst_aligned {rid o len : Nat} (v : Nat) (size : len = if winKind o = .push then 64 else 8) (aligned : o % len = 0) :
    s.bar0Inst i rid o len v ide = (s.winWrite i rid o v).winRecord i o (s.attn i) := by
  subst size
  simp only [State.bar0Inst, allowed, aligned, ne_eq, not_true, Bool.true_eq_false, or_self, if_false]

/-- R503: a read of a whole receive window takes the channel's next message. -/
theorem State.bar2Inst_message {h b : Nat} (bad : Bool) (aligned : b % 128 = 0) (above : 0x40 ≤ b / 2) (below : b / 2 < 0x100) :
    s.bar2Inst h i b 128 ide bad = s.mbxHostRead i (b / 2 / 0x40 + 2) bad := by
  have nonempty : ¬ (128 : Nat) = 0 := by decide
  simp only [State.bar2Inst, allowed, Bool.true_eq_false, if_false, if_neg nonempty, above, below, aligned, and_self, if_true]

/-- R503: a read of one slot gives the value of its unit, with the attention of the cycle before. -/
theorem State.bar2Inst_slot {h b : Nat} (bad : Bool) (aligned : b % 16 = 0) (outside : b / 2 < 0x40 ∨ 0x100 ≤ b / 2) :
    s.bar2Inst h i b 16 ide bad = { (s.winRead i (b / 2)).2 with
      reply := { (s.winRead i (b / 2)).2.reply with attn := s.attn i, data := [(s.winRead i (b / 2)).1] } } := by
  have noMessage : ¬ (0x40 ≤ b / 2 ∧ b / 2 < 0x100) := by omega
  have slot : ¬ (b % 16 ≠ 0 ∨ 16 % 16 ≠ 0 ∨ (16 ≠ 16 ∧ !(decide (0x1100 ≤ b / 2) && decide (b / 2 < 0x1300)
      && (b / 2 / 32 == (b / 2 + 16 / 2 - 8) / 32)))) := by
    simp [aligned]
  have nonempty : ¬ (16 : Nat) = 0 := by decide
  simp only [State.bar2Inst, allowed, Bool.true_eq_false, if_false, if_neg nonempty, if_neg noMessage, if_neg slot, Nat.div_self,
    Nat.zero_lt_succ, State.winReadMany]

end

theorem execBadBarAccess_up {s : State} {h : Fin 4} (up : s.fld (PRT_HPORT_STAT h.val) 0 1 ≠ 0) (write : Bool) :
    execBadBarAccess h write s = .next (if write then s.bump (PRT_HPORT_BADACC h.val) else s.badBar h.val) :=
  congrArg Host.Outcome.next (if_neg up)

/-! ### Configuration space (R501, R512, Table 16.10) -/

section
variable {s : State} {f : FnAt} (answers : s.fnAnswers f = true)
include answers

theorem execPcieConfigWrite_vfs {num : BitVec 10} (en : Bool) (physical : f.fn.val = 0) (fits : num.toNat ≤ 512) :
    execPcieConfigWrite f (.vfs en num) s = .next
      (((s.setFld (PRT_HPORT_STAT f.port.val) 9 10 num.toNat).setFld (PRT_HPORT_STAT f.port.val) 19 1 (b2n en)).attach f.port.val) := by
  have taken : ¬ (f.fn.val ≠ 0 ∨ 512 < num.toNat) := by omega
  simp only [execPcieConfigWrite, answers, Bool.true_eq_false, if_false, if_neg taken]

section
variable {i : Nat} (bound : s.fnInst f = some i)
include bound

theorem execPcieConfigWrite_msix (on : Bool) {s1 : State} (set : s1 = s.setMsix i { s.msixOf i with on := on }) :
    execPcieConfigWrite f (.msix on) s = .next ((s1.msixOf i).pend.foldl (fun s v => s.msixSend i v) s1) := by
  subst set
  simp only [execPcieConfigWrite, answers, Bool.true_eq_false, if_false, bound]

theorem execPcieConfigWrite_locked : execPcieConfigWrite f .locked s = .next (s.tdiError i) := by
  simp only [execPcieConfigWrite, answers, Bool.true_eq_false, if_false, bound]

end

end

/-- Settles O51: each access of a host by the lemma of its case. -/
theorem hostCommandsComplete : Obligations.HostCommandsComplete := by
  simp only [Obligations.HostCommandsComplete, exec_hostLinkDown, exec_perst, exec_hostLinkUp, exec_functionLevelReset, exec_bar0Write,
    exec_bar2Read, exec_badBarAccess, exec_pcieConfigWrite]
  refine ⟨fun s h => ⟨rfl, rfl⟩, fun s h rate width flit clocked rated strapped => execHostLinkUp_starts clocked rated strapped,
    fun s h fn i virtual there bound => execFunctionLevelReset_bound virtual there rfl bound rfl,
    fun s f off len data rid ide i answers virtual bound allowed size aligned => ?write,
    fun s f off ide bad i answers virtual bound allowed => ⟨fun aligned above below => ?message, fun aligned outside => ?slot⟩,
    fun s h write up => execBadBarAccess_up up write,
    fun s f answers => ⟨fun en num physical fits => execPcieConfigWrite_vfs answers en physical fits,
      fun i on bound => execPcieConfigWrite_msix answers bound on rfl, fun i bound => execPcieConfigWrite_locked answers bound⟩⟩
  case write => rw [execBar0Write_bound answers virtual bound, State.bar0Inst_aligned allowed _ size aligned]
  case message =>
    rw [execBar2Read_bound answers virtual bound]
    exact congrArg Host.Outcome.next (State.bar2Inst_message allowed bad aligned above below)
  case slot =>
    rw [execBar2Read_bound answers virtual bound]
    exact congrArg Host.Outcome.next (State.bar2Inst_slot allowed bad aligned outside)

/-! ### Accesses to the wrong window (O11) -/

/-- A count of such an access changes its counter's register and nothing else. -/
theorem State.bump_sameBut (s : State) (a : Nat) : SameBut [.regs] s (s.bump a) :=
  ((Keeps.refl s).bump (m := partsMask [.regs]) ⟨rfl⟩).sameBut fun _ hf => mem_of_testBit_partsMask hf

theorem State.badBar_sameBut (s : State) (h : Nat) : SameBut [.regs, .reply] s (s.badBar h) :=
  (((Keeps.refl s).bump (m := partsMask [.regs, .reply]) ⟨rfl⟩).answer ⟨rfl⟩).sameBut fun _ hf => mem_of_testBit_partsMask hf

theorem State.reg_bump_ne (s : State) {a b : Nat} (h : b ≠ a) : (s.bump a).reg b = s.reg b := State.reg_setFld_ne _ _ _ _ h.symm

/-- Settles O11: both accesses count in the port's register; the read answers all ones beside. -/
theorem readsOfBar0AndWritesOfBar2AreCounted : Obligations.ReadsOfBar0AndWritesOfBar2AreCounted := by
  intro s h up
  simp only [exec_badBarAccess]
  exact ⟨⟨s.badBar h.val, execBadBarAccess_up up false, rfl, s.fld_bump_self _, fun _ ne => s.reg_bump_ne ne, s.badBar_sameBut h.val⟩,
    ⟨s.bump _, execBadBarAccess_up up true, s.fld_bump_self _, fun _ ne => s.reg_bump_ne ne, s.bump_sameBut _⟩⟩

end Sys2Proof.Machine
end

section
/-!
PROOF. Reset and start-up: the state after reset (O3), the verification of an image (O10), and the commands of chapter 16 that start the
part (O52).
-/
namespace Sys2Proof.Machine

open Sys2Proof.Safety

/-! ### The state after reset (O3) -/

theorem State.reset_inv : Inv State.reset := ⟨rfl, rfl, by decide⟩

/-- A register that nothing has written holds its reset value. -/
theorem State.reg_of_regs_eq_nil {s : State} (h : s.regs = []) (a : Nat) : s.reg a = regReset a := by rw [State.reg, h]; rfl

/-- The registers that show the fuse block: identity, key slots, svn, and the repairs of the matrix engines. -/
def fuseRegs (f : Fuses) : List Nat := [SEC_UID, LNK_SELF_ID, SEC_FUSE_KEYS, SEC_FUSE_MISC] ++ f.repairs.map (fun r => ME_REPAIR r.1)

theorem State.reg_foldl_setReg_ne {α : Type} {a : Nat} {at_ val : α → Nat} {l : List α} (h : ∀ r ∈ l, a ≠ at_ r) (s : State) :
    (l.foldl (fun (s : State) r => s.setReg (at_ r) (val r)) s).reg a = s.reg a := by
  induction l generalizing s with
  | nil => rfl
  | cons r l ih =>
    rw [List.forall_mem_cons] at h
    rw [List.foldl_cons, ih h.2, State.reg_setReg_ne _ _ h.1.symm]

theorem State.reg_showFuses_ne (s : State) {a : Nat} (h : a ∉ fuseRegs s.fuses) : s.showFuses.reg a = s.reg a := by
  simp only [fuseRegs, List.mem_append, List.mem_cons, List.not_mem_nil, or_false, List.mem_map, not_or, not_exists, not_and,
    eq_comm (a := a)] at h
  obtain ⟨⟨uid, selfId, keys, misc⟩, repairs⟩ := h
  rw [State.showFuses, State.reg_foldl_setReg_ne fun r mem => Ne.symm (repairs r mem), State.reg_setReg_ne _ _ misc,
    State.reg_setReg_ne _ _ keys, State.reg_setReg_ne _ _ selfId, State.reg_setReg_ne _ _ uid]

/-- Showing the fuses changes registers alone. -/
theorem State.showFuses_keeps (s : State) : Keeps (partsMask [.regs]) s s.showFuses := (Keeps.refl s).showFuses ⟨rfl⟩

/-- What the flash loses to a reset that cuts it short leaves the fuses and the grade (R441, R444). -/
theorem State.cutFlash_keeps (s : State) : Keeps (partsMask [.free, .flash, .bank0, .bank1]) s s.cutFlash := (Keeps.refl s).cutFlash ⟨rfl⟩

theorem State.cutFlash_fuses (s : State) : s.cutFlash.fuses = s.fuses := s.cutFlash_keeps.same .fuses rfl

/-- The state that a reset of the part starts from, before it shows the fuses: what is outside the volatile state stays. -/
def State.restarted (s : State) : State :=
  { State.reset with pending := s.pending, free := s.free + 1, lost := memLost s.free, grade := s.grade, failed := s.fuses.failed,
                     repaired := s.repaired, trip := s.trip, fuses := s.fuses, flash := s.flash, bank0 := s.bank0,
                     bank1 := s.bank1, boot := { hpEn := s.boot.hpEn } }

theorem State.chipReset_eq (s : State) : s.chipReset = s.cutFlash.restarted.showFuses := rfl

/-- R9, R522: after a reset no core holds work and no region lives; fuses and grade are as they were. -/
theorem State.chipReset_parts (s : State) :
    s.chipReset.cores = [] ∧ s.chipReset.regions = [] ∧ s.chipReset.fuses = s.fuses ∧ s.chipReset.grade = s.grade := by
  have shows := s.cutFlash.restarted.showFuses_keeps
  rw [State.chipReset_eq]
  exact ⟨shows.same .cores rfl, shows.same .regions rfl, (shows.same .fuses rfl).trans s.cutFlash_fuses,
    (shows.same .grade rfl).trans (s.cutFlash_keeps.same .grade rfl)⟩

/-- R9, R10: after a reset every register holds its reset value but those that show the fuses. -/
theorem State.reg_chipReset (s : State) {a : Nat} (h : a ∉ fuseRegs s.fuses) : s.chipReset.reg a = regReset a := by
  have hidden : a ∉ fuseRegs s.cutFlash.restarted.fuses := by
    rw [show s.cutFlash.restarted.fuses = s.fuses from s.cutFlash_fuses]
    exact h
  rw [State.chipReset_eq, State.reg_showFuses_ne _ hidden, State.reg_of_regs_eq_nil rfl]

/-- Settles O3: reset leaves empty tables, and what RST_N adds to them are the fuses. -/
theorem resetMeetsTheInvariant : Obligations.ResetMeetsTheInvariant := by
  refine ⟨State.reset_inv, fun _ mem => absurd mem List.not_mem_nil, rfl, State.reg_of_regs_eq_nil rfl, fun s => ?_⟩
  obtain ⟨cores, regions, fuses, grade⟩ := s.chipReset_parts
  refine ⟨s.chipReset, exec_rstNAssert s, cores, regions, fuses, grade, fun a shown repairs => s.reg_chipReset ?_⟩
  simp only [fuseRegs, List.mem_append, List.mem_map, not_or, not_exists, not_and]
  exact ⟨shown, fun r mem same => repairs r mem same.symm⟩

/-! ### Verification (R432 to R438, O10) -/

/-- R436: an entry of the signature block passes, or fails at step 2 or 3. -/
theorem State.entryBad_cases (s : State) (k : Nat) (e : Nat × Nat × Nat × Nat) : s.entryBad k e = 0 ∨ s.entryBad k e = 2 ∨ s.entryBad k e = 3 := by
  simp only [State.entryBad]
  split_ifs <;> simp

theorem State.signBad_cases (s : State) (k : Nat) : s.signBad k = 0 ∨ s.signBad k = 2 ∨ s.signBad k = 3 := by
  simp only [State.signBad]
  split
  case h_1 n found =>
    obtain ⟨e, -, rfl⟩ := List.mem_map.1 (List.mem_of_find?_eq_some found)
    exact s.entryBad_cases k e
  case h_2 => split_ifs <;> simp

theorem State.verify_of_headerBad {s : State} {k : Nat} (header : s.headerBad k = true) : s.verify k = 1 := if_pos header

theorem State.verify_of_signBad {s : State} {k : Nat} (header : s.headerBad k = false) (sign : s.signBad k ≠ 0) : s.verify k = s.signBad k := by
  rw [State.verify, if_neg (Bool.eq_false_iff.1 header), if_pos sign]

theorem State.verify_of_lowSvn {s : State} {k : Nat} (header : s.headerBad k = false) (sign : s.signBad k = 0)
    (low : s.imgSvn k < s.fuses.svn) : s.verify k = 4 := by
  rw [State.verify, if_neg (Bool.eq_false_iff.1 header), if_neg (not_not_intro sign), if_pos low]

/-- R432, R437: a slot whose svn is too low fails at one of the first four steps. -/
theorem State.verify_cases_of_lowSvn {s : State} {k : Nat} (low : s.imgSvn k < s.fuses.svn) :
    s.verify k = 1 ∨ s.verify k = 2 ∨ s.verify k = 3 ∨ s.verify k = 4 := by
  cases header : s.headerBad k with
  | true => exact .inl (State.verify_of_headerBad header)
  | false =>
    rcases s.signBad_cases k with passes | step2 | step3
    · exact .inr (.inr (.inr (State.verify_of_lowSvn header passes low)))
    · exact .inr (.inl ((State.verify_of_signBad header (by rw [step2]; decide)).trans step2))
    · exact .inr (.inr (.inl ((State.verify_of_signBad header (by rw [step3]; decide)).trans step3)))

/-- The step at which slot k has failed is noted, and the slot's event set. -/
def State.slotFailed (s : State) (k : Nat) : State := (s.setFld SEC_BOOT_STAT 3 3 (s.verify k)).event SEC_EVENT k

/-- R433: after a failure the other copy is verified, or the confirmed one after a trial; after the second the part enters recovery. -/
def State.nextSlot (s : State) (k : Nat) (trial second : Bool) : State :=
  if second then s.enterRecovery
  else { s with boot := { s.boot with phase := .rom (if trial then s.boot.conf else 1 - k) false true } }

section
variable {s : State} {k : Nat} {trial second : Bool} (rom : s.boot.phase = .rom k trial second)
include rom

theorem execImageVerified_passes (passes : s.verify k = 0) : execImageVerified s = .next (s.bootSlot k trial second) := by
  simp only [execImageVerified, rom, if_pos passes]

theorem execImageVerified_fails (fails : s.verify k ≠ 0) : execImageVerified s = .next ((s.slotFailed k).nextSlot k trial second) := by
  simp only [execImageVerified, rom, if_neg fails]
  rfl

end

theorem State.nextSlot_phase_ne_run (s : State) (k : Nat) (trial second : Bool) : (s.nextSlot k trial second).boot.phase ≠ .run := by
  rw [State.nextSlot]
  split <;> exact BootPhase.noConfusion

theorem State.failStep_slotFailed (s : State) (k : Nat) : (s.slotFailed k).fld SEC_BOOT_STAT 3 3 = s.verify k % 2 ^ 3 := by
  rw [State.slotFailed, State.event, State.fld_setFld_ne _ _ _ _ _ _ (by decide), State.fld_setFld_self _ _ _ _ _ (by decide)]

theorem State.failStep_nextSlot (s : State) (k : Nat) (trial second : Bool) :
    (s.nextSlot k trial second).fld SEC_BOOT_STAT 3 3 = s.fld SEC_BOOT_STAT 3 3 := by
  rw [State.nextSlot]
  split
  · exact State.fld_setFld_other _ _ _ _ _ _ _ (by decide) (by decide)
  · rfl

/-- R437: the slot of an image below the fuse svn is not run, and shows the step at which it failed. -/
theorem execImageVerified_lowSvn {s : State} {k : Nat} {trial second : Bool} (rom : s.boot.phase = .rom k trial second)
    (low : s.imgSvn k < s.fuses.svn) :
    ∃ t, execImageVerified s = .next t ∧ t.boot.phase ≠ .run ∧ t.fld SEC_BOOT_STAT 3 3 = s.verify k := by
  have steps := State.verify_cases_of_lowSvn low
  refine ⟨_, execImageVerified_fails rom (by omega), State.nextSlot_phase_ne_run _ _ _ _, ?_⟩
  rw [State.failStep_nextSlot, State.failStep_slotFailed]
  omega

/-- Settles O10: a low svn fails the slot by step 4, and a later state has no lower svn. -/
theorem anImageBelowTheFuseSvnFails : Obligations.AnImageBelowTheFuseSvnFails := by
  refine ⟨fun s k trial second rom low => ?image, fun c s t next => ?fuse⟩
  case image =>
    obtain ⟨t, next, notRun, step⟩ := execImageVerified_lowSvn rom low
    refine ⟨t, (exec_imageVerified s).trans next, notRun, step ▸ State.verify_cases_of_lowSvn low, fun header sign => ?_⟩
    rw [step, State.verify_of_lowSvn header sign low]
  case fuse =>
    obtain ⟨u, nextU, -, -, later⟩ := exec_next c s
    obtain rfl : u = t := Host.Outcome.next.inj (nextU.symm.trans next)
    exact ⟨later.svn, fun inv => (later.inv inv).svn⟩

/-! ### Reset and start-up (O52) -/

theorem execRstNRelease_held {s : State} {hpEn : BitVec 4} {fuseOk flashOk : Bool} (held : s.boot.phase = .held) :
    execRstNRelease hpEn fuseOk flashOk s =
      .next ({ s with boot := { s.boot with hpEn := hpEn.toNat } }.romStart fuseOk flashOk) := congrArg Host.Outcome.next (if_pos held)

theorem execFatalAutoReset_due {s s1 : State} {ticks : BitVec 64} {fuseOk flashOk : Bool} (now : s1 = s.elapse ticks.toNat)
    (fatal : s1.fld RAS_STATUS 1 1 = 1) (enabled : s1.fld RAS_FATAL_CFG 0 1 = 1)
    (due : s1.fatalAt + s1.fld RAS_FATAL_CFG 1 16 * ticksMs ≤ s1.cnt) :
    execFatalAutoReset ticks fuseOk flashOk s = .next (s1.chipReset.romStart fuseOk flashOk) := by
  subst now
  exact congrArg Host.Outcome.next (if_pos ⟨fatal, enabled, due⟩)

section
variable {s : State} (recovery : s.boot.phase = .recovery)
include recovery

theorem execSecRcvProgram_idle {slot : Fin 2} {unit : BitVec 12} (idle : s.fld SEC_RCV_STAT 0 1 ≠ 1) :
    execSecRcvProgram slot unit s = .next (({ s with boot := { s.boot with
      imgOp := some (.units slot.val unit.toNat 1 s.rcvData none) } }.setFld SEC_RCV_STAT 0 1 1).answer stOk) := by
  simp only [execSecRcvProgram, if_neg (not_not_intro recovery), if_neg idle]

theorem execSecRcvReset_recovery {fuseOk flashOk : Bool} :
    execSecRcvReset fuseOk flashOk s = .next (s.chipReset.romStart fuseOk flashOk) := by
  simp only [execSecRcvReset, if_neg (not_not_intro recovery)]

end

/-- Settles O52: a reset and a training are what the commands say; the other steps by the lemmas of their conditions. -/
theorem resetAndStartUpComplete : Obligations.ResetAndStartUpComplete := by
  simp only [Obligations.ResetAndStartUpComplete, exec_rstNAssert, exec_powerRemoval, exec_rstNRelease, exec_imageVerified,
    exec_fatalAutoReset, exec_secRcvProgram, exec_secRcvReset, exec_hbmSiloTrainingDone]
  exact ⟨fun s => ⟨rfl, rfl⟩, fun s hpEn fuseOk flashOk held => execRstNRelease_held held,
    fun s k trial second rom => ⟨execImageVerified_passes rom, execImageVerified_fails rom⟩,
    fun s ticks fuseOk flashOk fatal enabled due => execFatalAutoReset_due rfl fatal enabled due,
    fun s slot unit recovery idle => execSecRcvProgram_idle recovery idle,
    fun s fuseOk flashOk recovery => execSecRcvReset_recovery recovery, fun s failed => rfl⟩

end Sys2Proof.Machine
end

section
/-!
PROOF. Images, the persistent store, keys, and the lock of the configuration (O53, O54).
-/
namespace Sys2Proof.Machine

open Sys2Proof.Safety

/-! ### Image commands and the store (O53) -/

/-- A payload that names a slot and nothing else has no reserved bit set. -/
theorem slotPayload_reserved {d : BitVec 384} (high : d.toNat < 2) : ¬d.toNat >>> 1 ≠ 0 :=
  not_not_intro (Nat.shiftRight_eq_zero _ _ high)

section
variable {s : State} {i : Fin 512} (runs : ImgRuns s i.val)
include runs

theorem State.imgCommand_runs (code : Nat) (f : State → State) : s.imgCommand i.val code f = f s := by
  rw [State.imgCommand, State.fromInst_run runs.run, if_neg runs.operator, if_neg runs.idle]

/-- R439, code 0x31: the units of the slot that is not booted are read from the instance's memory, without poison, and written. -/
theorem execImgWrite_clean {d : BitVec 384} {v : Nat} {l : List (Nat × Nat)} (payload : v = d.toNat) (low : bits v 1 11 = 0)
    (mid : bits v 24 40 = 0) (top : bits v 112 16 = 0) (high : v < 2 ^ 140) (nonempty : bits v 128 12 ≠ 0)
    (other : bits v 0 1 ≠ s.bootedSlot) (fits : bits v 12 12 + bits v 128 12 ≤ 4096)
    (span : s.mcSpan i.val .read (bits v 128 12 / 16 + 2) (bits v 64 48) (4096 * bits v 128 12) = .ok l)
    (clean : (s.spanBytes l).2 = false) :
    execImgWrite i d s =
      .next ((s.spanChecked l).imgStart i.val (bits v 0 1) (bits v 12 12) (bits v 128 12) (leOf (s.spanBytes l).1)) := by
  subst payload
  have reserved : ¬(bits d.toNat 1 11 ≠ 0 ∨ bits d.toNat 24 40 ≠ 0 ∨ bits d.toNat 112 16 ≠ 0 ∨ d.toNat >>> 140 ≠ 0) := by
    simp [low, mid, top, Nat.shiftRight_eq_zero _ _ high]
  have refused : ¬(bits d.toNat 0 1 = s.bootedSlot ∨ 4096 < bits d.toNat 12 12 + bits d.toNat 128 12) :=
    not_or_intro other (Nat.not_lt.2 fits)
  simp only [execImgWrite, State.imgCommand_runs runs, if_neg reserved, if_neg nonempty, if_neg refused, span, clean]
  rfl

section
variable {d : BitVec 384} (high : d.toNat < 2)
include high

/-- R439, code 0x32: the slot's verification is noted; the reply carries the step at which it fails. -/
theorem execImgCheck_verified :
    execImgCheck i d s =
      (let k := bits d.toNat 0 1
       let n := s.verify k
       let others := s.boot.passed.filter (fun j => j != k)
       let s1 := { s with boot := { s.boot with passed := if n = 0 then others ++ [k] else others } }.setFld SEC_IMG_STAT 9 3 n
       .next (if n = 0 then s1.imgDone stOk else (s1.imgRefuse i.val 0x32).answer stState 0 [n])) := by
  simp only [execImgCheck, State.imgCommand_runs runs, if_neg (slotPayload_reserved high)]

/-- R439, code 0x33: a slot that has passed and is not booted will be started. -/
theorem execImgActivate_passed (other : bits d.toNat 0 1 ≠ s.bootedSlot) (passed : bits d.toNat 0 1 ∈ s.boot.passed) :
    execImgActivate i d s =
      .next ({ s with boot := { s.boot with pend := bits d.toNat 0 1, psDirty := true } }.imgBusy i.val 0x33) := by
  have accepted : ¬(d.toNat >>> 1 ≠ 0 ∨ bits d.toNat 0 1 = s.bootedSlot ∨ s.boot.passed.contains (bits d.toNat 0 1) = false) :=
    not_or_intro (slotPayload_reserved high) (not_or_intro other (by simpa using passed))
  simp only [execImgActivate, State.imgCommand_runs runs, if_neg accepted]

end

/-- R439, code 0x34: the image on trial is confirmed once the store holds it. -/
theorem execImgConfirm_onTrial (trial : s.fld SEC_BOOT_STAT 1 2 = 1) :
    execImgConfirm i s = .next
      ({ s with boot := { s.boot with conf := s.bootedSlot, pend := 0xFF, psDirty := true } }.imgBusy i.val 0x34) := by
  simp only [execImgConfirm, State.imgCommand_runs runs, if_neg (not_not_intro trial)]

/-- R444, code 0x35: a store whose sequence numbers have run out starts again in the other bank. -/
theorem execPsRestart_exhausted {k : Nat} (newest : s.newestBank = some k) (last : (s.bank k).seq = 0xFFFFFFFE)
    (mode : s.fld PRT_MODE 0 2 ≠ 1) (free : s.boot.storeOp = none) :
    execPsRestart i s = .next
      (({ s with boot := { s.boot with storeOp := some (.store (1 - k) 1 s.store false true) } }.imgBusy i.val 0x35).psStat) := by
  simp only [execPsRestart, State.imgCommand_runs runs, newest, if_pos (And.intro last (And.intro mode free))]

end

section
variable {s s1 : State} {ticks : BitVec 64} (now : s1 = s.elapse ticks.toNat) (free : s1.boot.storeOp = none)
  (changed : s1.psPending = true) (due : ∀ t, s1.boot.psAt = some t → t + 1000 * ticksMs ≤ s1.cnt)
include now free changed due

/-- R443: a store that has changed and whose last write began a second ago is written: bank 0 with number 1 where no bank is valid. -/
theorem execPsWrite_first (empty : s1.newestBank = none) : execPsWrite ticks s = .next (s1.psStart 0 1) := by
  subst now
  cases at_ : (s.elapse ticks.toNat).boot.psAt with
  | none => simp only [execPsWrite, free, changed, at_, empty, Option.isSome_none, Bool.false_eq_true, Bool.true_eq_false, or_self,
      if_false]
  | some t => simp only [execPsWrite, free, changed, at_, due t at_, empty, Option.isSome_none, decide_true, Bool.false_eq_true, Bool.true_eq_false, or_self,
      if_false]

/-- R443: otherwise the other bank than the newest, with the next number. -/
theorem execPsWrite_next {k : Nat} (newest : s1.newestBank = some k) (more : (s1.bank k).seq ≠ 0xFFFFFFFE) :
    execPsWrite ticks s = .next (s1.psStart (1 - k) ((s1.bank k).seq + 1)) := by
  subst now
  cases at_ : (s.elapse ticks.toNat).boot.psAt with
  | none => simp only [execPsWrite, free, changed, at_, newest, if_neg more, Option.isSome_none, Bool.false_eq_true, Bool.true_eq_false, or_self,
      if_false]
  | some t => simp only [execPsWrite, free, changed, at_, due t at_, newest, if_neg more, Option.isSome_none, decide_true, Bool.false_eq_true, Bool.true_eq_false, or_self,
      if_false]

end

section
variable {s : State} {ok : Bool}

theorem execFlashProgramDone_store {b q : Nat} {x : Store} {again restart : Bool}
    (op : s.boot.storeOp = some (.store b q x again restart)) :
    execFlashProgramDone true ok s = .next (s.storeDone b q x again restart ok) := by
  simp only [execFlashProgramDone, op, if_true]

theorem execFlashProgramDone_erase {b : Nat} (op : s.boot.storeOp = some (.erase b)) :
    execFlashProgramDone true ok s =
      .next (({ s with boot := { s.boot with storeOp := none } }.setBank b {}).psStat.imgDone stOk) := by
  simp only [execFlashProgramDone, op, if_true]

theorem execFlashProgramDone_image {k u n data i : Nat} (op : s.boot.imgOp = some (.units k u n data (some i))) :
    execFlashProgramDone false ok s =
      .next (({ s with boot := { s.boot with imgOp := none } }.programUnits k u n data).imgDone stOk) := by
  simp only [execFlashProgramDone, op, Bool.false_eq_true, if_false]

theorem execFlashProgramDone_recovery {k u n data : Nat} (op : s.boot.imgOp = some (.units k u n data none)) :
    execFlashProgramDone false true s = .next
      (({ s with boot := { s.boot with imgOp := none } }.programUnits k u n data).setReg SEC_RCV_STAT (stOk <<< 1)) := by
  simp only [execFlashProgramDone, op, Bool.false_eq_true, if_false, if_true]

end

/-- Settles O53: each clause is the case of its command in which every check passes. -/
theorem imageAndStoreCommandsComplete : Obligations.ImageAndStoreCommandsComplete := by
  simp only [Obligations.ImageAndStoreCommandsComplete, exec_imgWrite, exec_imgCheck, exec_imgActivate, exec_imgConfirm, exec_psRestart,
    exec_psWrite, exec_flashProgramDone]
  refine ⟨fun s i runs => ⟨?write, ?check, ?activate, ?confirm, ?restart⟩, ?store, ?flash⟩
  case write =>
    intro d l low mid top high nonempty other fits span clean
    exact execImgWrite_clean runs rfl low mid top high nonempty other fits span clean
  case check => exact fun d high => execImgCheck_verified runs high
  case activate => exact fun d high other passed => execImgActivate_passed runs high other passed
  case confirm => exact execImgConfirm_onTrial runs
  case restart => exact fun k newest last mode free => execPsRestart_exhausted runs newest last mode free
  case store =>
    exact fun s ticks free changed due =>
      ⟨execPsWrite_first rfl free changed due, fun k newest more => execPsWrite_next rfl free changed due newest more⟩
  case flash =>
    exact fun s ok => ⟨fun _ _ _ _ _ op => execFlashProgramDone_store op, fun _ op => execFlashProgramDone_erase op,
      fun _ _ _ _ _ op => execFlashProgramDone_image op, fun _ _ _ _ op => execFlashProgramDone_recovery op⟩

/-! ### Keys and the lock of the configuration (O54) -/

/-- A write of SEC_KEY_CMD with op 1 or 2 (bits 0 and 1) names its key in the bits above them. -/
theorem bits_keyCmd {op id : Nat} (hop : op < 4) (hid : id < 1024) : bits (op + id <<< 2) 2 10 = id := by
  rw [bits_eq, Nat.shiftLeft_eq]
  omega

section
variable {s : State} {id : BitVec 10} (real : id.toNat ≠ 0) (known : id.toNat ≤ 528)
include real known

theorem State.keyCommand_make : s.keyCommand (1 + id.toNat <<< 2) true = (s.keyMake id.toNat).answer stOk := by
  have make : bit (1 + id.toNat <<< 2) 0 = true ∧ bit (1 + id.toNat <<< 2) 1 = false := by
    simp only [bit, Nat.shiftLeft_eq, Nat.shiftRight_eq_div_pow]
    exact ⟨beq_iff_eq.2 (by omega), beq_eq_false_iff_ne.2 (by omega)⟩
  have valid : ¬528 < id.toNat := Nat.not_lt.2 known
  simp [State.keyCommand, bits_keyCmd, id.isLt, make, real, valid]

theorem State.keyCommand_drop : s.keyCommand (2 + id.toNat <<< 2) true = (s.keyDrop id.toNat).answer stOk := by
  have drop : bit (2 + id.toNat <<< 2) 0 = false ∧ bit (2 + id.toNat <<< 2) 1 = true := by
    simp only [bit, Nat.shiftLeft_eq, Nat.shiftRight_eq_div_pow]
    exact ⟨beq_eq_false_iff_ne.2 (by omega), beq_iff_eq.2 (by omega)⟩
  have valid : ¬528 < id.toNat := Nat.not_lt.2 known
  simp [State.keyCommand, bits_keyCmd, id.isLt, drop, real, valid]

end

theorem execKeyGenerate_mc {s : State} {id : BitVec 10} (real : id.toNat ≠ 0) (known : id.toNat ≤ 528) :
    execKeyGenerate .mc id true s = .next ((s.keyMake id.toNat).answer stOk) := by
  rw [execKeyGenerate, State.mcOnly_mc, State.keyCommand_make real known]

theorem execKeyDestroy_mc {s : State} {id : BitVec 10} (real : id.toNat ≠ 0) (known : id.toNat ≤ 528) :
    execKeyDestroy .mc id s = .next ((s.keyDrop id.toNat).answer stOk) := by
  rw [execKeyDestroy, State.mcOnly_mc, State.keyCommand_drop real known]

/-- R516, R448: the lock measures every register with a locked field, as it stands before the lock is set. -/
theorem execSecCfgLock_open {s : State} (open_ : s.locked = false) (whole : s.fld SEC_BOOT_STAT 20 1 ≠ 1) (mode : s.fld PRT_MODE 0 2 = 0) :
    execSecCfgLock .mc true s = .next ((((s.setFld SEC_CFG_LOCK 0 1 1).setMeas 4
      (Config.sha384 (rwlAddrs.flatMap (fun a => natBytes 8 (s.reg a))))).setFld PRT_MODE 0 2 1).answer stOk) := by
  have unlocked : ¬s.locked = true := Bool.eq_false_iff.1 open_
  have accepted : ¬(s.fld SEC_BOOT_STAT 20 1 = 1 ∨ s.fld PRT_MODE 0 2 ≠ 0) := not_or_intro whole (not_not_intro mode)
  simp only [execSecCfgLock, State.mcOnly_mc, State.cfgLock, if_neg unlocked, if_neg accepted]
  rfl

theorem execSecCfgLock_again {s : State} (locked : s.locked = true) : execSecCfgLock .mc true s = .next (s.answer stNop) := by
  simp only [execSecCfgLock, State.mcOnly_mc, State.cfgLock, if_pos locked]
  rfl

/-- Settles O54: a key is made and destroyed; the lock is taken once. -/
theorem keysAndLockComplete : Obligations.KeysAndLockComplete := by
  simp only [Obligations.KeysAndLockComplete, exec_keyGenerate, exec_keyDestroy, exec_secCfgLock]
  exact ⟨fun s id real known => ⟨execKeyGenerate_mc real known, execKeyDestroy_mc real known⟩,
    fun s open_ whole mode => execSecCfgLock_open open_ whole mode, fun s locked => execSecCfgLock_again locked⟩

end Sys2Proof.Machine
end

section
/-!
PROOF. SPDM, sessions, IDE and TDISP (O55, O56).
-/
namespace Sys2Proof.Machine

open Sys2Proof.Safety

/-! ### The order of requests (O55) -/

theorem State.spdmOf_setSpdm_self (s : State) (f : FnAt) (x : Spdm) : (s.setSpdm f x).spdmOf f = x := by
  rw [State.spdmOf, State.setSpdm, Tbl.get_put, if_pos rfl]

section
variable {s : State} {f : FnAt} (answers : s.fnAnswers f = true)
include answers

theorem State.onFn_answers (k : State → Spdm → State) : s.onFn f k = k s (s.spdmOf f) := if_pos answers

theorem execGetVersion_answers : execGetVersion f s = .next ((s.setSpdm f { ver := true }).spdmReply 0x04 [0x1200, 0x1300]) := by
  rw [execGetVersion, State.onFn_answers answers]

theorem execGetCapabilities_version {x : Spdm} (conn : x = s.spdmOf f) {ver : BitVec 8} (begun : x.ver = true)
    (known : ver.toNat = 0x12 ∨ ver.toNat = 0x13) :
    execGetCapabilities f ver s = .next
      ((s.setSpdm f { x with caps := true, algs := false }).spdmReply 0x61 [ver.toNat, Config.spdmBody 0x61 [ver.toNat]]) := by
  subst conn
  have supported : ¬(ver.toNat ≠ 0x12 ∧ ver.toNat ≠ 0x13) := by omega
  simp only [execGetCapabilities, State.onFn_answers answers, begun, Bool.true_eq_false, if_false, if_neg supported]

theorem execNegotiateAlgorithms_caps {x : Spdm} (conn : x = s.spdmOf f) (caps : x.caps = true) :
    execNegotiateAlgorithms f true s =
      .next ((s.setSpdm f { x with algs := true }).spdmReply 0x63 [Config.spdmBody 0x63 []]) := by
  subst conn
  simp only [execNegotiateAlgorithms, State.onFn_answers answers, caps, Bool.true_eq_false, if_false]

section
variable {x : Spdm} (conn : x = s.spdmOf f) (algs : x.algs = true)
include conn algs

theorem State.onAgreed_algs (k : State → Spdm → State) : s.onAgreed f k = k s x := by
  subst conn
  rw [State.onAgreed, State.onFn_answers answers, if_pos algs]

theorem execGetDigests_agreed : execGetDigests f s = .next (s.spdmReply 0x01 [Config.spdmBody 0x01 s.chainKey]) := by
  rw [execGetDigests, State.onAgreed_algs answers conn algs]

theorem execGetCertificate_slot0 (offset len : BitVec 16) :
    execGetCertificate f 0 offset len s =
      .next (s.spdmReply 0x02 [Config.spdmBody 0x02 (s.chainKey ++ [offset.toNat, len.toNat])]) := by
  rw [execGetCertificate, State.onAgreed_algs answers conn algs]
  rfl

theorem execChallenge_slot0 (nonce : BitVec 256) :
    execChallenge f 0 nonce s =
      .next (s.spdmReply 0x03 [Config.aliasSign (s.meas 2) (s.reg SEC_UID) (Config.spdmBody 0x03 [nonce.toNat])]) := by
  rw [execChallenge, State.onAgreed_algs answers conn algs]
  rfl

theorem execGetMeasurements_all (nonce : BitVec 256) :
    execGetMeasurements f 0xFF#8 false nonce s = .next (s.spdmReply 0x60 ((s.fnMeas f).map (·.2))) := by
  rw [execGetMeasurements, State.onAgreed_algs answers conn algs]
  exact congrArg (fun data => Host.Outcome.next (s.spdmReply 0x60 data)) (List.append_nil _)

/-- A session is opened: its identifier ends in the requester's half. -/
theorem execKeyExchange_opens (reqId : BitVec 16) (share : Nat) :
    ∃ t id, execKeyExchange f reqId share s = .next t ∧ id % 65536 = reqId.toNat ∧ (t.spdmOf f).sess = x.sess ++ [(id, false)] := by
  rw [execKeyExchange, State.onAgreed_algs answers conn algs]
  refine ⟨_, _, rfl, ?_, congrArg Spdm.sess (State.spdmOf_setSpdm_self _ f _)⟩
  rw [Nat.add_mul_mod_self_left, Nat.mod_eq_of_lt reqId.isLt]

theorem execChunkSend_inOrder {seq : BitVec 16} (last : Bool) (inOrder : seq.toNat = x.chunkIn.getD 0) :
    execChunkSend f seq last s =
      .next ((s.setSpdm f { x with chunkIn := if last then none else some (seq.toNat + 1) }).spdmReply 0x85 [seq.toNat]) := by
  rw [execChunkSend, State.onAgreed_algs answers conn algs, if_neg (not_not_intro inOrder)]

theorem execChunkGet_inOrder {seq : BitVec 16} (last : Bool) (inOrder : seq.toNat = x.chunkOut.getD 0) :
    execChunkGet f seq last s =
      .next ((s.setSpdm f { x with chunkOut := if last then none else some (seq.toNat + 1) }).spdmReply 0x86
        [seq.toNat, Config.spdmBody 0x86 [seq.toNat]]) := by
  rw [execChunkGet, State.onAgreed_algs answers conn algs, if_neg (not_not_intro inOrder)]

end

end

/-- Settles O55: each request in its order. -/
theorem spdmRequestsComplete : Obligations.SpdmRequestsComplete := by
  simp only [Obligations.SpdmRequestsComplete, exec_getVersion, exec_getCapabilities, exec_negotiateAlgorithms, exec_getDigests,
    exec_getCertificate, exec_challenge, exec_getMeasurements, exec_keyExchange, exec_chunkSend, exec_chunkGet]
  refine fun s f answers => ⟨execGetVersion_answers answers,
    fun ver begun known => execGetCapabilities_version answers rfl begun known,
    fun caps => execNegotiateAlgorithms_caps answers rfl caps, fun algs => ?agreed⟩
  case agreed =>
    exact ⟨execGetDigests_agreed answers rfl algs, execGetCertificate_slot0 answers rfl algs, execChallenge_slot0 answers rfl algs,
      execGetMeasurements_all answers rfl algs, execKeyExchange_opens answers rfl algs,
      fun seq last inOrder => execChunkSend_inOrder answers rfl algs last inOrder,
      fun seq last inOrder => execChunkGet_inOrder answers rfl algs last inOrder⟩

/-! ### Inside a session (O56) -/

section
variable {s : State} {f : FnAt} {sess : BitVec 32}

theorem State.inSession_inSpdm {est : Bool} (inside : InSpdm s f sess.toNat est) (k : State → Spdm → State) :
    s.inSession f sess.toNat est k = k s (s.spdmOf f) := by
  have found : (s.spdmOf f).sess.any (fun p => p.1 == sess.toNat && p.2 == est) = true :=
    List.any_eq_true.2 ⟨_, inside.session, by simp only [beq_self_eq_true, Bool.and_self]⟩
  rw [State.inSession, State.onAgreed_algs inside.answers rfl inside.algs, if_pos found]

theorem execFinish_verified (inside : InSpdm s f sess.toNat false) {x : Spdm} (conn : x = s.spdmOf f) :
    execFinish f sess true s = .next
      ((s.setSpdm f { x with sess := x.sess.map (fun p => if p.1 = sess.toNat then (p.1, true) else p) }).spdmReply 0x65 []) := by
  subst conn
  rw [execFinish, State.inSession_inSpdm inside]
  rfl

section
variable (inside : InSpdm s f sess.toNat true)
include inside

theorem execHeartbeat_inside : execHeartbeat f sess s = .next (s.spdmReply 0x68 []) := by
  rw [execHeartbeat, State.inSession_inSpdm inside]

theorem execEndSession_inside {x : Spdm} (conn : x = s.spdmOf f) :
    execEndSession f sess s =
      .next ((s.setSpdm f { x with sess := x.sess.filter (fun p => p.1 != sess.toNat) }).spdmReply 0x6C []) := by
  subst conn
  rw [execEndSession, State.inSession_inSpdm inside]

theorem execKeyUpdate_known {op : BitVec 8} (some_ : op.toNat ≠ 0) (known : op.toNat ≤ 3) :
    execKeyUpdate f sess op s = .next (s.spdmReply 0x69 [op.toNat]) := by
  rw [execKeyUpdate, State.inSession_inSpdm inside, if_neg (not_or_intro some_ (Nat.not_lt.2 known))]

theorem execVendorDefinedRequest_ideGo {k : BitVec 8} (keyed : s.stream f.port.val k.toNat ≠ 0) :
    execVendorDefinedRequest f sess (.ideGo k) s = .next ((s.setStream f.port.val k.toNat 2).spdmReply 0x7E [k.toNat]) := by
  simp only [execVendorDefinedRequest, State.inSession_inSpdm inside, if_neg keyed]

theorem execVendorDefinedRequest_ideKey (k : BitVec 8) :
    execVendorDefinedRequest f sess (.ideKey k) s = .next (s.keyStream f.port.val k.toNat) := by
  simp only [execVendorDefinedRequest, State.inSession_inSpdm inside]

theorem execVendorDefinedRequest_ideStop (k : BitVec 8) :
    execVendorDefinedRequest f sess (.ideStop k) s = .next ((s.streamLost f.port.val k.toNat).spdmReply 0x7E [k.toNat]) := by
  simp only [execVendorDefinedRequest, State.inSession_inSpdm inside]

theorem execVendorDefinedRequest_report {i : Nat} (bound : s.fnInst f = some i) :
    execVendorDefinedRequest f sess .report s = .next (s.tdiReport i) := by
  simp only [execVendorDefinedRequest, State.inSession_inSpdm inside, bound]

theorem execVendorDefinedRequest_state {i : Nat} (bound : s.fnInst f = some i) :
    execVendorDefinedRequest f sess .state s = .next (s.spdmReply 0x7E [i, s.tdiOf i]) := by
  simp only [execVendorDefinedRequest, State.inSession_inSpdm inside, bound]

section
variable {i : Fin 512} (run : s.instState i.val = 1) (port : s.fld (PRT_INST i.val) 6 2 = f.port.val)
  (fn : f.fn.val = 0 ∨ s.fld (PRT_INST i.val) 8 10 = f.fn.val)
include run port fn

theorem State.onTdi_bound (k : State → State) : s.onTdi f sess.toNat i.val k = k s := by
  have exists_ : s.instState i.val ≠ 0 := run ▸ Nat.one_ne_zero
  rw [State.onTdi, State.inSession_inSpdm inside, if_pos ⟨exists_, port, fn⟩]

theorem execLockInterface_unlocked (stream : BitVec 8) (unlocked : s.tdiOf i.val = 0) :
    execLockInterface f sess i stream s = .next
      ({ s.setTdi i.val 1 with tdiStream := Tbl.put 0x100 s.tdiStream i.val stream.toNat }.spdmReply 0x7E [i.val]) := by
  have accepted : ¬(s.instState i.val ≠ 1 ∨ s.tdiOf i.val ≠ 0) := not_or_intro (not_not_intro run) (not_not_intro unlocked)
  simp only [execLockInterface, State.onTdi_bound inside run port fn, if_neg accepted]

theorem execStartInterface_locked (locked : s.tdiOf i.val = 1)
    (inUse : s.stream f.port.val (Tbl.get 0x100 s.tdiStream i.val) = 2) :
    execStartInterface f sess i s = .next ((s.setTdi i.val 2).spdmReply 0x7E [i.val]) := by
  have accepted : ¬(s.tdiOf i.val ≠ 1 ∨ s.stream f.port.val (Tbl.get 0x100 s.tdiStream i.val) ≠ 2) :=
    not_or_intro (not_not_intro locked) (not_not_intro inUse)
  simp only [execStartInterface, State.onTdi_bound inside run port fn, if_neg accepted]

theorem execStopInterface_bound :
    execStopInterface f sess i s = .next
      ({ s.setTdi i.val 0 with tdiStream := Tbl.put 0x100 s.tdiStream i.val 0x100 }.spdmReply 0x7E [i.val]) := by
  simp only [execStopInterface, State.onTdi_bound inside run port fn]

end

end

end

/-- Settles O56: each request inside a session that is established, or, for FINISH, one that is being opened. -/
theorem sessionsAndInterfacesComplete : Obligations.SessionsAndInterfacesComplete := by
  simp only [Obligations.SessionsAndInterfacesComplete, exec_finish, exec_heartbeat, exec_endSession, exec_keyUpdate,
    exec_vendorDefinedRequest, exec_lockInterface, exec_startInterface, exec_stopInterface]
  refine fun s f sess => ⟨?finish, ?alive, ?end_, ?keys, ?ide, ?queries, ?interface⟩
  case finish => exact fun inside => execFinish_verified inside rfl
  case alive => exact fun inside => execHeartbeat_inside inside
  case end_ => exact fun inside => execEndSession_inside inside rfl
  case keys => exact fun op inside some_ known => execKeyUpdate_known inside some_ known
  case ide =>
    exact fun k inside => ⟨fun keyed => execVendorDefinedRequest_ideGo inside keyed, execVendorDefinedRequest_ideKey inside k,
      execVendorDefinedRequest_ideStop inside k⟩
  case queries =>
    exact fun i inside bound => ⟨execVendorDefinedRequest_report inside bound, execVendorDefinedRequest_state inside bound⟩
  case interface =>
    exact fun i inside run port fn => ⟨fun stream unlocked => execLockInterface_unlocked inside run port fn stream unlocked,
      fun locked inUse => execStartInterface_locked inside run port fn locked inUse, execStopInterface_bound inside run port fn⟩

end Sys2Proof.Machine
end

section
/-!
PROOF. The Crema engine (O57).
-/
namespace Sys2Proof.Machine

/-! ### The engine's queue -/

theorem findIdx?_eq_none {α : Type} {p : α → Bool} {l : List α} (none_ : ∀ x ∈ l, p x = false) : findIdx? p l = none := by
  induction l with
  | nil => rfl
  | cons x l ih =>
    rw [List.forall_mem_cons] at none_
    rw [findIdx?, if_neg (Bool.eq_false_iff.1 none_.1), ih none_.2]
    rfl

theorem findIdx?_append_singleton {α : Type} {p : α → Bool} {l : List α} {x : α} (none_ : ∀ x ∈ l, p x = false) (last : p x = true) :
    findIdx? p (l ++ [x]) = some (l.length, x) := by
  induction l with
  | nil => exact if_pos last
  | cons y l ih =>
    rw [List.forall_mem_cons] at none_
    rw [List.cons_append, findIdx?, if_neg (Bool.eq_false_iff.1 none_.1), ih none_.2]
    rfl

theorem eraseAt_append_singleton {α : Type} (l : List α) (x : α) : eraseAt (l ++ [x]) l.length = l := by
  induction l with
  | nil => rfl
  | cons y l ih => exact congrArg (y :: ·) ih

theorem modify_append_singleton {α : Type} (l : List α) (x : α) (f : α → α) : (l ++ [x]).modify l.length f = l ++ [f x] := by
  induction l with
  | nil => rfl
  | cons y l ih => rw [List.cons_append, List.length_cons, List.modify_succ_cons, ih, List.cons_append]

/-- The state in which a command of instance i waits behind the others. -/
def State.cremaQueued (s : State) (i op v : Nat) : State :=
  { s with cremaJobs := s.cremaJobs ++ [({ inst := i, op := op, pay := v } : CremaJob)] }

/-- An instance without a command at the engine is served with no effect. -/
theorem State.cremaServe_of_none {s : State} {i : Nat} (none_ : ∀ j ∈ s.cremaJobs, j.inst ≠ i) (n : Nat) : s.cremaServe i n = s := by
  cases n with
  | zero => rfl
  | succ n => rw [State.cremaServe, findIdx?_eq_none fun j mem => beq_eq_false_iff_ne.2 (none_ j mem)]

section
variable {s : State} {i : Fin 512} {op v : Nat} (free : ∀ j ∈ s.cremaJobs, j.inst ≠ i.val)
include free

theorem State.cremaServe_queued_find :
    findIdx? (fun (j : CremaJob) => j.inst == i.val) (s.cremaQueued i.val op v).cremaJobs =
      some (s.cremaJobs.length, { inst := i.val, op := op, pay := v }) :=
  findIdx?_append_singleton (fun j mem => beq_eq_false_iff_ne.2 (free j mem)) (beq_self_eq_true _)

variable (run : s.instState i.val = 1)
include run

/-- R461: a command that needs no work of the engine ends at once, and leaves the queue. -/
theorem State.cremaCommand_ends {t : State} (ends : (s.cremaQueued i.val op v).cremaCheck i.val op v = some t)
    (jobs : t.cremaJobs = (s.cremaQueued i.val op v).cremaJobs) :
    s.cremaCommand i.val op v = { t with cremaJobs := s.cremaJobs } := by
  have erased : eraseAt t.cremaJobs s.cremaJobs.length = s.cremaJobs := by rw [jobs]; exact eraseAt_append_singleton _ _
  rw [State.cremaCommand, State.fromInst_run run]
  change (s.cremaQueued i.val op v).cremaServe i.val (s.cremaJobs.length + 1) = _
  simp only [State.cremaServe, State.cremaServe_queued_find free, Bool.false_eq_true, if_false, ends, erased]
  exact State.cremaServe_of_none (s := { t with cremaJobs := s.cremaJobs }) free _

/-- R459, R462: any other begins, with the taint bits of its slot. -/
theorem State.cremaCommand_begins (begins : (s.cremaQueued i.val op v).cremaCheck i.val op v = none) :
    s.cremaCommand i.val op v =
      { s with cremaJobs := s.cremaJobs ++
          [{ inst := i.val, op := op, pay := v, begun := true, taint := (s.cremaSlot i.val (bits v 0 2)).taint }] } := by
  rw [State.cremaCommand, State.fromInst_run run]
  change (s.cremaQueued i.val op v).cremaServe i.val (s.cremaJobs.length + 1) = _
  simp only [State.cremaServe, State.cremaServe_queued_find free, Bool.false_eq_true, if_false, begins]
  exact congrArg (fun jobs => { s with cremaJobs := jobs }) (modify_append_singleton _ _ _)

end

/-! ### The commands (O57) -/

section
variable {s : State} {i op v : Nat} (enabled : s.fld SEC_CREMA_CTRL 0 1 ≠ 0)
include enabled

theorem State.cremaCheck_defined (defined : cremaReserved op v = false) :
    ¬(cremaReserved op v = true ∨ s.fld SEC_CREMA_CTRL 0 1 = 0) := not_or_intro (Bool.eq_false_iff.1 defined) enabled

theorem State.cremaCheck_open (defined : cremaReserved 0x0A v = false) (closed : (s.cremaSlot i (bits v 0 2)).opened = false) :
    s.cremaCheck i 0x0A v = some ((s.setCremaSlot i (bits v 0 2)
      { opened := true, det := bit v 8, mode := bits v 64 64, hash := cremaStart (bit v 8) (bits v 64 64) }).answer stOk) := by
  rw [State.cremaCheck, if_neg (State.cremaCheck_defined enabled defined), if_pos rfl, if_neg (Bool.eq_false_iff.1 closed)]

section
variable (opened : (s.cremaSlot i (bits v 0 2)).opened = true)
include opened

theorem State.cremaCheck_abort (defined : cremaReserved 0x0D v = false) :
    s.cremaCheck i 0x0D v = some (((s.setCremaSlot i (bits v 0 2) {}).bump SEC_CREMA_ABORT_CNT).answer stOk) := by
  rw [State.cremaCheck, if_neg (State.cremaCheck_defined enabled defined), if_neg (by decide), if_pos rfl, if_pos opened]

section
variable (nonempty : bits v 64 64 ≠ 0)
include nonempty

theorem State.cremaCheck_add (defined : cremaReserved 0x0B v = false) (short : bits v 64 64 ≤ 2 ^ 40) :
    s.cremaCheck i 0x0B v = none := by
  rw [State.cremaCheck, if_neg (State.cremaCheck_defined enabled defined), if_neg (by decide), if_neg (by decide), if_neg nonempty,
    if_pos rfl, if_neg (not_or_intro (Nat.not_lt.2 short) (ne_false_of_eq_true opened))]

theorem State.cremaCheck_seal (defined : cremaReserved 0x0C v = false) (legal : sealBad v = false)
    (added : (s.cremaSlot i (bits v 0 2)).nAdd ≠ 0) : s.cremaCheck i 0x0C v = none := by
  rw [State.cremaCheck, if_neg (State.cremaCheck_defined enabled defined), if_neg (by decide), if_neg (by decide), if_neg nonempty,
    if_neg (by decide), if_neg (not_or_intro (Bool.eq_false_iff.1 legal) (not_or_intro (ne_false_of_eq_true opened) added))]

end

end

end

section
variable {s : State} {i : Fin 512} {d : BitVec 384} {v : Nat} (payload : v = d.toNat) (free : ∀ j ∈ s.cremaJobs, j.inst ≠ i.val)
  (run : s.instState i.val = 1) (enabled : s.fld SEC_CREMA_CTRL 0 1 ≠ 0)
include payload free run enabled

/-- R460: a closed slot opens with the start value of its chain. -/
theorem execCremaOpen_closed (defined : cremaReserved 0x0A v = false) (closed : (s.cremaSlot i.val (bits v 0 2)).opened = false) :
    execCremaOpen i d s = .next ((s.setCremaSlot i.val (bits v 0 2)
      { opened := true, det := bit v 8, mode := bits v 64 64, hash := cremaStart (bit v 8) (bits v 64 64) }).answer stOk) := by
  subst payload
  have ends := State.cremaCheck_open (s := s.cremaQueued i.val 0x0A d.toNat) enabled defined closed
  exact congrArg Host.Outcome.next (State.cremaCommand_ends free run ends rfl)

/-- R461: an open slot is aborted, and counted. -/
theorem execCremaAbort_open (defined : cremaReserved 0x0D v = false) (opened : (s.cremaSlot i.val (bits v 0 2)).opened = true) :
    execCremaAbort i d s = .next (((s.setCremaSlot i.val (bits v 0 2) {}).bump SEC_CREMA_ABORT_CNT).answer stOk) := by
  subst payload
  have ends := State.cremaCheck_abort (s := s.cremaQueued i.val 0x0D d.toNat) enabled opened defined
  exact congrArg Host.Outcome.next (State.cremaCommand_ends free run ends rfl)

section
variable (opened : (s.cremaSlot i.val (bits v 0 2)).opened = true) (nonempty : bits v 64 64 ≠ 0)
include opened nonempty

/-- R460: an ADD of an open slot begins. -/
theorem execCremaAdd_open (defined : cremaReserved 0x0B v = false) (short : bits v 64 64 ≤ 2 ^ 40) :
    execCremaAdd i d s = .next { s with cremaJobs := s.cremaJobs ++
      [{ inst := i.val, op := 0x0B, pay := v, begun := true, taint := (s.cremaSlot i.val (bits v 0 2)).taint }] } := by
  subst payload
  have begins := State.cremaCheck_add (s := s.cremaQueued i.val 0x0B d.toNat) enabled opened nonempty defined short
  exact congrArg Host.Outcome.next (State.cremaCommand_begins free run begins)

/-- R461: a SEAL of an open slot that has taken an ADD begins. -/
theorem execCremaSeal_open (defined : cremaReserved 0x0C v = false) (legal : sealBad v = false)
    (added : (s.cremaSlot i.val (bits v 0 2)).nAdd ≠ 0) :
    execCremaSeal i d s = .next { s with cremaJobs := s.cremaJobs ++
      [{ inst := i.val, op := 0x0C, pay := v, begun := true, taint := (s.cremaSlot i.val (bits v 0 2)).taint }] } := by
  subst payload
  have begins := State.cremaCheck_seal (s := s.cremaQueued i.val 0x0C d.toNat) enabled opened nonempty defined legal added
  exact congrArg Host.Outcome.next (State.cremaCommand_begins free run begins)

end

end

/-- R459: the engine ends the command of the instance that has begun, and serves those that wait. -/
theorem execCremaCommandDone_begun {s s1 : State} {i : Fin 512} {p : Nat} {j : CremaJob}
    (begun : findIdx? (fun (j : CremaJob) => j.inst == i.val && j.begun) s.cremaJobs = some (p, j))
    (ended : s1 = if j.op = 0x0B then s.cremaAddEnd i.val j.pay else s.cremaSealEnd i.val j.pay j.taint) :
    execCremaCommandDone i s =
      .next ({ s1 with cremaJobs := eraseAt s1.cremaJobs p }.cremaServe i.val (s1.cremaJobs.length + 1)) := by
  subst ended
  simp only [execCremaCommandDone, begun]

/-- Settles O57: a session's commands, when the engine holds no other of the instance. -/
theorem cremaCommandsComplete : Obligations.CremaCommandsComplete := by
  simp only [Obligations.CremaCommandsComplete, exec_cremaOpen, exec_cremaAdd, exec_cremaSeal, exec_cremaAbort, exec_cremaCommandDone]
  refine fun s i run => ⟨fun d free enabled => ⟨?open_, ?add, ?seal_, ?abort⟩, ?finish⟩
  case open_ => exact fun defined closed => execCremaOpen_closed rfl free run enabled defined closed
  case add => exact fun defined opened nonempty short => execCremaAdd_open rfl free run enabled opened nonempty defined short
  case seal_ =>
    exact fun defined opened added legal nonempty => execCremaSeal_open rfl free run enabled opened nonempty defined legal added
  case abort => exact fun defined opened => execCremaAbort_open rfl free run enabled defined opened
  case finish => exact fun p j begun => execCremaCommandDone_begun begun rfl

end Sys2Proof.Machine
end

section
/-!
PROOF. RAS: escalations, RAS_CMD, the witness, card swaps and fatal errors (O58); what a step does (O1).
-/
namespace Sys2Proof.Machine

open Sys2Proof.Safety

/-! ### Escalations and windows -/

theorem execEscalation_oldest {s s1 : State} {bridges : List (Fin 8 × BitVec 16)} {e : Escal} {rest : List Escal}
    (counted : s1 = bridges.foldl (fun (s : State) (b : Fin 8 × BitVec 16) => s.countErr 22 b.1.val b.2.toNat) s)
    (oldest : s1.escal = e :: rest) : execEscalation bridges s = .next ({ s1 with escal := rest }.escalAct e) := by
  subst counted
  simp only [execEscalation, oldest]

/-- R469: a row with a window returns its counts to 0 when one ends. -/
theorem execThresholdWindowEnd_ends {s : State} {r : Fin 23} {ticks : BitVec 64} {w : Nat}
    (window : w = s.fld (RAS_THR r.val) 32 16 * ticksMin) (counted : r.val ≠ 7) (windowed : r.val < 16 ∨ 19 < r.val)
    (passed : s.cnt / w ≠ (s.elapse ticks.toNat).cnt / w) :
    ∃ t, execThresholdWindowEnd r ticks s = .next t ∧ t.rasWin = s.rasWin.filter (fun p => p.1 / 0x100000000000000 != r.val) ∧
      t.rasBins = s.rasBins.filter (fun p => p.1 / 0x100000000000000 != r.val) ∧ t.cnt = (s.elapse ticks.toNat).cnt ∧
      t.regs = s.regs := by
  subst window
  have ends : ¬(r.val = 7 ∨ (16 ≤ r.val ∧ r.val ≤ 19) ∨ s.cnt / (s.fld (RAS_THR r.val) 32 16 * ticksMin) =
      (s.elapse ticks.toNat).cnt / (s.fld (RAS_THR r.val) 32 16 * ticksMin)) :=
    not_or_intro counted (not_or_intro (by omega) passed)
  exact ⟨_, congrArg Host.Outcome.next (if_neg ends), rfl, rfl, rfl, rfl⟩

/-! ### RAS_CMD -/

/-- The word written to RAS_CMD for an op, a logical number, and a physical core by its die, cluster and place (R485). -/
def rasWord (op lc die cluster core : Nat) : Nat := op + lc <<< 3 + die <<< 12 + cluster <<< 14 + core <<< 18

section
variable {op lc die cluster core : Nat} (hop : op < 8)
include hop

theorem rasWord_op : bits (rasWord op lc die cluster core) 0 3 = op := by
  unfold rasWord
  simp only [bits_eq, Nat.shiftLeft_eq, Nat.reducePow]
  omega

section
variable (hlc : lc < 512)
include hlc

theorem rasWord_lc : bits (rasWord op lc die cluster core) 3 9 = lc := by
  unfold rasWord
  simp only [bits_eq, Nat.shiftLeft_eq, Nat.reducePow]
  omega

variable (hdie : die < 4)
include hdie

theorem rasWord_die : bits (rasWord op lc die cluster core) 12 2 = die := by
  unfold rasWord
  simp only [bits_eq, Nat.shiftLeft_eq, Nat.reducePow]
  omega

variable (hcluster : cluster < 16)
include hcluster

theorem rasWord_cluster : bits (rasWord op lc die cluster core) 14 4 = cluster := by
  unfold rasWord
  simp only [bits_eq, Nat.shiftLeft_eq, Nat.reducePow]
  omega

theorem rasWord_core (hcore : core < 8) : bits (rasWord op lc die cluster core) 18 3 = core := by
  unfold rasWord
  simp only [bits_eq, Nat.shiftLeft_eq, Nat.reducePow]
  omega

end

/-- A command that names a physical core is decoded to it. -/
theorem rasWord_pc (pc : Fin 512) :
    128 * bits (rasWord op 0 (pc.val / 128) (pc.val / 8 % 16) (pc.val % 8)) 12 2
      + 8 * bits (rasWord op 0 (pc.val / 128) (pc.val / 8 % 16) (pc.val % 8)) 14 4
      + bits (rasWord op 0 (pc.val / 128) (pc.val / 8 % 16) (pc.val % 8)) 18 3 = pc.val := by
  have die : pc.val / 128 < 4 := by omega
  have cluster : pc.val / 8 % 16 < 16 := Nat.mod_lt _ (by decide)
  have core : pc.val % 8 < 8 := Nat.mod_lt _ (by decide)
  rw [rasWord_die hop (by decide) die, rasWord_cluster hop (by decide) die cluster, rasWord_core hop (by decide) die cluster core]
  omega

end

theorem State.rasWrite_mc (s : State) (op lc pc : Nat) :
    s.rasWrite .mc op lc pc = s.rasCommand (rasWord op lc (pc / 128) (pc / 8 % 16) (pc % 8)) := State.mcOnly_mc _ _ _

section
variable {s : State} (idle : s.fld RAS_CMD_STATUS 0 1 ≠ 1)
include idle

theorem execRasFence_idle (pc : Fin 512) : execRasFence .mc pc s = .next ((s.fenceCore pc.val 0x4A).rasDone stOk) := by
  simp only [execRasFence, State.rasWrite_mc, State.rasCommand, if_neg idle, rasWord_op (show 1 < 8 by decide),
    rasWord_pc (show 1 < 8 by decide) pc]

theorem execRasRemoveFenceRecord_fenced {pc : Fin 512} (fenced : ∃ r ∈ s.fenceRecs, r.1 = pc.val) :
    execRasRemoveFenceRecord .mc pc s =
      .next ({ s with fenceRecs := s.fenceRecs.filter (fun r => r.1 != pc.val) }.rasDone stOk) := by
  have found : s.fenceRecs.any (fun r => r.1 == pc.val) = true := by simpa using fenced
  simp only [execRasRemoveFenceRecord, State.rasWrite_mc, State.rasCommand, if_neg idle, rasWord_op (show 2 < 8 by decide),
    rasWord_pc (show 2 < 8 by decide) pc, State.dropFence, if_pos found]

/-- R477: the number of a rotation whose timed context waits is named. -/
theorem execRasRotate_waits {lc : BitVec 9} (core : lc.toNat < s.grade.lcs)
    (waits : ∃ r ∈ s.rots, r.lc = lc.toNat ∧ r.timedDone = false) :
    execRasRotate .mc lc s = .next
      ({ s with rots := s.rots.map (fun (r : Rot) => if r.lc = lc.toNat then { r with named := true } else r) }.rasDone stOk) := by
  have found : s.rots.any (fun r => r.lc == lc.toNat && !r.timedDone) = true := by simpa using waits
  simp only [execRasRotate, State.rasWrite_mc, State.rasCommand, if_neg idle, rasWord_op (show 3 < 8 by decide),
    rasWord_lc (show 3 < 8 by decide) lc.isLt, if_neg (Nat.not_le.2 core), State.nameRot, if_pos found]

theorem execRasSoftRowRepair_hbm (hbm : s.tierOf (s.fld RAS_CMD_DETAIL 0 48) = .hbm) :
    execRasSoftRowRepair .mc s = .next
      (({ s with repairs := s.repairs ++ [(hbmRow (s.fld RAS_CMD_DETAIL 0 48), true)] }.setReg RAS_CMD_STATUS 1).answer stOk) := by
  simp only [execRasSoftRowRepair, State.rasWrite_mc, State.rasCommand, if_neg idle, rasWord_op (show 4 < 8 by decide), State.repairCmd, hbm]

end

/-- R471: the oldest repair ends, and its row counts as repaired. -/
theorem execSoftRowRepairDone_oldest {s : State} {r : Nat × Bool} {rest : List (Nat × Bool)} (oldest : s.repairs = r :: rest) :
    ∃ t, execSoftRowRepairDone s = .next t ∧ t.repairs = rest ∧ r.1 ∈ t.repaired := by
  have listed : r.1 ∈ if s.repaired.contains r.1 then s.repaired else s.repaired ++ [r.1] := by
    split
    next already => exact List.contains_iff_mem.1 already
    next => exact List.mem_append_right _ List.mem_cons_self
  cases commanded : r.2 <;> simp only [execSoftRowRepairDone, oldest, commanded, if_true, Bool.false_eq_true, if_false] <;>
    exact ⟨_, rfl, rfl, listed⟩

/-! ### The witness -/

section
variable {s s1 : State} {ticks : BitVec 64} (now : s1 = s.elapse ticks.toNat)
include now

/-- R477: a suspect core goes first. -/
theorem execWitnessRotate_suspect {n : Nat} {rest : List Nat}
    (suspects : s1.inService.filter (fun n => s1.fld (RAS_CORE_HIST (s1.phys n)) 21 1 == 1) = n :: rest) :
    execWitnessRotate ticks s = .next (s1.rotStart n) := by
  subst now
  simp only [execWitnessRotate, suspects]

/-- R477: otherwise, once the period has passed, the core whose last suite is oldest. -/
theorem execWitnessRotate_period {s2 : State} {n : Nat}
    (unsuspected : s1.inService.filter (fun n => s1.fld (RAS_CORE_HIST (s1.phys n)) 21 1 == 1) = [])
    (enabled : s1.fld RAS_WIT_CFG 0 1 ≠ 0) (due : s1.witAt + s1.fld RAS_WIT_CFG 1 8 * 60 * ticksMin / s1.grade.lcs ≤ s1.cnt)
    (noted : s2 = { s1 with witAt := s1.cnt }) (oldest : s2.oldestWitness s2.inService = some n) :
    execWitnessRotate ticks s = .next (s2.rotStart n) := by
  subst now noted
  have rotates : ¬((s.elapse ticks.toNat).fld RAS_WIT_CFG 0 1 = 0 ∨ (s.elapse ticks.toNat).cnt < (s.elapse ticks.toNat).witAt
      + (s.elapse ticks.toNat).fld RAS_WIT_CFG 1 8 * 60 * ticksMin / (s.elapse ticks.toNat).grade.lcs) :=
    not_or_intro enabled (Nat.not_lt.2 due)
  simp only [execWitnessRotate, unsuspected, if_neg rotates, oldest]

end

theorem execRotationHandover_idle {s : State} {lc : Fin 512} {r : Rot}
    (rotates : s.rots.find? (fun r => r.lc == lc.val && !r.elasticDone) = some r) (alone : s.groupHolds lc.val = false)
    (idle : (s.ctx r.fromCore .elastic).busy = false) : execRotationHandover lc s = .next (s.rotElastic lc.val) := by
  simp only [execRotationHandover, rotates, alone, idle, Bool.false_eq_true, or_self, if_false]

/-- R478: a suite without failures clears the core's suspicion and its wait. -/
theorem execWitnessSuiteEnd_clean {s s1 s2 : State} {pc : Fin 512} (due : s.suiteDue pc.val = true)
    (counted : s1 = { s with witRun := s.witRun + 1, witOrder := Tbl.put 0 s.witOrder pc.val (s.witRun + 1) })
    (dated : s2 = (s1.setFld (RAS_CORE_HIST pc.val) 22 30 (s1.cnt >>> 34)).bumpFld RAS_WIT_STAT 10 32 1) :
    execWitnessSuiteEnd pc [] s = .next
      { s2.setFld (RAS_CORE_HIST pc.val) 20 2 0 with testing := s2.testing.filter (fun t => t.1 != pc.val) } := by
  subst counted dated
  exact congrArg Host.Outcome.next (if_neg (ne_false_of_eq_true due))

/-! ### Card swaps -/

section
variable {a b : Nat} (ha : a < 4096) (hb : b < 4096)
include ha

theorem cardSwap_from : bits (a + b <<< 12 + 1 <<< 24) 0 12 = a := by
  simp only [bits_eq, Nat.shiftLeft_eq]
  omega

include hb

theorem cardSwap_to : bits (a + b <<< 12 + 1 <<< 24) 12 12 = b := by
  simp only [bits_eq, Nat.shiftLeft_eq]
  omega

theorem cardSwap_word : bits (a + b <<< 12 + 1 <<< 24) 0 25 = a + b <<< 12 + 1 <<< 24 := by
  simp only [bits_eq, Nat.shiftLeft_eq]
  omega

end

/-- R483: a swap to a card that is reached is armed, unless another entry swaps the same card. -/
theorem execRasCardSwapArm_free {s : State} {k : Fin 16} {a b : BitVec 12} (reached : s.unreachable b.toNat = false)
    (free : ∀ j, j < 16 → j ≠ k.val → s.fld (RAS_CARD_SWAP j) 24 2 = 1 → s.fld (RAS_CARD_SWAP j) 0 12 ≠ a.toNat) :
    execRasCardSwapArm .mc k a b s =
      .next ((s.setReg (RAS_CARD_SWAP k.val) (a.toNat + b.toNat <<< 12 + 1 <<< 24)).answer stOk) := by
  have noOther : (List.range 16).any (fun j => j != k.val && s.fld (RAS_CARD_SWAP j) 24 2 == 1
      && s.fld (RAS_CARD_SWAP j) 0 12 == a.toNat) = false := by
    simpa [and_imp] using free
  simp only [execRasCardSwapArm, State.mcOnly_mc, State.cardSwapWrite, cardSwap_from a.isLt, cardSwap_to a.isLt b.isLt,
    cardSwap_word a.isLt b.isLt, reached, noOther, Bool.false_eq_true, or_self, and_false, if_false]

/-! ### Fatal errors -/

theorem State.errLog_keeps (s : State) (r : LogRec) : Keeps (partsMask [.regs]) s (s.errLog r) := (Keeps.refl s).errLog ⟨rfl⟩

theorem State.errLog_cnt (s : State) (r : LogRec) : (s.errLog r).cnt = s.cnt := (s.errLog_keeps r).same .cnt rfl

theorem State.event_fatalAt (s : State) (a i : Nat) : (s.event a i).fatalAt = s.fatalAt := rfl

theorem State.fld_datedFatal (s : State) (n a lo w : Nat) : ({ s with fatalAt := n } : State).fld a lo w = s.fld a lo w := rfl

/-- R484: the first fatal error since reset is dated, and shows in RAS_STATUS. -/
theorem State.fatalNote_first {s : State} {kind : FatalKind} (first : s.fld RAS_STATUS 1 1 = 0) :
    (s.fatalNote kind).fatalAt = s.cnt ∧ (s.fatalNote kind).fld RAS_STATUS 1 1 = 1 := by
  have isFirst : (s.fld RAS_STATUS 1 1 == 0) = true := beq_iff_eq.2 first
  simp only [State.fatalNote, if_pos isFirst]
  constructor
  · rw [State.event_fatalAt]
    exact State.errLog_cnt _ _
  · rw [State.event, State.fld_setFld_ne _ _ _ _ _ _ (by decide)]
    exact (State.fld_datedFatal _ _ _ _ _).trans (State.fld_setFld_self _ _ _ _ _ (by decide))

theorem execMcWatchdog_aborts (s : State) (mc : Fin 4) :
    execMcWatchdog mc s = .next ((s.mbx.filter (fun m => m.1 % 8 == 0)).foldl
      (fun s m => s.abortChan (m.1 / 8) 0) (s.errLog { level := 4, kind := 0x44, action := 0, res := mc.val })) := by
  have same : (s.errLog { level := 4, kind := 0x44, action := 0, res := mc.val }).mbx = s.mbx := (s.errLog_keeps _).same .mbx rfl
  simp only [execMcWatchdog, same]

/-- Settles O58: each clause is the case of its command in which it acts. -/
theorem rasCommandsComplete : Obligations.RasCommandsComplete := by
  simp only [Obligations.RasCommandsComplete, exec_escalation, exec_thresholdWindowEnd, exec_rasFence, exec_rasRemoveFenceRecord,
    exec_rasRotate, exec_rasSoftRowRepair, exec_softRowRepairDone, exec_witnessRotate, exec_rotationHandover, exec_witnessSuiteEnd,
    exec_rasCardSwapArm, exec_fatalError, exec_mcWatchdog]
  refine ⟨?escalate, ?window, ?fence, ?rotate, ?repair, ?repaired, ?witness, ?handover, ?suite, ?swap, ?fatal, execMcWatchdog_aborts⟩
  case escalate => exact fun s bridges e rest oldest => execEscalation_oldest rfl oldest
  case window => exact fun s r ticks counted windowed passed => execThresholdWindowEnd_ends rfl counted windowed passed
  case fence => exact fun s pc idle => ⟨execRasFence_idle idle pc, fun fenced => execRasRemoveFenceRecord_fenced idle fenced⟩
  case rotate => exact fun s lc idle core waits => execRasRotate_waits idle core waits
  case repair => exact fun s idle hbm => execRasSoftRowRepair_hbm idle hbm
  case repaired => exact fun s r rest oldest => execSoftRowRepairDone_oldest oldest
  case witness =>
    exact fun s ticks => ⟨fun n rest suspects => execWitnessRotate_suspect rfl suspects,
      fun n unsuspected enabled due oldest => execWitnessRotate_period rfl unsuspected enabled due rfl oldest⟩
  case handover => exact fun s lc r rotates alone idle => execRotationHandover_idle rotates alone idle
  case suite => exact fun s pc due => execWitnessSuiteEnd_clean due rfl rfl
  case swap => exact fun s k a b reached free => execRasCardSwapArm_free reached free
  case fatal => exact fun s kind => ⟨rfl, fun first => State.fatalNote_first first⟩

/-! ### A step (O1) -/

/-- A tick changes the time counter alone. -/
theorem State.elapse_sameBut (s : State) (n : Nat) : SameBut [.cnt] s (s.elapse n) :=
  ((Keeps.refl s).elapse (m := partsMask [.cnt]) ⟨rfl⟩).sameBut fun _ hf => mem_of_testBit_partsMask hf

/-- Settles O1: `step` matches on the queue. -/
theorem stepRunsTheFrontCommand : Obligations.StepRunsTheFrontCommand := by
  refine ⟨fun c rest s => rfl, fun s empty => ⟨s.elapse 1, ?ticks, rfl, empty, s.elapse_sameBut 1⟩⟩
  case ticks =>
    unfold step
    rw [empty]

end Sys2Proof.Machine
end
